-- ==== Sys2Proof/Word.lean ====
section
/-! DEFINITION. The word types of the gateway and their plainest arithmetic: 24-bit register words, bytes, the sparse
maps in which State holds whatever the spec numbers by address or index. -/
namespace Sys2Proof

/-- The native word, 24 bits (00_scope.md, reading conventions). -/
abbrev Word := BitVec 24

/-- One byte of a frame, of a key or of a message. -/
abbrev Byte := BitVec 8

/-- A sparse map keyed by a natural number: a list of pairs, keys strictly rising. -/
abbrev NMap (α : Type) := List (Nat × α)

/-- Bits `hi` down to `lo` of `x`, as a number. -/
def bitsOf (x hi lo : Nat) : Nat := x / 2 ^ lo % 2 ^ (hi + 1 - lo)

/-- `x` with its bits `hi` down to `lo` replaced by the low bits of `v`. -/
def setBits (x hi lo v : Nat) : Nat :=
  x / 2 ^ (hi + 1) * 2 ^ (hi + 1) + v % 2 ^ (hi + 1 - lo) * 2 ^ lo + x % 2 ^ lo

/-- 1 for true and 0 for false. -/
def b2n (b : Bool) : Nat := if b then 1 else 0

end Sys2Proof
end

