-- ==== Sys2Proof/Syntax.lean ====
section
/-! DEFINITION. The commands that the gateway takes from outside: one constructor per row of the command table. Every command
carries the moment `t` at which it happens, in units of 5 ns; `req` is the requesting function, device × 2 + 1 for PF1 (R52). -/
namespace Sys2Proof

/-- What a boot meets (R648 to R650): its length in µs, key records and fuse roots that fail their checks, roster entries that
fail theirs, locations (page, row, detail) that fail the boot tests, image banks that cannot be read, identity words that arrive
with bad parity, and what the seedbed gives with a failed check (R555): key records (`keyReads`), the freshness records of
profiles (`settings`), and of the rest of the system area (`store`) 0 the update journal, 1 HUB_OPER_MIN, 2 VERSION_FLOOR, 3 + i
entry i of the fault ledger; and banks whose key word has bad parity at their check (`keyWords`, R498). -/
structure BootMeets where
  us : Nat
  keys : List Nat
  roots : List Nat
  roster : List Nat
  tests : List (Nat × Nat × Nat)
  banks : List Nat
  identity : List Nat
  keyReads : List Nat
  settings : List Nat
  store : List Nat
  keyWords : List Nat
  deriving DecidableEq, Repr

/-- What the drill of a tick meets in the part: the table entries and the store slots that read with bad parity. -/
structure DrillMeets where
  entries : List (Nat × Nat)
  slots : List (Nat × Bool)
  deriving DecidableEq, Repr

/-- Who asks for a command, and the fault of the part that it meets, whose codes its row names; 0 for none. -/
structure Asked where
  req : Nat
  met : Nat
  deriving DecidableEq, Repr

/-- The moment of a row, and what the row meets in the part. -/
structure Moment where
  time : Nat
  met : Nat
  deriving DecidableEq, Repr

/-- A command. -/
inductive Instr where
  /-- A software write of a register slot by the requesting function `req` (R48): each field by its access code and
  effect class; `whole` is whether every byte enable is set (R35). -/
  | registerWrite (t req addr value : Nat) (whole : Bool)
  /-- A write of PAGE_CTRL.RUN (R40, R41). -/
  | pageRun (t req page : Nat)
  /-- A write of PAGE_CTRL.STOP (R40, R41). -/
  | pageStop (t req page : Nat)
  /-- A write of PAGE_CTRL.RESTART (R41, R42). -/
  | pageRestart (t req page : Nat)
  /-- The cell of a page, or the cells that a block common page stops, reach an item boundary (R53, R55). A check-value
  unit has none before its computation ends (R508). -/
  | itemBoundary (t page : Nat)
  /-- MBX_CMD.SNAP of mailbox `n` (R71, R75). -/
  | mbxSnap (t req n : Nat)
  /-- MBX_CMD.SNAPCLR of mailbox `n` (R71, R75). -/
  | mbxSnapclr (t req n : Nat)
  /-- MBX_CMD.COMMIT of mailbox `n` (R72, R75). -/
  | mbxCommit (t req n : Nat)
  /-- A read of data word `k` of mailbox `n` (R73); one that meets BUSY completes with the command (R74). -/
  | mbxDataRead (t req n k : Nat)
  /-- CFG_CTRL.OPEN (R83). -/
  | cfgOpen (t req : Nat)
  /-- CFG_CTRL.CLOSE (R83). -/
  | cfgClose (t req : Nat)
  /-- A pass of the configuration checker completes (R81, R82). -/
  | cfgPassEnd (t : Nat)
  /-- The open configuration window has passed CFG_WINDOW_MAX (R85). -/
  | cfgWindowTimeout (t : Nat)
  /-- The producer of a page's furrow commits an item: the words `data` after those it has written already (R92). -/
  | furrowCommit (t page : Nat) (data : List Nat) (poison : Bool)
  /-- The producer of a page's furrow rewinds its uncommitted words; `wrote` are the words it has written of the item
  (R93, R100). -/
  | furrowRewind (t page : Nat) (wrote : List Nat)
  /-- The consumer of a page's furrow takes a word (R98 to R103); `wrote` are the words that the producer of an open
  item has written, `bad` is a parity failure of the word. -/
  | furrowWordRead (t page : Nat) (wrote : List Nat) (bad : Bool)
  /-- A write of FUR_HWM of a page (R108, R109). -/
  | furHwmWrite (t req page v : Nat)
  /-- A read of FUR_POP of a page (R112 to R114). -/
  | furPop (t req page : Nat)
  /-- The stall guard of a pop expires (R114, R117). -/
  | popGuardExpiry (t req page : Nat)
  /-- The head at the front of an input's head furrow passes its region's pipeline (R28); `bad` lists the entries, by
  table code and index, that the lookup reads with bad parity (R247). -/
  | pipelineItem (t p : Nat) (bad : List (Nat × Nat))
  /-- The verdict at the head of a region's queue is admitted (R126); `r` is 0 to 3, or 4 for port 126. -/
  | admission (t r : Nat)
  /-- A plot arrives at an input that writes plots as they arrive: MAC ports, Ebder ports and host TX rings (R126,
  R127); `first` begins an item. At an Ebder port the first bytes begin with the 12 bytes of the link header. -/
  | plotCharge (t p : Nat) (first : Bool) (bytes : List Byte)
  /-- The last copy of a frame has been read or discarded: its plots are freed (R142). A row that faulted stays out
  until its test ends (R170). -/
  | plotFree (t id : Nat)
  /-- A frame whose copies are all held moves its plots to the held account as the shared pool allows (R142, R166). -/
  | heldAccountMove (t id : Nat)
  /-- The scheduler of an output selects (R150 to R152). -/
  | egressSelect (t o : Nat)
  /-- A head copy of an UP output reaches the age limit of its class (R152). -/
  | copyAgeExpiry (t o : Nat)
  /-- A copy that meets the cut-through conditions starts to leave (R157). -/
  | cutThroughStart (t o : Nat)
  /-- A gate cycle starts on MAC port 104 + `i` (R154). -/
  | gateCycleStart (t i : Nat)
  /-- The interval of the running gate list entry ends (R154). -/
  | gateEntryEnd (t i : Nat)
  /-- An item with a number reaches its resequencer stream (R144, R148): a frame of memory with copies for the outputs
  `outs`. -/
  | reseqItemArrival (t stream num : Nat) (start : Bool) (frame : Nat) (outs : List Nat)
  /-- A void reaches its stream (R145). -/
  | reseqVoid (t stream num : Nat) (start : Bool)
  /-- The gap timer of a stream expires (R146). -/
  | rsqGapExpiry (t stream : Nat)
  /-- RSQ_CMD.RESET on the selected stream (R149). -/
  | rsqReset (t req : Nat)
  /-- An output goes down under a condition of R161 (R162). -/
  | outputDown (t o : Nat)
  /-- HOLD_MS has passed since an output went down (R162). -/
  | holdExpiry (t o : Nat)
  /-- A down output comes back up (R163). -/
  | outputUp (t o : Nat)
  /-- An output has been paused for every queued class for longer than STUCK_MS (R161). -/
  | stuckExpiry (t o : Nat)
  /-- TP_CMD.READ of a table port (R216, R219). -/
  | tpRead (t req page : Nat)
  /-- TP_CMD.WRITE of a table port (R216, R217, R219). -/
  | tpWrite (t req page : Nat)
  /-- TP_CMD.INVAL of a table port (R216, R217, R219). -/
  | tpInval (t req page : Nat)
  /-- TP_CMD.HASH of a table port (R193, R219). -/
  | tpHash (t req page : Nat)
  /-- An entry has been pending for longer than TP_PEND_MAX (R217). -/
  | tablePendingTimeout (t page table i : Nat)
  /-- A region applies the request at the head of its learn input furrow (R223, R224). -/
  | learnApply (t r : Nat)
  /-- The time of the pin in tracker entry `k` of a region ends (R231). -/
  | pinEnd (t r k : Nat)
  /-- LRN_CMD.UNPIN_ALL of a region (R231). -/
  | unpinAll (t req r : Nat)
  /-- LRN_CMD.FLUSH of a region (R236). -/
  | lrnFlush (t req r : Nat)
  /-- The harrow of a region makes its next ageing visit (R232 to R235). -/
  | ageingVisit (t r : Nat)
  /-- Harrow `h` (0 to 3 a region, 4 signal router, 5 security) compares the next entry of its pass (R243 to R246):
  which copies have a word with bad parity, and whether a repair reads back. -/
  | harrowCompare (t h : Nat) (liveBad shadowBad readBack : Bool)
  /-- Harrow `h` judges the entry that a lookup flagged first (R247). -/
  | harrowFlagJudge (t h : Nat) (liveBad shadowBad readBack : Bool)
  /-- SS_CMD.READ (R260, R261); `slots` are the slots read with bad parity, each with whether it passes its test (R262). -/
  | ssRead (t : Nat) (slots : List (Nat × Bool))
  /-- SS_CMD.WRITE (R260, R261). -/
  | ssWrite (t req : Nat)
  /-- The mouldboard unpacks the item at the head of its furrow (R266); `bad` entries and `slots` are read with bad
  parity. -/
  | mbUnpack (t : Nat) (bad : List (Nat × Nat)) (slots : List (Nat × Bool))
  /-- The mouldboard packs the layout at the head of the send queue and admits it from port 126 (R280). -/
  | mbPack (t : Nat) (bad : List (Nat × Nat)) (slots : List (Nat × Bool))
  /-- MB_CMD.SEND (R274). -/
  | mbSend (t req : Nat)
  /-- The next drill tick starts (R283, R284). -/
  | drillTick (t : Nat) (meets : DrillMeets)
  /-- The deadline of RX layout `l` passes (R286). -/
  | deadlineTimeout (t l : Nat) (bad : List (Nat × Nat))
  /-- The tick comes to which TX layout `l` was deferred (R275). -/
  | mdtDeferralEnd (t l : Nat)
  /-- A repetition of a triggered send of TX layout `l` falls due (R276). -/
  | repetitionDue (t l : Nat)
  /-- The phase of periodic TX layout `l` comes due (R284). -/
  | periodicSend (t l : Nat)
  /-- The mouldboard packs the layout that a slot of LIN channel `m` pulls, or refuses (R277, R372). -/
  | linPull (t m : Nat) (bad : List (Nat × Nat)) (slots : List (Nat × Bool))
  /-- A software write of CAN_MODE (R329). -/
  | canModeWrite (t req n v : Nat)
  /-- A channel sees 11 consecutive recessive bits (R330, R351). -/
  | busIntegration (t n : Nat)
  /-- A frame of another node becomes valid on a channel (R337): its header bits, identifier and data. -/
  | canFrameReceived (t n : Nat) (ide fdf brs rtr esi : Bool) (ident : Nat) (data : List Byte)
  /-- An error is detected while receiving (R331, R360): `code` is that of LEC, `ones` and `eights` say what the rules
  of ISO 11898-1 add to REC. -/
  | canRxError (t n code : Nat) (dataPhase : Bool) (ones eights : Nat)
  /-- OBJ_CMD.REQ on object `i` of a channel (R341). -/
  | objReq (t n i : Nat)
  /-- OBJ_CMD.CANCEL on object `i` of a channel (R348). -/
  | objCancel (t n i : Nat)
  /-- A write of 1 to OBJ_CMD.NEW of object `i` (R339). -/
  | objNewReturn (t n i : Nat)
  /-- The copy selected for a channel is written into its lowest free router-fed object (R344). -/
  | canRouterFill (t n : Nat)
  /-- A selection instant of a channel (R345). -/
  | canTxSelection (t n : Nat)
  /-- The object on the bus loses arbitration (R346). -/
  | canArbLoss (t n : Nat)
  /-- The attempt of the object on the bus ends in an error (R331, R347): `exempt` where ISO 11898-1 adds nothing,
  `domSeen` for a dominant bit after an ACK error, `eights` further additions of 8; `delay` is the loop delay measured
  (R335). -/
  | canTxError (t n code : Nat) (dataPhase exempt domSeen : Bool) (eights : Nat) (delay : Option Nat)
  /-- The frame of the object on the bus is sent (R341); `delay` is the loop delay measured (R335). -/
  | canTxDone (t n : Nat) (delay : Option Nat)
  /-- The 128th occurrence of 11 recessive bits ends the recovery of a channel (R351). -/
  | busOffRecovered (t n : Nat)
  /-- A transceiver's status word reports the conditions that hold (R356, R381). -/
  | trxStatusReport (t p : Nat) (txdDom busDom overtemp vccLow : Bool)
  /-- A mode command word leaves for a transceiver (R13); `bad` and `bad2` are parity failures of the word and of its
  resend. -/
  | transceiverModeCommand (t p : Nat) (bad bad2 : Bool)
  /-- A heartbeat word leaves for both transceiver dies (R13, R646). -/
  | heartbeatWord (t : Nat)
  /-- The next schedule slot of a commander starts, or waits (R376 to R379). -/
  | linSlotStart (t m : Nat)
  /-- A responder receives a header (R366, R369): the bit time measured in its sync, in units of 25 ns, and the
  PID, none where a stop bit of its sync or PID reads dominant (R380). -/
  | linHeaderReceived (t m measured : Nat) (pid : Option Nat)
  /-- The response of the frame in flight ends (R370): its bytes, and 1 for a bit error, 2 for a framing error, else 0. -/
  | linResponseReceived (t m : Nat) (bytes : List Byte) (err : Nat)
  /-- A frame is not complete by 1.4 times its nominal length (R380); `someByte` is whether a response byte came. -/
  | linResponseTimeout (t m : Nat) (someByte : Bool)
  /-- The copy selected for a LIN channel is written into its buffer, or discarded (R373). -/
  | linRoutedFill (t m : Nat)
  /-- Software writes READY = 1 of buffer `i` (R374). -/
  | linBufReadySet (t req m i : Nat)
  /-- LIN_SCHED_CMD.SWITCH (R378). -/
  | linSchedSwitch (t req m : Nat)
  /-- A channel commanded to wake its bus sends a wake pulse (R384). -/
  | linWakePulse (t m : Nat)
  /-- A wake wait of a channel ends (R384). -/
  | linWakeWaitExpiry (t m : Nat)
  /-- A channel has seen no bus edge for LIN_IDLE.MS (R385). -/
  | linIdle (t m : Nat)
  /-- The link condition of a MAC port lapses (R392). -/
  | linkDown (t p : Nat)
  /-- The link condition of a MAC port has held for `held` ticks, with the speed code and duplex reported in-band (R391,
  R392). -/
  | linkUp (t p speed : Nat) (half : Bool) (held : Nat)
  /-- A received frame ends (R397): its bytes not yet in plots, without the FCS, `first` when they begin it; its length
  with the FCS; how many cycles of 5 ns ago its first bit came; whether it ended in an abort, a code error or a bad FCS. -/
  | ethFrameReceived (t p : Nat) (first : Bool) (rest : List Byte) (len since : Nat) (abort code fcs : Bool)
  /-- A MAC control frame is received (R396, R406). -/
  | macControlFrame (t p : Nat) (bytes : List Byte)
  /-- The pause time of a class ends (R406). -/
  | pauseTimerExpiry (t p c : Nat)
  /-- A transmit MAC ends a frame (R400, R402); `failed` for an underrun, when `left` bytes of it have left. -/
  | ethFrameSent (t p left : Nat) (failed : Bool)
  /-- QUANTA × 256 bit times have passed while XOFF holds (R404). -/
  | pauseRefresh (t p : Nat)
  /-- A half-duplex frame meets a collision (R408); `late` after its first 512 bits. -/
  | collision (t p : Nat) (late : Bool)
  /-- A back-off ends (R408). -/
  | backoffExpiry (t p : Nat)
  /-- A carrier starts on a CSMA/CD T1S segment (R410). -/
  | t1sForcedJam (t p : Nat)
  /-- A PLCA transmit opportunity of the node begins, or its timer ends (R409). -/
  | plcaTransmitOpportunity (t p : Nat) (begins : Bool)
  /-- TIME_CMD.STEP (R412). -/
  | timeStep (t req : Nat)
  /-- An armed detector reports bus activity on its channel (R437). -/
  | wakeEvent (t p : Nat)
  /-- An edge of WAKE_IN pin `k`, and for how long the new level held (R438). -/
  | wakeInEdge (t k : Nat) (rising : Bool) (heldUs : Nat)
  /-- CL_CMD.REQUEST of a cluster (R433). -/
  | clRequest (t req c : Nat)
  /-- CL_CMD.RELEASE of a cluster (R433). -/
  | clRelease (t req c : Nat)
  /-- REPEAT has elapsed in REPEAT_MESSAGE (R430). -/
  | repeatExpiry (t c : Nat)
  /-- The NM timer of a cluster expires (R430). -/
  | nmTimerExpiry (t c : Nat)
  /-- CYCLE has elapsed (R432). -/
  | nmCycle (t c : Nat)
  /-- WAIT has elapsed in PREPARE_SLEEP (R441). -/
  | waitExpiry (t c : Nat)
  /-- Every detector of a cluster has confirmed that it is armed (R441). -/
  | sleepCommit (t c : Nat)
  /-- The false-wake window of a channel ends (R443, R444). -/
  | falseWakeWindowExpiry (t p : Nat)
  /-- A 3,600 s period of the false-wake counts ends (R444). -/
  | fwHourPeriod (t : Nat)
  /-- The source of ledger entry `i` has held its cluster for KA_LIMIT seconds (R447). -/
  | keepawakeFlag (t i : Nat)
  /-- Supervisor `d` has missed the heartbeat for 4 ms (R450). -/
  | heartbeatLapse (t d : Nat)
  /-- One second has passed since a heartbeat lapse (R450). -/
  | powerVoteWithdraw (t d : Nat)
  /-- The park conditions of a region have held for 10 ms (R451). -/
  | regionPark (t r : Nat)
  /-- A region unparks (R453). -/
  | regionUnpark (t r : Nat)
  /-- The dispatcher gives the next waiting item to a lane (R463). -/
  | laneDispatch (t : Nat)
  /-- Lane `i` secures the PDU at its front (R470); `ev` is a fault met: 1 lane parity, 2 key parity, 3 freshness state,
  4 profile entry, else 0. -/
  | secocGenerate (t i ev : Nat)
  /-- Lane `i` verifies the PDU at its front (R471); `ev` as for SECOC_GENERATE. -/
  | secocVerify (t i ev : Nat)
  /-- Lane `i` protects the frame at its front (R477); `ev` is a fault met: 1 lane parity, 2 key parity, 4 the SecY's
  entry, 5 the association's, else 0. -/
  | macsecProtect (t i ev : Nat)
  /-- Lane `i` handles the received frame at its front (R478); `ev` as for MACSEC_PROTECT, and 6 the channel's
  entry. -/
  | macsecReceive (t i ev : Nat)
  /-- The known-answer test of a lane ends (R460). -/
  | laneSelftestDone (t i : Nat) (pass : Bool)
  /-- A health test of the entropy source fails (R483) on the 1,024 raw bits `bits`, the first of them bit 0. -/
  | entropyHealthFail (t bits : Nat)
  /-- The startup test of the entropy source completes (R483), having seen the 1,024 raw bits that it meets. -/
  | entropyStartupDone (at_ : Moment)
  /-- DRBG_CMD.RESEED (R484). -/
  | drbgReseed (t req : Nat)
  /-- A read of DRBG_OUT (R485). -/
  | drbgOutRead (t req : Nat)
  /-- LC_CMD.GO (R488); `burnOk` is whether the fuse programming reads back. -/
  | lcGo (t req : Nat) (burnOk : Bool)
  /-- KEY_CMD.GENERATE (R492). -/
  | keyGenerate (t req : Nat)
  /-- KEY_CMD.DERIVE (R492, R493); 1 where the source key is read with bad parity (R498). -/
  | keyDerive (t : Nat) (by_ : Asked)
  /-- KEY_CMD.ERASE (R492). -/
  | keyErase (t req : Nat)
  /-- KEY_CMD.INFO (R492). -/
  | keyInfo (t req : Nat)
  /-- CV_CMD.START of check-value unit `u` (R511 to R513). -/
  | cvStart (t req u : Nat)
  /-- CV_CMD.ABORT of check-value unit `u` (R516). -/
  | cvAbort (t req u : Nat)
  /-- A write of CV_DATA of check-value unit `u` (R514, R515). -/
  | cvDataWrite (t req u v : Nat)
  /-- A counted fault of class `code` at a page and row (R537); `failed` is whether its retry, scrub or test failed. -/
  | countedFault (t page row code detail : Nat) (failed : Bool)
  /-- The deferred test of a faulted location ends (R537). -/
  | rowTestEnd (t page row : Nat) (pass : Bool)
  /-- HUB_CMD.RECLAIM (R541). -/
  | hubReclaim (t req : Nat)
  /-- Sixty seconds have passed in ACTIVE or PARTIAL (R538). -/
  | operMinute (t : Nat)
  /-- A handshake of a page has been pending for more than 1 ms (R542, R543). -/
  | handshakeStall (t page : Nat)
  /-- A 10 µs pace window of a region, or 4 for the chip, ends with a reading (R546). -/
  | paceWindow (t i v : Nat)
  /-- A monitor whose source is sampled by periods takes its sample (R548, R549); its page by the domain, block and
  page numbers of its address (R34). -/
  | monitorSample (t dom blk pg : Nat)
  /-- MON_CMD.SNAP, with CLEAR (R550). -/
  | monSnap (t req page : Nat) (clear : Bool)
  /-- A write of MON_SRC or MON_CTRL (R550). -/
  | monConfigWrite (t req page : Nat) (ctrl : Bool) (v : Nat)
  /-- An update block at offset 0 arrives (R560); `bad` is 1 when it is poisoned, 2 when its seedbed read-back fails (R555), 3
  when the key word that its check needs has bad parity (R498). -/
  | updateHeaderBlock (t : Nat) (data : List Byte) (bad : Nat)
  /-- An update body block arrives (R561); `bad` as for a header. -/
  | updateBodyBlock (t offset : Nat) (data : List Byte) (bad : Nat)
  /-- UPD_CMD.VERIFY (R564); 1 when the key word of its tag has bad parity (R498). -/
  | updVerify (t : Nat) (by_ : Asked)
  /-- UPD_CMD.ACTIVATE (R566, R567); `fault` is 1 or 2 for a seedbed fault of a setting or of the image at step 2 of the turn, 7
  for one at step 7 (R570). -/
  | updActivate (t req : Nat) (force : Bool) (fault : Nat)
  /-- UPD_CMD.CONFIRM (R574). -/
  | updConfirm (t req : Nat)
  /-- UPD_CMD.REJECT (R575); 2 or 7 for a seedbed fault at that step of its turn. -/
  | updReject (t : Nat) (by_ : Asked)
  /-- The trial timer is at 0 (R575); it may meet what a REJECT may. -/
  | trialTimerExpiry (at_ : Moment)
  /-- A minute of operating time passes during TRIAL (R573). -/
  | trialMinute (t : Nat)
  /-- UPD_CMD.ABANDON (R562). -/
  | updAbandon (t req : Nat)
  /-- UPD_CMD.EPOCH (R579). -/
  | updEpoch (t req : Nat)
  /-- SET_CMD.READ (R581); 1 when the seedbed read fails (R555). -/
  | setRead (t : Nat) (by_ : Asked)
  /-- SET_CMD.WRITE (R581); `full` is whether the slot has no room for the record. -/
  | setWrite (t req : Nat) (full : Bool)
  /-- SET_CMD.DELETE (R581). -/
  | setDelete (t req : Nat)
  /-- A software write of TAIL of a TX or RX ring (R593). -/
  | tailWrite (t req : Nat) (tx : Bool) (n v : Nat)
  /-- TX ring `n` handles a descriptor (R596): its FORM, TS_REQ and TAG, the bytes of its buffer, a completion error,
  and what is wrong with an update block, as for a header. -/
  | htxDescriptor (t n form : Nat) (tsReq : Bool) (tag : Nat) (bytes : List Byte) (cplErr : Bool) (bad : Nat)
  /-- A packet's buffer read of TX ring `n` outlasts HOSTQ_STALL (R599). -/
  | hostqStallExpiry (t n : Nat)
  /-- A completion of a stalled packet of TX ring `n` arrives (R599). -/
  | lateCompletion (t n : Nat)
  /-- RX ring `n` delivers the copy in flight into a buffer of `bufLen` bytes at host address `addr` (R600 to R602). -/
  | hrxDeliver (t n addr bufLen : Nat)
  /-- The hold-off of RX ring `n` ends (R604). -/
  | msixHoldoffEnd (t n : Nat)
  /-- The lanes of link `k` have locked and the peer's ID has come (R606, R607). -/
  | ebderLinkTrained (t k peer : Nat)
  /-- A link with an ID clash tries training again (R607). -/
  | idClashRetry (t k peer : Nat)
  /-- The bytes of a frame arrive over link `k` (R609). -/
  | ebderFrameReceived (t k : Nat) (bytes : List Byte)
  /-- An ACK arrives (R610): every frame before `num` is covered. -/
  | ebderAck (t k num : Nat)
  /-- A NAK arrives (R610): resend from `num` on. -/
  | ebderNak (t k num : Nat)
  /-- A CREDIT frame arrives (R614): pool 0 LOCAL, 1 RELAY, 2 SERVICE. -/
  | ebderCredit (t k pool cls limit : Nat)
  /-- 20 µs have passed without an ACK or NAK (R610). -/
  | replayTimeout (t k : Nat)
  /-- A frame has not been acknowledged for 2 ms (R612); `lanesGood` is the outcome of the loopback test. -/
  | linkRetrain (t k : Nat) (lanesGood : Bool)
  /-- The oldest relayed data frame of link `k` has waited RT_RELAY.MAX_US (R616). -/
  | relayWaitExpiry (t k : Nat)
  /-- A function of this device's host accesses a register of device `dev` (R36, R608). -/
  | remoteAccess (t pf dev : Nat) (write : Bool) (addr data : Nat) (whole : Bool)
  /-- A REG_REQ of device `src` arrives (R608). -/
  | regReqReceived (t src pf tag : Nat) (write : Bool) (addr data : Nat)
  /-- A REG_RSP of device `src` arrives (R608). -/
  | regRspReceived (t src tag status data : Nat)
  /-- No response has come within POP_GUARD.US + 150 µs (R619). -/
  | remoteAccessTimeout (t tag : Nat)
  /-- An INT frame of device `src` arrives (R621). -/
  | intFrameReceived (t src : Nat)
  /-- A grant (R622): a pulse of LEASE_IN with the times it was low before and stayed high, or a write of
  PAIR_CMD.GRANT. -/
  | leaseGrant (t : Nat) (pin : Bool) (lowNs highNs req : Nat)
  /-- The lease ends (R623). -/
  | leaseExpiry (t : Nat)
  /-- The guard time has elapsed (R625). -/
  | guardExpiry (t : Nat)
  /-- PAIR_CMD.HANDOVER (R627). -/
  | pairHandover (t req : Nat)
  /-- A PAIR frame falls due (R628). -/
  | pairFrameSend (t : Nat)
  /-- A PAIR frame of the peer arrives (R628): its STATE, PRIMARY, LEASE_MS and ID. -/
  | pairFrameReceived (t state : Nat) (primary : Bool) (lease peer : Nat)
  /-- No PAIR frame has come for 1 ms (R628). -/
  | contactTimeout (t : Nat)
  /-- A primary has met the conditions of RECLAIM for PAIR_RECLAIM.MS (R630). -/
  | reclaimHoldExpiry (t : Nat)
  /-- A RECLAIM of the peer arrives (R630). -/
  | reclaimReceived (t : Nat)
  /-- A mirrored item arrives (R631): 0 a slot, 1 a freshness value, 2 a cluster state, 3 the tick count, 4 the end of
  the items sent after training. -/
  | mirrorReceived (t what i v flag : Nat)
  /-- LEASE_OUT falls due to toggle (R629). -/
  | leaseOutToggle (t : Nat)
  /-- VBAT rises above VBAT_POR (R644). -/
  | vbatPowerOn (t : Nat)
  /-- VBAT falls below VBAT_POR (R643). -/
  | vbatPowerOff (t : Nat)
  /-- Every core supply becomes good (R648); `boot` is what the boot sequence meets. -/
  | coreSupplyGood (t : Nat) (boot : BootMeets)
  /-- No heartbeat has come 100 ms after POWER_REQ (R647). -/
  | pgoodTimeout (t d : Nat)
  /-- One second has passed since a PGOOD failure (R647). -/
  | voteRetry (t d : Nat)
  /-- PWR_CMD.WARM (R653). -/
  | pwrWarm (t req : Nat) (boot : BootMeets)
  /-- PWR_CMD.STANDBY, with FORCE (R655). -/
  | pwrStandby (t req : Nat) (force : Bool)
  /-- The conditions of an automatic entry have held for STBY_DELAY_MS (R655). -/
  | autoStandbyExpiry (t : Nat)
  /-- Every page has stopped at its boundary (R655). -/
  | standbyPagesStopped (t : Nat)
  /-- 50 ms have passed since the goodbye word (R656). -/
  | standbyHoldExpiry (t : Nat) (boot : BootMeets)
  /-- Core supply `supply` leaves its range (R654). -/
  | brownOut (t supply : Nat)
  /-- REFCLK stops, or departs by more than 1,000 ppm (R677). -/
  | refclkLoss (t : Nat)
  /-- PERST_N goes low (R654). -/
  | perstAssert (t : Nat)
  /-- The regulator removes the core supply (R655). -/
  | coreSupplyRemoved (t : Nat)
  /-- PERST_N returns high (R654). -/
  | perstRelease (t : Nat)
  /-- The PCIe link trains (R590). -/
  | pcieLinkUp (t : Nat)
  /-- The PCIe link goes down (R621). -/
  | pcieLinkDown (t : Nat)
  /-- REFCLK returns within tolerance (R677). -/
  | refclkRestored (t : Nat) (boot : BootMeets)
  /-- The check value and record of each committed key are made (R491). -/
  | keySaveDone (t : Nat)
  /-- One second has passed since the last chip-level stall record (R629). -/
  | healthyRestored (t : Nat)
  /-- The NM PDUs of the other sources of a cluster have grown older than NM_TIMEOUT (R447). -/
  | nmSourceHolding (t c : Nat)
  /-- A change of speed or duplex is reported in-band (R393). -/
  | speedDuplexChange (t p speed : Nat) (half : Bool)
  deriving DecidableEq, Repr

end Sys2Proof
end

