-- ==== Sys2Proof/Config.lean ====
section
/-! DEFINITION. What the spec leaves open or leaves to the die: opaque constants without a body, so that no proof can see
a value (notes/assumptions/2.md). -/
namespace Sys2Proof

/-- A value the spec leaves open, drawn at the counter `State.freeCtr`: a starting point of a rotation (R17), an order
that no rule fixes (R16), a row among equals. -/
opaque Config.freeNat : Nat → Nat

/-- Raw bits of the entropy source, and bytes and words that the spec leaves open (R482, R483), drawn at the counter
`State.freeCtr`. -/
opaque Config.freeByte : Nat → BitVec 8

/-- The bits of a CAN frame at the nominal and at the data bit rate, stuff bits included, by IDE, FDF, BRS, RTR, ESI, identifier
and data: ISO 11898-1 counts them, which the spec does not restate (R544; notes/assumptions/128.md). -/
opaque Config.canNominal : List Nat → Nat
opaque Config.canData : List Nat → Nat

/-- The fixed internal key under which the entropy source conditions its raw bits, 256 bits (R483). -/
opaque Config.conditionKey : Nat

/-- The guaranteed item rate of a page, in items per ms, by page kind: what LOAD is a fraction of (R544). -/
opaque Config.itemRate : Nat → Nat

end Sys2Proof
end

