-- ==== Sys2Proof/Machine/RegTable.lean ====
section
/-! DEFINITION. The register-field catalogue: one row for each field of each register table of the spec, by page kind
(R38 to R40, R45, R64, R68, R69, R87, R108, R112, R117, R138, R149, R168, R172, R183, R188, R209, R210, R215, R255,
R294 to R296, R340, R360, R361, R387, R422, R423, R454, R455, R501 to R505, R519, R521, R536, R545, R551, R552, R588,
R636 to R640, R658, R659 and R4). A row gives the slot (base, stride and count; a second stride and count for arrays of
arrays), the bits, the access code, the effect class and the reset value. A reset that the spec gives as image, fuse,
bond, strap or seedbed stands here as 0: notes/assumptions/3.md. -/
namespace Sys2Proof.Machine

/-- The access codes of the reading conventions (00_scope.md), and `mbx` for the anchor slot of a wide value (R69). -/
inductive Acc where
  | ro | rw | rc | w1c | w1s | wt | wl | rwh | mbx
  deriving DecidableEq, Repr

/-- The effect classes of R10 and R53 to R56; `none` where the Effect column reads a dash. -/
inductive Eff where
  | none | l | b | q
  deriving DecidableEq, Repr

/-- One field of one register, or of each register of an array. -/
structure RegField where
  base : Nat
  stride : Nat
  count : Nat
  stride2 : Nat
  count2 : Nat
  hi : Nat
  lo : Nat
  acc : Acc
  eff : Eff
  reset : Nat
  name : String
  deriving DecidableEq, Repr

/-- A field of a single register. -/
def fr (base hi lo : Nat) (acc : Acc) (eff : Eff) (reset : Nat) (name : String) : RegField :=
  ⟨base, 4, 1, 0, 1, hi, lo, acc, eff, reset, name⟩

/-- A field of an array of registers. -/
def fa (base stride count hi lo : Nat) (acc : Acc) (eff : Eff) (reset : Nat) (name : String) : RegField :=
  ⟨base, stride, count, 0, 1, hi, lo, acc, eff, reset, name⟩

/-- A field of an array of arrays of registers. -/
def faa (base stride count stride2 count2 hi lo : Nat) (acc : Acc) (eff : Eff) (reset : Nat) (name : String) : RegField :=
  ⟨base, stride, count, stride2, count2, hi, lo, acc, eff, reset, name⟩

/-- Fields of the page header, part 0 (R38, R39, R40, R45, R521). -/
def regsK00_0 : List RegField := [
  fr 0 23 16 .ro .none 0 "PAGE_ID.KIND",
  fr 0 15 8 .ro .none 0 "PAGE_ID.VERSION",
  fr 0 7 0 .ro .none 0 "PAGE_ID.INSTANCE",
  fr 4 23 16 .ro .none 0 "PAGE_CAP.CELLS",
  fr 4 15 0 .ro .none 0 "PAGE_CAP.KIND_CAP",
  fr 8 2 2 .wt .l 0 "PAGE_CTRL.RESTART",
  fr 8 1 1 .wt .l 0 "PAGE_CTRL.STOP",
  fr 8 0 0 .wt .l 0 "PAGE_CTRL.RUN",
  fr 0xc 23 14 .ro .none 0 "PAGE_STAT.QR_SLOT",
  fr 0xc 3 3 .ro .none 0 "PAGE_STAT.STOPPING",
  fr 0xc 2 2 .ro .none 0 "PAGE_STAT.ERR",
  fr 0xc 1 1 .w1c .none 0 "PAGE_STAT.QREFUSED",
  fr 0xc 0 0 .ro .none 0 "PAGE_STAT.RUNNING",
  fr 0x10 23 23 .w1c .none 0 "ERR_FIRST.VALID",
  fr 0x10 22 21 .ro .none 0 "ERR_FIRST.FCLASS",
  fr 0x10 20 20 .ro .none 0 "ERR_FIRST.ESC",
  fr 0x10 19 18 .ro .none 0 "ERR_FIRST.SEQ",
  fr 0x10 15 8 .ro .none 0 "ERR_FIRST.CODE",
  fr 0x10 7 0 .ro .none 0 "ERR_FIRST.DETAIL",
  fr 0x14 23 2 .ro .none 0 "ERR_FIRST_ADDR.ADDR",
  fr 0x14 1 0 .ro .none 0 "ERR_FIRST_ADDR.SEQ",
  fr 0x18 23 23 .ro .none 0 "ERR_LAST.VALID",
  fr 0x18 22 21 .ro .none 0 "ERR_LAST.FCLASS",
  fr 0x18 20 20 .ro .none 0 "ERR_LAST.ESC"]

/-- Fields of the page header, part 1 (R64, R68, R521, R544). -/
def regsK00_1 : List RegField := [
  fr 0x18 19 18 .ro .none 0 "ERR_LAST.SEQ",
  fr 0x18 15 8 .ro .none 0 "ERR_LAST.CODE",
  fr 0x18 7 0 .ro .none 0 "ERR_LAST.DETAIL",
  fr 0x1c 23 2 .ro .none 0 "ERR_LAST_ADDR.ADDR",
  fr 0x1c 1 0 .ro .none 0 "ERR_LAST_ADDR.SEQ",
  fr 0x20 23 0 .rc .none 0 "ERR_COUNT.COUNT",
  fr 0x24 1 1 .wl .l 0 "LOCK.TABLE",
  fr 0x24 0 0 .wl .l 0 "LOCK.PAGE",
  fr 0x28 23 14 .ro .none 0 "LOCK_VIOL.SLOT",
  fr 0x28 13 8 .ro .none 0 "LOCK_VIOL.DEV",
  fr 0x28 7 7 .ro .none 0 "LOCK_VIOL.PF",
  fr 0x28 0 0 .w1c .none 0 "LOCK_VIOL.VALID",
  fr 0x2c 23 0 .rc .none 0 "LOCK_VIOL_COUNT.COUNT",
  fr 0x30 23 22 .ro .none 0 "PACE_OR_LOAD.HEALTH",
  fr 0x30 11 0 .ro .none 0 "PACE_OR_LOAD.PACE",
  fr 0x30 9 0 .ro .none 0 "PACE_OR_LOAD.LOAD"]

/-- Fields of page kind 0x02, part 0 (R361). -/
def regsK02_0 : List RegField := [
  fr 0x40 23 20 .rw .l 4 "CAN_BOFF_POLICY.LIMIT",
  fr 0x40 19 0 .rw .l 0x2710 "CAN_BOFF_POLICY.WINDOW_MS"]

/-- Fields of page kind 0x03, part 0 (R360). -/
def regsK03_0 : List RegField := [
  fr 0x40 23 23 .rw .q 0 "CAN_CTRL.FD_EN",
  fr 0x40 22 22 .rw .q 0 "CAN_CTRL.BRS_EN",
  fr 0x40 21 21 .rw .q 0 "CAN_CTRL.PEX",
  fr 0x40 20 20 .rw .b 0 "CAN_CTRL.SELF_RX",
  fr 0x40 19 19 .rw .b 0 "CAN_CTRL.RX_PIPE",
  fr 0x40 18 18 .rw .q 0 "CAN_CTRL.TRIPLE",
  fr 0x40 17 17 .rw .q 0 "CAN_CTRL.TDC_EN",
  fr 0x44 2 0 .rwh .b 0 "CAN_MODE.MODE",
  fr 0x48 23 16 .rw .q 0 "CAN_NBT.NTSEG1",
  fr 0x48 15 9 .rw .q 0 "CAN_NBT.NTSEG2",
  fr 0x48 8 2 .rw .q 0 "CAN_NBT.NSJW",
  fr 0x4c 9 5 .rw .q 0 "CAN_BRP.DBRP",
  fr 0x4c 4 0 .rw .q 0 "CAN_BRP.NBRP",
  fr 0x50 23 19 .rw .q 0 "CAN_DBT.DTSEG1",
  fr 0x50 18 15 .rw .q 0 "CAN_DBT.DTSEG2",
  fr 0x50 14 11 .rw .q 0 "CAN_DBT.DSJW",
  fr 0x54 23 17 .rw .q 0 "CAN_TDC.TDCO",
  fr 0x54 16 10 .rw .q 0 "CAN_TDC.TDCF",
  fr 0x58 23 16 .rw .b 0x10 "CAN_RTR_LIMITS.ERR_LIMIT",
  fr 0x58 15 8 .rw .b 0xff "CAN_RTR_LIMITS.ARB_LIMIT",
  fr 0x5c 23 22 .ro .none 0 "CAN_STATUS.FSTATE",
  fr 0x5c 21 21 .ro .none 0 "CAN_STATUS.LONE",
  fr 0x5c 20 20 .ro .none 0 "CAN_STATUS.BUS_DOM",
  fr 0x5c 19 19 .ro .none 0 "CAN_STATUS.TXD_DOM"]

/-- Fields of page kind 0x03, part 1 (R360). -/
def regsK03_1 : List RegField := [
  fr 0x5c 17 17 .ro .none 0 "CAN_STATUS.RANGE",
  fr 0x5c 16 10 .ro .none 0 "CAN_STATUS.RECOV",
  fr 0x5c 9 7 .ro .none 0 "CAN_STATUS.LEC",
  fr 0x5c 6 4 .ro .none 0 "CAN_STATUS.DLEC",
  fr 0x5c 3 2 .ro .none 0 "CAN_STATUS.ACT",
  fr 0x60 23 16 .ro .none 0 "CAN_ECR.TEC",
  fr 0x60 15 15 .ro .none 0 "CAN_ECR.RP",
  fr 0x60 14 8 .ro .none 0 "CAN_ECR.REC",
  fr 0x64 7 7 .ro .none 0 "CAN_TDC_VAL.VALID",
  fr 0x64 6 0 .ro .none 0 "CAN_TDC_VAL.DELAY",
  fr 0x68 10 10 .w1c .none 0 "CAN_EVENTS.TAKEOVER",
  fr 0x68 9 9 .w1c .none 0 "CAN_EVENTS.FALLOW",
  fr 0x68 8 8 .w1c .none 0 "CAN_EVENTS.HELD",
  fr 0x68 7 7 .w1c .none 0 "CAN_EVENTS.BOFF_END",
  fr 0x68 6 6 .w1c .none 0 "CAN_EVENTS.BOFF",
  fr 0x68 5 5 .w1c .none 0 "CAN_EVENTS.PASSIVE",
  fr 0x68 4 4 .w1c .none 0 "CAN_EVENTS.LONE",
  fr 0x68 3 3 .w1c .none 0 "CAN_EVENTS.DOMINANT",
  fr 0x68 2 2 .w1c .none 0 "CAN_EVENTS.PEX",
  fr 0x68 1 1 .w1c .none 0 "CAN_EVENTS.TDC_FAIL",
  fr 0x68 0 0 .w1c .none 0 "CAN_EVENTS.RX_LOST",
  fr 0x6c 5 5 .ro .none 0 "CAN_TRX_STAT.OVERTEMP",
  fr 0x6c 4 4 .ro .none 0 "CAN_TRX_STAT.VCC5_LOW",
  fr 0x6c 3 3 .ro .none 0 "CAN_TRX_STAT.TXD_DOM"]

/-- Fields of page kind 0x03, part 2 (R108, R360). -/
def regsK03_2 : List RegField := [
  fr 0x6c 2 2 .ro .none 0 "CAN_TRX_STAT.BUS_DOM",
  fr 0x6c 1 0 .ro .none 0 "CAN_TRX_STAT.TRXMODE",
  fr 0x70 6 0 .rw .l 0 "CAN_OBJ_SEL.OBJ",
  fr 0x74 22 16 .ro .none 0 "CAN_OBJ_INFO.ROUTER",
  fr 0x74 14 8 .ro .none 0 "CAN_OBJ_INFO.FREE",
  fa 0x80 4 4 23 0 .ro .none 0 "CAN_PEND_MAP[i].MAP",
  fa 0x90 4 4 23 0 .ro .none 0 "CAN_NEW_MAP[i].MAP",
  fa 0xa0 4 4 23 0 .w1c .none 0 "CAN_END_MAP[i].MAP",
  fr 0xc0 23 0 .rc .none 0 "CAN_BOFF_COUNT.COUNT",
  fr 0xc4 23 0 .rc .none 0 "CAN_STUFF_ERR.COUNT",
  fr 0xc8 23 0 .rc .none 0 "CAN_FORM_ERR.COUNT",
  fr 0xcc 23 0 .rc .none 0 "CAN_ACK_ERR.COUNT",
  fr 0xd0 23 0 .rc .none 0 "CAN_BIT1_ERR.COUNT",
  fr 0xd4 23 0 .rc .none 0 "CAN_BIT0_ERR.COUNT",
  fr 0xd8 23 0 .rc .none 0 "CAN_CRC_ERR.COUNT",
  fr 0xdc 23 0 .rc .none 0 "CAN_ARB_LOSS.COUNT",
  fr 0xe0 23 0 .rc .none 0 "CAN_RX_LOST.COUNT",
  fr 0xe4 23 0 .rc .none 0 "CAN_POISON.COUNT",
  fr 0xe8 23 0 .rc .none 0 "CAN_FMT_DROP.COUNT",
  fr 0xec 23 0 .rc .none 0 "CAN_PEX_COUNT.COUNT",
  fr 0x100 23 0 .mbx .none 0 "CAN_RX_FRAMES",
  fr 0x104 23 0 .mbx .none 0 "CAN_TX_FRAMES",
  fr 0x108 23 0 .mbx .none 0 "CAN_RTR_DISCARD",
  fr 0x140 23 0 .ro .none 0 "FUR_ITEMS.ITEMS"]

/-- Fields of page kind 0x03, part 3 (R108, R340). -/
def regsK03_3 : List RegField := [
  fr 0x144 23 0 .ro .none 0 "FUR_WORDS.WORDS",
  fr 0x148 23 0 .ro .none 0 "FUR_CAP.CAPACITY",
  fr 0x14c 23 0 .rwh .l 0 "FUR_HWM.HWM",
  fr 0x150 4 4 .w1c .none 0 "FUR_STAT.POISONED",
  fr 0x150 3 3 .w1c .none 0 "FUR_STAT.REWOUND",
  fr 0x150 2 2 .ro .none 0 "FUR_STAT.OPEN",
  fr 0x150 1 1 .ro .none 0 "FUR_STAT.FULL",
  fr 0x150 0 0 .ro .none 1 "FUR_STAT.EMPTY",
  fr 0x154 23 0 .rc .none 0 "FUR_REWIND_COUNT.COUNT",
  fr 0x158 23 0 .rc .none 0 "FUR_POISON_COUNT.COUNT",
  fr 0x200 23 23 .rw .q 0 "OBJ_CFG.EN",
  fr 0x200 22 22 .rw .q 0 "OBJ_CFG.DIR",
  fr 0x200 21 21 .rw .q 0 "OBJ_CFG.OWNER",
  fr 0x200 20 20 .rw .q 0 "OBJ_CFG.CHAIN",
  fr 0x200 19 12 .rw .q 0 "OBJ_CFG.ERR_LIMIT",
  fr 0x200 11 4 .rw .q 0 "OBJ_CFG.ARB_LIMIT",
  fr 0x204 23 23 .rwh .l 0 "OBJ_HDR.IDE",
  fr 0x204 22 22 .rwh .l 0 "OBJ_HDR.RTR",
  fr 0x204 21 21 .rwh .l 0 "OBJ_HDR.FDF",
  fr 0x204 20 20 .rwh .l 0 "OBJ_HDR.BRS",
  fr 0x204 19 13 .rwh .l 0 "OBJ_HDR.LEN",
  fr 0x204 4 0 .rwh .l 0 "OBJ_HDR.ID_HI",
  fr 0x208 23 0 .rwh .l 0 "OBJ_IDL.ID_LO",
  fr 0x20c 23 23 .rw .b 0 "OBJ_MASKH.M_RTR"]

/-- Fields of page kind 0x03, part 4 (R340). -/
def regsK03_4 : List RegField := [
  fr 0x20c 22 22 .rw .b 0 "OBJ_MASKH.M_FDF",
  fr 0x20c 4 0 .rw .b 0 "OBJ_MASKH.MASK_HI",
  fr 0x210 23 0 .rw .b 0 "OBJ_MASKL.MASK_LO",
  fr 0x214 23 23 .wt .l 0 "OBJ_CMD.REQ",
  fr 0x214 22 22 .wt .l 0 "OBJ_CMD.CANCEL",
  fr 0x214 21 21 .w1c .none 0 "OBJ_CMD.NEW",
  fr 0x214 20 20 .w1c .none 0 "OBJ_CMD.LOST",
  fr 0x214 19 19 .w1c .none 0 "OBJ_CMD.DONE",
  fr 0x214 18 18 .w1c .none 0 "OBJ_CMD.NOACK",
  fr 0x214 17 17 .w1c .none 0 "OBJ_CMD.TXERR",
  fr 0x214 16 16 .w1c .none 0 "OBJ_CMD.ARBLIM",
  fr 0x214 15 15 .w1c .none 0 "OBJ_CMD.CANCELLED",
  fr 0x214 14 14 .w1c .none 0 "OBJ_CMD.PARITY",
  fr 0x214 13 13 .ro .none 0 "OBJ_CMD.FROZEN",
  fr 0x218 23 16 .ro .none 0 "OBJ_TRIES.ARBS",
  fr 0x218 15 8 .ro .none 0 "OBJ_TRIES.ERRS",
  fa 0x21c 4 22 23 0 .rwh .l 0 "OBJ_DATAk.DATA"]

/-- Fields of page kind 0x04, part 0 (R361). -/
def regsK04_0 : List RegField := [
  fr 0x40 23 23 .ro .none 0 "SPARE_STAT.ACTIVE",
  fr 0x40 3 0 .ro .none 0 "SPARE_STAT.SERVES"]

/-- Fields of page kind 0x06, part 0 (R387). -/
def regsK06_0 : List RegField := [
  fr 0x40 23 23 .rw .q 0 "LIN_CTRL.ROLE",
  fr 0x40 22 22 .rw .b 0 "LIN_CTRL.RX_PIPE",
  fr 0x40 21 21 .rw .b 0 "LIN_CTRL.SELF_RX",
  fr 0x40 20 16 .rw .q 0 "LIN_CTRL.BREAK_LEN",
  fr 0x40 15 14 .rw .q 0 "LIN_CTRL.DELIM",
  fr 0x40 13 12 .rw .q 0 "LIN_CTRL.RESP_SPACE",
  fr 0x44 15 0 .rw .q 0 "LIN_BAUD.DIV",
  fr 0x48 3 3 .rw .l 0 "LIN_SCHED_SEL.AT_END",
  fr 0x48 2 0 .rw .l 0 "LIN_SCHED_SEL.NEXT",
  fr 0x4c 0 0 .wt .l 0 "LIN_SCHED_CMD.SWITCH",
  fr 0x50 23 21 .ro .none 0 "LIN_SCHED.TABLE",
  fr 0x50 20 15 .ro .none 0 "LIN_SCHED.SLOT",
  fr 0x50 14 14 .ro .none 0 "LIN_SCHED.POSTPONED",
  fr 0x50 13 13 .ro .none 0 "LIN_SCHED.COLLISION",
  fr 0x54 12 0 .rw .l 0x3e8 "LIN_WAKE.US",
  fr 0x58 13 0 .rw .l 0xfa0 "LIN_IDLE.MS",
  fr 0x5c 23 21 .ro .none 0 "LIN_STATUS.LEC",
  fr 0x5c 20 20 .ro .none 0 "LIN_STATUS.BUS_DOM",
  fr 0x5c 19 19 .ro .none 0 "LIN_STATUS.TXD_DOM",
  fr 0x5c 18 17 .ro .none 0 "LIN_STATUS.TRXMODE",
  fr 0x5c 16 16 .ro .none 0 "LIN_STATUS.ACTIVE",
  fr 0x5c 15 15 .ro .none 0 "LIN_STATUS.FALLOW",
  fr 0x60 6 6 .w1c .none 0 "LIN_EVENTS.FALLOW",
  fr 0x60 5 5 .w1c .none 0 "LIN_EVENTS.GOTOSLEEP"]

/-- Fields of page kind 0x06, part 1 (R108, R387). -/
def regsK06_1 : List RegField := [
  fr 0x60 4 4 .w1c .none 0 "LIN_EVENTS.IDLE",
  fr 0x60 3 3 .w1c .none 0 "LIN_EVENTS.COLLISION",
  fr 0x60 2 2 .w1c .none 0 "LIN_EVENTS.DOMINANT",
  fr 0x60 1 1 .w1c .none 0 "LIN_EVENTS.SLOT_LATE",
  fr 0x60 0 0 .w1c .none 0 "LIN_EVENTS.ERROR",
  fr 0x80 23 0 .rc .none 0 "LIN_BIT_ERR.COUNT",
  fr 0x84 23 0 .rc .none 0 "LIN_FRAME_ERR.COUNT",
  fr 0x88 23 0 .rc .none 0 "LIN_PID_ERR.COUNT",
  fr 0x8c 23 0 .rc .none 0 "LIN_SYNC_ERR.COUNT",
  fr 0x90 23 0 .rc .none 0 "LIN_CHK_ERR.COUNT",
  fr 0x94 23 0 .rc .none 0 "LIN_NORESP.COUNT",
  fr 0x98 23 0 .rc .none 0 "LIN_INCOMPLETE.COUNT",
  fr 0x9c 23 0 .rc .none 0 "LIN_POSTPONED.COUNT",
  fr 0xa0 23 0 .rc .none 0 "LIN_SLOT_LATE.COUNT",
  fr 0xa4 23 0 .rc .none 0 "LIN_SLOT_EMPTY.COUNT",
  fr 0xa8 23 0 .rc .none 0 "LIN_RTR_DROP.COUNT",
  fr 0xac 23 0 .rc .none 0 "LIN_LEN_ADJ.COUNT",
  fr 0xc0 23 0 .mbx .none 0 "LIN_RX_FRAMES",
  fr 0xc4 23 0 .mbx .none 0 "LIN_TX_FRAMES",
  fr 0xe0 23 0 .ro .none 0 "FUR_ITEMS.ITEMS",
  fr 0xe4 23 0 .ro .none 0 "FUR_WORDS.WORDS",
  fr 0xe8 23 0 .ro .none 0 "FUR_CAP.CAPACITY",
  fr 0xec 23 0 .rwh .l 0 "FUR_HWM.HWM",
  fr 0xf0 4 4 .w1c .none 0 "FUR_STAT.POISONED"]

/-- Fields of page kind 0x06, part 2 (R108, R387). -/
def regsK06_2 : List RegField := [
  fr 0xf0 3 3 .w1c .none 0 "FUR_STAT.REWOUND",
  fr 0xf0 2 2 .ro .none 0 "FUR_STAT.OPEN",
  fr 0xf0 1 1 .ro .none 0 "FUR_STAT.FULL",
  fr 0xf0 0 0 .ro .none 1 "FUR_STAT.EMPTY",
  fr 0xf4 23 0 .rc .none 0 "FUR_REWIND_COUNT.COUNT",
  fr 0xf8 23 0 .rc .none 0 "FUR_POISON_COUNT.COUNT",
  fa 0x100 4 64 23 22 .rw .b 0 "LIN_IDCFG[i].DIR",
  fa 0x100 4 64 21 21 .rw .b 0 "LIN_IDCFG[i].ENH",
  fa 0x100 4 64 20 18 .rw .b 0 "LIN_IDCFG[i].LEN",
  fa 0x100 4 64 17 16 .rw .b 0 "LIN_IDCFG[i].SRC",
  fa 0x100 4 64 15 15 .rw .b 0 "LIN_IDCFG[i].KEEP",
  fa 0x100 4 64 13 0 .rw .b 0 "LIN_IDCFG[i].LAYOUT",
  faa 0x200 4 3 0x10 64 23 0 .rwh .l 0 "LIN_BUF[i][k].DATA",
  fa 0x20c 0x10 64 1 1 .w1c .none 0 "LIN_BUF_STAT[i].SENT",
  fa 0x20c 0x10 64 0 0 .w1s .l 0 "LIN_BUF_STAT[i].READY",
  faa 0x600 4 64 0x100 8 23 0 .rw .b 0 "LIN_SLOT[t][s].SLOT"]

/-- Fields of page kind 0x09, part 0 (R422). -/
def regsK09_0 : List RegField := [
  fr 0x40 23 23 .rw .b 0 "ETH_CTRL.ENDPOINT",
  fr 0x40 22 22 .rw .b 1 "ETH_CTRL.BCAST",
  fr 0x40 21 21 .rw .b 0 "ETH_CTRL.MCAST_ALL",
  fr 0x40 20 20 .rw .b 0 "ETH_CTRL.BAD_EN",
  fr 0x40 19 16 .rw .b 0 "ETH_CTRL.BAD_RING",
  fr 0x40 15 15 .rw .q 0 "ETH_CTRL.MACSEC_EN",
  fr 0x44 13 0 .rw .b 0x5f2 "ETH_LEN.MAXLEN",
  fr 0x48 23 22 .rw .q 0 "ETH_PHY.IF",
  fr 0x48 21 19 .rw .q 0 "ETH_PHY.SPEED_SET",
  fr 0x48 18 18 .rw .q 0 "ETH_PHY.HALF_SET",
  fr 0x4c 23 23 .ro .none 0 "ETH_LINK.UP",
  fr 0x4c 22 20 .ro .none 0 "ETH_LINK.SPEED",
  fr 0x4c 19 19 .ro .none 0 "ETH_LINK.HALF",
  fr 0x4c 18 18 .ro .none 0 "ETH_LINK.FALLOW",
  fr 0x4c 17 17 .ro .none 0 "ETH_LINK.PLCA_OK",
  fr 0x4c 9 0 .rw .l 0xa "ETH_LINK.UP_MS",
  fr 0x50 23 22 .rw .b 0 "ETH_FC.MODE",
  fr 0x50 21 21 .rw .b 0 "ETH_FC.RX_EN",
  fr 0x50 15 0 .rw .l 0xffff "ETH_FC.QUANTA",
  fr 0x54 23 16 .ro .none 0 "ETH_FC_STAT.PAUSED",
  fr 0x54 15 8 .ro .none 0 "ETH_FC_STAT.SENT",
  fr 0x58 23 23 .rw .q 0 "ETH_PLCA.EN",
  fr 0x58 22 15 .rw .q 0 "ETH_PLCA.NODE_ID",
  fr 0x58 14 7 .rw .q 8 "ETH_PLCA.NODE_COUNT"]

/-- Fields of page kind 0x09, part 1 (R422). -/
def regsK09_1 : List RegField := [
  fr 0x5c 23 16 .rw .q 0x20 "ETH_PLCA_TMR.TO_TIMER",
  fr 0x5c 15 8 .rw .q 0 "ETH_PLCA_TMR.MAX_BC",
  fr 0x5c 7 0 .rw .q 0x80 "ETH_PLCA_TMR.BURST_TMR",
  fr 0x60 12 12 .rw .b 0 "ETH_VLAN.UNTAG_EN",
  fr 0x60 11 0 .rw .b 1 "ETH_VLAN.UNTAG_VID",
  fr 0x64 23 12 .rw .l 0 "ETH_TS_LAT.RX_NS",
  fr 0x64 11 0 .rw .l 0 "ETH_TS_LAT.TX_NS",
  fr 0x68 5 5 .w1c .none 0 "ETH_EVENTS.FALLOW",
  fr 0x68 4 4 .w1c .none 0 "ETH_EVENTS.TSQ_LOST",
  fr 0x68 3 3 .w1c .none 0 "ETH_EVENTS.BAD_FRAME",
  fr 0x68 1 1 .w1c .none 0 "ETH_EVENTS.LINK_UP",
  fr 0x68 0 0 .w1c .none 0 "ETH_EVENTS.LINK_DOWN",
  fr 0x6c 23 23 .w1c .none 0 "TSQ_STAT.LOSTVALID",
  fr 0x6c 22 16 .ro .none 0 "TSQ_STAT.COUNT",
  fr 0x6c 15 0 .ro .none 0 "TSQ_STAT.LOSTTAG",
  fr 0x70 23 0 .rc .none 0 "TSQ_OVF.COUNT",
  fr 0x74 23 0 .mbx .none 0 "TSQ_HEAD",
  fr 0x78 15 0 .rw .b 0 "ETH_ADDR_EN.EN",
  fr 0x80 23 0 .rc .none 0 "ETH_FCS_ERR.COUNT",
  fr 0x84 23 0 .rc .none 0 "ETH_CODE_ERR.COUNT",
  fr 0x88 23 0 .rc .none 0 "ETH_OVERSIZE.COUNT",
  fr 0x8c 23 0 .rc .none 0 "ETH_RUNT.COUNT",
  fr 0x90 23 0 .rc .none 0 "ETH_RX_ABORT.COUNT",
  fr 0x94 23 0 .rc .none 0 "ETH_TX_ABORT.COUNT"]

/-- Fields of page kind 0x09, part 2 (R108, R422). -/
def regsK09_2 : List RegField := [
  fr 0x98 23 0 .rc .none 0 "ETH_ADDR_DROP.COUNT",
  fr 0x9c 23 0 .rc .none 0 "ETH_PAUSE_RX.COUNT",
  fr 0xa0 23 0 .rc .none 0 "ETH_PAUSE_TX.COUNT",
  fr 0xa4 23 0 .rc .none 0 "ETH_COLL.COUNT",
  fr 0xa8 23 0 .rc .none 0 "ETH_LATE_COLL.COUNT",
  fr 0xac 23 0 .rc .none 0 "ETH_EXCESS_COLL.COUNT",
  fr 0xb0 23 0 .rc .none 0 "ETH_JAM.COUNT",
  fr 0xc0 23 0 .mbx .none 0 "ETH_RX_FRAMES",
  fr 0xc4 23 0 .mbx .none 0 "ETH_RX_BYTES",
  fr 0xc8 23 0 .mbx .none 0 "ETH_RX_MCAST",
  fr 0xcc 23 0 .mbx .none 0 "ETH_RX_BCAST",
  fr 0xd0 23 0 .mbx .none 0 "ETH_RX_BAD",
  fr 0xd4 23 0 .mbx .none 0 "ETH_TX_FRAMES",
  fr 0xd8 23 0 .mbx .none 0 "ETH_TX_BYTES",
  fr 0x100 23 0 .ro .none 0 "FUR_ITEMS.ITEMS",
  fr 0x104 23 0 .ro .none 0 "FUR_WORDS.WORDS",
  fr 0x108 23 0 .ro .none 0 "FUR_CAP.CAPACITY",
  fr 0x10c 23 0 .rwh .l 0 "FUR_HWM.HWM",
  fr 0x110 4 4 .w1c .none 0 "FUR_STAT.POISONED",
  fr 0x110 3 3 .w1c .none 0 "FUR_STAT.REWOUND",
  fr 0x110 2 2 .ro .none 0 "FUR_STAT.OPEN",
  fr 0x110 1 1 .ro .none 0 "FUR_STAT.FULL",
  fr 0x110 0 0 .ro .none 1 "FUR_STAT.EMPTY",
  fr 0x114 23 0 .rc .none 0 "FUR_REWIND_COUNT.COUNT"]

/-- Fields of page kind 0x09, part 3 (R108, R422). -/
def regsK09_3 : List RegField := [
  fr 0x118 23 0 .rc .none 0 "FUR_POISON_COUNT.COUNT",
  fa 0x140 4 16 23 0 .rw .b 0 "ETH_ADDR_HI[k].ADDR",
  fa 0x180 4 16 23 0 .rw .b 0 "ETH_ADDR_LO[k].ADDR",
  faa 0x800 4 28 0x80 16 23 0 .rw .b 0 "ETH_TPL[t][w]"]

/-- Fields of page kind 0x0A, part 0 (R183). -/
def regsK0A_0 : List RegField := [
  fr 0x40 6 0 .rw .b 0x10 "CLT_CTRL.SPLIT_MAX",
  fr 0x44 7 0 .rw .b 0 "CLT_SOAD_EN.EN",
  fa 0x48 4 8 15 0 .rw .b 0 "CLT_SOAD[i].UDPPORT",
  fr 0x68 23 0 .rc .none 0 "CLT_NOKIND.COUNT",
  fr 0x6c 23 0 .rc .none 0 "CLT_SPLIT_OVF.COUNT",
  fr 0x70 23 0 .rc .none 0 "CLT_KEY_OVF.COUNT",
  fa 0x100 4 32 23 20 .rw .b 0 "CLT_PORT[j].TEMPLATE",
  fa 0x100 4 32 19 17 .rw .b 0 "CLT_PORT[j].CLASS",
  fa 0x100 4 32 16 16 .rw .b 0 "CLT_PORT[j].BRIDGE",
  fa 0x100 4 32 15 15 .rw .b 0 "CLT_PORT[j].SOAD",
  fa 0x100 4 32 14 14 .rw .b 0 "CLT_PORT[j].ACF",
  fa 0x100 4 32 11 0 .rw .b 1 "CLT_PORT[j].PVID",
  faa 0x200 4 8 0x20 16 23 21 .rw .b 0 "CLT_TPL[t][w].ANCHOR",
  faa 0x200 4 8 0x20 16 20 13 .rw .b 0 "CLT_TPL[t][w].OFFSET"]

/-- Fields of page kind 0x0B, part 0 (R188). -/
def regsK0B_0 : List RegField := [
  fr 0x40 0 0 .rw .b 0 "HDG_CTRL.DEFAULT",
  fr 0x44 10 10 .ro .none 0 "HDG_LAST.MATCH",
  fr 0x44 9 0 .ro .none 0 "HDG_LAST.RULE",
  fr 0x48 23 0 .rc .none 0 "HDG_DENY.COUNT",
  fr 0x4c 23 0 .rc .none 0 "HDG_TRAP.COUNT",
  fr 0x50 23 0 .rc .none 0 "HDG_NOMATCH.COUNT",
  fa 0x60 4 8 9 0 .rw .l 0 "HDG_CNT_SEL[n].RULE",
  fa 0x80 4 8 23 0 .mbx .none 0 "HDG_CNT[n]"]

/-- Fields of page kind 0x0C, part 0 (R210). -/
def regsK0C_0 : List RegField := [
  fr 0x40 4 4 .rw .b 0 "LKP_CTRL.MISS_HOST",
  fr 0x40 3 0 .rw .b 0 "LKP_CTRL.MISS_RING",
  fr 0x44 23 0 .rc .none 0 "LKP_MISS.COUNT",
  fr 0x48 23 0 .rc .none 0 "LKP_DROP.COUNT",
  fr 0x4c 23 0 .rc .none 0 "LKP_QUAR_DROP.COUNT",
  fr 0x50 23 0 .rc .none 0 "LKP_BADDEST.COUNT",
  fr 0x54 23 0 .rc .none 0 "LKP_VLAN_DROP.COUNT",
  fr 0x58 23 0 .rc .none 0 "LKP_DUP.COUNT"]

/-- Fields of page kind 0x0D, part 0 (R255). -/
def regsK0D_0 : List RegField := [
  fr 0x40 4 4 .rw .l 0 "LRN_CTRL.DOWN_FLUSH",
  fr 0x40 3 3 .rw .l 0 "LRN_CTRL.PIN_DROP",
  fr 0x40 2 2 .rw .l 0 "LRN_CTRL.DST_HIT",
  fr 0x40 0 0 .rw .l 0 "LRN_CTRL.LEARN_EN",
  fr 0x44 9 0 .rw .b 0 "LRN_PORT.EN",
  fr 0x48 23 0 .rw .l 0x64 "LRN_AGE.SEC",
  fr 0x4c 23 16 .rw .l 4 "LRN_MOVE.LIMIT",
  fr 0x4c 15 0 .rw .l 0x3e8 "LRN_MOVE.WINDOW_MS",
  fr 0x50 17 0 .rw .l 0x2710 "LRN_PIN.MS",
  fr 0x54 15 0 .rw .l 0x3fbe "LRN_EV_EN.EN",
  fr 0x58 23 23 .rw .l 0 "LRN_FLUSH_SEL.BY_PORT",
  fr 0x58 22 22 .rw .l 0 "LRN_FLUSH_SEL.BY_VID",
  fr 0x58 21 21 .rw .l 0 "LRN_FLUSH_SEL.PINNED",
  fr 0x58 19 12 .rw .l 0 "LRN_FLUSH_SEL.PORT",
  fr 0x58 11 0 .rw .l 0 "LRN_FLUSH_SEL.VID",
  fr 0x5c 1 1 .wt .l 0 "LRN_CMD.UNPIN_ALL",
  fr 0x5c 0 0 .wt .l 0 "LRN_CMD.FLUSH",
  fr 0x60 14 0 .ro .none 0 "LRN_ENTRIES.LEARNED",
  fr 0x64 17 9 .ro .none 0 "LRN_TRACK.PINNED",
  fr 0x64 8 0 .ro .none 0 "LRN_TRACK.USED",
  fr 0x68 23 0 .rc .none 0 "LRN_LEARNED.COUNT",
  fr 0x6c 23 0 .rc .none 0 "LRN_MOVES.COUNT",
  fr 0x70 23 0 .rc .none 0 "LRN_AGED.COUNT",
  fr 0x74 23 0 .rc .none 0 "LRN_FULL.COUNT"]

/-- Fields of page kind 0x0D, part 1 (R108, R255). -/
def regsK0D_1 : List RegField := [
  fr 0x78 23 0 .rc .none 0 "LRN_RATE_DROP.COUNT",
  fr 0x7c 23 0 .rc .none 0 "LRN_PINS.COUNT",
  fr 0x80 23 0 .rc .none 0 "LRN_PIN_BLOCK.COUNT",
  fr 0x84 23 0 .rc .none 0 "LRN_STATIC_BLOCK.COUNT",
  fr 0x88 23 0 .rc .none 0 "LRN_DUP_REMOVED.COUNT",
  fr 0x8c 23 0 .rc .none 0 "LRN_LOST.COUNT",
  fr 0x90 23 0 .rc .none 0 "LRN_SRC_BAD.COUNT",
  fr 0x94 23 0 .rc .none 0 "LRN_TRACK_OVF.COUNT",
  fr 0x98 23 0 .rc .none 0 "LRN_FLUSHED.COUNT",
  fr 0xa0 13 0 .rw .l 0xc8 "HRW_CTRL.PASS_MS",
  fr 0xa4 3 3 .w1c .none 0 "HRW_STAT.NOSPARE",
  fr 0xa4 2 2 .w1c .none 0 "HRW_STAT.RETIRED",
  fr 0xa4 1 1 .w1c .none 0 "HRW_STAT.QUARANTINED",
  fr 0xa4 0 0 .w1c .none 0 "HRW_STAT.REPAIRED",
  fr 0xa8 23 20 .ro .none 0 "HRW_CAPTURE.TABLE",
  fr 0xa8 15 15 .w1c .none 0 "HRW_CAPTURE.VALID",
  fr 0xa8 14 0 .ro .none 0 "HRW_CAPTURE.INDEX",
  fr 0xac 23 0 .ro .none 0 "HRW_PASSES.COUNT",
  fr 0xb0 23 0 .rc .none 0 "HRW_REPAIRS.COUNT",
  fr 0xb4 23 0 .rc .none 0 "HRW_QUARANTINES.COUNT",
  fr 0xb8 15 0 .ro .none 0 "HRW_QUAR_NOW.ENTRIES",
  fr 0xbc 23 0 .mbx .none 0 "HRW_QDROP",
  fa 0xc0 4 8 5 0 .ro .none 0x20 "HRW_SPARE[t].ROWS",
  fr 0x100 23 0 .ro .none 0 "FUR_ITEMS.ITEMS"]

/-- Fields of page kind 0x0D, part 2 (R108, R112). -/
def regsK0D_2 : List RegField := [
  fr 0x104 23 0 .ro .none 0 "FUR_WORDS.WORDS",
  fr 0x108 23 0 .ro .none 0 "FUR_CAP.CAPACITY",
  fr 0x10c 23 0 .rwh .l 0 "FUR_HWM.HWM",
  fr 0x110 4 4 .w1c .none 0 "FUR_STAT.POISONED",
  fr 0x110 3 3 .w1c .none 0 "FUR_STAT.REWOUND",
  fr 0x110 2 2 .ro .none 0 "FUR_STAT.OPEN",
  fr 0x110 1 1 .ro .none 0 "FUR_STAT.FULL",
  fr 0x110 0 0 .ro .none 1 "FUR_STAT.EMPTY",
  fr 0x114 23 0 .rc .none 0 "FUR_REWIND_COUNT.COUNT",
  fr 0x118 23 0 .rc .none 0 "FUR_POISON_COUNT.COUNT",
  fr 0x140 23 23 .rc .none 0 "FUR_POP.VALID",
  fr 0x140 22 22 .rc .none 0 "FUR_POP.POISON",
  fr 0x140 19 16 .rc .none 0 "FUR_POP.LEN",
  fr 0x140 15 0 .rc .none 0 "FUR_POP.REMAIN",
  fa 0x144 4 8 23 0 .ro .none 0 "FUR_POPDATAk.DATA"]

/-- Fields of page kind 0x0E, part 0 (R209). -/
def regsK0E_0 : List RegField := [
  fr 0x40 23 0 .mbx .none 0 "POL_DROP",
  fr 0x44 23 0 .mbx .none 0 "POL_MARK"]

/-- Fields of page kind 0x0F, part 0 (R454). -/
def regsK0F_0 : List RegField := [
  fr 0x40 23 23 .rw .l 0 "WK_CTRL.PARK_EN",
  fr 0x40 13 0 .rw .l 0x1f4 "WK_CTRL.FW_WIN_MS",
  fr 0x44 23 23 .ro .none 0 "WK_STAT.PARKED",
  fr 0x48 2 2 .w1c .none 0 "WK_EVENTS.MUTED",
  fr 0x48 1 1 .w1c .none 0 "WK_EVENTS.FALSE_WAKE",
  fr 0x48 0 0 .w1c .none 0 "WK_EVENTS.WAKE",
  fr 0x4c 23 0 .rc .none 0 "WK_PARKS.COUNT",
  fa 0x100 4 26 23 23 .rw .l 0 "WK_CH[j].MEMBER",
  fa 0x100 4 26 22 18 .rw .l 0 "WK_CH[j].CLUSTER",
  fa 0x100 4 26 17 17 .rw .l 0 "WK_CH[j].WAKE_EN",
  fa 0x100 4 26 16 9 .rw .l 0 "WK_CH[j].FILT",
  fa 0x100 4 26 8 0 .rw .l 0 "WK_CH[j].FW_LIMIT",
  fa 0x180 4 26 23 23 .rwh .l 0 "WK_CHST[j].MUTED",
  fa 0x180 4 26 22 22 .ro .none 0 "WK_CHST[j].FW_OPEN",
  fa 0x180 4 26 21 21 .ro .none 0 "WK_CHST[j].COMFAIL",
  fa 0x180 4 26 15 8 .ro .none 0 "WK_CHST[j].FW_HOUR",
  fa 0x200 4 26 23 0 .rc .none 0 "WK_FALSE[j].COUNT",
  fa 0x280 4 26 23 0 .rc .none 0 "WK_WAKES[j].COUNT"]

/-- Fields of page kind 0x11, part 0 (R551). -/
def regsK11_0 : List RegField := [
  fr 0x40 23 21 .rw .l 0 "MON_SRC.KIND",
  fr 0x40 20 13 .rw .l 0 "MON_SRC.PORT",
  fr 0x40 12 5 .rw .l 0xff "MON_SRC.CLASSES",
  fr 0x44 13 0 .rw .l 0x64 "MON_CTRL.PERIOD",
  fr 0x48 1 1 .wt .l 0 "MON_CMD.CLEAR",
  fr 0x48 0 0 .wt .l 0 "MON_CMD.SNAP",
  fr 0x4c 0 0 .ro .none 0 "MON_STAT.EDGE_ERR",
  fa 0x50 4 15 23 0 .rw .l 0 "MON_EDGE[k].EDGE",
  fr 0x90 23 0 .ro .none 0xffffff "MON_MIN.MIN",
  fr 0x94 23 0 .ro .none 0 "MON_MAX.MAX",
  fr 0x98 23 0 .ro .none 0 "MON_COUNT.COUNT",
  fa 0xa0 4 16 23 0 .ro .none 0 "MON_BIN[k].COUNT"]

/-- Fields of page kind 0x1F, part 0 (R215). -/
def regsK1F_0 : List RegField := [
  fr 0x40 23 20 .rw .l 0 "TP_SEL.TABLE",
  fr 0x40 19 19 .rw .l 0 "TP_SEL.COPY",
  fr 0x40 18 0 .rw .l 0 "TP_SEL.INDEX",
  fr 0x44 3 3 .wt .l 0 "TP_CMD.HASH",
  fr 0x44 2 2 .wt .l 0 "TP_CMD.INVAL",
  fr 0x44 1 1 .wt .l 0 "TP_CMD.WRITE",
  fr 0x44 0 0 .wt .l 0 "TP_CMD.READ",
  fr 0x48 23 19 .ro .none 0 "TP_STAT.WORDS",
  fr 0x48 18 15 .ro .none 0 "TP_STAT.ERRCODE",
  fr 0x48 5 5 .ro .none 0 "TP_STAT.ENT_VALID",
  fr 0x48 4 4 .ro .none 0 "TP_STAT.ENT_PEND",
  fr 0x48 3 3 .ro .none 0 "TP_STAT.ENT_QUAR",
  fr 0x48 2 2 .ro .none 0 "TP_STAT.ERR",
  fr 0x48 1 1 .ro .none 0 "TP_STAT.BUSY",
  fr 0x4c 18 0 .ro .none 0 "TP_PEND.COUNT",
  fr 0x50 9 0 .rw .l 0xa "TP_PEND_MAX.MS",
  fa 0x54 4 4 18 0 .ro .none 0 "TP_HASHw.INDEX",
  fa 0x80 4 24 23 0 .rwh .l 0 "TP_DATAk.DATA"]

/-- Fields of page kind 0x20, part 0 (R4, R117, R552). -/
def regsK20_0 : List RegField := [
  fr 0x40 23 16 .ro .none 0 "CHIP_VARIANT.CAN_COUNT",
  fr 0x40 11 8 .ro .none 0 "CHIP_VARIANT.TIER",
  fr 0x40 7 4 .ro .none 0 "CHIP_VARIANT.SEC",
  fr 0x40 3 0 .ro .none 0 "CHIP_VARIANT.PKG",
  fr 0x60 9 0 .rw .l 0x14 "POP_GUARD.US",
  fa 0x80 0x10 3 23 0 .ro .none 0 "DIE_ID[d][0].LOT_A",
  fa 0x84 0x10 3 23 0 .ro .none 0 "DIE_ID[d][1].LOT_B",
  fa 0x88 0x10 3 23 20 .ro .none 0 "DIE_ID[d][2].REV_MAJOR",
  fa 0x88 0x10 3 19 16 .ro .none 0 "DIE_ID[d][2].REV_MINOR",
  fa 0x88 0x10 3 12 8 .ro .none 0 "DIE_ID[d][2].WAFER",
  fa 0x8c 0x10 3 15 8 .ro .none 0 "DIE_ID[d][3].X",
  fa 0x8c 0x10 3 7 0 .ro .none 0 "DIE_ID[d][3].Y"]

/-- Fields of page kind 0x21, part 0 (R69). -/
def regsK21_0 : List RegField := [
  fr 0x40 23 0 .rw .l 0 "MBX_SEL.SEL",
  fr 0x44 2 2 .wt .l 0 "MBX_CMD.COMMIT",
  fr 0x44 1 1 .wt .l 0 "MBX_CMD.SNAPCLR",
  fr 0x44 0 0 .wt .l 0 "MBX_CMD.SNAP",
  fr 0x48 15 12 .ro .none 0 "MBX_STAT.WORDS",
  fr 0x48 11 8 .ro .none 0 "MBX_STAT.ERRCODE",
  fr 0x48 2 2 .ro .none 0 "MBX_STAT.ERR",
  fr 0x48 1 1 .ro .none 0 "MBX_STAT.BUSY",
  fr 0x48 0 0 .ro .none 0 "MBX_STAT.VALID",
  fa 0x4c 4 11 23 0 .rwh .l 0 "MBX_DATAk.DATA"]

/-- Fields of page kind 0x22, part 0 (R423). -/
def regsK22_0 : List RegField := [
  fr 0x40 23 0 .mbx .l 0 "TIME_NOW",
  fr 0x44 23 0 .rw .l 0 "TIME_RATE.RATE",
  fr 0x48 23 0 .rw .l 0 "TIME_STEP.NS",
  fr 0x4c 0 0 .wt .l 0 "TIME_CMD.STEP"]

/-- Fields of page kind 0x23, part 0 (R138). -/
def regsK23_0 : List RegField := [
  fr 0x40 7 0 .rw .l 0x20 "ADM_CTRL.XON_GAP",
  fr 0x44 3 3 .ro .none 0 "ADM_STAT.OVERCOMMIT",
  fr 0x44 2 2 .w1c .none 0 "ADM_STAT.ENTRY_LOW",
  fr 0x44 1 1 .w1c .none 0 "ADM_STAT.EXHAUSTED",
  fr 0x44 0 0 .ro .none 0 "ADM_STAT.XOFF_ANY",
  fr 0x48 16 0 .ro .none 0 "ADM_POOL.SHARED",
  fr 0x4c 16 0 .ro .none 0 "ADM_SHFREE.FREE",
  fr 0x50 16 0 .ro .none 0x10000 "ADM_USABLE.PLOTS",
  fr 0x54 18 0 .ro .none 0x40000 "ADM_ENTRY_FREE.ENTRIES",
  fr 0x58 23 0 .rc .none 0 "POISON_DROP.COUNT",
  fa 0x100 4 144 23 12 .rw .b 0 "ADM_RES[p].HEADROOM",
  fa 0x100 4 144 11 0 .rw .b 0 "ADM_RES[p].RESERVE",
  fa 0x340 4 144 16 0 .rw .b 0 "ADM_SHMAX[p].MAX",
  fa 0x580 4 144 23 23 .ro .none 0 "ADM_USED[p].XOFF",
  fa 0x580 4 144 16 0 .ro .none 0 "ADM_USED[p].USED",
  fa 0x7c0 4 144 23 0 .mbx .none 0 "INGRESS_EXHAUSTED[p]"]

/-- Fields of page kind 0x24, part 0 (R172). -/
def regsK24_0 : List RegField := [
  fr 0x40 22 16 .ro .none 0x40 "BANK_STAT.SPARES",
  fr 0x40 14 0 .ro .none 0 "BANK_STAT.REMOVED",
  fr 0x44 14 0 .ro .none 0x4000 "BANK_FREE.ROWS",
  fr 0x48 14 14 .ro .none 0 "BANK_FAULT.PERM",
  fr 0x48 13 0 .ro .none 0 "BANK_FAULT.ROW",
  fr 0x4c 23 0 .rc .none 0 "BANK_FAULT_COUNT.COUNT"]

/-- Fields of page kind 0x25, part 0 (R168). -/
def regsK25_0 : List RegField := [
  fr 0x40 9 0 .rw .l 0x64 "EGR_CTRL.STUCK_MS",
  fr 0x44 23 0 .rc .none 0 "POISON_DROP.COUNT",
  fa 0x60 4 8 9 0 .rw .l 0 "EGR_MAX_AGE[c].MS",
  fa 0x80 4 10 23 0 .mbx .none 0 "STOMPED[i]",
  fa 0x100 4 144 16 0 .rw .l 0 "EGR_SHARE[p].PLOTS",
  fa 0x340 4 144 23 14 .rw .l 0x32 "EGR_PORT[p].HOLD_MS",
  fa 0x340 4 144 13 12 .ro .none 0 "EGR_PORT[p].STATE",
  fa 0x340 4 144 11 11 .ro .none 0 "EGR_PORT[p].STUCK",
  fa 0x340 4 144 10 10 .rw .l 0 "EGR_PORT[p].CT_EN",
  fa 0x340 4 144 7 0 .rw .l 0xff "EGR_PORT[p].STRICT",
  fa 0x580 4 144 23 0 .rw .l 0 "EGR_WEIGHT[p].W",
  fa 0x7c0 4 144 16 0 .ro .none 0 "EGR_QUEUED[p].PLOTS",
  fa 0xa00 4 144 23 0 .mbx .none 0 "EGRESS_DOWN[p]",
  fa 0xc40 4 144 23 0 .mbx .none 0 "AGED[p]",
  fa 0xe80 4 20 3 3 .ro .none 0 "GATE_CTRL[i].ACTIVE",
  fa 0xe80 4 20 1 1 .rw .l 0 "GATE_CTRL[i].LIST",
  fa 0xe80 4 20 0 0 .rw .l 0 "GATE_CTRL[i].EN",
  fa 0xed0 4 20 23 0 .rw .l 0xf4240 "GATE_CYCLE[i].NS",
  fa 0xf20 4 20 23 0 .rw .l 0 "GATE_OFFSET[i].NS"]

/-- Fields of page kind 0x26, part 0 (R149). -/
def regsK26_0 : List RegField := [
  fr 0x40 9 0 .rw .l 0x64 "RSQ_GAP.US",
  fr 0x44 9 0 .rw .l 0 "RSQ_SEL.STREAM",
  fr 0x48 0 0 .wt .l 0 "RSQ_CMD.RESET",
  fr 0x4c 23 16 .ro .none 0 "RSQ_STATE.HELD",
  fr 0x4c 15 0 .ro .none 0 "RSQ_STATE.NEXT",
  fr 0x50 17 0 .ro .none 0 "RSQ_HELD_TOTAL.ITEMS",
  fr 0x54 23 0 .rc .none 0 "RSQ_LATE.COUNT",
  fr 0x58 23 0 .rc .none 0 "RSQ_SKIPPED.COUNT",
  fr 0x5c 23 0 .rc .none 0 "RSQ_GAPS.COUNT",
  fr 0x60 23 0 .rc .none 0 "RSQ_VOIDS.COUNT"]

/-- Fields of page kind 0x27, part 0 (R108, R294). -/
def regsK27_0 : List RegField := [
  fr 0x40 1 1 .rw .l 1 "MB_CTRL.E2E_EN",
  fr 0x40 0 0 .rw .l 1 "MB_CTRL.DM_EN",
  fr 0x44 13 0 .rw .l 0 "MB_SEND_SEL.LAYOUT",
  fr 0x48 0 0 .wt .l 0 "MB_CMD.SEND",
  fr 0x4c 4 4 .ro .none 0 "MB_STAT.POSTPONING",
  fr 0x4c 3 3 .w1c .none 0 "MB_STAT.LAYOUT_ERR",
  fr 0x4c 2 2 .w1c .none 0 "MB_STAT.DM_TIMEOUT",
  fr 0x4c 1 1 .w1c .none 0 "MB_STAT.E2E_ERR",
  fr 0x4c 0 0 .w1c .none 0 "MB_STAT.POISONED",
  fr 0x50 23 0 .rc .none 0 "MB_POISON.COUNT",
  fr 0x54 23 0 .rc .none 0 "MB_SHORT.COUNT",
  fr 0x58 23 0 .rc .none 0 "MB_UB_SKIP.COUNT",
  fr 0x5c 23 0 .rc .none 0 "MB_LAYOUT_ERR.COUNT",
  fr 0x60 23 0 .rc .none 0 "MB_DM_TIMEOUTS.COUNT",
  fr 0x64 23 0 .rc .none 0 "MB_E2E_CRC.COUNT",
  fr 0x68 23 0 .rc .none 0 "MB_E2E_REPEATED.COUNT",
  fr 0x6c 23 0 .rc .none 0 "MB_E2E_WRONG_SEQ.COUNT",
  fr 0x70 23 0 .rc .none 0 "MB_COALESCED.COUNT",
  fr 0x74 23 0 .rc .none 0 "MB_MDT_DEFERRED.COUNT",
  fr 0x78 23 0 .rc .none 0 "MB_POSTPONED.COUNT",
  fr 0x7c 23 0 .rc .none 0 "MB_QUAR_SKIP.COUNT",
  fr 0x80 23 0 .mbx .none 0 "MB_UNPACKED",
  fr 0x84 23 0 .mbx .none 0 "MB_PACKED",
  fr 0x100 23 0 .ro .none 0 "FUR_ITEMS.ITEMS"]

/-- Fields of page kind 0x27, part 1 (R108, R294). -/
def regsK27_1 : List RegField := [
  fr 0x104 23 0 .ro .none 0 "FUR_WORDS.WORDS",
  fr 0x108 23 0 .ro .none 0 "FUR_CAP.CAPACITY",
  fr 0x10c 23 0 .rwh .l 0 "FUR_HWM.HWM",
  fr 0x110 4 4 .w1c .none 0 "FUR_STAT.POISONED",
  fr 0x110 3 3 .w1c .none 0 "FUR_STAT.REWOUND",
  fr 0x110 2 2 .ro .none 0 "FUR_STAT.OPEN",
  fr 0x110 1 1 .ro .none 0 "FUR_STAT.FULL",
  fr 0x110 0 0 .ro .none 1 "FUR_STAT.EMPTY",
  fr 0x114 23 0 .rc .none 0 "FUR_REWIND_COUNT.COUNT",
  fr 0x118 23 0 .rc .none 0 "FUR_POISON_COUNT.COUNT",
  fr 0x180 13 0 .rw .l 0x1f4 "SRH_CTRL.PASS_MS",
  fr 0x184 3 3 .w1c .none 0 "SRH_STAT.NOSPARE",
  fr 0x184 2 2 .w1c .none 0 "SRH_STAT.RETIRED",
  fr 0x184 1 1 .w1c .none 0 "SRH_STAT.QUARANTINED",
  fr 0x184 0 0 .w1c .none 0 "SRH_STAT.REPAIRED",
  fr 0x188 23 21 .ro .none 0 "SRH_CAPTURE.TABLE",
  fr 0x188 20 20 .w1c .none 0 "SRH_CAPTURE.VALID",
  fr 0x188 16 0 .ro .none 0 "SRH_CAPTURE.INDEX",
  fr 0x18c 23 0 .ro .none 0 "SRH_PASSES.COUNT",
  fr 0x190 23 0 .rc .none 0 "SRH_REPAIRS.COUNT",
  fr 0x194 23 0 .rc .none 0 "SRH_QUARANTINES.COUNT",
  fr 0x198 16 0 .ro .none 0 "SRH_QUAR_NOW.ENTRIES",
  fa 0x1a0 4 7 5 0 .ro .none 0x20 "SRH_SPARE[t].ROWS"]

/-- Fields of page kind 0x28, part 0 (R295). -/
def regsK28_0 : List RegField := [
  fr 0x40 23 0 .ro .none 0 "DRL_TICK.TICK",
  fr 0x44 14 0 .rwh .l 0 "DRL_PEAK.LAYOUTS",
  fr 0x48 23 0 .rc .none 0 "DRL_SLIP.COUNT"]

/-- Fields of page kind 0x29, part 0 (R296). -/
def regsK29_0 : List RegField := [
  fr 0x40 23 22 .rw .l 1 "SS_SEL.COUNT",
  fr 0x40 17 0 .rw .l 0 "SS_SEL.SLOT",
  fr 0x44 1 1 .wt .l 0 "SS_CMD.WRITE",
  fr 0x44 0 0 .wt .l 0 "SS_CMD.READ",
  fr 0x48 14 12 .ro .none 0 "SS_STAT.INV",
  fr 0x48 11 8 .ro .none 0 "SS_STAT.ERRCODE",
  fr 0x48 2 2 .ro .none 0 "SS_STAT.ERR",
  fr 0x48 1 1 .ro .none 0 "SS_STAT.BUSY",
  fr 0x4c 23 0 .ro .none 0 "SS_GEN.GEN",
  fa 0x50 4 3 23 0 .rwh .l 0 "SS_DATAk.DATA",
  fr 0x60 0 0 .wl .l 0 "SS_CTRL.WRITE_OFF",
  fr 0x64 23 0 .rc .none 0 "SS_PARITY.COUNT",
  fr 0x68 20 16 .ro .none 0x10 "SS_ROWS.SPARES",
  fr 0x68 12 12 .ro .none 0 "SS_ROWS.PERM",
  fr 0x68 11 0 .ro .none 0 "SS_ROWS.FAULT_ROW"]

/-- Fields of page kind 0x2A, part 0 (R588). -/
def regsK2A_0 : List RegField := [
  fr 0x40 23 23 .ro .none 0 "UPD_STAT.RUN_BANK",
  fr 0x40 22 22 .ro .none 0 "UPD_STAT.TRIAL",
  fr 0x40 21 21 .ro .none 0 "UPD_STAT.NOIMAGE",
  fr 0x40 20 20 .ro .none 0 "UPD_STAT.UNAUTH",
  fr 0x40 19 19 .ro .none 0 "UPD_STAT.COST_OVER",
  fr 0x40 18 18 .ro .none 0 "UPD_STAT.BUSY",
  fr 0x40 17 17 .ro .none 0 "UPD_STAT.ERR",
  fr 0x40 16 11 .ro .none 0 "UPD_STAT.ERRCODE",
  fa 0x44 4 2 23 21 .ro .none 0 "UPD_BANK[b].STATE",
  fa 0x4c 4 2 23 0 .ro .none 0 "UPD_VER[b].VERSION",
  fr 0x54 23 0 .ro .none 0 "UPD_FLOOR.VERSION",
  fr 0x58 23 12 .ro .none 0 "UPD_RX.NEEDED",
  fr 0x58 11 0 .ro .none 0 "UPD_RX.HAVE",
  fr 0x5c 6 6 .wt .l 0 "UPD_CMD.FORCE",
  fr 0x5c 5 5 .wt .l 0 "UPD_CMD.EPOCH",
  fr 0x5c 4 4 .wt .l 0 "UPD_CMD.ABANDON",
  fr 0x5c 3 3 .wt .l 0 "UPD_CMD.REJECT",
  fr 0x5c 2 2 .wt .l 0 "UPD_CMD.CONFIRM",
  fr 0x5c 1 1 .wt .l 0 "UPD_CMD.ACTIVATE",
  fr 0x5c 0 0 .wt .l 0 "UPD_CMD.VERIFY",
  fr 0x60 23 12 .rwh .l 0 "UPD_ARM.CODE",
  fr 0x64 23 13 .ro .none 0 "UPD_TRIAL.MIN_LEFT",
  fr 0x64 1 0 .ro .none 0 "UPD_TRIAL.ACTS",
  fr 0x68 23 12 .ro .none 0 "UPD_COST.DECLARED"]

/-- Fields of page kind 0x2A, part 1 (R588). -/
def regsK2A_1 : List RegField := [
  fr 0x68 11 0 .ro .none 0 "UPD_COST.ACTUAL",
  fr 0x6c 23 0 .ro .none 0 "UPD_BLK_LAST.OFFSET",
  fr 0x70 23 0 .rc .none 0 "UPD_BLK_REFUSED.COUNT",
  fr 0x80 23 8 .rw .l 0 "SET_SEL.ID",
  fr 0x80 3 0 .rw .l 1 "SET_SEL.LEN",
  fr 0x84 2 0 .wt .l 0 "SET_CMD.DELETE, WRITE, READ",
  fr 0x88 23 20 .ro .none 0 "SET_STAT.ERRCODE",
  fr 0x88 7 4 .ro .none 0 "SET_STAT.RLEN",
  fr 0x88 3 3 .ro .none 0 "SET_STAT.FOUND",
  fr 0x88 2 2 .ro .none 0 "SET_STAT.ERR",
  fr 0x88 1 1 .ro .none 0 "SET_STAT.BUSY",
  fa 0xa0 4 8 23 0 .rwh .l 0 "SET_DATAk.DATA"]

/-- Fields of page kind 0x2B, part 0 (R87). -/
def regsK2B_0 : List RegField := [
  fr 0x40 1 1 .wt .l 0 "CFG_CTRL.CLOSE",
  fr 0x40 0 0 .wt .l 0 "CFG_CTRL.OPEN",
  fr 0x44 4 4 .w1c .none 0 "CFG_STAT.WINDOW_ERR",
  fr 0x44 3 3 .w1c .none 0 "CFG_STAT.MISMATCH",
  fr 0x44 2 2 .ro .none 0 "CFG_STAT.MATCHED",
  fr 0x44 1 1 .ro .none 0 "CFG_STAT.REF_VALID",
  fr 0x44 0 0 .ro .none 0 "CFG_STAT.OPEN",
  fr 0x48 9 0 .rw .l 0xa "CFG_WINDOW_MAX.MS",
  fr 0x4c 23 0 .rc .none 0 "CFG_MISMATCH_COUNT.COUNT",
  fr 0x50 23 0 .mbx .l 0 "CFG_REF",
  fr 0x54 23 0 .mbx .none 0 "CFG_CRC"]

/-- Fields of page kind 0x2C, part 0 (R545). -/
def regsK2C_0 : List RegField := [
  fr 0x40 11 0 .rw .l 0x433 "PACE_WARN.LEVEL",
  fa 0x44 4 5 11 0 .rwh .l 0xfff "PACE_MIN[i].PACE",
  fr 0x58 4 0 .w1c .none 0 "PACE_EVENTS.LOW",
  fr 0x5c 23 0 .ro .none 0 "MON_TB_LO.TB"]

/-- Fields of page kind 0x2D, part 0 (R455). -/
def regsK2D_0 : List RegField := [
  fr 0x40 23 0 .rw .l 0x258 "KA_LIMIT.S",
  fr 0x44 23 23 .w1c .none 0 "KA_STAT.VALID",
  fr 0x44 22 22 .w1c .none 0 "KA_STAT.FULL",
  fr 0x44 7 0 .ro .none 0 "KA_STAT.ENTRY",
  fr 0x48 8 0 .ro .none 0 "KA_USED.ENTRIES",
  fr 0x4c 23 0 .rc .none 0 "KA_FLAGS.COUNT",
  fr 0x50 23 0 .rc .none 0 "KA_FULL.COUNT",
  fa 0x60 4 4 23 22 .rw .l 0 "WIN_CFG[k].EDGE",
  fa 0x60 4 4 21 12 .rw .l 0x64 "WIN_CFG[k].FILT_US",
  fa 0x70 4 4 23 0 .rw .l 0 "WIN_MAP_LO[k].MAP",
  fa 0x80 4 4 7 0 .rw .l 0 "WIN_MAP_HI[k].MAP",
  fr 0x90 3 0 .w1c .none 0 "WIN_EVENTS.EDGE",
  fa 0x100 4 32 23 23 .rw .l 0 "CL_CFG[c].EN",
  fa 0x100 4 32 22 22 .rw .l 0 "CL_CFG[c].NM_MODE",
  fa 0x100 4 32 21 21 .rw .l 0 "CL_CFG[c].NM_TX_EN",
  fa 0x100 4 32 20 20 .rw .l 0 "CL_CFG[c].TX_WAKE",
  fa 0x100 4 32 19 19 .rw .l 0 "CL_CFG[c].SRC_SEL",
  fa 0x100 4 32 18 13 .rw .l 0 "CL_CFG[c].NODE_POS",
  fa 0x100 4 32 12 12 .rw .l 0 "CL_CFG[c].START_AWAKE",
  fa 0x200 4 32 23 0 .rw .l 0 "CL_NM_ID[c].ID",
  fa 0x280 4 32 23 0 .rw .l 0 "CL_NM_MASK[c].MASK",
  fa 0x300 4 32 23 23 .rw .l 0 "CL_NM_HI[c].IDE",
  fa 0x300 4 32 9 5 .rw .l 0 "CL_NM_HI[c].ID_HI",
  fa 0x300 4 32 4 0 .rw .l 0 "CL_NM_HI[c].MASK_HI"]

/-- Fields of page kind 0x2D, part 1 (R455). -/
def regsK2D_1 : List RegField := [
  fa 0x380 4 32 23 12 .rw .l 0xc8 "CL_TMR_A[c].NM_TIMEOUT",
  fa 0x380 4 32 11 0 .rw .l 0x96 "CL_TMR_A[c].REPEAT",
  fa 0x400 4 32 23 12 .rw .l 0x64 "CL_TMR_B[c].WAIT",
  fa 0x400 4 32 11 0 .rw .l 0x32 "CL_TMR_B[c].CYCLE",
  fa 0x480 4 32 13 0 .rw .l 0 "CL_NM_LAYOUT[c].LAYOUT",
  fa 0x500 4 32 23 0 .rw .l 0 "CL_MAP_LO[c].MAP",
  fa 0x580 4 32 7 0 .rw .l 0 "CL_MAP_HI[c].MAP",
  fa 0x600 4 32 1 1 .wt .l 0 "CL_CMD[c].REQUEST",
  fa 0x600 4 32 0 0 .wt .l 0 "CL_CMD[c].RELEASE",
  fa 0x680 4 32 23 21 .ro .none 0 "CL_STAT[c].STATE",
  fa 0x680 4 32 20 20 .ro .none 0 "CL_STAT[c].REQ",
  fa 0x680 4 32 19 19 .ro .none 0 "CL_STAT[c].COMFAIL",
  fa 0x680 4 32 18 18 .ro .none 0 "CL_STAT[c].ARMING",
  fa 0x700 4 32 4 4 .w1c .none 0 "CL_EVENTS[c].KEEPAWAKE",
  fa 0x700 4 32 3 3 .w1c .none 0 "CL_EVENTS[c].COMFAIL",
  fa 0x700 4 32 2 2 .w1c .none 0 "CL_EVENTS[c].PREP_WAKE",
  fa 0x700 4 32 1 1 .w1c .none 0 "CL_EVENTS[c].SLEEP",
  fa 0x700 4 32 0 0 .w1c .none 0 "CL_EVENTS[c].WAKE",
  fa 0x780 4 32 23 21 .ro .none 0 "CL_WAKE_SRC[c].CAUSE",
  fa 0x780 4 32 20 13 .ro .none 0 "CL_WAKE_SRC[c].WHO",
  fa 0x780 4 32 12 12 .ro .none 0 "CL_WAKE_SRC[c].LATCHED",
  fa 0x800 4 32 23 0 .rc .none 0 "CL_PREP[c].COUNT"]

/-- Fields of page kind 0x2E, part 0 (R108, R536). -/
def regsK2E_0 : List RegField := [
  fr 0x40 23 23 .w1c .none 0 "HUB_STAT.ALERT",
  fr 0x40 22 22 .ro .none 0 "HUB_STAT.HUB_FAULT",
  fr 0x40 21 21 .w1c .none 0 "HUB_STAT.ROSTER_FULL",
  fr 0x40 20 20 .w1c .none 0 "HUB_STAT.LOG_LOST",
  fr 0x40 19 19 .w1c .none 0 "HUB_STAT.EVICTED",
  fr 0x44 23 20 .rw .l 3 "HUB_PERM.COUNT",
  fr 0x44 9 0 .rw .l 0x18 "HUB_PERM.WINDOW_H",
  fr 0x48 23 0 .ro .none 0 "HUB_OPER_MIN.MIN",
  fr 0x4c 23 0 .w1c .none 0 "HUB_VEC_PEND_LO.PEND",
  fr 0x50 7 0 .w1c .none 0 "HUB_VEC_PEND_HI.PEND",
  fr 0x54 8 0 .rw .l 0 "HUB_RECLAIM.ENTRY",
  fr 0x58 0 0 .wt .l 0 "HUB_CMD.RECLAIM",
  fr 0x5c 11 8 .ro .none 0 "HUB_CMD_STAT.ERRCODE",
  fr 0x5c 2 2 .ro .none 0 "HUB_CMD_STAT.ERR",
  fr 0x5c 1 1 .ro .none 0 "HUB_CMD_STAT.BUSY",
  fr 0x60 9 0 .ro .none 0 "HUB_ROSTER_USED.ENTRIES",
  fr 0x64 23 0 .rc .none 0 "HUB_EVICT.COUNT",
  fr 0x68 23 0 .rc .none 0 "HUB_LOG_LOST.COUNT",
  fa 0x100 4 64 23 23 .rw .l 1 "HUB_CLASS_CFG[c].LOG",
  fa 0x100 4 64 22 22 .rw .l 0 "HUB_CLASS_CFG[c].UP",
  fa 0x100 4 64 21 21 .rw .l 1 "HUB_CLASS_CFG[c].ALERT_EN",
  fa 0x100 4 64 20 20 .rw .l 1 "HUB_CLASS_CFG[c].VEC_EN",
  fa 0x100 4 64 19 15 .rw .l 0 "HUB_CLASS_CFG[c].VEC",
  fr 0x200 23 0 .ro .none 0 "FUR_ITEMS.ITEMS"]

/-- Fields of page kind 0x2E, part 1 (R108, R112). -/
def regsK2E_1 : List RegField := [
  fr 0x204 23 0 .ro .none 0 "FUR_WORDS.WORDS",
  fr 0x208 23 0 .ro .none 0 "FUR_CAP.CAPACITY",
  fr 0x20c 23 0 .rwh .l 0 "FUR_HWM.HWM",
  fr 0x210 4 4 .w1c .none 0 "FUR_STAT.POISONED",
  fr 0x210 3 3 .w1c .none 0 "FUR_STAT.REWOUND",
  fr 0x210 2 2 .ro .none 0 "FUR_STAT.OPEN",
  fr 0x210 1 1 .ro .none 0 "FUR_STAT.FULL",
  fr 0x210 0 0 .ro .none 1 "FUR_STAT.EMPTY",
  fr 0x214 23 0 .rc .none 0 "FUR_REWIND_COUNT.COUNT",
  fr 0x218 23 0 .rc .none 0 "FUR_POISON_COUNT.COUNT",
  fr 0x240 23 23 .rc .none 0 "FUR_POP.VALID",
  fr 0x240 22 22 .rc .none 0 "FUR_POP.POISON",
  fr 0x240 19 16 .rc .none 0 "FUR_POP.LEN",
  fr 0x240 15 0 .rc .none 0 "FUR_POP.REMAIN",
  fa 0x244 4 8 23 0 .ro .none 0 "FUR_POPDATAk.DATA"]

/-- Fields of page kind 0x2F, part 0 (R658). -/
def regsK2F_0 : List RegField := [
  fr 0x40 23 21 .ro .none 2 "PWR_STAT.STATE",
  fr 0x40 20 20 .ro .none 0 "PWR_STAT.STOPPING",
  fr 0x44 23 23 .rw .l 0 "PWR_CTRL.AUTO_STBY",
  fr 0x44 11 0 .rw .l 0x3e8 "PWR_CTRL.STBY_DELAY_MS",
  fr 0x48 23 12 .rwh .l 0 "PWR_ARM.CODE",
  fr 0x4c 2 2 .wt .l 0 "PWR_CMD.FORCE",
  fr 0x4c 1 1 .wt .l 0 "PWR_CMD.WARM",
  fr 0x4c 0 0 .wt .l 0 "PWR_CMD.STANDBY",
  fr 0x50 2 2 .w1c .none 0 "PWR_EVENTS.CMD_REFUSED",
  fr 0x50 1 1 .w1c .none 0 "PWR_EVENTS.STBY_ABORT",
  fr 0x50 0 0 .w1c .none 0 "PWR_EVENTS.STBY_REFUSED",
  fr 0x54 23 21 .ro .none 0 "RST_CAUSE.CAUSE",
  fr 0x58 23 0 .ro .none 0 "BOOT_TIME.US"]

/-- Fields of page kind 0x30, part 0 (R659). -/
def regsK30_0 : List RegField := [
  fr 0x40 23 22 .ro .none 1 "SUP_STAT.MODE",
  fr 0x40 21 21 .ro .none 0 "SUP_STAT.VOTE",
  fr 0x40 20 20 .ro .none 0 "SUP_STAT.HB_OK",
  fr 0x40 19 19 .ro .none 0 "SUP_STAT.VBAT_LOW",
  fr 0x40 18 18 .ro .none 0 "SUP_STAT.VCC5_LOW",
  fr 0x40 17 17 .ro .none 0 "SUP_STAT.OVERTEMP",
  fr 0x40 16 15 .ro .none 0 "SUP_STAT.PGOOD_FAILS",
  fr 0x44 23 0 .ro .none 0 "SUP_LATCH0.CAN",
  fr 0x48 23 16 .ro .none 0 "SUP_LATCH1.CAN",
  fr 0x48 15 4 .ro .none 0 "SUP_LATCH1.LIN",
  fr 0x48 3 0 .ro .none 0 "SUP_LATCH1.T1S",
  fr 0x4c 23 20 .ro .none 0 "SUP_LATCH2.T1S",
  fr 0x4c 19 18 .ro .none 0 "SUP_LATCH2.WAKE_IN",
  fr 0x50 15 0 .ro .none 0 "SUP_VBAT.MV",
  fr 0x54 8 0 .ro .none 0 "SUP_TEMP.DEGC"]

/-- Fields of page kind 0x40, part 0 (R501). -/
def regsK40_0 : List RegField := [
  fr 0x40 0 0 .wl .l 0 "SEC_LOCK.KEYS",
  fr 0x44 23 23 .w1c .none 0 "SEC_FAIL_CAP.VALID",
  fr 0x44 22 20 .ro .none 0 "SEC_FAIL_CAP.REASON",
  fr 0x44 9 0 .ro .none 0 "SEC_FAIL_CAP.PROFILE",
  fr 0x48 23 0 .rc .none 0 "SEC_MAC_FAIL.COUNT",
  fr 0x4c 23 0 .rc .none 0 "SEC_FV_FAIL.COUNT",
  fr 0x50 23 0 .rc .none 0 "SEC_SHORT.COUNT",
  fr 0x54 23 0 .rc .none 0 "SEC_FV_EXHAUSTED.COUNT",
  fr 0x58 23 0 .rc .none 0 "SEC_KEY_USE_ERR.COUNT",
  fr 0x5c 23 0 .rc .none 0 "SEC_HOLD_DROP.COUNT",
  fr 0x60 23 0 .rc .none 0 "SEC_QDROP.COUNT",
  fr 0x64 23 0 .mbx .none 0 "SEC_GENERATED",
  fr 0x68 23 0 .mbx .none 0 "SEC_VERIFIED",
  fr 0x6c 3 0 .w1c .none 0 "SEC_HRW_STAT.NOSPARE, RETIRED, QUARANTINED, REPAIRED",
  fr 0x70 23 20 .ro .none 0 "SEC_HRW_CAP.TABLE",
  fr 0x70 19 19 .w1c .none 0 "SEC_HRW_CAP.VALID",
  fr 0x70 9 0 .ro .none 0 "SEC_HRW_CAP.INDEX",
  fr 0x74 10 0 .ro .none 0 "SEC_QUAR_NOW.ENTRIES",
  fr 0x78 7 0 .w1c .none 0 "SEC_PN_EVENTS.SECY",
  fa 0x80 4 5 3 0 .ro .none 8 "SEC_SPARE[t].ROWS",
  faa 0x100 4 8 0x20 8 23 0 .mbx .none 0 "SECY_CNT[s][k]"]

/-- Fields of page kind 0x42, part 0 (R108, R502). -/
def regsK42_0 : List RegField := [
  fr 0x40 23 23 .ro .none 0 "LANE_STAT.FALLOW",
  fr 0x40 22 22 .ro .none 0 "LANE_STAT.SELFTEST",
  fr 0x40 21 21 .ro .none 0 "LANE_STAT.BUSY",
  fr 0x44 23 0 .rc .none 0 "LANE_FAULTS.COUNT",
  fr 0x48 23 0 .rc .none 0 "LANE_POISON.COUNT",
  fr 0x4c 23 0 .mbx .none 0 "LANE_BLOCKS",
  fr 0x100 23 0 .ro .none 0 "FUR_ITEMS.ITEMS",
  fr 0x104 23 0 .ro .none 0 "FUR_WORDS.WORDS",
  fr 0x108 23 0 .ro .none 0 "FUR_CAP.CAPACITY",
  fr 0x10c 23 0 .rwh .l 0 "FUR_HWM.HWM",
  fr 0x110 4 4 .w1c .none 0 "FUR_STAT.POISONED",
  fr 0x110 3 3 .w1c .none 0 "FUR_STAT.REWOUND",
  fr 0x110 2 2 .ro .none 0 "FUR_STAT.OPEN",
  fr 0x110 1 1 .ro .none 0 "FUR_STAT.FULL",
  fr 0x110 0 0 .ro .none 1 "FUR_STAT.EMPTY",
  fr 0x114 23 0 .rc .none 0 "FUR_REWIND_COUNT.COUNT",
  fr 0x118 23 0 .rc .none 0 "FUR_POISON_COUNT.COUNT"]

/-- Fields of page kind 0x43, part 0 (R503). -/
def regsK43_0 : List RegField := [
  fr 0x40 23 18 .rw .l 0 "KEY_SEL.USAGE",
  fr 0x40 17 17 .rw .l 0 "KEY_SEL.K256",
  fr 0x40 16 16 .rw .l 0 "KEY_SEL.PERSIST",
  fr 0x40 9 0 .rw .l 0 "KEY_SEL.SLOT",
  fr 0x44 3 0 .wt .l 0 "KEY_CMD.INFO, DERIVE, GENERATE, ERASE",
  fr 0x48 23 20 .ro .none 0 "KEY_STAT.ERRCODE",
  fr 0x48 2 2 .ro .none 0 "KEY_STAT.ERR",
  fr 0x48 1 1 .ro .none 0 "KEY_STAT.BUSY",
  fr 0x48 0 0 .ro .none 0 "KEY_STAT.SAVING",
  fr 0x4c 23 23 .ro .none 0 "KEY_INFO.VALID",
  fr 0x4c 22 17 .ro .none 0 "KEY_INFO.USAGE",
  fr 0x4c 16 16 .ro .none 0 "KEY_INFO.K256",
  fr 0x4c 15 15 .ro .none 0 "KEY_INFO.PERSIST",
  fr 0x4c 14 12 .ro .none 0 "KEY_INFO.ORIGIN",
  fr 0x50 23 0 .ro .none 0 "KEY_KCV.KCV",
  fr 0x54 23 0 .mbx .l 0 "KEY_VALUE",
  fr 0x58 23 23 .rw .l 0 "KDF_CFG.SRC_ROOT",
  fr 0x58 19 16 .rw .l 0 "KDF_CFG.LABEL_LEN",
  fr 0x58 15 12 .rw .l 0 "KDF_CFG.CTX_LEN",
  fr 0x58 9 0 .rw .l 0 "KDF_CFG.SRC_SLOT",
  fa 0x60 4 4 23 0 .rw .l 0 "KDF_LABEL[k].BYTES",
  fa 0x70 4 4 23 0 .rw .l 0 "KDF_CTX[k].BYTES",
  fr 0x80 23 0 .rc .none 0 "KEY_LOADED.COUNT",
  fr 0x84 23 0 .rc .none 0 "KEY_DISCARDED.COUNT"]

/-- Fields of page kind 0x43, part 1 (R503). -/
def regsK43_1 : List RegField := [
  fr 0x88 23 0 .rc .none 0 "KEY_FAULTS.COUNT"]

/-- Fields of page kind 0x44, part 0 (R504). -/
def regsK44_0 : List RegField := [
  fr 0x40 23 21 .ro .none 0 "LC_STAT.STATE",
  fr 0x40 20 18 .ro .none 0 "LC_STAT.PENDING",
  fr 0x40 17 17 .ro .none 0 "LC_STAT.BUSY",
  fr 0x40 16 16 .ro .none 0 "LC_STAT.ERR",
  fr 0x40 15 12 .ro .none 0 "LC_STAT.ERRCODE",
  fr 0x40 11 9 .ro .none 0 "LC_STAT.ROOT_OK",
  fr 0x44 23 12 .rwh .l 0 "LC_ARM.CODE",
  fr 0x44 2 0 .rwh .l 0 "LC_ARM.TARGET",
  fr 0x48 0 0 .wt .l 0 "LC_CMD.GO",
  fr 0x4c 0 0 .wl .l 0 "LC_LOCK.TRANSITIONS",
  fr 0x50 5 0 .ro .none 0 "LC_EPOCH.STEPS"]

/-- Fields of page kind 0x46, part 0 (R519). -/
def regsK46_0 : List RegField := [
  fr 0x40 23 21 .rw .b 0 "CV_CFG.POLY",
  fr 0x40 20 19 .rw .b 0 "CV_CFG.FOLD_LEN",
  fr 0x44 23 0 .rw .b 0 "CV_FOLD.FOLD",
  fr 0x48 23 0 .rw .b 0 "CV_LEN.LEN",
  fr 0x4c 23 0 .rw .l 0 "CV_DATA.WORD",
  fr 0x50 1 1 .wt .l 0 "CV_CMD.ABORT",
  fr 0x50 0 0 .wt .l 0 "CV_CMD.START",
  fr 0x54 11 8 .ro .none 0 "CV_STAT.ERRCODE",
  fr 0x54 4 4 .ro .none 0 "CV_STAT.FALLOW",
  fr 0x54 3 3 .w1c .none 0 "CV_STAT.STRAY",
  fr 0x54 2 2 .ro .none 0 "CV_STAT.ERR",
  fr 0x54 1 1 .ro .none 0 "CV_STAT.BUSY",
  fr 0x54 0 0 .ro .none 0 "CV_STAT.DONE",
  fr 0x58 23 0 .ro .none 0 "CV_FED.FED",
  fr 0x5c 7 0 .ro .none 0 "CV_RESULT_HI.RESULT_HI",
  fr 0x60 23 0 .ro .none 0 "CV_RESULT_LO.RESULT_LO"]

/-- Fields of page kind 0x47, part 0 (R505). -/
def regsK47_0 : List RegField := [
  fr 0x40 23 23 .ro .none 0 "ENT_STAT.HEALTHY",
  fr 0x40 22 22 .ro .none 0 "ENT_STAT.STARTUP",
  fr 0x40 21 21 .w1c .none 0 "ENT_STAT.RCT_FAIL",
  fr 0x40 20 20 .w1c .none 0 "ENT_STAT.APT_FAIL",
  fr 0x44 23 0 .rc .none 0 "ENT_FAILS.COUNT",
  fr 0x48 0 0 .wt .l 0 "DRBG_CMD.RESEED",
  fr 0x4c 23 22 .ro .none 0 "DRBG_STAT.STATE",
  fr 0x4c 21 21 .w1c .none 0 "DRBG_STAT.ERR_SEEN",
  fr 0x50 23 0 .rc .none 0 "DRBG_OUT.BITS"]

/-- Fields of page kind 0x50, part 0 (R636). -/
def regsK50_0 : List RegField := [
  fr 0x40 23 23 .ro .none 0 "PCIE_STAT.LINK_UP",
  fr 0x40 22 20 .ro .none 0 "PCIE_STAT.WIDTH",
  fr 0x40 19 18 .ro .none 0 "PCIE_STAT.SPEED",
  fr 0x40 5 0 .ro .none 0 "PCIE_STAT.DEV_ID",
  fr 0x44 9 0 .rw .l 0xa "HOSTQ_STALL.MS",
  fr 0x48 4 0 .rw .l 0x1f "PCIE_VEC.REMOTE_VEC",
  fr 0x4c 23 0 .w1c .none 0 "REMOTE_PEND_LO.PEND",
  fr 0x50 23 0 .w1c .none 0 "REMOTE_PEND_MID.PEND",
  fr 0x54 15 0 .w1c .none 0 "REMOTE_PEND_HI.PEND",
  fr 0x58 23 23 .w1c .none 0 "REMOTE_CAP.VALID",
  fr 0x58 22 22 .ro .none 0 "REMOTE_CAP.WRITE",
  fr 0x58 21 21 .ro .none 0 "REMOTE_CAP.PF",
  fr 0x58 20 18 .ro .none 0 "REMOTE_CAP.REASON",
  fr 0x58 5 0 .ro .none 0 "REMOTE_CAP.DEV",
  fr 0x5c 23 0 .rc .none 0 "REMOTE_FAIL.COUNT",
  fr 0x60 23 0 .rc .none 0 "CPL_ERR.COUNT",
  fr 0x64 23 0 .rc .none 0 "LATE_CPL.COUNT"]

/-- Fields of page kind 0x52, part 0 (R637). -/
def regsK52_0 : List RegField := [
  fa 0x40 0x40 2 23 23 .rw .b 0 "HTX_CFG.EN",
  fa 0x40 0x40 2 22 22 .rw .b 0 "HTX_CFG.UPDATE",
  fa 0x40 0x40 2 20 16 .rw .q 6 "HTX_CFG.SIZE_LOG",
  fa 0x40 0x40 2 4 0 .rw .l 0 "HTX_CFG.VEC",
  fa 0x44 0x40 2 23 0 .rw .q 0 "BASE_LO.ADDR",
  fa 0x48 0x40 2 23 0 .rw .q 0 "BASE_HI.ADDR",
  fa 0x4c 0x40 2 15 0 .rw .l 0 "TAIL.INDEX",
  fa 0x50 0x40 2 15 0 .ro .none 0 "HEAD.INDEX",
  fa 0x54 0x40 2 3 3 .w1c .none 0 "HTX_STAT.TAIL_ERR",
  fa 0x54 0x40 2 2 2 .ro .none 0 "HTX_STAT.FETCH_HELD",
  fa 0x54 0x40 2 1 1 .w1c .none 0 "HTX_STAT.CPL_ERR",
  fa 0x54 0x40 2 0 0 .w1c .none 0 "HTX_STAT.STALL",
  fa 0x58 0x40 2 23 0 .rc .none 0 "HTX_ERRS.COUNT",
  fa 0x5c 0x40 2 23 0 .mbx .none 0 "HTX_PKTS"]

/-- Fields of page kind 0x54, part 0 (R637). -/
def regsK54_0 : List RegField := [
  fa 0x40 0x40 2 23 23 .rw .b 0 "HRX_CFG.EN",
  fa 0x40 0x40 2 20 16 .rw .q 6 "HRX_CFG.SIZE_LOG",
  fa 0x40 0x40 2 15 5 .rw .l 0 "HRX_CFG.HOLDOFF_US",
  fa 0x40 0x40 2 4 0 .rw .l 0 "HRX_CFG.VEC",
  fa 0x44 0x40 2 23 0 .rw .q 0 "BASE_LO.ADDR",
  fa 0x48 0x40 2 23 0 .rw .q 0 "BASE_HI.ADDR",
  fa 0x4c 0x40 2 15 0 .rw .l 0 "TAIL.INDEX",
  fa 0x50 0x40 2 15 0 .ro .none 0 "HEAD.INDEX",
  fa 0x54 0x40 2 2 2 .w1c .none 0 "HRX_STAT.TAIL_ERR",
  fa 0x54 0x40 2 1 1 .w1c .none 0 "HRX_STAT.TRUNC",
  fa 0x54 0x40 2 0 0 .ro .none 0 "HRX_STAT.NOFREE",
  fa 0x58 0x40 2 23 0 .rc .none 0 "HRX_TRUNCS.COUNT",
  fa 0x5c 0x40 2 23 0 .mbx .none 0 "HRX_PKTS"]

/-- Fields of page kind 0x56, part 0 (R108, R638). -/
def regsK56_0 : List RegField := [
  fr 0x40 23 23 .rw .q 0 "LNK_CTRL.EN",
  fr 0x44 23 23 .ro .none 0 "LNK_STAT.TRAINED",
  fr 0x44 22 22 .ro .none 0 "LNK_STAT.FALLOW",
  fr 0x44 21 21 .ro .none 0 "LNK_STAT.ID_CLASH",
  fr 0x44 5 0 .ro .none 0 "LNK_STAT.PEER_ID",
  fr 0x48 18 0 .ro .none 0 "LNK_REPLAY.BYTES",
  fr 0x4c 23 0 .rc .none 0 "LNK_CRC_ERR.COUNT",
  fr 0x50 23 0 .rc .none 0 "LNK_NAK_TX.COUNT",
  fr 0x54 23 0 .rc .none 0 "LNK_NAK_RX.COUNT",
  fr 0x58 23 0 .rc .none 0 "LNK_REPLAYS.COUNT",
  fr 0x5c 23 0 .rc .none 0 "LNK_RETRAINS.COUNT",
  fr 0x60 23 0 .rc .none 0 "LNK_LOST.COUNT",
  fr 0x64 23 0 .rc .none 0 "LNK_RELAY_DROP.COUNT",
  fr 0x68 23 0 .rc .none 0 "LNK_PROTO.COUNT",
  fr 0x70 23 0 .mbx .none 0 "LNK_TX_FRAMES",
  fr 0x74 23 0 .mbx .none 0 "LNK_RX_FRAMES",
  fr 0x100 23 0 .ro .none 0 "FUR_ITEMS.ITEMS",
  fr 0x104 23 0 .ro .none 0 "FUR_WORDS.WORDS",
  fr 0x108 23 0 .ro .none 0 "FUR_CAP.CAPACITY",
  fr 0x10c 23 0 .rwh .l 0 "FUR_HWM.HWM",
  fr 0x110 4 4 .w1c .none 0 "FUR_STAT.POISONED",
  fr 0x110 3 3 .w1c .none 0 "FUR_STAT.REWOUND",
  fr 0x110 2 2 .ro .none 0 "FUR_STAT.OPEN",
  fr 0x110 1 1 .ro .none 0 "FUR_STAT.FULL"]

/-- Fields of page kind 0x56, part 1 (R108). -/
def regsK56_1 : List RegField := [
  fr 0x110 0 0 .ro .none 1 "FUR_STAT.EMPTY",
  fr 0x114 23 0 .rc .none 0 "FUR_REWIND_COUNT.COUNT",
  fr 0x118 23 0 .rc .none 0 "FUR_POISON_COUNT.COUNT"]

/-- Fields of page kind 0x57, part 0 (R640). -/
def regsK57_0 : List RegField := [
  fr 0x40 23 23 .rw .q 0 "PAIR_CFG.EN",
  fr 0x40 22 22 .rw .q 0 "PAIR_CFG.PRIMARY",
  fr 0x40 21 21 .rw .q 0 "PAIR_CFG.LINK",
  fr 0x40 20 20 .rw .l 1 "PAIR_CFG.SELF_QUIET",
  fr 0x40 19 13 .rw .l 0xa "PAIR_CFG.LEASE_MS",
  fr 0x40 12 6 .rw .l 0xa "PAIR_CFG.PEER_LEASE_MS",
  fr 0x40 5 0 .rw .l 0x10 "PAIR_CFG.FV_SKIP",
  fr 0x44 15 0 .rw .l 0x7d0 "PAIR_RECLAIM.MS",
  fr 0x48 1 1 .wt .l 0 "PAIR_CMD.GRANT",
  fr 0x48 0 0 .wt .l 0 "PAIR_CMD.HANDOVER",
  fr 0x4c 23 21 .ro .none 0 "PAIR_STAT.STATE",
  fr 0x4c 20 20 .ro .none 0 "PAIR_STAT.CONTACT",
  fr 0x4c 19 19 .ro .none 0 "PAIR_STAT.SYNCED",
  fr 0x4c 18 18 .ro .none 0 "PAIR_STAT.HEALTHY",
  fr 0x4c 17 17 .ro .none 0 "PAIR_STAT.LEASE_VALID",
  fr 0x4c 16 16 .ro .none 0 "PAIR_STAT.PEER_ACTIVE",
  fr 0x4c 15 15 .ro .none 0 "PAIR_STAT.CONFLICT",
  fr 0x4c 6 0 .ro .none 0 "PAIR_STAT.PEER_LEASE",
  fr 0x50 5 5 .w1c .none 0 "PAIR_EVENTS.CONFLICT",
  fr 0x50 4 4 .w1c .none 0 "PAIR_EVENTS.RECLAIMED",
  fr 0x50 3 3 .w1c .none 0 "PAIR_EVENTS.TAKEOVER",
  fr 0x50 2 2 .w1c .none 0 "PAIR_EVENTS.QUIETED",
  fr 0x50 1 1 .w1c .none 0 "PAIR_EVENTS.CONTACT_LOST",
  fr 0x50 0 0 .w1c .none 0 "PAIR_EVENTS.SYNC_DONE"]

/-- Fields of page kind 0x57, part 1 (R640). -/
def regsK57_1 : List RegField := [
  fr 0x54 23 0 .ro .none 0 "PAIR_LEASE_LEFT.US",
  fr 0x58 23 0 .rc .none 0 "PAIR_TAKEOVERS.COUNT",
  fr 0x5c 23 0 .rc .none 0 "PAIR_EXPIRIES.COUNT",
  fr 0x60 23 0 .mbx .none 0 "PAIR_DISCARD"]

/-- Fields of page kind 0x58, part 0 (R639). -/
def regsK58_0 : List RegField := [
  fr 0x40 5 0 .rw .l 0 "RT_CTRL.HOST_DEV",
  fr 0x44 13 0 .rw .l 0x3e8 "RT_RELAY.MAX_US",
  fr 0x48 23 0 .rc .none 0 "RT_NOROUTE.COUNT",
  fa 0x100 4 64 23 22 .rw .l 0 "RT_ROUTE[d].REG_PATH",
  fa 0x100 4 64 21 20 .rw .b 0 "RT_ROUTE[d].DATA_PATH"]

/-- The fields of a page kind beside the header (R688). A kind whose chapter gives it the header alone has none. -/
def kindFields : Nat → List RegField
  | 0x02 => regsK02_0
  | 0x03 => regsK03_0 ++ regsK03_1 ++ regsK03_2 ++ regsK03_3 ++ regsK03_4
  | 0x04 => regsK04_0
  | 0x06 => regsK06_0 ++ regsK06_1 ++ regsK06_2
  | 0x09 => regsK09_0 ++ regsK09_1 ++ regsK09_2 ++ regsK09_3
  | 0x0A => regsK0A_0
  | 0x0B => regsK0B_0
  | 0x0C => regsK0C_0
  | 0x0D => regsK0D_0 ++ regsK0D_1 ++ regsK0D_2
  | 0x0E => regsK0E_0
  | 0x0F => regsK0F_0
  | 0x11 => regsK11_0
  | 0x1F => regsK1F_0
  | 0x20 => regsK20_0
  | 0x21 => regsK21_0
  | 0x22 => regsK22_0
  | 0x23 => regsK23_0
  | 0x24 => regsK24_0
  | 0x25 => regsK25_0
  | 0x26 => regsK26_0
  | 0x27 => regsK27_0 ++ regsK27_1
  | 0x28 => regsK28_0
  | 0x29 => regsK29_0
  | 0x2A => regsK2A_0 ++ regsK2A_1
  | 0x2B => regsK2B_0
  | 0x2C => regsK2C_0
  | 0x2D => regsK2D_0 ++ regsK2D_1
  | 0x2E => regsK2E_0 ++ regsK2E_1
  | 0x2F => regsK2F_0
  | 0x30 => regsK30_0
  | 0x40 => regsK40_0
  | 0x42 => regsK42_0
  | 0x43 => regsK43_0 ++ regsK43_1
  | 0x44 => regsK44_0
  | 0x46 => regsK46_0
  | 0x47 => regsK47_0
  | 0x50 => regsK50_0
  | 0x52 => regsK52_0
  | 0x54 => regsK54_0
  | 0x56 => regsK56_0 ++ regsK56_1
  | 0x57 => regsK57_0 ++ regsK57_1
  | 0x58 => regsK58_0
  | _ => []

/-- The fields of the page header (R37). -/
def headerFields : List RegField := regsK00_0 ++ regsK00_1

end Sys2Proof.Machine
end

