-- ==== Sys2Proof/Machine/State.lean ====
section
/-! DEFINITION. The state of the gateway as plain data: everything the spec gives the part, the queue of waiting commands,
and the machine right after a core reset. INVENTORY.md lists each piece with its rule and reset value. -/
namespace Sys2Proof.Machine

/-- What fuses, package bonding and straps fix (R1, R2, R4, R5, R487, R552, R579): data of the die, no register write
changes it but the fuse programming of LC_GO and UPD_EPOCH. -/
structure Fuses where
  canCount : Nat
  xTier : Bool
  sec : Bool
  pkg : Nat
  devId : Nat
  dieId : NMap Word
  deriving DecidableEq, Repr

/-- A read's completion at its requester (R35, R36, R700): the value, or Unsupported Request. -/
structure ReadDone where
  value : Word
  ur : Bool
  deriving DecidableEq, Repr

/-- A B-class field write that waits for a cell's item boundary (R55): the page of the cell, the slot's address, and the
word the cell still uses. -/
structure BPend where
  cell : Nat
  addr : Nat
  old : Word
  deriving DecidableEq, Repr

/-- A furrow (R88 to R100): the committed items, oldest first, each a list of 28-bit words; the words written since the
last commit; how many words of the head item the consumer has taken, and how many of the open item; whether the rewind
marker waits for the consumer (R100); whether a word of the item being read failed its parity (R103); and the whole items of
other producers that the arbiter in front makes wait until the open item has ended or space is free (R90, R111). -/
structure Furrow where
  items : List (List (BitVec 28))
  openWords : List (BitVec 28)
  taken : Nat
  openTaken : Nat
  marker : Bool
  failed : Bool
  waits : List (List (BitVec 28))
  deriving DecidableEq, Repr

/-- A field of a register that a running command writes when it completes. -/
structure FieldPut where
  addr : Nat
  hi : Nat
  lo : Nat
  val : Nat
  deriving DecidableEq, Repr

/-- A command of a mailbox, a table port or the like that runs (R70, R75, R215): the command bits written, the moment at
which it completes, and the fields that it writes then. -/
structure CmdRun where
  bits : Nat
  doneAt : Nat
  puts : List FieldPut
  deriving DecidableEq, Repr

/-- A read of FUR_POP stalled on an empty furrow (R114, R117): its furrow's page, its requester and the end of its guard. -/
structure StalledPop where
  page : Nat
  requester : Nat
  guardEnd : Nat
  deriving DecidableEq, Repr

/-- A write that needs the memory of a parked region (R62, R452): its requester, address and value, and the object that the window
of a CAN channel shows. -/
structure RetWrite where
  requester : Nat
  addr : Nat
  value : Nat
  sel : Nat
  deriving DecidableEq, Repr

/-- An access of a requester that waits behind a stalled pop of the same requester (R51, R114): whether it writes, its address,
its value and whether every byte enable is set; `tag` is the REG_REQ of another device's host that it answers. -/
structure HeldAcc where
  requester : Nat
  write : Bool
  addr : Nat
  value : Nat
  whole : Bool
  tag : Option Nat
  deriving DecidableEq, Repr

/-- A PAGE_CTRL trigger that waits for the page's item boundary (R41), or the page's part of a turn (R570). -/
inductive PageTrig where
  | run | stop | restart | turn
  deriving DecidableEq, Repr

/-- The configuration checker beside its registers (R81 to R85): whether the pass in progress began after the last CLOSE,
when the window opened, whether this window's record was raised. -/
structure CfgCheck where
  comparable : Bool
  openedAt : Nat
  windowRecorded : Bool
  deriving DecidableEq, Repr

/-- The kinds of things that leave the device. -/
inductive SentKind where
  | canFrame | canErrorFlag | canAck | linHeader | linResponse | linWake | ethFrame | ethStomped | ethCut | ethControl | ethJam | plcaBeacon
  | linkFrame | linkAbort | intFrame | modeWord | heartbeat | goodbye | dmaWrite | pairFrame | pin
  deriving DecidableEq, Repr

/-- What leaves the device at a bus, port, link, pin or host interface. -/
structure Sent where
  port : Nat
  kind : SentKind
  info : List Nat
  bytes : List Byte
  deriving DecidableEq, Repr

/-- A learn request on the learn bus (R222, R223). -/
structure LearnReq where
  mac : Nat
  vid : Nat
  port : Nat
  deriving DecidableEq, Repr

/-- The area of its input to which a plot is charged (R127), or the held account of the shared pool (R142). -/
inductive Area where
  | res | sh | hr | held
  deriving DecidableEq, Repr

/-- A plot: bank, row and the area charged (R120, R127). -/
structure Plot where
  bank : Nat
  row : Nat
  area : Area
  deriving DecidableEq, Repr

/-- What kind of item a frame in memory is (R174, R306): an Ethernet frame, a CAN or LIN frame behind its pseudo-header, a
PDU, or a frame of the host or a link. -/
inductive ItemKind where
  | eth | can | lin | pdu
  deriving DecidableEq, Repr

/-- A frame record of packet memory (R120): what software never addresses. `bytes` is the item as memory holds it, `commitAt` when
it was committed at its input, `earlyAt` when the 64 words of R98 had come. -/
structure Frame where
  input : Nat
  kind : ItemKind
  cls : Nat
  bytes : List Byte
  plots : List Plot
  committed : Bool
  poison : Bool
  bad : Bool
  judged : Bool
  wantsTs : Bool
  tag : Nat
  commitAt : Nat
  earlyAt : Nat
  ingressNs : Nat
  macsecIn : Bool
  announced : Bool
  ended : Bool
  learn : Option LearnReq
  badFlags : Nat
  srcDev : Nat
  charges : List Nat
  deriving DecidableEq, Repr

/-- How an output writes a copy: what the route, bridge entry, layout or link header gave it (R190 to R192, R197, R299 to
R317). `src` is the item's source: 1 CAN, 2 LIN, 3 socket-adaptor PDU, 4 ACF CAN, 5 host packet, 6 ACF LIN, 7 bridged, 8
packed layout; `itemOff` and `off` are where its header and its PDU start in the frame, `len` the PDU's length; `hdr` and
`fill` are a packed layout's HDR and FILL; `split` marks a container to be split; `why` holds the TRAP, MIRROR and MISS
flags of R600; `remote` marks a copy for device `dev`. -/
structure CopyForm where
  src : Nat
  format : Nat
  itemOff : Nat
  off : Nat
  len : Nat
  hdr : Nat
  fill : Nat
  layout : Nat
  split : Bool
  why : Nat
  dev : Nat
  remote : Bool
  tag : Nat
  sec : Nat
  stream : Nat
  num : Nat
  start : Bool
  numbered : Bool
  bridged : Bool
  vid : Nat
  deriving DecidableEq, Repr

/-- A queue entry: one output copy of a frame (R136, R139). -/
structure Copy where
  frame : Nat
  input : Nat
  cls : Nat
  visibleAt : Nat
  cut : Bool
  form : CopyForm
  deriving DecidableEq, Repr

/-- The running gate control list of a MAC port (R154): the list and entry that run, when the entry began, in ns of the
802.1AS time, its interval as it stood then (R156), when the cycle began, the gates open, and whether a cycle runs: not
before the first one, nor after a move of the time. The cycle and offset in force stand beside. -/
structure GateRun where
  list : Nat
  entry : Nat
  began : Nat
  interval : Nat
  cycleBegan : Nat
  gates : Nat
  started : Bool
  cycle : Nat
  offset : Nat
  deriving DecidableEq, Repr

/-- A MACsec frame that has passed a lane (R462, R480): sent or received, its port and bytes, and for a controlled received
frame the association and packet number that its release judges; its ingress stamp. -/
structure MacPlain where
  tx : Bool
  port : Nat
  bytes : List Byte
  assoc : Option Nat
  pn : Nat
  ingressNs : Nat
  deriving DecidableEq, Repr

/-- An item at a resequencer: its copies by output, a frame from a MACsec lane, or a void (R144, R145, R462). -/
structure ReseqItem where
  copies : List (Nat × Copy)
  plain : Option MacPlain
  void : Bool
  deriving DecidableEq, Repr

/-- A resequencer stream (R144): the number expected, the items held by number, whether the gap timer runs and since
when. -/
structure Stream where
  next : Nat
  held : NMap ReseqItem
  gapFrom : Nat
  gapRuns : Bool
  deriving DecidableEq, Repr

/-- One copy of a table entry (R216): its words and whether it is valid. -/
structure TEntry where
  words : List Word
  valid : Bool
  deriving DecidableEq, Repr

/-- A pending entry (R217): the copy written first, since when, and whether its record was raised. -/
structure TPend where
  copy : Nat
  since : Nat
  recorded : Bool
  deriving DecidableEq, Repr

/-- The level of a policer in units of 2^-24 token, and its previous arrival time (R204, R205). -/
structure PolState where
  level : Nat
  last : Nat
  deriving DecidableEq, Repr

/-- A head announced in a cell's head furrow (R178): its input port; a frame of memory, or a CAN or LIN frame behind its
pseudo-header; whether the MAC flags the destination as the port's own address; the route tag and origin KIND of a routed link
item (R608), the TAG of a host packet (R594), the device whose port received it, and when it was committed at its input. -/
structure Head where
  port : Nat
  frame : Option Nat
  kind : ItemKind
  bytes : List Byte
  poison : Bool
  ownAddr : Bool
  link : Option (Nat × Nat)
  tag : Nat
  srcDev : Nat
  ingressNs : Nat
  cameAt : Nat
  seqNo : Option (Nat × Nat × Bool)
  deriving DecidableEq, Repr

/-- The verdict of an item, which waits for admission (R126): its frame in memory, or its bytes where no plot is taken
yet, its class and its copies, and when the item was committed at its input. -/
structure Verdict where
  input : Nat
  frame : Option Nat
  kind : ItemKind
  bytes : List Byte
  cls : Nat
  poison : Bool
  copies : List (Nat × CopyForm)
  seqNo : Option (Nat × Nat × Bool)
  ingressNs : Nat
  cameAt : Nat
  tag : Nat
  srcDev : Nat
  deriving DecidableEq, Repr

/-- An entry of a region's move tracker (R229): key, moves in the window, window start, pin end while pinned. -/
structure Tracker where
  mac : Nat
  vid : Nat
  count : Nat
  start : Nat
  pinned : Bool
  pinEnd : Nat
  deriving DecidableEq, Repr

/-- A slot of the signal store (R257). -/
structure Slot where
  value : Nat
  inv : Bool
  gen : Nat
  deriving DecidableEq, Repr

/-- The state of an RX layout (R286, R287, R291): tick of the last item, TIMED_OUT, E2E status, LAST_CNT, items taken, and
beside them the deadline and whether no good PDU has come since the layout became valid or timed out. -/
structure RxState where
  lastTick : Nat
  timedOut : Bool
  e2e : Nat
  lastCnt : Nat
  count : Nat
  deadline : Nat
  fresh : Bool
  deriving DecidableEq, Repr

/-- The state of a TX layout (R275, R276, R291): LAST, pending, deferred and until when, whether the request was triggered,
repetitions left and the next one's tick, SENT, sends, and one past the tick whose periodic request was issued. -/
structure TxState where
  last : Nat
  pending : Bool
  deferred : Bool
  deferTo : Nat
  trig : Bool
  repLeft : Nat
  repNext : Nat
  sent : Bool
  count : Nat
  periodAt : Nat
  deriving DecidableEq, Repr

/-- What a CAN channel's cell keeps beside its registers and objects (R330 to R355): TEC and REC in full, whether it has
integrated, MODE before BUS_OFF, whether the recovery of R351 runs, the times of its last 15 bus-off entries, the object on the
bus, when its frame began, the objects whose cancellation waits for the end of their frame, consecutive ACK errors, and whether a
frame of another node is being received, as far as anything has looked (R53, R360). -/
structure CanCh where
  tec : Nat
  recv : Nat
  joined : Bool
  prevMode : Nat
  recovering : Bool
  boffs : List Nat
  current : Option Nat
  sendAt : Nat
  cancelled : List Nat
  acks : Nat
  rxOpen : Bool
  deriving DecidableEq, Repr

/-- A LIN frame in flight (R376 to R380): its identifier, what the channel does with its response (0 ignores it, 1 receives
it, 2 sends it), the data bytes it sends or the number it expects, the collision table of an EVENT slot, the layout whose pull
it waits for (R372), when the break of its header began and its bit time in ns, as the sync byte of a responder measured it
(R364, R366, R368). -/
structure LinFrame where
  ident : Nat
  dir : Nat
  data : List Byte
  len : Nat
  event : Option Nat
  pull : Option Nat
  began : Nat
  bitNs : Nat
  deriving DecidableEq, Repr

/-- What a LIN channel's cell keeps beside its registers (R371 to R386): the last data sent by identifier, whether the schedule
runs, whether its next slot is the first after a start, when its running slot started on the grid, where it resumes after each
collision table, the collision table to run next, whether a slot has begun and not ended, the frame in flight and when the last
one ended, wake pulses sent, the wake wait: 0 none, 1 after a pulse, 2 the pause after three, with its start, when the last edge
was seen on the bus, none once idleness since has been reported (R385), and when software last set a READY that was set (R388),
and for each buffer that a routed copy filled the copy's class and when its frame was ready (R548). -/
structure LinCh where
  kept : NMap (List Byte)
  runs : Bool
  fresh : Bool
  slotAt : Nat
  resume : List (Nat × Nat)
  collide : Option Nat
  inSlot : Bool
  frame : Option LinFrame
  endedAt : Nat
  late : Bool
  pulses : Nat
  waiting : Nat
  waitFrom : Nat
  edgeAt : Option Nat
  readied : NMap Nat
  filled : NMap (Nat × Nat)
  deriving DecidableEq, Repr

/-- An entry of an egress time-stamp queue (R415): the 80-bit stamp, FAILED and TAG. -/
structure TsEntry where
  time : Nat
  failed : Bool
  tag : Nat
  flying : Bool
  deriving DecidableEq, Repr

/-- A span over which the 802.1AS time runs evenly (R411, R412): from when, the time then in units of 2^-32 ns, and what it gains
in a tick of 5 ns. -/
structure TimeSpan where
  at_ : Nat
  fine : Nat
  gain : Nat
  deriving DecidableEq, Repr

/-- What a MAC cell keeps beside its registers (R392 to R416): its egress time-stamp queue, when the first bit of the frame it
sends left, whether that frame has its entry in the queue, collisions of the frame, the end of its back-off, whether a PLCA
transmit opportunity is its own, further frames allowed in it and when its timer ends, when each class paused by the partner
resumes, the control frames (classes and quanta) that wait to leave, when the cell began to run, whether it skips the rest of the
frame in arrival, as a control frame or by its address, that frame's destination, what the frame in arrival on a T1S port gives as
SOURCE of a remote NM PDU (R446), and the learn request of a frame announced early that its verdict discarded, which waits for the
frame's good end (R126, R226), and the bytes of the frame in arrival on a MACsec port (R418). -/
structure MacCh where
  tsq : List TsEntry
  txFrom : Option Nat
  stamped : Bool
  colls : Nat
  backoff : Option Nat
  turn : Bool
  burst : Nat
  turnEnd : Nat
  pauseTo : NMap Nat
  fcQ : List (Nat × Nat)
  ranAt : Nat
  skip : Bool
  ctl : Bool
  da : Nat
  nm : Nat
  learnWait : Option LearnReq
  rxBytes : List Byte
  deriving DecidableEq, Repr

/-- The timers of a cluster (R430, R432, R441): when its state was entered, its REPEAT time, when its NM timer started and
for how long, whether it was expired by a LIN report, its WAIT time, and when the CYCLE started and for how long. -/
structure ClTimers where
  entered : Nat
  repeatFor : Nat
  nmAt : Nat
  nmFor : Nat
  nmForced : Bool
  waitFor : Nat
  cycleAt : Nat
  cycleFor : Nat
  deriving DecidableEq, Repr

/-- An entry of the keep-awake ledger (R446, R448), with the time since which its source holds its cluster alone, and
whether this hold has been flagged (R447). -/
structure KaEntry where
  cluster : Nat
  source : Nat
  port : Nat
  firstSeen : Nat
  lastSeen : Nat
  seenAt : Nat
  count : Nat
  flagged : Bool
  holding : Bool
  heldFrom : Nat
  noted : Bool
  deriving DecidableEq, Repr

/-- An item that waits for a cipher lane or is in one (R462): kind 0 SecOC, 1 MACsec receive, 2 MACsec transmit, 3 service work;
its frame and copies and its profile, of service work the unit that it is for; for MACsec its port, its bytes and the ingress
stamp; its stream, number and start mark, the association, the PN and the entries of SecY and association that a frame to be
protected takes at dispatch (R477), the AES blocks it costs, and whether it is poisoned (R106). -/
structure LaneItem where
  kind : Nat
  frame : Option Nat
  copies : List (Nat × Copy)
  profile : Nat
  port : Nat
  bytes : List Byte
  ingressNs : Nat
  stream : Nat
  num : Nat
  start : Bool
  assoc : Option Nat
  pn : Nat
  secy : TEntry
  sa : TEntry
  blocks : Nat
  poison : Bool
  deriving DecidableEq, Repr

/-- A key slot that is VALID (R490): the key, its attributes and check value. ORIGIN: 1 written, 2 generated, 3 derived, 4
loaded. -/
structure KeySlot where
  key : Nat
  k256 : Bool
  persist : Bool
  origin : Nat
  usage : Nat
  kcv : Nat
  deriving DecidableEq, Repr

/-- A key record of the seedbed's system area (R495): what its wrap covers. -/
structure KeyRec where
  wrapped : List Nat
  k256 : Bool
  state : Nat
  deriving DecidableEq, Repr

/-- The CTR_DRBG's working state (R484). -/
structure DrbgSt where
  key : Nat
  v : Nat
  requests : Nat
  deriving DecidableEq, Repr

/-- A lane's mask generator (R459). -/
structure MaskGen where
  seed : Nat
  blocks : Nat
  due : Bool
  deriving DecidableEq, Repr

/-- A check-value computation under way (R511, R512): what START took, and the CRC register. -/
structure CvRun where
  poly : Nat
  len : Nat
  crc : Nat
  deriving DecidableEq, Repr

/-- The record in a page's escalation buffer (R529, R530): the page that it leaves, the record, and the level at which it stops. -/
structure EscRec where
  page : Nat
  code : Nat
  detail : Nat
  fclass : Nat
  addr : Nat
  limit : Nat
  deriving DecidableEq, Repr

/-- An entry of the fault ledger (R538, R539): page A[23:12], class code, row, and the times of the faults held, newest
first, in operating minutes. -/
structure LedgerEntry where
  page : Nat
  code : Nat
  row : Nat
  times : List Nat
  deriving DecidableEq, Repr

/-- An entry of the fallow roster (R540): kind, page A[23:12], class code, row, spare used, operating minute. -/
structure RosterEntry where
  kind : Nat
  page : Nat
  code : Nat
  row : Nat
  spare : Nat
  min : Nat
  deriving DecidableEq, Repr

/-- The live set of a monitor (R549, R550). -/
structure MonLive where
  min : Nat
  max : Nat
  count : Nat
  bins : NMap Nat
  deriving DecidableEq, Repr

/-- The pace measurement of a region (0 to 3) or of the chip (4) (R546): the excursion under way and how many windows at
1,024 or more have followed one another in it. -/
structure PaceState where
  inExcursion : Bool
  goodWindows : Nat
  deriving DecidableEq, Repr

/-- A turn after its swap (R567, R570): the bits that UPD_CMD reads while it runs, those of the command that started it (R9), the
pages of the actual cost still to be written and restarted, the pages that ran at the swap, when step 7 ends, or ended, and the
cause of a fall-back whose bookkeeping is still to follow (R575). -/
structure Turn where
  bits : Nat
  pages : List Nat
  ran : List Nat
  until_ : Nat
  back : Option Nat
  deriving DecidableEq, Repr

/-- A sequenced frame of an Ebder link (R608). `info` holds a content whose layout the spec leaves open (MIRROR, PAIR). -/
structure LinkFrame where
  type : Nat
  cls : Nat
  start : Bool
  dst : Nat
  numbered : Bool
  src : Nat
  pf : Nat
  tag : Nat
  orig : Nat
  rsq : Nat
  stream : Nat
  payload : List Byte
  info : List Nat
  deriving DecidableEq, Repr

/-- A frame in a replay buffer (R610): its number and when it was first sent. -/
structure Replay where
  num : Nat
  frame : LinkFrame
  sentAt : Nat
  deriving DecidableEq, Repr

/-- What an Ebder link keeps beside its registers (R609 to R616): the next number to send and the number expected, whether a
NAK stands, the replay buffer, oldest first, and since when no ACK or NAK has covered it; credit limits and credits used by
pool × 8 + class (pool 0 LOCAL, 1 RELAY, 2 SERVICE); service frames handled; service frames and relayed data that wait, the
latter with their arrival; the header of the data frame in arrival and the
learn request that waits for its good end; and of the credits that this device grants the peer, by
pool × 8 + class: how far each pool runs ahead, the plots that have come or gone on, and the limit sent last (R614). -/
structure LinkSt where
  txNum : Nat
  rxNum : Nat
  naked : Bool
  replay : List Replay
  quietFrom : Nat
  limits : NMap Nat
  used : NMap Nat
  handled : Nat
  service : List LinkFrame
  relay : List (LinkFrame × Nat)
  arriving : Option LinkFrame
  learnWait : Option LearnReq
  ahead : NMap Nat
  returned : NMap Nat
  granted : NMap Nat
  deriving DecidableEq, Repr

/-- A host access to another device under way (R619): requester, device, whether it writes, address, its TAG and since
when. -/
structure RemoteAcc where
  requester : Nat
  dev : Nat
  write : Bool
  addr : Nat
  tag : Nat
  since : Nat
  deriving DecidableEq, Repr

/-- What the pairing unit keeps beside its registers (R622 to R633): the lease end, the last PAIR frame, when contact was
lost, the first grant since, when the guard began, when the reclaim conditions began to hold, what the last PAIR frame said,
when the last chip-level stall was recorded, the level of LEASE_OUT and its last toggle. -/
structure PairSt where
  leaseEnd : Option Nat
  heardAt : Option Nat
  lostAt : Nat
  grantAt : Option Nat
  guardAt : Option Nat
  holdFrom : Option Nat
  peerState : Nat
  peerPrimary : Bool
  peerId : Nat
  stallAt : Option Nat
  leaseOut : Bool
  toggledAt : Nat
  sentAt : Nat
  deriving DecidableEq, Repr

/-- What a supervisor keeps beside its page (R450, R645 to R647): its votes POR, WAKE and ALIVE; since when it waits for the
first heartbeat word of a boot; until when its votes are withdrawn after a failure; whether it stopped voting; the failures of the
series that runs; when its heartbeat lapsed. -/
structure SupSt where
  por : Bool
  wake : Bool
  alive : Bool
  waitFrom : Option Nat
  silentTo : Option Nat
  stopped : Bool
  tries : Nat
  lapsedAt : Option Nat
  deriving DecidableEq, Repr

/-- The power control beside its registers (R643 to R656): whether the core supplies are good; the pages that ran when an orderly
entry began; when the goodbye word left; whether PERST_N is low and whether REFCLK is lost; the RST_CAUSE that waits for the next
boot, 0 where none does; the supply that failed first in a brown-out; the bits that PWR_CMD reads while an orderly entry runs,
those of the command that began it (R9); the whole minutes of this ACTIVE that HUB_OPER_MIN and the trial timer have counted
(R538, R573); and HUB_OPER_MIN as the seedbed stores it (R538). -/
structure PowerSt where
  supplyGood : Bool
  ranBefore : List Nat
  goodbyeAt : Option Nat
  perst : Bool
  refLost : Bool
  nextCause : Nat
  brownSupply : Option Nat
  standbyBits : Nat
  minutes : Nat
  trialMinutes : Nat
  operStored : Nat
  deriving DecidableEq, Repr

set_option maxRecDepth 2000 in
/-- The state of the gateway. Each field cites the rules that give it. -/
structure State where
  /-- The commands that wait, first in first out: the model's own queue. -/
  pending : List Instr
  /-- Expiries, visits and the like whose moment had come while the event that goes before them at that moment still waited: they
  act behind it (the tie rules, R115 and its like). The model's own list. -/
  yields : List Instr
  /-- Fuse, bond and strap data (R4). -/
  fuses : Fuses
  /-- Time in 5 ns units, the unit of the monitor timebase (R20, R545). -/
  now : Nat
  /-- When the monitor timebase last started from 0: at a core reset (R545, R652). -/
  tbFrom : Nat
  /-- Every register word that differs from its reset value, by byte address (R34 to R59). Object words of CAN channels
  stand above 2^24 (R340). -/
  regs : NMap Word
  /-- The register words as this moment began, and the bits that hardware has set in it, by address and position: they tell what
  hardware updated at the very moment of a software write (R50). The model's own. -/
  regsAt : NMap Word
  setNow : List (Nat × Nat)
  /-- Wide values that differ from 0, by anchor address (R69, R77). -/
  wide : NMap Nat
  /-- B-class writes that wait for an item boundary (R55). -/
  bOld : List BPend
  /-- Captures at each page, modulo 4 (R521 SEQ). -/
  capSeq : NMap Nat
  /-- The escalation buffers in use, at most one of each page, in the order in which they go up (R530). -/
  escBuf : List EscRec
  /-- The record registers read with bad parity, which their page's next capture writes afresh (R524). -/
  recFaulty : List Nat
  /-- Furrows by owning page, and by index where a page owns several (R88). -/
  furrows : NMap Furrow
  /-- The word each furrow delivered last, by page (R99 to R105). -/
  delivered : NMap (BitVec 28)
  /-- PAGE_CTRL triggers that wait for a boundary, by page, in the order of arrival (R41). -/
  trigQ : NMap (List PageTrig)
  /-- Commands that run, by the address of their command register (R70, R215). -/
  cmds : NMap CmdRun
  /-- Reads of FUR_POP that stall (R114). -/
  stalled : List StalledPop
  /-- Accesses that wait behind a stalled pop of their requester, in the order of issue (R51). -/
  held : List HeldAcc
  /-- Writes that wait until their region runs again, in the order of issue (R62, R452). -/
  retained : List RetWrite
  /-- The last read completed for each requester (R36, R51). -/
  hostRead : NMap ReadDone
  /-- The configuration checker (R81 to R85). -/
  cfg : CfgCheck
  /-- MSI-X messages issued: function, vector (R534, R604). -/
  msix : List (Nat × Nat)
  /-- What the device has sent out, newest first: frames, link frames, command words. The model's own record. -/
  outbox : List Sent
  /-- The model's own counter behind the free values (notes/assumptions/2.md). -/
  freeCtr : Nat

  /-- Frame records of packet memory, by a number of the model's own (R120). -/
  frames : NMap Frame
  /-- The next frame number. -/
  nextFrame : Nat
  /-- The frame being written by each input that writes plots as they arrive (R126). -/
  openFrame : NMap Nat
  /-- Inputs whose item in arrival was rewound for want of plots: the rest of the item is not written (R128). -/
  dropping : List Nat
  /-- Classes withheld of each input in back-pressure, as a bit set (R133). -/
  withheld : NMap Nat
  /-- The copies queued for each output, in the order of admission (R139). -/
  outQ : NMap (List Copy)
  /-- The copy each output reads and sends (R165). -/
  inFlight : NMap Copy
  /-- Deficits by output × 8 + class (R151). -/
  deficit : NMap Nat
  /-- The input served last by output × 8 + class, and the class served last by output (R151). -/
  rrInput : NMap Nat
  rrClass : NMap Nat
  /-- When each output went down (R162). -/
  downSince : NMap Nat
  /-- Since when each output is paused for every queued class (R161 STUCK). -/
  stuckSince : NMap Nat
  /-- Gate control lists under way, by MAC index 0 to 19 (R154). -/
  gateRun : NMap GateRun
  /-- Resequencer streams 0 to 1,023 (R144). -/
  streams : NMap Stream
  /-- Items that a resequencer or a lane has released and that wait for queue entries (R137). -/
  relWait : List ReseqItem
  /-- MACsec frames that a resequencer has released to their port (R462). -/
  macReleased : List MacPlain
  /-- Rows removed from service: bank and row (R171). -/
  rowsOut : List (Nat × Nat)
  /-- Entries of every table behind a table port, by page block, table, copy and index (R214, R290, R499). -/
  tables : NMap TEntry
  /-- Multicast group entries of a region's replica that a repair has set apart from the others (R202, R242): region × 4,096 +
  index. -/
  grpOwn : NMap TEntry
  /-- Pending entries, by the key of the live copy (R217). -/
  tpend : NMap TPend
  /-- Quarantined entries, by the key of the live copy (R246). -/
  tquar : List Nat
  /-- Policer levels by region × 4,096 + index (R204). -/
  polState : NMap PolState
  /-- The cell of each block, and the block of each region, that its arbiter served last (R17, R18); under 2^16 the TX ring that
  was served last (R596). -/
  rrCell : NMap Nat
  rrBlock : NMap Nat
  /-- Head furrows by the page of their cell (R178). -/
  heads : NMap (List Head)
  /-- Verdicts that wait for admission, by region, 4 for port 126 (R126, R28). -/
  verdicts : NMap (List Verdict)
  /-- Learn input furrows of the regions, 1,024 requests each (R223). -/
  learnQ : NMap (List LearnReq)
  /-- Move trackers by region × 256 + entry (R229). -/
  trackers : NMap Tracker
  /-- Next index of each region's sweep, and its completed sweeps (R232, R240). -/
  sweepPos : NMap Nat
  sweeps : NMap Nat
  /-- Learn events lost in each region since its previous LOST event (R241). -/
  lostEvents : NMap Nat
  /-- Next entry of each harrow's pass: table code × 2^20 + index, by region 0 to 3, 4 signal router, 5 security (R243). -/
  harrowPos : NMap Nat
  /-- Entries flagged for a quick judgement: harrow, table code, index (R247). -/
  harrowFlags : List (Nat × Nat × Nat)
  /-- Gate list entries whose parity fault opened every gate of their port (R252). -/
  gateFaults : List Nat
  /-- Slots of the signal store that differ from VALUE 0, INV 0, GEN 0 (R257). -/
  slots : NMap Slot
  /-- Slots held invalid for want of a spare row (R262). -/
  deadSlots : List Nat
  /-- RX and TX layout states (R291). -/
  rxStates : NMap RxState
  txStates : NMap TxState
  /-- The send queue, oldest first (R275). -/
  sendQ : List Nat
  /-- What the mouldboard took last when an item and a layout both waited: 1 an item, 2 a layout, 0 while open (R277). -/
  mbLast : Nat
  /-- GEN last packed by each pack entry (R280). -/
  seen : NMap Nat
  /-- The drill tick n, when it began, and when ACTIVE was entered (R283, R631). -/
  tick : Nat
  tickAt : Nat
  activeAt : Nat
  /-- NTSCF sequence numbers of header templates: MAC port × 16 + template (R312). -/
  tplSeq : NMap Nat
  /-- CAN channels 0 to 63 (R330 to R355). -/
  can : NMap CanCh
  /-- The order of the requests of pending objects: channel × 96 + object (R345). -/
  canReq : NMap Nat
  /-- The next request number. -/
  canReqNext : Nat
  /-- The queue, input × 8 + class, whose copy each pending router-fed object holds: channel × 96 + object (R344). -/
  canQueue : NMap Nat
  /-- The error-retry and arbitration-loss limits of each pending router-fed object, taken at its fill (R344): channel × 96 +
  object, error limit × 256 + arbitration limit. -/
  canLimits : NMap Nat
  /-- LIN channels 0 to 23 (R364 to R386). -/
  lin : NMap LinCh
  /-- LIN channels whose cluster entered PREPARE_SLEEP (4) or BUS_SLEEP (0) since their schedule last started (R378,
  R386). -/
  linMark : NMap Nat
  /-- When a CAN channel's digital side last changed its cell, by channel (R357). The model's own. -/
  movedAt : NMap Nat
  /-- The IEEE 802.1AS time, in units of 2^-32 ns (R411, R412). -/
  timeFine : Nat
  /-- The spans over which the time has run evenly, the latest first: from when, the time then, and what it gains in a tick (R412,
  R413). -/
  timeLog : List TimeSpan
  /-- MAC cells by port (R395, R406 to R416). -/
  mac : NMap MacCh
  /-- When each port sent its last control frame (R404). -/
  fcSentAt : NMap Nat
  /-- Cluster timers (R430). -/
  clusters : NMap ClTimers
  /-- The keep-awake ledger, 256 entries (R446). -/
  keepAwake : NMap KaEntry
  /-- Transceiver modes commanded, by port: 0 normal, 1 listen-only, 2 sleep, 3 FAILSAFE (R449). -/
  trxMode : NMap Nat
  /-- Wake detectors that are armed, by port, each with the FILT in force since it was armed (R436, R449). -/
  armed : NMap Nat
  /-- False-wake windows that wait for bus integration, and the start of those that run, by port (R443). -/
  fwWait : List Nat
  fwFrom : NMap Nat
  /-- Since when a region that is not parked meets the conditions of R451, by region; under 4, since when every enabled cluster
  has been in BUS_SLEEP and every region parked (R655); under 8 + r, when region r was last asked to run (R453, R456); under 16 +
  n, since when TX ring n could fetch its descriptor (R599). -/
  heldFrom : NMap Nat
  /-- Supervisors in FAILSAFE, by die, and when each received its last heartbeat word (R450). -/
  failsafe : List Nat
  heartbeatAt : NMap Nat
  /-- Cells that the supervisors know to be FALLOW while the core has lost its roster (R449). -/
  fallowKnown : List Nat
  /-- Wake sources latched by the supervisors while the core is unpowered or in FAILSAFE: cause and who (R435, R450). -/
  latched : List (Nat × Nat)
  /-- LIN member channels commanded to wake their bus (R434). -/
  linWakeCmd : List Nat
  /-- Outputs that just held a copy: candidates of a traffic wake (R433). -/
  wakeHints : List Nat
  /-- Traffic items that wait for the dispatcher, in arrival order (R463). -/
  laneQ : List LaneItem
  /-- Items given to each lane, first to be served first (R463). -/
  lanes : NMap (List LaneItem)
  /-- The frame in flight of a MACsec port as its lane gave it, by port (R419). -/
  macOut : NMap (List Byte)
  /-- The next number of each stream that the dispatcher numbers, doubled, plus 1 once its start mark was set (R464). -/
  laneSeq : NMap Nat
  /-- Key slots that are VALID, by number (R490). -/
  keys : NMap KeySlot
  /-- Key slots retired until reclaimed (R537). -/
  keysRetired : List Nat
  /-- Committed slots whose KCV and record are still to be made (R491). -/
  keysSaving : List Nat
  /-- The slot that a key command fills when the lanes have done its work, and what it fills it with (R462, R492). -/
  keyWork : Option (Nat × KeySlot)
  /-- Key and counter of the CTR_DRBG, and its requests since it was seeded (R484). -/
  drbg : DrbgSt
  /-- The mask generator of each lane: its seed, the blocks since it took it, and whether a reseed waits (R459, R484). -/
  maskGen : NMap MaskGen
  /-- Key records of the seedbed, by slot (R495). -/
  keyRecs : NMap KeyRec
  /-- Persistent freshness values in the settings, by profile (R474). -/
  fvSaved : NMap Nat
  /-- Fuse roots that are programmed (R486); 2^256 and above stands for a root left partly programmed (R488). -/
  roots : NMap Nat
  /-- The life-cycle fuse, as the last reset found it, and the fuse epoch's steps (R487, R579): what LC_STAT and LC_EPOCH take at
  a reset. -/
  fuseLc : Nat
  fuseEpoch : Nat
  /-- Computations under way, by check-value unit (R508). -/
  cvRun : NMap CvRun
  /-- The fault ledger, by entry 0 to 255 (R538); kept in the seedbed. -/
  ledger : NMap LedgerEntry
  /-- The fallow roster, by entry 0 to 511 (R540); kept in the seedbed. -/
  roster : NMap RosterEntry
  /-- Remedies applied while the roster was full: they last until power-off (R540). Kind 0 marks a row that is permanent and
  found no spare (R249). -/
  unrostered : List RosterEntry
  /-- Locations whose fault awaits its deferred test (R170, R537 FCLASS 3): page and row. -/
  awaitTest : List (Nat × Nat)
  /-- Cells at a boundary that take up no further item until the stop of their block's common page acts (R40, R53). -/
  drained : List Nat
  /-- Cell pages in FALLOW (R44, R359). -/
  fallow : List Nat
  /-- Island crossings that failed within the command and are not counted yet: the cell's page, and 0 for an underrun, 1 for an
  overrun (R22). The model's own list. -/
  crossings : List (Nat × Nat)
  /-- The moments at which pages handled their last items, newest first, as far back as their LOAD looks (R544). -/
  handledAt : NMap (List Nat)
  /-- When the bus or link of a port was busy, as spans of moments, newest first (R544, R548). -/
  busy : NMap (List (Nat × Nat))
  /-- Cells whose stall was answered by a hardware RESTART and that have not completed an item since (R543). -/
  stallRetry : List Nat
  /-- Live sets of the monitors, by page (R550). -/
  monLive : NMap MonLive
  /-- Pace measurement by index (R546). -/
  pace : NMap PaceState
  /-- When each monitor's last period ended, by its page, and each pace window, by the page that shows it (R544, R548). -/
  sampledAt : NMap Nat
  /-- The image banks 0 and 1 of the seedbed: the blocks received, by number (R554, R559 to R562). -/
  banks : NMap (NMap (List Byte))
  /-- Settings records of the running slot by ID, and of the other slot during TRIAL (R580 to R584). -/
  settings : NMap (List Word)
  settingsOld : NMap (List Word)
  /-- The turn under way (R567). -/
  turn : Option Turn
  /-- When UPD_ARM was written last (R579). -/
  updArmedAt : Nat
  /-- Next multipath number by device × 1,024 + stream; a stream not listed sends its next item with the start mark
  (R620). -/
  linkSeq : NMap Nat
  /-- The Ebder links, by number (R606 to R616). -/
  links : NMap LinkSt
  /-- Remote accesses under way, oldest first (R619), and the next TAG. -/
  remoteAcc : List RemoteAcc
  remoteTag : Nat
  /-- Reads of another device's host that stall here at a pop: requester and TAG (R114, R608). -/
  remoteIn : List (Nat × Nat)
  /-- The pairing unit (R622 to R633). -/
  pair : PairSt
  /-- TX rings with a packet whose completions outlasted the stall guard (R599). -/
  htxStalled : List Nat
  /-- Poisoned copies that each RX ring has delivered, its error count (R106): no slot of R637 shows it. -/
  hrxErrs : NMap Nat
  /-- When each RX ring issued its last message, doubled, plus 1 while a completion waits to be signalled (R604). -/
  hrxSignal : NMap Nat
  /-- The supervisors of T0 and T1 (R644 to R647), each by its die; one not listed holds no vote. -/
  sup : NMap SupSt
  /-- The power control (R643 to R656). -/
  power : PowerSt
  /-- EDGE and FILT_US of WIN_CFG as the supervisors keep them, EDGE × 1,024 + FILT_US by pin (R438, R644); one not listed
  takes both edges and 100 µs. -/
  winKept : NMap Nat
  deriving DecidableEq, Repr

/-- The gateway right after a core reset (R652): every register at its reset value, the power state BOOT, and nothing queued. -/
def State.reset : State where
  pending := []
  yields := []
  fuses := { canCount := 64, xTier := true, sec := true, pkg := 1, devId := 0, dieId := [] }
  now := 0
  tbFrom := 0
  regs := []
  regsAt := []
  setNow := []
  wide := []
  bOld := []
  capSeq := []
  escBuf := []
  recFaulty := []
  furrows := []
  delivered := []
  trigQ := []
  cmds := []
  stalled := []
  held := []
  retained := []
  hostRead := []
  cfg := { comparable := false, openedAt := 0, windowRecorded := false }
  msix := []
  outbox := []
  freeCtr := 0

  frames := []
  nextFrame := 0
  openFrame := []
  dropping := []
  withheld := []
  outQ := []
  inFlight := []
  deficit := []
  rrInput := []
  rrClass := []
  downSince := []
  stuckSince := []
  gateRun := []
  streams := []
  relWait := []
  macReleased := []
  rowsOut := []
  tables := []
  grpOwn := []
  tpend := []
  tquar := []
  polState := []
  rrCell := []
  rrBlock := []
  heads := []
  verdicts := []
  learnQ := []
  trackers := []
  sweepPos := []
  sweeps := []
  lostEvents := []
  harrowPos := []
  harrowFlags := []
  gateFaults := []
  slots := []
  deadSlots := []
  rxStates := []
  txStates := []
  sendQ := []
  mbLast := 0
  seen := []
  tick := 0
  tickAt := 0
  activeAt := 0
  tplSeq := []
  canLimits := []
  can := []
  canReq := []
  canReqNext := 0
  canQueue := []
  lin := []
  linMark := []
  movedAt := []
  timeFine := 0
  timeLog := []
  mac := []
  fcSentAt := []
  clusters := []
  keepAwake := []
  trxMode := (List.range 104).map (fun p => (p, 2))
  armed := (List.range 104).map (fun p => (p, if p < 64 then 10 else if p < 88 then 80 else 2))
  fwWait := []
  fwFrom := []
  heldFrom := []
  failsafe := []
  fallowKnown := []
  heartbeatAt := []
  latched := []
  linWakeCmd := []
  wakeHints := []
  laneQ := []
  lanes := []
  macOut := []
  laneSeq := []
  keys := []
  keysRetired := []
  keysSaving := []
  keyWork := none
  drbg := { key := 0, v := 0, requests := 0 }
  maskGen := []
  keyRecs := []
  fvSaved := []
  roots := []
  fuseLc := 0
  fuseEpoch := 0
  cvRun := []
  ledger := []
  roster := []
  unrostered := []
  awaitTest := []
  drained := []
  fallow := []
  crossings := []
  handledAt := []
  busy := []
  stallRetry := []
  monLive := []
  pace := []
  sampledAt := []
  banks := []
  settings := []
  settingsOld := []
  turn := none
  updArmedAt := 0
  linkSeq := []
  links := []
  remoteAcc := []
  remoteTag := 0
  remoteIn := []
  pair :=
    { leaseEnd := none, heardAt := none, lostAt := 0, grantAt := none, guardAt := none, holdFrom := none, peerState := 0,
      peerPrimary := false, peerId := 0, stallAt := none, leaseOut := false, toggledAt := 0, sentAt := 0 }
  htxStalled := []
  hrxErrs := []
  hrxSignal := []
  sup := [(0, { por := true, wake := false, alive := false, waitFrom := none, silentTo := none, stopped := false, tries := 0, lapsedAt := none }),
    (1, { por := true, wake := false, alive := false, waitFrom := none, silentTo := none, stopped := false, tries := 0, lapsedAt := none })]
  power :=
    { supplyGood := false, ranBefore := [], goodbyeAt := none, perst := false, refLost := false, nextCause := 0,
      brownSupply := none, standbyBits := 0, minutes := 0, trialMinutes := 0, operStored := 0 }
  winKept := []

/-- Why a command stops the model: nothing does. The spec gives every command an effect, or none where its element is absent
(R3), so the type has no constructor. -/
inductive Fault where
  deriving DecidableEq, Repr

/-- Why the model gives a command no meaning. -/
inductive Refusal where
  /-- A row of the table whose meaning is not written. Raised by exec's own arms alone. Safe: the model stops. -/
  | notModelled (mnemonic : String)
  deriving DecidableEq, Repr

end Sys2Proof.Machine
end

