-- ==== Sys2Proof/Machine/Ops.lean ====
section
/-! DEFINITION. The named operations over State that every family shares: sparse maps, page addresses and presence
(R34 to R43, R687 to R698), register words and fields, effective values of B-class fields (R55), wide values (R69), free
values, and what leaves the device. -/
namespace Sys2Proof.Machine

/-! ## Sparse maps -/

/-- The value at a key, if the map lists it. -/
def mapGet? {α : Type} : NMap α → Nat → Option α
  | [], _ => none
  | (k, v) :: m, key => if k = key then some v else mapGet? m key

/-- The value at a key, or the default. -/
def mapGet {α : Type} (d : α) (m : NMap α) (key : Nat) : α := (mapGet? m key).getD d

/-- The map with the key listed at a value, keys kept rising. -/
def mapSet {α : Type} : NMap α → Nat → α → NMap α
  | [], key, v => [(key, v)]
  | (k, w) :: m, key, v =>
    if key < k then (key, v) :: (k, w) :: m
    else if k = key then (key, v) :: m
    else (k, w) :: mapSet m key v

/-- The map without the key. -/
def mapDel {α : Type} : NMap α → Nat → NMap α
  | [], _ => []
  | (k, w) :: m, key => if k = key then mapDel m key else (k, w) :: mapDel m key

/-- The map with the key at a value, where a value equal to the default is not listed: the canonical form. -/
def mapPut {α : Type} [DecidableEq α] (d : α) (m : NMap α) (key : Nat) (v : α) : NMap α :=
  if v = d then mapDel m key else mapSet m key v

/-- The map without the keys that a test names. -/
def mapDrop {α : Type} (p : Nat → Bool) (m : NMap α) : NMap α := m.filter (fun e => !p e.1)

/-- The keys of a map rise strictly. -/
def mapRising {α : Type} : NMap α → Bool
  | [] => true
  | [_] => true
  | a :: b :: m => decide (a.1 < b.1) && mapRising (b :: m)

/-! ## Addresses (R34) -/

/-- The page of a register address. -/
def pageOf (a : Nat) : Nat := a / 0x1000 * 0x1000
/-- The slot of a register address, as an offset within the page. -/
def slotOf (a : Nat) : Nat := a % 0x1000 / 4 * 4
/-- The page of a domain, a block and a page number (R34). -/
def pageAt (dom blk pg : Nat) : Nat := dom * 0x200000 + blk * 0x10000 + pg * 0x1000
/-- A[23:21]. -/
def domainOf (a : Nat) : Nat := a / 0x200000
/-- A[20:16]. -/
def blockOf (a : Nat) : Nat := a / 0x10000 % 32
/-- A[15:12]. -/
def cellOf (a : Nat) : Nat := a / 0x1000 % 16
/-- Page 0 of the block of a page (R43). -/
def commonOf (pg : Nat) : Nat := pg / 0x10000 * 0x10000

/-- The page of CAN channel n (R691). -/
def canPage (n : Nat) : Nat := n / 16 * 0x200000 + (1 + n % 16 / 8) * 0x10000 + (1 + n % 8) * 0x1000
/-- The page of LIN channel m (R691). -/
def linPage (m : Nat) : Nat := m / 6 * 0x200000 + 0x30000 + (1 + m % 6) * 0x1000
/-- The page of the MAC cell of a port 88 to 123 (R691). -/
def macPage (port : Nat) : Nat :=
  if port < 104 then (port - 88) / 4 * 0x200000 + 0x40000 + (1 + (port - 88) % 4) * 0x1000
  else if port < 108 then (port - 104) * 0x200000 + 0x51000
  else if port < 112 then (port - 108) * 0x200000 + 0x52000
  else (port - 112) / 3 * 0x200000 + 0x53000 + (port - 112) % 3 * 0x1000
/-- Base address of region r. -/
def regionBase (r : Nat) : Nat := r * 0x200000
def coulterPage (r : Nat) : Nat := regionBase r + 0x060000
def hedgerowPage (r : Nat) : Nat := regionBase r + 0x070000
def lookupPage (r : Nat) : Nat := regionBase r + 0x080000
def learnPage (r : Nat) : Nat := regionBase r + 0x090000
def policerPage (r : Nat) : Nat := regionBase r + 0x0A0000
def wakePage (r : Nat) : Nat := regionBase r + 0x0B0000
def chipPage : Nat := 0x800000
def mbxPage (n : Nat) : Nat := 0x801000 + n * 0x1000
def timePage : Nat := 0x805000
def admPage : Nat := 0x810000
def bankPage (n : Nat) : Nat := 0x811000 + n * 0x1000
def egrPage : Nat := 0x820000
def rsqPage : Nat := 0x830000
def mbPage : Nat := 0x840000
def drillPage : Nat := 0x850000
def ssPage : Nat := 0x860000
def updPage : Nat := 0x870000
def cfgPage : Nat := 0x880000
def pacePage : Nat := 0x890000
def clusterPage : Nat := 0x8A0000
def hubPage : Nat := 0x8B0000
def pwrPage : Nat := 0x8C0000
def supPage (d : Nat) : Nat := 0x8C1000 + d * 0x1000
def secPage : Nat := 0xA00000
def lanePage (i : Nat) : Nat := 0xA00000 + (1 + i / 8) * 0x10000 + (1 + i % 8) * 0x1000
def keyPage : Nat := 0xA30000
def lcPage : Nat := 0xA40000
def cvPage (u : Nat) : Nat := 0xA51000 + u * 0x1000
def entPage : Nat := 0xA60000
def pciePage : Nat := 0xC00000
def htxPage (ring : Nat) : Nat := 0xC10000 + (1 + ring % 8) * 0x1000
def hrxPage (ring : Nat) : Nat := 0xC20000 + (1 + ring % 8) * 0x1000
/-- Slot base of a ring's set within its page (R637): set 0 is ring c - 1, set 1 is ring c + 7. -/
def ringBase (ring : Nat) : Nat := 0x40 + ring / 8 * 0x40
/-- The register set of TX ring n and of RX ring n (R637); the ring's furrow goes by it (R596, R602). -/
def txRing (n : Nat) : Nat := htxPage n + ringBase n
def rxRing (n : Nat) : Nat := hrxPage n + ringBase n
def linkPage (k : Nat) : Nat := 0xC31000 + k * 0x1000
/-- The receive crossing of link k (R21): its furrow goes by a slot of the page, whose own furrow is the relay furrow. -/
def linkCrossing (k : Nat) : Nat := linkPage k + 4
def pairPage : Nat := 0xC40000
def routePage : Nat := 0xC50000

/-- The region that owns an input port (R14). -/
def regionOfPort (p : Nat) : Nat :=
  if p < 64 then p / 16 else if p < 88 then (p - 64) / 6 else if p < 104 then (p - 88) / 4
  else if p < 108 then p - 104 else if p < 112 then p - 108 else if p < 124 then (p - 112) / 3
  else if p < 126 then p - 124 else 2

/-- The cell page of a port 0 to 125 (R691, R694). -/
def portPage (p : Nat) : Nat :=
  if p < 64 then canPage p else if p < 88 then linPage (p - 64) else if p < 124 then macPage p
  else linkPage (p - 124)

/-! ## Presence (R2, R687 to R698) -/

/-- CAN cells of a block that the variant has (R2): cells 1 to this. -/
def canCells (f : Fuses) : Nat := f.canCount / 8
/-- LIN cells of a region that the variant has (R2). -/
def linCells (f : Fuses) (r : Nat) : Nat :=
  if f.canCount = 64 then 6 else if f.canCount = 48 then (if r % 2 = 0 then 5 else 4) else 3
/-- T1S cells of a region that the variant has (R2). -/
def t1sCells (f : Fuses) : Nat := f.canCount / 16

/-- KIND of a page in a region domain by block and cell (R691), 0 where reserved or absent. -/
def regionKind (f : Fuses) (r blk c : Nat) : Nat :=
  match blk with
  | 0 => if c = 0 then 0x01 else 0
  | 1 | 2 => if c = 0 then 0x02 else if c ≤ canCells f then 0x03 else if c = 9 then 0x04 else 0
  | 3 => if c = 0 then 0x05 else if c ≤ linCells f r then 0x06 else 0
  | 4 => if c = 0 then 0x07 else if c ≤ t1sCells f then 0x09 else 0
  | 5 => if c = 0 then 0x08 else if c = 1 then (if f.xTier then 0x09 else 0) else if c ≤ 5 then 0x09 else 0
  | 6 => if c = 0 then 0x0A else 0
  | 7 => if c = 0 then 0x0B else if c = 15 then 0x1F else 0
  | 8 => if c = 0 then 0x0C else if c = 15 then 0x1F else 0
  | 9 => if c = 0 then 0x0D else 0
  | 10 => if c = 0 then 0x0E else if c = 15 then 0x1F else 0
  | 11 => if c = 0 then 0x0F else 0
  | 12 => if c = 0 then 0x10 else if c ≤ 4 then 0x11 else 0
  | _ => 0

/-- KIND of a page of the chip core (R692). -/
def chipKind (blk c : Nat) : Nat :=
  match blk with
  | 0 => if c = 0 then 0x20 else if c ≤ 4 then 0x21 else if c = 5 then 0x22 else 0
  | 1 => if c = 0 then 0x23 else if c ≤ 4 then 0x24 else if c = 15 then 0x1F else 0
  | 2 => if c = 0 then 0x25 else if c = 15 then 0x1F else 0
  | 3 => if c = 0 then 0x26 else 0
  | 4 => if c = 0 then 0x27 else if c = 15 then 0x1F else 0
  | 5 => if c = 0 then 0x28 else 0
  | 6 => if c = 0 then 0x29 else 0
  | 7 => if c = 0 then 0x2A else if c = 15 then 0x1F else 0
  | 8 => if c = 0 then 0x2B else 0
  | 9 => if c = 0 then 0x2C else if c ≤ 8 then 0x11 else 0
  | 10 => if c = 0 then 0x2D else if c = 15 then 0x1F else 0
  | 11 => if c = 0 then 0x2E else if c = 15 then 0x1F else 0
  | 12 => if c = 0 then 0x2F else if c ≤ 2 then 0x30 else 0
  | _ => 0

/-- KIND of a page of the security domain (R693). -/
def secKind (blk c : Nat) : Nat :=
  match blk with
  | 0 => if c = 0 then 0x40 else if c = 15 then 0x1F else 0
  | 1 | 2 => if c = 0 then 0x41 else if c ≤ 8 then 0x42 else 0
  | 3 => if c = 0 then 0x43 else 0
  | 4 => if c = 0 then 0x44 else 0
  | 5 => if c = 0 then 0x45 else if c ≤ 4 then 0x46 else 0
  | 6 => if c = 0 then 0x47 else 0
  | _ => 0

/-- KIND of a page of domain 6 (R694). -/
def hostKind (f : Fuses) (blk c : Nat) : Nat :=
  match blk with
  | 0 => if c = 0 then 0x50 else 0
  | 1 => if c = 0 then 0x51 else if c ≤ 8 then 0x52 else 0
  | 2 => if c = 0 then 0x53 else if c ≤ 8 then 0x54 else 0
  | 3 => if f.xTier then (if c = 0 then 0x55 else if c ≤ 2 then 0x56 else 0) else 0
  | 4 => if f.xTier && c == 0 then 0x57 else 0
  | 5 => if f.xTier && c == 0 then 0x58 else 0
  | _ => 0

/-- PAGE_ID.KIND of a page: 0 where the page is reserved or absent in the variant (R687, R688, R3). -/
def kindOf (f : Fuses) (pg : Nat) : Nat :=
  match domainOf pg with
  | 4 => chipKind (blockOf pg) (cellOf pg)
  | 5 => secKind (blockOf pg) (cellOf pg)
  | 6 => hostKind f (blockOf pg) (cellOf pg)
  | 7 => 0
  | r => if r < 4 then regionKind f r (blockOf pg) (cellOf pg) else 0

/-- PAGE_ID.INSTANCE of a present page (R690 to R694). -/
def instanceOf (kind pg : Nat) : Nat :=
  let r := domainOf pg; let b := blockOf pg; let c := cellOf pg
  match kind with
  | 0x02 => 2 * r + b - 1
  | 0x03 => 16 * r + 8 * (b - 1) + c - 1
  | 0x04 => 2 * r + b - 1
  | 0x06 => 6 * r + c - 1
  | 0x09 => if b = 4 then 4 * r + c - 1 else if c = 1 then 16 + r else if c = 2 then 20 + r else 24 + 3 * r + (c - 3)
  | 0x11 => if r < 4 then 4 * r + c - 1 else 16 + c - 1
  | 0x1F => pg / 0x10000
  | 0x21 | 0x24 | 0x30 | 0x46 | 0x52 | 0x54 | 0x56 => c - 1
  | 0x41 => b - 1
  | 0x42 => 8 * (b - 1) + c - 1
  | k => if k ≤ 0x10 then r else 0

/-- PAGE_CAP.CELLS (R696). -/
def cellsOf (f : Fuses) (kind pg : Nat) : Nat :=
  match kind with
  | 0x02 => canCells f + 1
  | 0x05 => linCells f (domainOf pg)
  | 0x07 => t1sCells f
  | 0x08 => if f.xTier then 5 else 4
  | 0x10 => 4
  | 0x20 => 5
  | 0x23 => 4
  | 0x2C => 8
  | 0x2F => 2
  | 0x41 => 8
  | 0x45 => 4
  | 0x51 | 0x53 => 8
  | 0x55 => 2
  | _ => 0

/-- PAGE_CAP.KIND_CAP (R360, R389, R696). -/
def kindCapOf (f : Fuses) (kind pg : Nat) : Nat :=
  match kind with
  | 0x03 => 96 * 256 + 1
  | 0x09 =>
    let t1s := blockOf pg == 4
    let fast := blockOf pg == 5 && decide (cellOf pg ≤ 2)
    0x1000 + (if fast && f.sec then 4 else 0) + (if fast && f.xTier then 2 else 0) + b2n t1s
  | _ => 0

/-- A page is present in the variant. -/
def present (s : State) (pg : Nat) : Bool := kindOf s.fuses pg != 0

/-- A CAN channel is present (R2). -/
def canPresent (f : Fuses) (n : Nat) : Bool := decide (n < 64) && decide (n % 8 < canCells f)
/-- A LIN channel is present (R2). -/
def linPresent (f : Fuses) (m : Nat) : Bool := decide (m < 24) && decide (m % 6 < linCells f (m / 6))
/-- A MAC port 88 to 123 is present (R2, R389). -/
def macPresent (f : Fuses) (p : Nat) : Bool :=
  decide (88 ≤ p) && decide (p < 124) &&
    (if p < 104 then decide ((p - 88) % 4 < t1sCells f) else if p < 108 then f.xTier else true)
/-- An input or output number is present: ports 0 to 125, 126 the mouldboard, 128 to 143 host rings; 127 is none (R138,
R168). -/
def portPresent (f : Fuses) (p : Nat) : Bool :=
  if p < 64 then canPresent f p
  else if p < 88 then linPresent f (p - 64)
  else if p < 124 then macPresent f p
  else if p < 126 then f.xTier
  else if p = 126 then true
  else decide (128 ≤ p) && decide (p < 144)

/-! ## Register words (R34, R46) -/

/-- A slot offset lies in a field's array. -/
def fieldAt (f : RegField) (slot : Nat) : Bool :=
  decide (f.base ≤ slot) &&
    (if f.stride2 = 0 then
      (slot - f.base) % f.stride == 0 && decide ((slot - f.base) / f.stride < f.count)
    else
      (slot - f.base) % f.stride2 % f.stride == 0 && decide ((slot - f.base) % f.stride2 / f.stride < f.count) &&
        decide ((slot - f.base) / f.stride2 < f.count2))

/-- The index of an array output or input of which a slot is absent with its port: R138 and R168. -/
def arrayPort (kind slot : Nat) : Option Nat :=
  if kind = 0x23 ∨ kind = 0x25 then
    if 0x100 ≤ slot ∧ slot < 0x340 then some ((slot - 0x100) / 4)
    else if 0x340 ≤ slot ∧ slot < 0x580 then some ((slot - 0x340) / 4)
    else if 0x580 ≤ slot ∧ slot < 0x7C0 then some ((slot - 0x580) / 4)
    else if 0x7C0 ≤ slot ∧ slot < 0xA00 then some ((slot - 0x7C0) / 4)
    else if kind = 0x25 ∧ 0xA00 ≤ slot ∧ slot < 0xC40 then some ((slot - 0xA00) / 4)
    else if kind = 0x25 ∧ 0xC40 ≤ slot ∧ slot < 0xE80 then some ((slot - 0xC40) / 4)
    else none
  else none

/-- The port of index j of a coulter page (R182); 127 for none. -/
def coulterPort (r j : Nat) : Nat :=
  if j < 16 then 16 * r + j else if j < 22 then 64 + 6 * r + (j - 16) else if j < 26 then 88 + 4 * r + (j - 22)
  else if j = 26 then 104 + r else if j = 27 then 108 + r else if j < 31 then 112 + 3 * r + (j - 28)
  else if r < 2 then 124 + r else if r = 2 then 128 else 127

/-- The index of a port on the coulter page of its region (R182). -/
def coulterIndex (p : Nat) : Nat :=
  if p < 64 then p % 16 else if p < 88 then 16 + (p - 64) % 6 else if p < 104 then 22 + (p - 88) % 4
  else if p < 108 then 26 else if p < 112 then 27 else if p < 124 then 28 + (p - 112) % 3 else 31

/-- The bus channel of index j of a region wake page (R454), as a port. -/
def wakePort (r j : Nat) : Nat :=
  if j < 16 then 16 * r + j else if j < 22 then 64 + 6 * r + (j - 16) else 88 + 4 * r + (j - 22)

/-- The index of a bus channel's port on the region wake page. -/
def wakeIndex (p : Nat) : Nat :=
  if p < 64 then p % 16 else if p < 88 then 16 + (p - 64) % 6 else 22 + (p - 88) % 4

/-- A field of a present page is there in the variant (R698, R64, R422, R138, R168, R183, R454, R157). -/
def fieldPresent (f : Fuses) (kind pg : Nat) (g : RegField) (slot : Nat) : Bool :=
  match kind with
  | 0x09 =>
    let t1s := blockOf pg == 4
    if slot = 0x048 then !t1s
    else if slot = 0x058 ∨ slot = 0x05C then t1s
    else if slot = 0x04C ∧ g.hi = 17 then t1s
    else if slot = 0x040 ∧ g.hi = 15 then f.sec && !t1s && decide (cellOf pg ≤ 2)
    else true
  | 0x0A =>
    if 0x100 ≤ slot ∧ slot < 0x180 then
      let p := coulterPort (domainOf pg) ((slot - 0x100) / 4)
      portPresent f p
    else slot < 0x200 || slot % 0x20 != 0
  | 0x0D =>
    if 0x0C0 ≤ slot ∧ slot < 0x0E0 then slot != 0x0D8 else true
  | 0x0F =>
    if 0x100 ≤ slot ∧ slot < 0x300 then
      portPresent f (wakePort (domainOf pg) (slot % 0x80 / 4))
    else true
  | 0x23 => (match arrayPort kind slot with | some p => portPresent f p | none => true)
  | 0x25 =>
    (match arrayPort kind slot with
      | some p =>
        portPresent f p &&
          (if 0x340 ≤ slot ∧ slot < 0x580 ∧ g.hi = 10 then f.xTier && decide (104 ≤ p) && decide (p < 112) ||
            f.xTier && (p == 124 || p == 125) else true)
      | none =>
        if 0x080 ≤ slot ∧ slot < 0x0A8 then
          (let i := (slot - 0x080) / 4; if i < 4 ∨ 8 ≤ i then f.xTier else true)
        else if 0xE80 ≤ slot then
          (let i := (slot - 0xE80) % 0x50 / 4; if f.xTier then true else !(decide (i < 4)))
        else true)
  | 0x40 => if 0x080 ≤ slot ∧ slot < 0x094 then slot != 0x084 else true
  | _ => true

/-- A page that reports a pace: a region common page, and the chip pace page (R25). -/
def pacePageIs (pg : Nat) : Bool := pg == pacePage || (decide (domainOf pg < 4) && pg == regionBase (domainOf pg))

/-- The header field LOCK.TABLE exists on block common pages alone (R64); slot 0x30 holds HEALTH and PACE on the pages that
report a pace, LOAD on every other (R25, R544). -/
def headerFieldPresent (pg : Nat) (g : RegField) : Bool :=
  if g.base = 0x24 ∧ g.hi = 1 then cellOf pg == 0
  else if g.base = 0x30 then pacePageIs pg != (g.hi == 9)
  else true

/-- The fields at a register address in the variant: none where the slot is reserved or the page absent (R58). -/
def fieldsAt (f : Fuses) (a : Nat) : List RegField :=
  let pg := pageOf a; let slot := slotOf a; let k := kindOf f pg
  if k = 0 then []
  else if slot < 0x40 then (headerFields.filter (fun g => fieldAt g slot)).filter (headerFieldPresent pg)
  else (kindFields k).filter (fun g => fieldAt g slot && fieldPresent f k pg g slot)

/-- The reset value of a register word: the sum of its fields' reset values; RX rings reset VEC to 16 + n and TX rings to
n (R637); PAGE_ID and PAGE_CAP are the fuse data of R688 to R696. -/
def resetWord (f : Fuses) (a : Nat) : Nat :=
  let pg := pageOf a; let slot := slotOf a; let k := kindOf f pg
  if a ≥ 0x1000000 then 0
  else if k = 0 then 0
  else if slot = 0 then k * 0x10000 + 0x100 + instanceOf k pg
  else if slot = 4 then cellsOf f k pg * 0x10000 + kindCapOf f k pg
  else if k = 0x20 ∧ slot = 0x40 then
    f.canCount * 0x10000 + (if f.xTier then 2 else 1) * 0x100 + (if f.sec then 2 else 1) * 0x10 + f.pkg
  else if k = 0x20 ∧ 0x80 ≤ slot ∧ slot < 0xB0 then (mapGet (0 : Word) f.dieId ((slot - 0x80) / 4)).toNat
  else if k = 0x50 ∧ slot = 0x40 then f.devId
  else
    let base := (fieldsAt f a).foldl (fun w g => w + g.reset * 2 ^ g.lo) 0
    if k = 0x52 ∧ (slot = 0x40 ∨ slot = 0x80) then base + (cellOf pg - 1) + (if slot = 0x80 then 8 else 0)
    else if k = 0x54 ∧ (slot = 0x40 ∨ slot = 0x80) then base + 16 + (cellOf pg - 1) + (if slot = 0x80 then 8 else 0)
    else base

/-- The word that a register cell holds. -/
def rd (s : State) (a : Nat) : Nat :=
  match mapGet? s.regs a with
  | some w => w.toNat
  | none => resetWord s.fuses a

/-- State with a register cell at a value; a cell at its reset value is not listed. -/
def wr (s : State) (a v : Nat) : State :=
  let w : Word := BitVec.ofNat 24 v
  { s with regs := if w.toNat = resetWord s.fuses a then mapDel s.regs a else mapSet s.regs a w }

/-- A field of a register cell. -/
def fld (s : State) (a hi lo : Nat) : Nat := bitsOf (rd s a) hi lo
/-- One bit of a register cell. -/
def bit (s : State) (a i : Nat) : Bool := bitsOf (rd s a) i i == 1
/-- State with a field of a register cell replaced (a hardware update, R46). -/
def setFld (s : State) (a hi lo v : Nat) : State := wr s a (setBits (rd s a) hi lo v)
/-- State with one bit set by hardware at this moment (R50). -/
def setBit (s : State) (a i : Nat) : State := { setFld s a i i 1 with setNow := (a, i) :: s.setNow }
/-- State with one bit cleared. -/
def clrBit (s : State) (a i : Nat) : State := setFld s a i i 0
/-- State with one bit at a truth value. -/
def putBit (s : State) (a i : Nat) (b : Bool) : State := setFld s a i i (b2n b)

/-- Adds to a saturating 24-bit counter (RC, saturating). -/
def addSat (s : State) (a n : Nat) : State := wr s a (min 0xFFFFFF (rd s a + n))
/-- Increments a saturating 24-bit counter. -/
def incSat (s : State) (a : Nat) : State := addSat s a 1
/-- Increments a field that saturates at its width. -/
def incFld (s : State) (a hi lo : Nat) : State := setFld s a hi lo (min (2 ^ (hi + 1 - lo) - 1) (fld s a hi lo + 1))

/-- The word that a register cell held as this moment began. -/
def rdAt (s : State) (a : Nat) : Nat :=
  match mapGet? s.regsAt a with
  | some w => w.toNat
  | none => resetWord s.fuses a
/-- Bits of a word that changed otherwise than by hardware at this moment: the word as the moment began takes them too, so that
R50 finds no hardware update there. -/
def syncWord (s : State) (a old new : Nat) : State :=
  let m := old ^^^ new
  { s with regsAt := mapSet s.regsAt a (BitVec.ofNat 24 ((rdAt s a ||| m) ^^^ (m &&& old))) }
/-- Hardware has updated a field of a register cell at this moment (R50). -/
def hwMoved (s : State) (a hi lo : Nat) : Bool := bitsOf (rdAt s a) hi lo != fld s a hi lo
/-- The bits of a field that hardware has set at this moment (R50). -/
def hwSet (s : State) (a hi lo : Nat) : Nat :=
  let was := bitsOf (rdAt s a) hi lo
  let now := fld s a hi lo
  (s.setNow.filter (fun b => b.1 == a && decide (lo ≤ b.2) && decide (b.2 ≤ hi))).foldl (fun m b => m ||| 2 ^ (b.2 - lo))
    (now ^^^ (now &&& was)) &&& now

/-- The word a cell's behaviour uses: the old word while a B-class write of the slot waits for the cell's boundary
(R55), else the word held. -/
def effWord (s : State) (cell a : Nat) : Nat :=
  match s.bOld.find? (fun b => b.cell == cell && b.addr == a) with
  | some b => b.old.toNat
  | none => rd s a
/-- A field as the cell's behaviour uses it. -/
def eff (s : State) (cell a hi lo : Nat) : Nat := bitsOf (effWord s cell a) hi lo
/-- One bit as the cell's behaviour uses it. -/
def effBit (s : State) (cell a i : Nat) : Bool := eff s cell a i i == 1

/-! ## Wide values (R69, R77) -/

/-- A wide value by its anchor. -/
def rdWide (s : State) (a : Nat) : Nat := mapGet 0 s.wide a
/-- State with a wide value set. -/
def wrWide (s : State) (a v : Nat) : State := { s with wide := mapPut 0 s.wide a v }
/-- Adds to a 48-bit traffic statistic, modulo 2^48. -/
def addStat (s : State) (a n : Nat) : State := wrWide s a ((rdWide s a + n) % 2 ^ 48)

/-! ## Running (R40, R43, R44) -/

/-- PAGE_STAT.RUNNING of the page's own cell, before the block common page is regarded. -/
def ownRunning (s : State) (pg : Nat) : Bool := bit s (pg + 0xC) 0
/-- A cell runs when neither its own page nor its block common page is stopped (R43); a stop of the common page reaches each cell
at the cell's own boundary (R40, R53, R55). -/
def running (s : State) (pg : Nat) : Bool :=
  ownRunning s pg && !s.drained.contains pg && (cellOf pg == 0 || cellOf pg == 15 || ownRunning s (commonOf pg))
/-- A cell is FALLOW (R44). -/
def isFallow (s : State) (pg : Nat) : Bool := s.fallow.contains pg

/-- One more item in the moments at which a page handled its last ones. -/
def noteItem (now : Nat) (m : NMap (List Nat)) (pg : Nat) : NMap (List Nat) :=
  mapSet m pg (now :: (mapGet [] m pg).filter (fun t => decide (now < t + 200000)))

/-- A page has handled an item (R543, R544): its LOAD counts it, and that of its block's common page, over which the block's items
go; a hardware RESTART that answered a stall has succeeded. -/
def handled (s : State) (pg : Nat) : State :=
  let m := noteItem s.now s.handledAt pg
  { s with
    handledAt := if cellOf pg = 0 ∨ cellOf pg = 15 then m else noteItem s.now m (commonOf pg)
    stallRetry := s.stallRetry.filter (fun p => p != pg) }

/-! ## Free values and the outside -/

/-- A free value and the state that has drawn it (notes/assumptions/2.md). -/
def drawNat (s : State) : Nat × State := (Config.freeNat s.freeCtr, { s with freeCtr := s.freeCtr + 1 })
/-- `n` free words. -/
def drawWords (s : State) : Nat → List Word × State
  | 0 => ([], s)
  | n + 1 =>
    let (r, s) := drawNat s
    let (ws, s) := drawWords s n
    (BitVec.ofNat 24 r :: ws, s)
/-- `n` free bytes. -/
def drawBytes (s : State) (n : Nat) : List Byte × State :=
  ((List.range n).map (fun i => Config.freeByte (s.freeCtr + i)), { s with freeCtr := s.freeCtr + n })

/-- State with something sent out of the device. -/
def send (s : State) (port : Nat) (kind : SentKind) (info : List Nat) (bytes : List Byte) : State :=
  { s with outbox := { port := port, kind := kind, info := info, bytes := bytes } :: s.outbox }

/-- What the IEEE 802.1AS time gains in `n` cycles of 5 ns, in units of 2^-32 ns: 5 ns and the signed rate each (R411). -/
def timeGain (s : State) (n : Nat) : Nat :=
  let rate := rd s (timePage + 0x44)
  n * (if rate < 2 ^ 23 then 5 * 2 ^ 32 + rate else 5 * 2 ^ 32 + rate - 2 ^ 24)

/-- The range of the 80-bit time: 2^48 seconds, in units of 2^-32 ns. -/
def timeRange : Nat := 2 ^ 48 * 1000000000 * 2 ^ 32

/-- Spans of the time without those that lie back further than any stamp asks. -/
def recentSpans (since : Nat) : List TimeSpan → List TimeSpan
  | [] => []
  | x :: xs => if x.at_ ≤ since then [x] else x :: recentSpans since xs

/-- The spans of the time with one that begins now, unless the latest one goes on; those of the last ten seconds are kept. -/
def spanNote (s : State) (gain : Nat) : List TimeSpan :=
  match s.timeLog with
  | x :: _ =>
    if x.gain = gain ∧ (x.fine + (s.now - x.at_) * gain) % timeRange = s.timeFine then s.timeLog
    else { at_ := s.now, fine := s.timeFine, gain := gain } :: recentSpans (s.now - 2000000000) s.timeLog
  | [] => [{ at_ := s.now, fine := s.timeFine, gain := gain }]

/-- The clocks advanced to a moment that is not past: the monitor timebase, and the IEEE 802.1AS time, which runs in ACTIVE
and PARTIAL (R411). A later moment begins with the registers as they stand (R50). -/
def advance (s : State) (t : Nat) : State :=
  if t ≤ s.now then s
  else
    let st := fld s (pwrPage + 0x40) 23 21
    let gain := if st = 3 ∨ st = 4 then timeGain s 1 else 0
    { s with
      now := t
      timeFine := (s.timeFine + (t - s.now) * gain) % timeRange
      timeLog := spanNote s gain
      regsAt := s.regs
      setNow := [] }

/-! ## Commands that run (R9, R60, R70, R216) -/

/-- The longest that a command runs, in ticks, by its page kind and the bits written: the 2 µs of R60, 2 ms for key and
settings commands and a reclaim (R492, R541, R581); of the update commands 20 ms for VERIFY and 5 ms for CONFIRM (R564, R574);
20 ms for a life-cycle transition (R488); 1 ms for a flush (R236). -/
def cmdBound (kind slot bits : Nat) : Nat :=
  if kind = 0x43 ∨ kind = 0x2E then 400000
  else if kind = 0x44 then 4000000
  else if kind = 0x0D then 200000
  else if kind = 0x2A then (if slot = 0x84 then 400000 else if bits = 1 then 4000000 else if bits = 4 then 1000000 else 400)
  else 400

/-- Service work of a unit waits for a lane or stands in one (R462). -/
def serviceWaits (s : State) (unit : Nat) : Bool :=
  let ofUnit := fun (it : LaneItem) => it.kind == 3 && it.profile == unit
  s.laneQ.any ofUnit || s.lanes.any (fun l => l.2.any ofUnit)

/-- A command of the key page or of the life cycle waits for its service work (R462, R488, R492). -/
def unitWaits (s : State) (a : Nat) : Bool :=
  (pageOf a == keyPage && serviceWaits s 0) || (pageOf a == lcPage && serviceWaits s 2)

/-- The command of a command register runs, waits for its service work or for its region to run: BUSY. -/
def cmdBusy (s : State) (a : Nat) : Bool :=
  match mapGet? s.cmds a with
  | some c => decide (s.now < c.doneAt) || unitWaits s a
  | none => s.retained.any (fun w => w.addr == a)

/-- A turn runs (R566, R567): step 7 is not over. -/
def inTurn (s : State) : Bool :=
  match s.turn with
  | some t => decide (s.now < t.until_)
  | none => false

/-- The command bits that a command register reads while its action runs (R9). -/
def cmdBits (s : State) (a : Nat) : Nat :=
  match mapGet? s.cmds a with
  | some c => if s.now < c.doneAt then c.bits else 0
  | none =>
    match s.retained.find? (fun w => w.addr == a) with
    | some w => w.value
    | none => 0

/-- A field that a command has written as it completed; one that completed before this moment is no update of this moment (R50). -/
def putField (s : State) (earlier : Bool) (p : FieldPut) : State :=
  let u := setFld s p.addr p.hi p.lo p.val
  if earlier then syncWord u p.addr (rd s p.addr) (rd u p.addr) else u

/-- A command that has completed writes its fields. Only accesses to its page look at them, and each begins with this. -/
def cmdSettle (s : State) (a : Nat) : State :=
  match mapGet? s.cmds a with
  | some c =>
    if c.doneAt ≤ s.now ∧ !(unitWaits s a) then
      c.puts.foldl (fun s p => putField s (decide (c.doneAt < s.now)) p) { s with cmds := mapDel s.cmds a }
    else s
  | none => s

/-- An access that stalls until the command has completed (R74): the moment becomes that of the completion. -/
def cmdAwait (s : State) (a : Nat) : State :=
  match mapGet? s.cmds a with
  | some c => cmdSettle (advance s c.doneAt) a
  | none => s

/-- A command starts to run; when it completes is open within its bound, so a free value chooses. What it does to the value
that it names it does now, one of the instants that the rules allow (R71; notes/assumptions/16.md); what it writes into its own
page stands there when it completes. -/
def cmdStart (s : State) (a bits : Nat) (puts : List FieldPut) : State :=
  let (r, s) := drawNat s
  let run : CmdRun := { bits := bits, doneAt := s.now + r % (cmdBound (kindOf s.fuses (pageOf a)) (slotOf a) bits + 1), puts := puts }
  { s with cmds := mapSet s.cmds a run }

/-- The command register of a page whose commands run for a time (R70, R215, R260, R488, R492, R541, R581); none for other kinds. -/
def cmdSlot (kind : Nat) : Option Nat :=
  match kind with
  | 0x1F | 0x21 | 0x29 | 0x43 => some 0x44
  | 0x2A => some 0x84
  | 0x2E => some 0x58
  | 0x44 => some 0x48
  | _ => none

/-- The page's command is settled before an access to the page. -/
def settlePage (s : State) (pg : Nat) : State :=
  match cmdSlot (kindOf s.fuses pg) with
  | some c => cmdSettle s (pg + c)
  | none => s

/-! ## Moments and bytes -/

/-- Nanoseconds, microseconds and milliseconds in units of the monitor timebase. -/
def usTicks (us : Nat) : Nat := us * 200
def msTicks (ms : Nat) : Nat := ms * 200000
def secTicks (sec : Nat) : Nat := sec * 200000000

/-- A value pulled into a range: values outside act as the nearer limit. -/
def clamp (lo hi v : Nat) : Nat := max lo (min hi v)

/-- The bytes of a 24-bit word, most significant first. -/
def wordBytes (w : Nat) : List Byte := [BitVec.ofNat 8 (w / 0x10000), BitVec.ofNat 8 (w / 0x100), BitVec.ofNat 8 w]
/-- `n` bytes of a number, most significant first. -/
def beBytes : Nat → Nat → List Byte
  | 0, _ => []
  | n + 1, v => BitVec.ofNat 8 (v / 256 ^ n) :: beBytes n v
/-- A number from bytes, most significant first. -/
def beNat (bs : List Byte) : Nat := bs.foldl (fun a b => a * 256 + b.toNat) 0
/-- The byte at a position, 0 beyond the end. -/
def byteAt (bs : List Byte) (i : Nat) : Nat := ((bs[i]?).getD 0).toNat
/-- `n` bytes from a position. -/
def sliceBytes (bs : List Byte) (pos n : Nat) : List Byte := (bs.drop pos).take n
/-- A big-endian number of `n` bytes at a position; bytes beyond the end count as 0. -/
def beAt (bs : List Byte) (pos n : Nat) : Nat := (List.range n).foldl (fun a i => a * 256 + byteAt bs (pos + i)) 0
/-- Words of 24 bits that hold a byte string, three bytes a word, the last filled with zero bytes. -/
def packWords : List Byte → List Nat
  | a :: b :: c :: rest => (a.toNat * 0x10000 + b.toNat * 0x100 + c.toNat) :: packWords rest
  | [a, b] => [a.toNat * 0x10000 + b.toNat * 0x100]
  | [a] => [a.toNat * 0x10000]
  | [] => []

/-- Runs an update for each element of a list, first to last. -/
def forEach {α : Type} (xs : List α) (s : State) (f : State → α → State) : State := xs.foldl f s

end Sys2Proof.Machine
end

