-- ==== Sys2Proof/Machine/Crc.lean ====
section
/-! DEFINITION. Cyclic redundancy checks, bit by bit, over the parameters that R80, R193, R287, R509, R555 and R609 give. -/
namespace Sys2Proof.Machine

/-- The parameters of a check (R509): width, polynomial, initial value, reflected input and output, final XOR. -/
structure CrcParams where
  width : Nat
  poly : Nat
  init : Nat
  refl : Bool
  xorOut : Nat
  deriving DecidableEq, Repr

/-- The low `n` bits of a number in reverse order. -/
def reflectBits : Nat → Nat → Nat
  | 0, _ => 0
  | n + 1, x => x % 2 * 2 ^ n + reflectBits n (x / 2)

/-- One bit into the register. -/
def crcBit (p : CrcParams) (crc b : Nat) : Nat :=
  let sh := crc * 2 % 2 ^ p.width
  if crc / 2 ^ (p.width - 1) % 2 = b then sh else sh ^^^ p.poly

/-- The bits of a byte into the register, most significant first. -/
def crcBits (p : CrcParams) : Nat → Nat → Nat → Nat
  | 0, _, crc => crc
  | n + 1, x, crc => crcBits p n x (crcBit p crc (x / 2 ^ n % 2))

/-- One byte into the register. -/
def crcByte (p : CrcParams) (crc x : Nat) : Nat := crcBits p 8 (if p.refl then reflectBits 8 x else x) crc

/-- The register after a string of bytes. -/
def crcFeed (p : CrcParams) (crc : Nat) (bs : List Nat) : Nat := bs.foldl (crcByte p) crc

/-- The result that a register value gives. -/
def crcOut (p : CrcParams) (crc : Nat) : Nat := (if p.refl then reflectBits p.width crc else crc) ^^^ p.xorOut

/-- The check value of a string of bytes. -/
def crcOf (p : CrcParams) (bs : List Nat) : Nat := crcOut p (crcFeed p p.init bs)

/-- CRC-32P4 of R80. -/
def crc32p4 : CrcParams := ⟨32, 0xF4ACFB13, 0xFFFFFFFF, true, 0xFFFFFFFF⟩

end Sys2Proof.Machine
end

