-- ==== Sys2Proof/Machine/Furrow.lean ====
section
/-! DEFINITION. Furrows: words, items, fill and the groups of registers that show them (03_furrows.md, R88 to R112). -/
namespace Sys2Proof.Machine

/-! ## Furrow words (R88, R102) -/

/-- How many ones a number's low `n` bits hold. -/
def onesIn : Nat → Nat → Nat
  | 0, _ => 0
  | n + 1, x => x % 2 + onesIn n (x / 2)

/-- A furrow word of 28 bits with its parity bit (R88): an odd number of ones. -/
def furWord (poison : Bool) (mark data : Nat) : BitVec 28 :=
  let x := b2n poison * 2 ^ 26 + mark % 4 * 2 ^ 24 + data % 2 ^ 24
  BitVec.ofNat 28 (if onesIn 27 x % 2 = 0 then x + 2 ^ 27 else x)

/-- The rewind marker (R100). -/
def rewindMarker : BitVec 28 := furWord true 2 0xFFFFFF

/-- DATA of a furrow word. -/
def furData (w : BitVec 28) : Nat := w.toNat % 2 ^ 24
/-- POISON of a furrow word. -/
def furPoison (w : BitVec 28) : Bool := w.toNat / 2 ^ 26 % 2 == 1

/-- The words of an item in furrow format, marked FIRST, MID, LAST or ONLY (R88, R89). -/
def furItem (poison : Bool) (data : List Nat) : List (BitVec 28) :=
  let n := data.length
  data.zipIdx.map (fun (d, i) =>
    furWord poison (if n = 1 then 3 else if i = 0 then 1 else if i + 1 = n then 2 else 0) d)

def emptyFurrow : Furrow := { items := [], openWords := [], taken := 0, openTaken := 0, marker := false, failed := false, waits := [] }
/-- A furrow by the key of its page. -/
def getFur (s : State) (key : Nat) : Furrow := mapGet emptyFurrow s.furrows key
/-- The furrow that a fault of a page's furrow means: of a page of host rings, which has one for each, the one that holds an item. -/
def furKey (s : State) (pg : Nat) : Nat :=
  match kindOf s.fuses pg with
  | 0x52 | 0x54 => ((s.furrows.map (·.1)).find? (fun k => k / 0x1000 * 0x1000 == pg)).getD pg
  | _ => pg
/-- State with a furrow replaced. -/
def putFur (s : State) (key : Nat) (f : Furrow) : State := { s with furrows := mapPut emptyFurrow s.furrows key f }

/-- Words that a furrow holds, committed or not (FUR_WORDS). -/
def furWords (f : Furrow) : Nat :=
  f.items.foldl (fun n i => n + i.length) 0 - f.taken + (f.openWords.length - f.openTaken)

/-- Base slot B of the counter group of a page's furrow, by page kind (R108). -/
def furGroup (kind : Nat) : Option Nat :=
  match kind with
  | 0x0D | 0x27 | 0x09 | 0x42 | 0x56 => some 0x100
  | 0x03 => some 0x140
  | 0x06 => some 0x0E0
  | 0x2E => some 0x200
  | _ => none

/-- CAPACITY of a page's furrow (R108) as its chapter states it (R238, R295, R337, R370, R394, R479, R532, R616); of a host ring's
(R596, R602). -/
def furCap (kind pg : Nat) : Nat :=
  match kind with
  | 0x03 => 96
  | 0x06 => 24
  | 0x09 =>
    if blockOf pg = 4 then 512 else if cellOf pg = 1 then 4096 else if cellOf pg = 2 then 2048 else 1024
  | 0x0D | 0x2E => 4096
  | 0x27 => 8192
  | 0x42 => 5461
  | 0x52 | 0x54 => 4096
  | 0x56 => 21845
  | _ => 0

/-- A clocked island writes into the furrow of the page (R22, R111): a receive furrow of a CAN, LIN or MAC cell. Into the relay
furrow of a link the core writes, which has taken the frame out of the other link's receive crossing (R21, R616). -/
def islandIn (kind : Nat) : Bool := kind == 0x03 || kind == 0x06 || kind == 0x09

/-- Base slot P of the pop group of a page's furrow, by page kind (R112). -/
def popGroup (kind : Nat) : Option Nat :=
  match kind with
  | 0x0D => some 0x140
  | 0x2E => some 0x240
  | _ => none

/-- Raises FUR_HWM to the fill (R108). -/
def noteFill (s : State) (pg : Nat) : State :=
  match furGroup (kindOf s.fuses pg) with
  | some b => wr s (pg + b + 0xC) (max (rd s (pg + b + 0xC)) (furWords (getFur s pg)))
  | none => s

/-- Words that a page's furrow has room for (R108, R111). -/
def furRoom (s : State) (pg : Nat) : Nat := furCap (kindOf s.fuses pg) pg - furWords (getFur s pg)

/-- The producer's uncommitted words, as far as they are written now and the furrow has room for them (R92, R98, R111). -/
def furWrite (s : State) (pg : Nat) (data : List Nat) : State :=
  let f := getFur s pg
  let n := f.openWords.length
  let ws := (data.take (furRoom s pg)).zipIdx.map (fun (d, i) => furWord false (if n + i = 0 then 1 else 0) d)
  noteFill (putFur s pg { f with openWords := f.openWords ++ ws }) pg

/-- The items that wait in front of a furrow enter it one by one, each whole, while no other producer's item is open and as far
as space is free (R90, R111). -/
def furEnter (cap : Nat) : Nat → Furrow → Furrow
  | 0, f => f
  | n + 1, f =>
    match f.waits with
    | [] => f
    | it :: rest =>
      if f.openWords.isEmpty && decide (furWords f + it.length ≤ cap) then
        furEnter cap n { f with items := f.items ++ [it], waits := rest }
      else f

end Sys2Proof.Machine
end

