-- ==== Sys2Proof/Machine/LinkTx.lean ====
section
/-! DEFINITION. Sending on the Ebder links: sequenced and control frames, credits, the replay buffer, relayed data, and the
path of service frames (17_host_links_and_pairing.md, R608 to R618). -/
namespace Sys2Proof.Machine

def noLink : LinkSt :=
  { txNum := 0, rxNum := 0, naked := false, replay := [], quietFrom := 0, limits := [], used := [], handled := 0,
    service := [], relay := [], arriving := none, learnWait := none, ahead := [], returned := [], granted := [] }
/-- What link k keeps. -/
def getLnk (s : State) (k : Nat) : LinkSt := mapGet noLink s.links k
def putLnk (s : State) (k : Nat) (l : LinkSt) : State := { s with links := mapPut noLink s.links k l }

/-- LNK_STAT.TRAINED of a link that is present. -/
def linkTrained (s : State) (k : Nat) : Bool := s.fuses.xTier && bit s (linkPage k + 0x44) 23
/-- LNK_STAT.PEER_ID. -/
def peerId (s : State) (k : Nat) : Nat := fld s (linkPage k + 0x44) 5 0

/-! ## Frames (R608, R609, R611) -/

/-- A frame without content, of a type, toward a device. -/
def linkFrame (s : State) (type dst : Nat) : LinkFrame :=
  { type := type, cls := 0, start := false, dst := dst, numbered := false, src := s.fuses.devId, pf := 0, tag := 0, orig := 0,
    rsq := 0, stream := 0, payload := [], info := [] }

/-- The 12-byte header (R608). -/
def linkHeader (f : LinkFrame) : List Byte :=
  beBytes 1 (f.type * 16 + f.cls % 8 * 2 + b2n f.start) ++ beBytes 1 (f.dst % 64 * 4 + b2n f.numbered * 2) ++
    beBytes 1 (f.src % 64 * 4 + f.pf % 2 * 2) ++ beBytes 2 (f.tag % 8192) ++ beBytes 1 (f.orig % 16 * 16) ++
    beBytes 2 f.rsq ++ beBytes 2 (f.payload.length % 16384) ++ beBytes 2 (f.stream % 1024)

/-- CRC-32P4 over bytes with the 24-bit number folded ahead, least significant byte first (R609). -/
def linkCrc (num : Nat) (bs : List Byte) : Nat :=
  crcOf crc32p4 (num % 256 :: num / 256 % 256 :: num / 65536 % 256 :: bs.map (·.toNat))

/-- A sequenced frame as it crosses the link. -/
def linkBytes (num : Nat) (f : LinkFrame) : List Byte :=
  let b := linkHeader f ++ f.payload
  b ++ beBytes 4 (linkCrc num b)

/-- TYPEs 3 to 7: register, mirror, pairing and interrupt frames. -/
def isService (f : LinkFrame) : Bool := decide (3 ≤ f.type) && decide (f.type ≤ 7)

/-- A control frame leaves (R611): the pool's and class's places in byte 1 are the spec's open point, so the fields are
recorded and not the bytes. -/
def sendControlFrame (s : State) (k type pool cls value : Nat) : State :=
  send s (124 + k) .linkFrame [type, pool, cls, value % 2 ^ 24] []

/-! ## Credits (R614) -/

/-- Plots that a payload takes. -/
def linkPlots (n : Nat) : Nat := max 1 ((n + 95) / 96)
/-- The pool of a frame on link k: 0 LOCAL, 1 RELAY, 2 SERVICE. -/
def poolOf (s : State) (k : Nat) (f : LinkFrame) : Nat :=
  if isService f then 2 else if f.type = 1 ∨ f.dst = peerId s k then 0 else 1
/-- The key of a frame's pool and class, and what it costs there. -/
def creditKey (s : State) (k : Nat) (f : LinkFrame) : Nat := poolOf s k f * 8 + (if isService f then 0 else f.cls % 8)
def creditCost (f : LinkFrame) : Nat := if isService f then 1 else linkPlots f.payload.length
/-- Credits left in a pool and class. -/
def creditLeft (l : LinkSt) (key : Nat) : Nat := (mapGet 0 l.limits key + 2 ^ 24 - mapGet 0 l.used key) % 2 ^ 24

/-! ## The replay buffer (R610) -/

/-- Bytes that a frame takes in the replay buffer. -/
def replaySize (f : LinkFrame) : Nat := 16 + f.payload.length
/-- Bytes in use. -/
def replayBytes (l : LinkSt) : Nat := l.replay.foldl (fun n r => n + replaySize r.frame) 0
/-- LNK_REPLAY.BYTES follows the buffer. -/
def noteReplay (s : State) (k : Nat) : State := setFld s (linkPage k + 0x48) 18 0 (min 0x7FFFF (replayBytes (getLnk s k)))

/-- What the outbox records of a sequenced frame: its number and header fields, and its bytes unless its content is open. -/
def sendSequenced (s : State) (k num : Nat) (f : LinkFrame) : State :=
  send s (124 + k) .linkFrame ([f.type, num, f.dst, f.src] ++ f.info)
    (if f.type = 5 ∨ f.type = 6 then [] else linkBytes num f)

/-- A frame may start on link k: trained, room in the replay buffer, credits held (R610, R614). -/
def mayStart (s : State) (k : Nat) (f : LinkFrame) : Bool :=
  let l := getLnk s k
  linkTrained s k && running s (linkPage k) && decide (replayBytes l + replaySize f ≤ 262144) &&
    decide (creditCost f ≤ creditLeft l (creditKey s k f))

/-- A sequenced frame is sent: numbered, kept for replay, its credits used. -/
def linkSend (s : State) (k : Nat) (f : LinkFrame) : State :=
  let l := getLnk s k
  let key := creditKey s k f
  let l := { l with
    txNum := (l.txNum + 1) % 2 ^ 24
    replay := l.replay ++ [{ num := l.txNum, frame := f, sentAt := s.now }]
    quietFrom := if l.replay.isEmpty then s.now else l.quietFrom
    used := mapPut 0 l.used key ((mapGet 0 l.used key + creditCost f) % 2 ^ 24) }
  let s := sendSequenced (putLnk s k l) k (getLnk s k).txNum f
  handled (noteReplay (addStat s (linkPage k + 0x70) 1) k) (linkPage k)

/-! ## Credits granted (R133, R134, R614) -/

/-- Plots of a pool and class have come in, or have gone on over the other link: their credits may be returned. -/
def creditBack (s : State) (k key n : Nat) : State :=
  let l := getLnk s k
  putLnk s k { l with returned := mapPut 0 l.returned key ((mapGet 0 l.returned key + n) % 2 ^ 24) }

/-- A relayed frame has left the furrow of link k: its credits return to the sender on the other link. -/
def relayLeft (s : State) (k : Nat) (f : LinkFrame) : State := creditBack s (1 - k) (8 + f.cls % 8) (linkPlots f.payload.length)

/-- How far LOCAL and RELAY credits run ahead of what has come is open: free values drawn when the link trains
(notes/assumptions/84.md). -/
def creditsDrawn (s : State) (k : Nat) : State :=
  forEach (List.range 16) s (fun s key =>
    let (r, s) := drawNat s
    putLnk s k { getLnk s k with ahead := mapPut 0 (getLnk s k).ahead key (r % 2 ^ 24) })

/-- One pool and class of link k: a CREDIT frame when its limit has moved; LOCAL credits of a class that admission withholds from
input 124 + k stand where they are (R133, R614). -/
def creditGrant (s : State) (k key : Nat) : State :=
  let l := getLnk s k
  let limit := (mapGet 0 l.ahead key + mapGet 0 l.returned key) % 2 ^ 24
  let held := decide (key < 8) && mapGet 0 s.withheld (124 + k) / 2 ^ key % 2 == 1
  if held || limit == mapGet 0 l.granted key then s
  else sendControlFrame (putLnk s k { l with granted := mapPut 0 l.granted key limit }) k 10 (key / 8) (key % 8) limit

/-- The credits that link k may grant now. -/
def creditServe (s : State) (k : Nat) : State :=
  if linkTrained s k && running s (linkPage k) then forEach (List.range 16) s (fun s key => creditGrant s k key) else s

/-- Words of a relayed frame in the relay furrow. -/
def relayItem (f : LinkFrame) : List (BitVec 28) := furItem false (packWords (linkHeader f ++ f.payload))

/-- The oldest frame leaves the relay furrow of link k, and what waits in front of it finds space (R111). -/
def relayTake (s : State) (k : Nat) : State :=
  let l := getLnk s k
  let fur := getFur s (linkPage k)
  let fur := { fur with items := fur.items.drop 1, taken := 0, failed := false }
  noteFill (putFur (putLnk s k { l with relay := l.relay.drop 1 }) (linkPage k) (furEnter (furCap 0x56 (linkPage k)) fur.waits.length fur))
    (linkPage k)

/-- The oldest relayed frame goes out over link k, its credits returned (R614, R616); one that a word of the relay furrow has
poisoned (R103) is discarded before its first bit and counted (R106). -/
def relaySend (s : State) (k : Nat) (d : LinkFrame) : State :=
  let u := relayTake s k
  if (getFur s (linkPage k)).failed then relayLeft (incSat u (egrPage + 0x44)) k d else relayLeft (linkSend u k d) k d

/-- A relayed frame may leave the relay furrow: link k may start it, or it is poisoned. -/
def relayMay (s : State) (k : Nat) (d : LinkFrame) : Bool := mayStart s k d || (getFur s (linkPage k)).failed

/-- Waiting frames that may start are sent, service frames ahead of relayed data (R616). -/
def serveLink : Nat → State → Nat → State
  | 0, s, _ => s
  | n + 1, s, k =>
    let l := getLnk s k
    match l.service, l.relay with
    | f :: rest, _ =>
      if mayStart s k f then serveLink n (linkSend (putLnk s k { l with service := rest }) k f) k
      else
        match l.relay with
        | (d, _) :: _ => if relayMay s k d then serveLink n (relaySend s k d) k else s
        | [] => s
    | [], (d, _) :: _ => if relayMay s k d then serveLink n (relaySend s k d) k else s
    | [], [] => s

/-- Link k sends what it may. -/
def linkGo (s : State) (k : Nat) : State :=
  serveLink ((getLnk s k).service.length + (getLnk s k).relay.length) s k

/-- A service frame is offered to link k. -/
def offerService (s : State) (k : Nat) (f : LinkFrame) : State :=
  let l := getLnk s k
  linkGo (putLnk s k { l with service := l.service ++ [f] }) k

/-! ## Paths (R615, R621) -/

/-- The link toward a device for register and interrupt frames (R615). -/
def regPath (s : State) (d : Nat) : Nat :=
  match fld s (routePage + 0x100 + 4 * d) 23 22 with
  | 1 => 0
  | 2 => 1
  | _ => if s.fuses.devId < d then 1 else 0

/-- A service frame takes the REG_PATH of its destination. -/
def sendService (s : State) (f : LinkFrame) : State := offerService s (regPath s f.dst) f

/-- A REG_RSP (R608): TAG, STATUS and the data. -/
def sendResponse (s : State) (dev tag status data : Nat) : State :=
  sendService s { linkFrame s 4 dev with payload := beBytes 1 tag ++ beBytes 1 status ++ beBytes 3 data }

end Sys2Proof.Machine
end

