-- ==== Sys2Proof/Machine/Errors.lean ====
section
/-! DEFINITION. Error records, escalation, the error hub, the fault ledger and the fallow roster
(15_errors_monitors_identity.md, R521 to R541, R705). -/
namespace Sys2Proof.Machine

/-! ## Levels (R528) -/

/-- The level of a page: 0 cell, 1 block, 2 region, 3 chip (R528). -/
def levelOf (pg : Nat) : Nat :=
  if pg = hubPage then 3
  else if cellOf pg = 15 then 1
  else if cellOf pg ≠ 0 then 0
  else if domainOf pg < 4 ∧ blockOf pg = 0 then 2
  else 1

/-- The upper page of a page (R528). -/
def upperPage (pg : Nat) : Nat :=
  if cellOf pg ≠ 0 ∧ cellOf pg ≠ 15 then commonOf pg
  else if domainOf pg < 4 ∧ blockOf pg ≠ 0 then regionBase (domainOf pg)
  else hubPage

/-- The level at which a class is contained when UP is 0 (R527 and the tables of chapters 16 to 18); none stands for the
origin page. -/
def containedAt (code : Nat) : Option Nat :=
  if code = 0x02 ∨ code = 0x10 ∨ code = 0x11 then none
  else if code = 0x05 ∨ code = 0x06 ∨ code = 0x13 ∨ code = 0x14 ∨ code = 0x15 ∨ code = 0x1D ∨ code = 0x1E ∨ code = 0x31 ∨
      code = 0x36 ∨ code = 0x37 ∨ code = 0x38 ∨ code = 0x3B then some 1
  else if code = 0x07 then some 2
  else if code = 0x16 ∨ code = 0x17 ∨ code = 0x19 ∨ code = 0x1A ∨ code = 0x1B ∨ code = 0x1C ∨ code = 0x20 ∨ code = 0x39 then
    some 0
  else some 3

/-- HUB_CLASS_CFG of a class (R536). -/
def classCfg (code : Nat) : Nat := hubPage + 0x100 + 4 * code

/-! ## Pops and commits (R92, R112 to R116) -/

/-- The answer of a pop: FUR_POP with VALID, POISON, LEN and REMAIN, and the words placed in FUR_POPDATA (R112, R113). A word
whose failed parity was found (R103) poisons the item. -/
def popHead (s : State) (pg : Nat) : Nat × State :=
  let f := getFur s pg
  match f.items, popGroup (kindOf s.fuses pg) with
  | it :: rest, some p =>
    let s := putFur s pg { f with items := rest, taken := 0, failed := false }
    let s := it.zipIdx.foldl (fun s (w, i) => if i < 8 then wr s (pg + p + 4 + 4 * i) (furData w) else s) s
    (0x800000 + b2n (it.any furPoison || f.failed) * 0x400000 + it.length % 16 * 0x10000 + min 0xFFFF rest.length, s)
  | _, _ => (0, s)

/-- State with a read completed at a requester; one of another device's host is answered with a REG_RSP (R608). -/
def completeRead (s : State) (requester v : Nat) : State :=
  match s.remoteIn.find? (fun r => r.1 == requester) with
  | some r => sendResponse { s with remoteIn := s.remoteIn.erase r } (requester / 2) r.2 0 v
  | none => { s with hostRead := mapSet s.hostRead requester { value := BitVec.ofNat 24 v, ur := false } }

/-- A pop that stalls on a furrow takes the item just committed (R114, R115). -/
def servePop (s : State) (pg : Nat) : State :=
  match s.stalled.find? (fun p => p.page == pg) with
  | some p =>
    if (getFur s pg).items.isEmpty then s
    else
      let (v, s) := popHead s pg
      completeRead { s with stalled := s.stalled.erase p } p.requester v
  | none => s

/-- Stalled pops take what is committed, and what waits in front of the furrow enters it as space falls free, the high-water mark
kept, turn about. -/
def furPump : Nat → State → Nat → State
  | 0, s, _ => s
  | n + 1, s, pg =>
    let s := servePop s pg
    let f := getFur s pg
    if f.waits.isEmpty then furPump n s pg
    else furPump n (noteFill (putFur s pg (furEnter (furCap (kindOf s.fuses pg) pg) f.waits.length f)) pg) pg

/-- A page's furrow has taken or given words: the pops that stall on it and the producers that wait in front of it go on as far as
they may (R90, R111, R114, R115). -/
def furSettle (s : State) (pg : Nat) : State :=
  let pops := (s.stalled.filter (fun p => p.page == pg)).length
  furPump (if (getFur s pg).waits.isEmpty then pops else pops + (getFur s pg).waits.length + 1) s pg

/-- A whole item of a stage inside the core (R90, R92): it enters at once where it may, else its producer waits (R111). -/
def furPush (s : State) (pg : Nat) (item : List (BitVec 28)) : State :=
  let f := getFur s pg
  furSettle (putFur s pg { f with waits := f.waits ++ [item] }) pg

/-- A rewind at a furrow (R96): FUR_STAT.REWOUND and FUR_REWIND_COUNT. -/
def furRewind (s : State) (pg : Nat) : State :=
  match furGroup (kindOf s.fuses pg) with
  | some b => incSat (setBit s (pg + b + 0x10) 3) (pg + b + 0x14)
  | none => s

/-! ## Records (R521, R522) -/

/-- Issues a hub message on a vector of PF0 (R534), or sends it as an INT frame to RT_CTRL.HOST_DEV while PCIe is down
(R621). -/
def issueHub (s : State) (vec : Nat) : State :=
  if bit s (pciePage + 0x40) 23 then { s with msix := (0, vec) :: s.msix }
  else
    let d := fld s (routePage + 0x40) 5 0
    if s.fuses.xTier && d != s.fuses.devId then sendService s (linkFrame s 7 d) else s

/-- Captures at the hub page act on ALERT and on the vectors (R533, R534). -/
def hubActs (s : State) (code : Nat) : State :=
  let s := if bit s (classCfg code) 21 then setBit s (hubPage + 0x40) 23 else s
  if bit s (classCfg code) 20 then
    let v := fld s (classCfg code) 19 15
    let a := if v < 24 then hubPage + 0x4C else hubPage + 0x50
    let i := if v < 24 then v else v - 24
    let s := if bit s a i then s else issueHub s v
    setBit s a i
  else s

/-- The record word of a capture with SEQ (R521). -/
def recWord (code detail fclass esc seq : Nat) : Nat :=
  0x800000 + fclass % 4 * 0x200000 + esc % 2 * 0x100000 + seq % 4 * 0x40000 + code % 256 * 256 + detail % 256

/-- Captures a record at a page in the order of R522, and acts on it at the hub. A first address read with bad parity is written
afresh (R524). -/
def captureRec (s : State) (pg code detail fclass esc addr : Nat) : State :=
  let seq := (mapGet 0 s.capSeq pg + 1) % 4
  let w := recWord code detail fclass esc seq
  let wa := addr / 4 * 4 + seq
  let s := { s with capSeq := mapPut 0 s.capSeq pg seq }
  let s :=
    if bit s (pg + 0x10) 23 then (if s.recFaulty.contains (pg + 0x14) then wr s (pg + 0x14) wa else s)
    else wr (wr s (pg + 0x14) wa) (pg + 0x10) w
  let s := if s.recFaulty.isEmpty then s else { s with recFaulty := s.recFaulty.filter (fun a => a / 0x1000 != pg / 0x1000) }
  let s := wr (wr s (pg + 0x1C) wa) (pg + 0x18) w
  let s := incSat s (pg + 0x20)
  if pg = hubPage then hubActs s code else s

/-- The hub's log of a record raised at its origin page (R532): four words, or a loss when the furrow of 4,096 words has
no room. -/
def hubLog (s : State) (pg code detail fclass addr row : Nat) : State :=
  if bit s (classCfg code) 23 then
    let seq := mapGet 0 s.capSeq pg
    let item := furItem false [recWord code detail fclass 0 seq, addr / 4 * 4 + seq, row % 2 ^ 24, rd s (hubPage + 0x48)]
    if furWords (getFur s hubPage) + 4 > 4096 then setBit (incSat s (hubPage + 0x68)) (hubPage + 0x40) 20
    else furPush s hubPage item
  else s

/-- A record enters its page's escalation buffer, ahead of the others or behind them, unless it stops at the page (R529, R530);
one that still waits there is replaced, and counted at the upper page. -/
def escPut (s : State) (first : Bool) (r : EscRec) : State :=
  if levelOf r.page < r.limit ∧ levelOf r.page < 3 then
    let s := if s.escBuf.any (fun e => e.page == r.page) then incSat s (upperPage r.page + 0x20) else s
    let others := s.escBuf.filter (fun e => e.page != r.page)
    { s with escBuf := if first then r :: others else others ++ [r] }
  else s

/-- The buffers go up, each record through every level that it has to reach (R529): its copy is captured at the upper page, from
which it goes on. -/
def escalate : Nat → State → State
  | 0, s => s
  | n + 1, s =>
    match s.escBuf with
    | [] => s
    | r :: rest =>
      let up := upperPage r.page
      escalate n (escPut (captureRec { s with escBuf := rest } up r.code r.detail r.fclass 1 r.addr) true { r with page := up })

/-- What waits in escalation buffers reaches its levels (R530), which takes no time (notes/assumptions/133.md). -/
def escServe (s : State) : State := escalate (4 * s.escBuf.length) s

/-- Raises a record at its origin page: captured, logged and put into the page's escalation buffer (R522, R529, R532). -/
def raiseRec (s : State) (pg code detail fclass addr row : Nat) : State :=
  let s := captureRec s pg code detail fclass 0 addr
  let s := hubLog s pg code detail fclass addr row
  let limit := if bit s (classCfg code) 22 then 3 else if code = 0x18 ∧ levelOf pg = 0 then 0 else (containedAt code).getD (levelOf pg)
  escPut s false { page := pg, code := code, detail := detail, fclass := fclass, addr := addr, limit := limit }

/-- Raises a record of a class that is not counted, with its own page as the location. -/
def raisePlain (s : State) (pg code detail : Nat) : State := raiseRec s pg code detail 0 pg 0

/-! ## The fault ledger (R537 to R539) -/

/-- ALERT_N is low: an alert holds, or the hub's own logic has failed (R533, R535). -/
def alertLow (s : State) : Bool := bit s (hubPage + 0x40) 23 || bit s (hubPage + 0x40) 22

/-- HUB_OPER_MIN. -/
def operMin (s : State) : Nat := rd s (hubPage + 0x48)
/-- Whole minutes since entry into ACTIVE (R538). -/
def minutesPassed (s : State) : Nat := (s.now - s.activeAt) / secTicks 60
/-- A minute of operating time (R538): counted when it is over, and stored in the seedbed every 15 minutes. -/
def operMinute (s : State) : State :=
  if s.power.minutes < minutesPassed s then
    let n := (operMin s + 1) % 2 ^ 24
    wr { s with power := { s.power with
      minutes := s.power.minutes + 1
      operStored := if n % 15 = 0 then n else s.power.operStored } } (hubPage + 0x48) n
  else s
/-- HUB_PERM.COUNT, 2 to 4. -/
def permCount (s : State) : Nat := clamp 2 4 (fld s (hubPage + 0x44) 23 20)
/-- HUB_PERM.WINDOW_H in minutes; 0 acts as 1 hour. -/
def permWindow (s : State) : Nat := 60 * clamp 1 1000 (fld s (hubPage + 0x44) 9 0)

/-- The ledger entry of a location, with its index. -/
def ledgerFind (s : State) (pg row : Nat) : Option (Nat × LedgerEntry) :=
  s.ledger.find? (fun e => e.2.page == pg / 0x1000 && e.2.row == row)

/-- The first free index below a bound (R446). -/
def lowestFree {α : Type} (m : NMap α) (bound : Nat) : Option Nat :=
  (List.range bound).find? (fun i => (mapGet? m i).isNone)

/-- A free index below a bound: which one a new entry takes is open (R16, log 32), so `r` is a free value. None when all
are in use. -/
def freeIndex {α : Type} (m : NMap α) (bound r : Nat) : Option Nat :=
  let free := (List.range bound).filter (fun i => (mapGet? m i).isNone)
  free[r % free.length]?

/-- How old a time is, modulo 2^24 minutes. -/
def ageOf (s : State) (t : Nat) : Nat := (operMin s + 2 ^ 24 - t) % 2 ^ 24

/-- The ledger index whose newest fault is oldest (R538). -/
def oldestEntry (s : State) : Nat :=
  (s.ledger.foldl (fun (best : Nat × Nat) e =>
    let age := ageOf s (e.2.times.headD 0)
    if age ≥ best.2 then (e.1, age) else best) (0, 0)).1

/-- State without the ledger entry of a location. -/
def ledgerClear (s : State) (pg row : Nat) : State :=
  match ledgerFind s pg row with
  | some (i, _) => { s with ledger := mapDel s.ledger i }
  | none => s

/-- A counted fault enters the ledger (R526, R538): true when its location held COUNT - 1 faults within the window already. -/
def ledgerCount (s : State) (pg row code : Nat) : Bool × State :=
  let t := operMin s
  match ledgerFind s pg row with
  | some (i, e) =>
    let recent := (e.times.filter (fun u => decide (ageOf s u < permWindow s))).length
    (decide (recent + 1 ≥ permCount s),
      { s with ledger := mapSet s.ledger i { e with code := code, times := (t :: e.times).take 3 } })
  | none =>
    let e : LedgerEntry := { page := pg / 0x1000, code := code, row := row, times := [t] }
    let (r, s) := drawNat s
    match freeIndex s.ledger 256 r with
    | some i => (false, { s with ledger := mapSet s.ledger i e })
    | none =>
      let s' := setBit (incSat s (hubPage + 0x64)) (hubPage + 0x40) 19
      (false, { s' with ledger := mapSet s.ledger (oldestEntry s) e })

/-- Whether a location is permanent after one more counted fault (R537), which the ledger holds either way (R526): its retry or
scrub failed, or the ledger's count is reached. -/
def classFault (s : State) (pg row code : Nat) (scrubFailed : Bool) : Bool × State :=
  let (full, s) := ledgerCount s pg row code
  (scrubFailed || full, s)

/-! ## The roster and retirement (R537, R540) -/

/-- HUB_ROSTER_USED follows the roster. -/
def noteRoster (s : State) : State := setFld s (hubPage + 0x60) 9 0 s.roster.length

/-- Enters a remedy in the roster (R540); a full roster leaves it until power-off. -/
def rosterAdd (s : State) (kind pg code row spare : Nat) : State :=
  let e : RosterEntry := { kind := kind, page := pg / 0x1000, code := code, row := row, spare := spare, min := operMin s }
  let (r, s) := drawNat s
  match freeIndex s.roster 512 r with
  | some i => noteRoster { s with roster := mapSet s.roster i e }
  | none =>
    raisePlain (setBit { s with unrostered := e :: s.unrostered } (hubPage + 0x40) 21) hubPage 0x23 0

/-- A remedy applied to a permanent location: its ledger entry cleared, its roster entry made, "Retirement" raised at the
hub (R537, R538, R540). A cell in FALLOW stands stopped (R44, R541). -/
def retire (s : State) (kind pg code row spare : Nat) : State :=
  let s := if kind = 1 then clrBit s (pg + 0xC) 0 else s
  raiseRec (rosterAdd (ledgerClear s pg row) kind pg code row spare) hubPage 0x21 kind 0 pg row

/-- "No spare" raised at the hub for a permanent location without a remedy (R537). -/
def noSpare (s : State) (pg row detail : Nat) : State := raiseRec s hubPage 0x22 detail 0 pg row

/-- A counted fault that is permanent at once, because its test was the retry (R537, R612, R649): in the ledger, with its record. -/
def permanentRec (s : State) (pg row code detail : Nat) : State :=
  raiseRec (classFault s pg row code true).2 pg code detail 2 pg row

/-- A seedbed fault (R555, R587): `detail` is 0 in an image bank, 1 in the settings, 2 in the system area. -/
def seedFault (s : State) (detail : Nat) : State :=
  let (perm, s) := classFault s updPage 0 0x36 false
  let s := raiseRec s updPage 0x36 detail (if perm then 2 else 1) updPage 0
  if perm then noSpare s updPage 0 0 else s

/-- A fallow roster entry names a location. -/
def rostered (s : State) (kind pg row : Nat) : Bool :=
  s.roster.any (fun e => e.2.kind == kind && e.2.page == pg / 0x1000 && e.2.row == row) ||
    s.unrostered.any (fun e => e.kind == kind && e.page == pg / 0x1000 && e.row == row)

/-- How many roster entries of a kind name a page. -/
def rosterCount (s : State) (kind pg : Nat) : Nat :=
  (s.roster.filter (fun e => e.2.kind == kind && e.2.page == pg / 0x1000)).length +
    (s.unrostered.filter (fun e => e.kind == kind && e.page == pg / 0x1000)).length

end Sys2Proof.Machine
end

