-- ==== Sys2Proof/Machine/Registers.lean ====
section
/-! DEFINITION. The register interface: a software write by access code and effect class, locks, B-class pending writes
and the restart clearing (02_register_interface.md, R48 to R68, R702); the configuration check (R78 to R87). -/
namespace Sys2Proof.Machine

/-! ## Software writes (R48 to R68) -/

/-- The number of the requesting function: device, then 0 for PF0 and 1 for PF1 (R52). -/
def reqNo (dev pf : Nat) : Nat := dev * 2 + pf % 2
/-- The device of a requester. -/
def reqDev (req : Nat) : Nat := req / 2
/-- The function of a requester: 0 or 1. -/
def reqPf (req : Nat) : Nat := req % 2

/-- During BOOT only chip block 0, chip block 12 and domain 6 block 0 answer (R651); a core that is powered while VBAT is below
VBAT_POR answers at PWR_STAT, the chip control page (identity) and domain 6 block 0 (R675); a core without a supply answers
nowhere (R643). -/
def bootReach (s : State) (a : Nat) : Bool :=
  let st := fld s (pwrPage + 0x40) 23 21
  if st = 3 ∨ st = 4 then true
  else if st = 2 then
    (domainOf a == 4 && (blockOf a == 0 || blockOf a == 12)) || (domainOf a == 6 && blockOf a == 0)
  else
    st == 0 && s.power.supplyGood &&
      (a / 4 * 4 == pwrPage + 0x40 || pageOf a == chipPage || (domainOf a == 6 && blockOf a == 0))

/-- Takes the actions of R66 for a write refused by a lock. -/
def lockViolation (s : State) (req a : Nat) : State :=
  let pg := pageOf a
  let s := incSat s (pg + 0x2C)
  let s := if bit s (pg + 0x28) 0 then s
    else wr s (pg + 0x28) (slotOf a / 4 * 0x4000 + reqDev req % 64 * 0x100 + reqPf req * 0x80 + 1)
  raiseRec s pg 0x02 0 0 a 0

/-- Takes the actions of R56 for a Q-class write refused. -/
def qRefused (s : State) (a : Nat) : State :=
  let pg := pageOf a
  let s := if bit s (pg + 0xC) 1 then s else setFld s (pg + 0xC) 23 14 (slotOf a / 4)
  setBit s (pg + 0xC) 1

/-- The cell whose item boundary rules an input's admission limits (R138). -/
def inputCell (p : Nat) : Nat := if p = 126 then mbPage else if 128 ≤ p then htxPage (p - 128) else portPage p

/-- The cells whose behaviour a B-class field at an address reaches (R55): the cells of a CAN block for its common page,
the input's cell for the admission limits (R138), the page itself elsewhere. -/
def cellsBehind (f : Fuses) (a : Nat) : List Nat :=
  let pg := pageOf a
  if kindOf f pg = 0x02 then (List.range 9).map (fun i => pg + (i + 1) * 0x1000)
  else if kindOf f pg = 0x23 then (match arrayPort 0x23 (slotOf a) with | some p => [inputCell p] | none => [pg])
  else [pg]

/-- A frame of a port is being received or sent: its plots arrive, or a copy is in flight (R53). -/
def portBusy (s : State) (p : Nat) : Bool := (mapGet? s.openFrame p).isSome || (mapGet? s.inFlight p).isSome

/-- A cell has an item in flight (R53): a CAN frame sent or received, a LIN slot or responder frame, a MAC frame in either
direction, a table-port command, a frame that the egress scheduler has selected and that has not left, a drill tick, a host
packet, a frame of an Ebder link; a check-value unit's item is its computation (R508). What passes a coulter, hedgerow, lookup,
policer, lane or the mouldboard passes it within one command (notes/assumptions/5.md). -/
def cellBusy (s : State) (pg : Nat) : Bool :=
  match kindOf s.fuses pg with
  | 0x03 => (mapGet? s.can (instanceOf 0x03 pg)).any (fun c => c.current.isSome || c.rxOpen)
  | 0x06 => (mapGet? s.lin (instanceOf 0x06 pg)).any (fun c => c.frame.isSome || c.inSlot)
  | 0x09 =>
    let p := 88 + instanceOf 0x09 pg
    portBusy s p || (mapGet? s.mac p).any (fun m => !m.rxBytes.isEmpty)
  | 0x1F => cmdBusy s (pg + 0x44)
  | 0x25 => !s.inFlight.isEmpty
  | 0x28 => true
  | 0x46 => bit s (pg + 0x54) 1
  | 0x52 => [instanceOf 0x52 pg, instanceOf 0x52 pg + 8].any (fun n => !(getFur s (txRing n)).openWords.isEmpty)
  | 0x54 => (mapGet? s.inFlight (128 + instanceOf 0x54 pg)).isSome || (mapGet? s.inFlight (136 + instanceOf 0x54 pg)).isSome
  | 0x56 => portBusy s (124 + instanceOf 0x56 pg)
  | _ => false

/-- The cell pages of a block, present in the variant: pages 1 to 14 of the block of a common page. -/
def blockCells (f : Fuses) (pg : Nat) : List Nat :=
  if cellOf pg = 0 then ((List.range 14).map (fun i => pg + (i + 1) * 0x1000)).filter (fun c => kindOf f c != 0) else []

/-- The pages whose combined state follows a page: the page itself and the cells of its block (R43). -/
def pagesUnder (f : Fuses) (pg : Nat) : List Nat := pg :: blockCells f pg

/-- A page has an item in flight, or a cell of the block that it stops has: only the item's end is its boundary (R53). A cell
that is stopped or idle is at a boundary. -/
def inItem (s : State) (pg : Nat) : Bool := (pagesUnder s.fuses pg).any (fun c => running s c && cellBusy s c)

/-- Whether a CAN channel that sends nothing is just receiving a frame is open: a free value tells whoever looks, and the answer
stands until the frame ends (R53, R360). -/
def canLook (s : State) (pg : Nat) : State :=
  match kindOf s.fuses pg, mapGet? s.can (instanceOf 0x03 pg) with
  | 0x03, some c =>
    if running s pg && c.joined && c.current.isNone && !c.rxOpen then
      let (r, s) := drawNat s
      if r % 2 = 1 then { s with can := mapSet s.can (instanceOf 0x03 pg) { c with rxOpen := true } } else s
    else s
  | _, _ => s

/-- Every channel that a page stops or whose field it holds is looked at. -/
def lookAll (s : State) (pg : Nat) : State := forEach (pagesUnder s.fuses pg) s canLook

/-- The bus of a channel is idle, or its frame has ended: no frame is being received. -/
def canQuiet (s : State) (n : Nat) : State :=
  match mapGet? s.can n with
  | some c => if c.rxOpen then { s with can := mapSet s.can n { c with rxOpen := false } } else s
  | none => s

/-- Keeps the word that each cell with an item in flight still uses before a B-class write (R55). -/
def pendB (s : State) (a : Nat) : State :=
  forEach (cellsBehind s.fuses a) s (fun s c =>
    let s := canLook s c
    if inItem s c && !(s.bOld.any (fun b => b.cell == c && b.addr == a)) then
      { s with bOld := { cell := c, addr := a, old := BitVec.ofNat 24 (rd s a) } :: s.bOld }
    else s)

/-- What one software write does to one field. -/
inductive FieldAct where
  | keep | set | pend | clear | locked | refused | lockedRefused
  deriving DecidableEq, Repr

/-- The action of a software write on one field (R9, R10, R48, R50, R56, R57, R64, R65): what hardware has set at this very moment
stands over a W1C write, and what it has updated over an RWH write; a Q-class field that is locked while its page
runs is refused on both grounds. -/
def fieldAct (s : State) (a v : Nat) (g : RegField) : FieldAct :=
  let old := fld s a g.hi g.lo
  let new := bitsOf v g.hi g.lo
  match g.acc with
  | .ro | .rc | .mbx | .wt => .keep
  | .w1c => if new = new &&& hwSet s a g.hi g.lo then .keep else .clear
  | .w1s => if new = 0 then .keep else .set
  | .wl => if old = new then .keep else if old = 1 then .locked else .set
  | .rwh =>
    if hwMoved s a g.hi g.lo then .keep
    else if g.eff = .b then (if old = new then .keep else .pend) else .set
  | .rw =>
    if old = new then .keep
    else if bit s (pageOf a + 0x24) 0 then (if g.eff = .q ∧ running s (pageOf a) then .lockedRefused else .locked)
    else match g.eff with
      | .q => if running s (pageOf a) then .refused else .set
      | .b => .pend
      | _ => .set

/-- The word that a slot holds after a software write. -/
def writtenWord (s : State) (a v : Nat) (fs : List RegField) : Nat :=
  fs.foldl (fun w g =>
    match fieldAct s a v g with
    | .set | .pend =>
      if g.acc = .w1s then setBits w g.hi g.lo (bitsOf w g.hi g.lo ||| bitsOf v g.hi g.lo)
      else setBits w g.hi g.lo (bitsOf v g.hi g.lo)
    | .clear =>
      setBits w g.hi g.lo (bitsOf w g.hi g.lo &&&
        (2 ^ (g.hi + 1 - g.lo) - 1 - bitsOf v g.hi g.lo ||| hwSet s a g.hi g.lo))
    | _ => w) (rd s a)

/-- A full-width software write to a slot of a page that answers, by access code and effect class; the triggers of the slot
are acted on elsewhere. -/
def softWord (s : State) (req a v : Nat) : State :=
  let fs := fieldsAt s.fuses a
  let acts := fs.map (fieldAct s a v)
  let w := writtenWord s a v fs
  let s := if acts.contains .pend then pendB s a else s
  let s := syncWord (wr s a w) a (rd s a) w
  let s := if acts.contains .locked || acts.contains .lockedRefused then lockViolation s req a else s
  if acts.contains .refused || acts.contains .lockedRefused then qRefused s a else s

/-- A write whose byte enables are not all set: ignored, with an access-width record for a slot that exists (R35, R58). -/
def partialWrite (s : State) (a : Nat) : State :=
  if (fieldsAt s.fuses a).isEmpty then s else raiseRec s hubPage 0x01 0 0 a 0

/-- Reads that clear: the RC fields of a slot become 0 (R9). -/
def clearRC (s : State) (a : Nat) : State :=
  wr s a ((fieldsAt s.fuses a).foldl (fun w g => if g.acc = .rc then setBits w g.hi g.lo 0 else w) (rd s a))

/-- Ends the wait of every B-class write of a cell (R55). -/
def bTake (s : State) (cell : Nat) : State := { s with bOld := s.bOld.filter (fun b => !(b.cell == cell)) }

/-! ## The restart clearing (R42, R702) -/

/-- RO fields of a page kind that report its volatile state, by slot and highest bit: they return to their reset values
(R702). -/
def volatileAt (kind : Nat) : List (Nat × Nat) :=
  match kind with
  | 0x03 => [(0x5C, 23), (0x5C, 21), (0x5C, 16), (0x5C, 9), (0x5C, 6), (0x5C, 3), (0x60, 23), (0x60, 15),
      (0x60, 14), (0x64, 7), (0x64, 6), (0x5C, 17)]
  | 0x06 => [(0x50, 23), (0x50, 20), (0x50, 14), (0x50, 13), (0x5C, 23), (0x5C, 16)]
  | 0x09 => [(0x4C, 23), (0x4C, 22), (0x4C, 19), (0x4C, 17), (0x54, 23), (0x54, 15), (0x6C, 22)]
  | 0x0B => [(0x44, 10), (0x44, 9)]
  | 0x0F => [(0x180, 22), (0x180, 21)]
  | 0x1F => [(0x48, 23), (0x48, 18), (0x48, 5), (0x48, 4), (0x48, 3), (0x48, 2), (0x48, 1), (0x54, 18)]
  | 0x21 => [(0x48, 15), (0x48, 11), (0x48, 2), (0x48, 1), (0x48, 0)]
  | 0x25 => [(0x340, 13), (0x340, 11), (0xE80, 3)]
  | 0x29 => [(0x48, 14), (0x48, 11), (0x48, 2), (0x48, 1), (0x4C, 23)]
  | 0x2A => [(0x40, 17), (0x40, 16), (0x88, 23), (0x88, 7), (0x88, 3), (0x88, 2), (0x88, 1)]
  | 0x2B => [(0x44, 2), (0x44, 0)]
  | 0x2D => [(0x680, 23), (0x680, 20), (0x680, 19), (0x680, 18), (0x780, 23), (0x780, 20), (0x780, 12)]
  | 0x2E => [(0x5C, 11), (0x5C, 2), (0x5C, 1)]
  | 0x42 => [(0x40, 21)]
  | 0x43 => [(0x48, 23), (0x48, 2), (0x48, 1), (0x4C, 23), (0x4C, 22), (0x4C, 16), (0x4C, 15), (0x4C, 14),
      (0x50, 23)]
  | 0x44 => [(0x40, 16), (0x40, 15)]
  | 0x46 => [(0x54, 11), (0x54, 2), (0x54, 1), (0x54, 0), (0x58, 23), (0x5C, 7), (0x60, 23)]
  | 0x47 => [(0x40, 23), (0x40, 22), (0x4C, 23)]
  | 0x52 => [(0x54, 2)]
  | 0x54 => [(0x54, 0)]
  | _ => []

/-- A field that the restart clearing returns to its reset value (R702). -/
def restartField (kind : Nat) (g : RegField) : Bool :=
  g.acc == .wt || g.acc == .w1s || (decide (g.base = 0x18 ∨ g.base = 0x1C)) || g.name == "PAGE_STAT.STOPPING" ||
    (g.acc == .ro && (volatileAt kind).contains (g.base, g.hi))

/-- The register words of a page after the restart clearing (R702). -/
def restartRegs (s : State) (pg : Nat) : State :=
  let kind := kindOf s.fuses pg
  (s.regs.filter (fun e => pageOf e.1 == pg)).foldl (fun s e =>
    wr s e.1 ((fieldsAt s.fuses e.1).foldl (fun w g =>
      if restartField kind g then setBits w g.hi g.lo g.reset else w) (rd s e.1))) s

/-- The furrows of a page cleared (R42), a stalled pop answered with the empty sentinel (R116); what waits in front of it finds
space (R111). -/
def restartFurrow (s : State) (pg : Nat) : State :=
  let s := { s with delivered := mapDel s.delivered pg, furrows := s.furrows.filter (fun e => e.1 == pg || pageOf e.1 != pg) }
  let s := putFur s pg { emptyFurrow with waits := (getFur s pg).waits }
  let ps := s.stalled.filter (fun p => p.page == pg)
  let s := { s with stalled := s.stalled.filter (fun p => !(p.page == pg)) }
  furSettle (forEach ps s (fun s p => completeRead s p.requester 0)) pg

/-! ## The configuration check (R78 to R87) -/

/-- Slots of a page that R78 excludes by page kind or by register. -/
def uncovered (kind slot : Nat) : Bool :=
  match kind with
  | 0x21 | 0x1F | 0x46 | 0x11 => true
  | 0x03 => slot == 0x70 || (decide (0x200 ≤ slot) && decide (slot ≤ 0x270))
  | 0x06 => slot == 0x48
  | 0x0B => decide (0x60 ≤ slot) && decide (slot ≤ 0x7C)
  | 0x0D => slot == 0x58
  | 0x26 | 0x27 => slot == 0x44
  | 0x29 => slot == 0x40
  | 0x22 => slot == 0x44 || slot == 0x48
  | 0x2A => slot == 0x80
  | 0x2E => slot == 0x54
  | 0x43 => slot == 0x40 || slot == 0x58 || (decide (0x60 ≤ slot) && decide (slot ≤ 0x7C))
  | 0x52 | 0x54 => slot == 0x4C || slot == 0x8C
  | _ => false

/-- The mask of the RW and WL fields of a slot (R78). -/
def coveredMask (f : Fuses) (a : Nat) : Nat :=
  (fieldsAt f a).foldl (fun m g =>
    if g.acc = .rw ∨ g.acc = .wl then m ||| (2 ^ (g.hi + 1) - 2 ^ g.lo) else m) 0

/-- Where the words of object i of a CAN channel stand (R340): word w of the object. -/
def objAddr (n i w : Nat) : Nat := 0x1000000 + ((n * 96 + i) * 32 + w) * 4

/-- The masks of the three virtual slots of an object (R79, R340): OBJ_CFG, OBJ_MASKH, OBJ_MASKL. -/
def virtualMask (k : Nat) : Nat := if k = 0 then 0xFFFFF0 else if k = 1 then 0xC0001F else 0xFFFFFF

/-- The covered slots of a page in ascending order with the masked value each contributes (R78, R79). -/
def coveredOf (s : State) (pg : Nat) : List (Nat × Nat) :=
  let kind := kindOf s.fuses pg
  if kind = 0 then [] else
  let real := (List.range 1024).filterMap (fun i =>
    let slot := 4 * i
    if uncovered kind slot then none
    else
      let m := coveredMask s.fuses (pg + slot)
      if m = 0 then none else some (pg + slot, rd s (pg + slot) &&& m))
  if kind = 0x03 then
    let n := instanceOf 0x03 pg
    real ++ (List.range 288).map (fun j =>
      let i := j / 3; let k := j % 3
      (pg + 0x800 + 4 * j, rd s (objAddr n i (if k = 0 then 0 else k + 2)) &&& virtualMask k))
  else real

/-- Every page address in ascending order. -/
def allPages : List Nat := (List.range 0xE00).map (fun i => i * 0x1000)

/-- The six bytes of one covered slot (R80). -/
def coveredBytes (av : Nat × Nat) : List Nat :=
  [av.1 % 256, av.1 / 256 % 256, av.1 / 65536 % 256, av.2 % 256, av.2 / 256 % 256, av.2 / 65536 % 256]

/-- The result of one pass (R80). -/
def passCrc (s : State) : Nat :=
  crcOut crc32p4 (allPages.foldl (fun crc pg =>
    (coveredOf s pg).foldl (fun crc av => crcFeed crc32p4 crc (coveredBytes av)) crc) crc32p4.init)

/-- Anchors of CFG_REF and CFG_CRC (R87). -/
def cfgRef : Nat := cfgPage + 0x50
def cfgCrc : Nat := cfgPage + 0x54

/-- Opens the window (R83): an open window stays as it is. -/
def cfgOpen (s : State) : State :=
  if bit s (cfgPage + 0x44) 0 then s
  else setBit { s with cfg := { comparable := false, openedAt := s.now, windowRecorded := false } } (cfgPage + 0x44) 0

/-- The checker starts: the pass that it begins now is compared if the window is closed (R81, R82). -/
def cfgStart (s : State) : State := { s with cfg := { s.cfg with comparable := !(bit s (cfgPage + 0x44) 0) } }

/-- Closes the window (R83): comparison resumes with the next pass begun. -/
def cfgClose (s : State) : State := clrBit s (cfgPage + 0x44) 0

/-- The end of a pass whose result is given (R82): compared when the window is closed, the pass began after the last CLOSE
and the reference is valid. The next pass begins at once (R81). -/
def cfgPassWith (s : State) (crc : Nat) : State :=
  let a := cfgPage + 0x44
  let s := wrWide s cfgCrc crc
  let s :=
    if !(bit s a 0) && s.cfg.comparable && bit s a 1 then
      if rdWide s cfgRef = crc then setBit s a 2
      else raisePlain (incSat (setBit (clrBit s a 2) a 3) (cfgPage + 0x4C)) cfgPage 0x03 0
    else s
  { s with cfg := { s.cfg with comparable := !(bit s a 0) } }

/-- The end of a pass (R80 to R82). DESIGN CHOICE: every slot is read as it stands at this instant; whether a pass sees a write
made while it runs is open (R81; notes/assumptions/130.md). -/
def cfgPassEnd (s : State) : State := cfgPassWith s (passCrc s)

/-- CFG_WINDOW_MAX.MS in force, in ticks (R85, R87). -/
def windowMax (s : State) : Nat := msTicks (clamp 1 1000 (fld s (cfgPage + 0x48) 9 0))

/-- The open window passes its limit: the record of this window, at most one (R85). -/
def windowOver (s : State) : State :=
  if bit s (cfgPage + 0x44) 0 && !s.cfg.windowRecorded then
    raisePlain (setBit { s with cfg := { s.cfg with windowRecorded := true } } (cfgPage + 0x44) 4) cfgPage 0x04 0
  else s

/-- A write of CFG_WINDOW_MAX applies to the open window, measured from its opening (R85). -/
def windowRejudge (s : State) : State := if s.now - s.cfg.openedAt > windowMax s then windowOver s else s

/-- Closing by image load or turn (R86): the reference committed, the window closed. -/
def cfgAdopt (s : State) (ref : Nat) : State :=
  setBit (cfgClose (wrWide { s with cfg := { s.cfg with comparable := false } } cfgRef ref)) (cfgPage + 0x44) 1

end Sys2Proof.Machine
end

