-- ==== Sys2Proof/Machine/Tables.lean ====
section
/-! DEFINITION. The tables behind table-port pages: their sizes, their live and shadow copies, pending and quarantined
entries, and the hash of routes and bridge entries (05_lookup_and_filtering.md, R193, R214 to R219; R290, R448, R499,
R538, R540). -/
namespace Sys2Proof.Machine

/-- What a table is: entries, words, shadow, and the commands it takes. -/
structure TableInfo where
  entries : Nat
  words : Nat
  shadow : Bool
  mayWrite : Bool
  mayInval : Bool
  mayHash : Bool
  deriving DecidableEq, Repr

/-- A table with a shadow, written by software. -/
def shadowed (n w : Nat) : TableInfo := ⟨n, w, true, true, true, false⟩

/-- The table of a selector on a table-port page (R214, R290, R448, R499, R538, R540, R565); none where absent. -/
def tableInfo (f : Fuses) (pg t : Nat) : Option TableInfo :=
  let d := domainOf pg; let b := blockOf pg
  if d < 4 then
    match b, t with
    | 7, 0 => some (shadowed 1024 18)
    | 8, 0 => some ⟨32768, 8, true, true, true, true⟩
    | 8, 1 => some ⟨16384, 4, false, true, true, true⟩
    | 8, 2 => some (shadowed 4096 1)
    | 10, 0 => some (shadowed 4096 3)
    | 10, 1 => some ⟨4096, 2, false, false, false, false⟩
    | _, _ => none
  else if d = 4 then
    match b, t with
    | 1, 0 => some (shadowed 4096 6)
    | 2, 0 => some ⟨2560, 2, false, true, true, false⟩
    | 7, 0 => some ⟨1024, 1, false, false, false, false⟩
    | 4, 0 => some (shadowed 32768 4)
    | 4, 1 => some (shadowed 131072 5)
    | 4, 2 => some (shadowed 65536 1)
    | 4, 3 => some (shadowed 16384 9)
    | 4, 4 => some (shadowed 131072 3)
    | 4, 5 => some (shadowed 16384 5)
    | 4, 6 => some (shadowed 8192 2)
    | 4, 7 => some ⟨32768, 3, false, false, false, false⟩
    | 4, 8 => some ⟨16384, 2, false, false, false, false⟩
    | 10, 0 => some ⟨256, 5, false, false, true, false⟩
    | 11, 0 => some ⟨512, 4, false, false, false, false⟩
    | 11, 1 => some ⟨256, 5, false, false, true, false⟩
    | _, _ => none
  else if d = 5 then
    if !f.sec && decide (2 ≤ t) then none
    else
      match t with
      | 0 => some (shadowed 1024 4)
      | 1 => some ⟨1024, 3, false, true, true, false⟩
      | 2 => some (shadowed 8 7)
      | 3 => some (shadowed 32 3)
      | 4 => some (shadowed 160 10)
      | 5 => some ⟨160, 3, false, false, false, false⟩
      | _ => none
  else none

/-- The key of an entry of a copy (0 live, 1 shadow). -/
def tKey (pg t copy i : Nat) : Nat := ((pg / 0x10000 * 16 + t) * 2 + copy) * 0x80000 + i
/-- The table-port page of a key. -/
def tKeyPage (k : Nat) : Nat := k / 0x80000 / 2 / 16 * 0x10000 + 0xF000
/-- The table of a key. -/
def tKeyTable (k : Nat) : Nat := k / 0x80000 / 2 % 16
/-- The index of a key. -/
def tKeyIndex (k : Nat) : Nat := k % 0x80000

def emptyEntry : TEntry := { words := [], valid := false }
/-- An entry of a copy. -/
def tGet (s : State) (pg t copy i : Nat) : TEntry := mapGet emptyEntry s.tables (tKey pg t copy i)
/-- State with an entry of a copy replaced; a write of a live group reaches every region's replica (R202). -/
def tPut (s : State) (pg t copy i : Nat) (e : TEntry) : State :=
  { s with
    tables := mapPut emptyEntry s.tables (tKey pg t copy i) e
    grpOwn := if pg = 0x81F000 ∧ copy = 0 then s.grpOwn.filter (fun g => g.1 % 4096 != i) else s.grpOwn }
/-- Word k of an entry, 0 beyond the words held. -/
def tw (e : TEntry) (k : Nat) : Nat := ((e.words[k]?).getD 0).toNat
/-- Bits of word k of an entry. -/
def twf (e : TEntry) (k hi lo : Nat) : Nat := bitsOf (tw e k) hi lo
/-- One bit of word k of an entry. -/
def twb (e : TEntry) (k i : Nat) : Bool := twf e k i i == 1
/-- An entry with bits of word k replaced. -/
def twSet (e : TEntry) (k hi lo v : Nat) : TEntry :=
  { e with words := e.words.set k (BitVec.ofNat 24 (setBits (tw e k) hi lo v)) }
/-- The live entry where it is valid. -/
def tLive (s : State) (pg t i : Nat) : Option TEntry :=
  let e := tGet s pg t 0 i
  if e.valid then some e else none
/-- A group entry as region r's replica holds it (R202, R242); 4 stands for port 126, which passes no region. -/
def grpGet (s : State) (r i : Nat) : TEntry :=
  match mapGet? s.grpOwn (r * 4096 + i) with
  | some e => if r < 4 then e else tGet s 0x81F000 0 0 i
  | none => tGet s 0x81F000 0 0 i
/-- A group entry of a region's replica where it is valid. -/
def grpLive (s : State) (r i : Nat) : Option TEntry :=
  let e := grpGet s r i
  if e.valid then some e else none
/-- An entry is quarantined (R246). -/
def tQuar (s : State) (pg t i : Nat) : Bool := s.tquar.contains (tKey pg t 0 i)
/-- State with an entry quarantined. -/
def setQuar (s : State) (pg t i : Nat) : State :=
  if tQuar s pg t i then s else { s with tquar := tKey pg t 0 i :: s.tquar }
/-- State with an entry's quarantine cleared. -/
def clrQuar (s : State) (pg t i : Nat) : State := { s with tquar := s.tquar.filter (fun k => !(k == tKey pg t 0 i)) }
/-- An entry is pending (R217). -/
def tPending (s : State) (pg t i : Nat) : Bool := (mapGet? s.tpend (tKey pg t 0 i)).isSome
/-- TP_PEND.COUNT: the pending entries of a page (R215). -/
def pendCount (s : State) (pg : Nat) : Nat := (s.tpend.filter (fun e => tKeyPage e.1 == pg)).length

/-- The first write of a copy makes an entry pending, the write of the other copy ends it (R217). -/
def tNotePending (s : State) (pg t copy i : Nat) : State :=
  match mapGet? s.tpend (tKey pg t 0 i) with
  | some p => if p.copy = copy then s else { s with tpend := mapDel s.tpend (tKey pg t 0 i) }
  | none => { s with tpend := mapSet s.tpend (tKey pg t 0 i) { copy := copy, since := s.now, recorded := false } }

/-- A hardware write of an entry in both copies at once: image load, turn (R569, R585). -/
def tPutBoth (s : State) (pg t i : Nat) (e : TEntry) : State :=
  let s := tPut s pg t 0 i e
  match tableInfo s.fuses pg t with
  | some ti => if ti.shadow then tPut s pg t 1 i e else s
  | none => s

/-! ## Table pages -/

def hdgTable (r : Nat) : Nat := regionBase r + 0x07F000
def lkpTable (r : Nat) : Nat := regionBase r + 0x08F000
def polTable (r : Nat) : Nat := regionBase r + 0x0AF000
def grpTable : Nat := 0x81F000
def gateTable : Nat := 0x82F000
def mbTable : Nat := 0x84F000
def costTable : Nat := 0x87F000
def kaTable : Nat := 0x8AF000
def hubTable : Nat := 0x8BF000
def secTable : Nat := 0xA0F000

/-! ## Hashing (R193) -/

/-- CRC-32 of IEEE 802.3. -/
def crc32eth : CrcParams := ⟨32, 0x04C11DB7, 0xFFFFFFFF, true, 0xFFFFFFFF⟩

/-- The bytes of words, most significant first, three a word. -/
def wordsBytes (ws : List Nat) : List Nat :=
  ws.flatMap (fun w => [w / 0x10000 % 256, w / 0x100 % 256, w % 256])

/-- The key bytes of a route (12) or of a bridge entry (8) from its words (R193). -/
def keyBytes (bridge : Bool) (ws : List Nat) : List Nat :=
  if bridge then
    [ws.getD 0 0 / 0x10000 % 256, ws.getD 0 0 / 0x100 % 256] ++ wordsBytes [ws.getD 1 0, ws.getD 2 0]
  else wordsBytes [ws.getD 0 0, ws.getD 1 0, ws.getD 2 0, ws.getD 3 0]

/-- Entries in one way: 8,192 for routes, 4,096 for bridge entries. -/
def waySize (bridge : Bool) : Nat := if bridge then 4096 else 8192

/-- The candidate index of a key in way w (R193). -/
def candidate (bridge : Bool) (ws : List Nat) (w : Nat) : Nat :=
  w * waySize bridge + crcOf crc32eth (w :: keyBytes bridge ws) % waySize bridge

/-- An entry of a copy holds the key. -/
def keyMatches (bridge : Bool) (e : TEntry) (ws : List Nat) : Bool :=
  if bridge then
    twf e 0 23 12 == bitsOf (ws.getD 0 0) 23 12 && tw e 1 == ws.getD 1 0 && tw e 2 == ws.getD 2 0
  else tw e 0 == ws.getD 0 0 && tw e 1 == ws.getD 1 0 && tw e 2 == ws.getD 2 0 && tw e 3 == ws.getD 3 0

/-- The row of a table entry as a location: the entry index of the table (R537), tables of one page kept apart. -/
def tRow (t i : Nat) : Nat := t * 2 ^ 24 + i
/-- A bridge row removed from service is never filled and never matched (R250). -/
def rowRemoved (s : State) (pg i : Nat) : Bool := rostered s 4 pg (tRow 1 i)

/-- The ways that hold a key, lowest first (R194). -/
def waysHolding (s : State) (r : Nat) (bridge : Bool) (ws : List Nat) : List Nat :=
  let t := b2n bridge
  (List.range 4).filterMap (fun w =>
    let i := candidate bridge ws w
    let e := tGet s (lkpTable r) t 0 i
    if e.valid && keyMatches bridge e ws && !(bridge && rowRemoved s (lkpTable r) i) then some i else none)

end Sys2Proof.Machine
end

