-- ==== Sys2Proof/Machine/Cvu.lean ====
section
/-! DEFINITION. The check-value units (14_check_value_units.md, R507 to R520). -/
namespace Sys2Proof.Machine

/-- The CRC of a POLY code (R509). -/
def cvPoly (p : Nat) : Option CrcParams :=
  match p with
  | 0 => some ⟨8, 0x1D, 0xFF, false, 0xFF⟩
  | 1 => some ⟨8, 0x2F, 0xFF, false, 0xFF⟩
  | 2 => some ⟨16, 0x1021, 0xFFFF, false, 0⟩
  | 3 => some crc32eth
  | 4 => some crc32p4
  | _ => none

/-- The first `n` bytes of a word, least significant first (R510). -/
def cvBytes (w n : Nat) : List Nat := [w % 256, w / 256 % 256, w / 65536 % 256].take n

/-- Clears DONE, ERR, ERRCODE, CV_FED and the result (R512). -/
def cvClear (s : State) (pg : Nat) : State :=
  wr (wr (wr (wr s (pg + 0x54) (setBits (setBits (rd s (pg + 0x54)) 11 8 0) 2 0 0)) (pg + 0x58) 0) (pg + 0x5C) 0) (pg + 0x60) 0

/-- A command is refused: ERR with a code, no other action (R513). -/
def cvRefuse (s : State) (pg code : Nat) : State := setBit (setFld s (pg + 0x54) 11 8 code) (pg + 0x54) 2

/-- Ends a computation whose CV_FED has reached LEN: the result, BUSY cleared, DONE set (R514). -/
def cvFinish (s : State) (u : Nat) (r : CvRun) : State :=
  let pg := cvPage u
  let v := match cvPoly r.poly with
    | some p => crcOut p r.crc
    | none => 0
  let s := wr (wr { s with cvRun := mapDel s.cvRun u } (pg + 0x5C) (v / 2 ^ 24)) (pg + 0x60) (v % 2 ^ 24)
  handled (bTake (setFld s (pg + 0x54) 1 0 1) pg) pg

/-- An item boundary without a result: the computation ends (R508, R516, R518). -/
def cvEnd (s : State) (u : Nat) : State :=
  bTake (clrBit { s with cvRun := mapDel s.cvRun u } (cvPage u + 0x54) 1) (cvPage u)

/-- START (R511 to R513). A unit in FALLOW refuses every START (R518); otherwise the lowest code that holds is given. -/
def cvStart (s : State) (u : Nat) : State :=
  let pg := cvPage u
  let poly := fld s (pg + 0x40) 23 21
  if isFallow s pg then cvRefuse s pg 0x8
  else
    match cvPoly poly with
    | none => cvRefuse s pg 0x2
    | some p =>
      if bit s (pg + 0x54) 1 then cvRefuse s pg 0x6
      else if !(running s pg) then cvRefuse s pg 0x9
      else
        let s := setBit (cvClear s pg) (pg + 0x54) 1
        let crc := crcFeed p p.init (cvBytes (rd s (pg + 0x44)) (fld s (pg + 0x40) 20 19))
        let r : CvRun := { poly := poly, len := rd s (pg + 0x48), crc := crc }
        if r.len = 0 then cvFinish s u r else { s with cvRun := mapSet s.cvRun u r }

/-- ABORT (R513, R516): accepted while BUSY is 1. -/
def cvAbort (s : State) (u : Nat) : State :=
  let a := cvPage u + 0x54
  if bit s a 1 then cvEnd (setFld (clrBit s a 2) a 11 8 0) u else s

/-- A write of CV_CMD (R513, R516): START and ABORT in one access are refused together; in FALLOW every START is (R518). -/
def cvCommand (s : State) (u v : Nat) : State :=
  if v % 2 = 1 ∧ isFallow s (cvPage u) then cvRefuse s (cvPage u) 0x8
  else if v % 4 = 3 then cvRefuse s (cvPage u) 0x5
  else if v % 4 = 1 then cvStart s u
  else if v % 4 = 2 then cvAbort s u
  else s

/-- A write of CV_DATA (R514, R515). -/
def cvData (s : State) (req u v : Nat) : State :=
  let pg := cvPage u
  let v := v % 2 ^ 24
  if bit s (pg + 0x24) 0 then lockViolation s req (pg + 0x4C)
  else
    let s := wr s (pg + 0x4C) v
    match mapGet? s.cvRun u with
    | none => setBit s (pg + 0x54) 3
    | some r =>
      let fed := rd s (pg + 0x58)
      let n := min 3 (r.len - fed)
      match cvPoly r.poly with
      | none => s
      | some p =>
        let r := { r with crc := crcFeed p r.crc (cvBytes v n) }
        let s := wr { s with cvRun := mapSet s.cvRun u r } (pg + 0x58) (fed + n)
        if fed + n = r.len then cvFinish s u r else s

/-- A RESTART's part of R516: the computation ends; the state fields are cleared by the restart clearing. -/
def cvRestart (s : State) (pg : Nat) : State :=
  if kindOf s.fuses pg = 0x46 then { s with cvRun := mapDel s.cvRun (cellOf pg - 1) } else s

/-- A parity fault in a unit's running state (R518, R537): a counted fault of the unit's page; a unit with a permanent
fault enters FALLOW. -/
def cvFault (s : State) (u : Nat) : State :=
  let pg := cvPage u
  let s := cvRefuse (cvAbort s u) pg 0x8
  let (perm, s) := classFault s pg 0 0x1C false
  let s := raiseRec s pg 0x1C u (if perm then 2 else 1) pg 0
  if perm then retire (setBit { s with fallow := pg :: s.fallow } (pg + 0x54) 4) 1 pg 0x1C 0 0 else s

end Sys2Proof.Machine
end

