-- ==== Sys2Proof/Machine/Frames.lean ====
section
/-! DEFINITION. Ethernet frames: their headers as the coulter reads them, the outer tag of a bridged copy, the wire form and the
end of a failed frame (05_lookup_and_filtering.md R175 to R181; 11_ethernet_ports.md R390, R400 to R402). -/
namespace Sys2Proof.Machine

/-! ## Ethernet frames (R175, R180, R181) -/

/-- Where an Ethernet frame's headers stand: the EtherType that follows all VLAN tags and the byte after it. -/
def l2Walk : Nat → List Byte → Nat → Nat × Nat
  | 0, bs, pos => (beAt bs pos 2, pos + 2)
  | n + 1, bs, pos =>
    if beAt bs pos 2 = 0x8100 ∨ beAt bs pos 2 = 0x88A8 then l2Walk n bs (pos + 4) else (beAt bs pos 2, pos + 2)

/-- What the coulter reads of an Ethernet frame. -/
structure EthView where
  tagged : Bool
  etherType : Nat
  l3 : Nat
  ipv4 : Bool
  ipv6 : Bool
  proto : Nat
  fragment : Bool
  laterFragment : Bool
  l4 : Nat
  deriving DecidableEq, Repr

/-- Reads the headers of an Ethernet frame. -/
def ethView (bs : List Byte) : EthView :=
  let (et, l3) := l2Walk bs.length bs 12
  let v4 := et == 0x0800 && byteAt bs l3 / 16 == 4
  let v6 := et == 0x86DD && byteAt bs l3 / 16 == 6
  let off := beAt bs (l3 + 6) 2 % 0x2000
  let more := beAt bs (l3 + 6) 2 / 0x2000 % 2
  let proto := if v4 then byteAt bs (l3 + 9) else if v6 then byteAt bs (l3 + 6) else 0
  { tagged := beAt bs 12 2 == 0x8100 || beAt bs 12 2 == 0x88A8
    etherType := et
    l3 := l3
    ipv4 := v4
    ipv6 := v6
    proto := proto
    fragment := v4 && (off != 0 || more != 0) || v6 && proto == 44
    laterFragment := v4 && off != 0 || v6 && proto == 44 && beAt bs (l3 + 42) 2 / 8 != 0
    l4 := if v4 then l3 + byteAt bs l3 % 16 * 4 else if v6 then l3 + 40 else 0 }

/-- The VID of the outer tag, 0 when untagged (R197). -/
def outerVid (bs : List Byte) : Nat := if (ethView bs).tagged then beAt bs 14 2 % 4096 else 0
/-- The PCP of the outer tag. -/
def outerPcp (bs : List Byte) : Nat := byteAt bs 14 / 32

/-- The frame carries UDP over IPv4 or IPv6 and is no fragment (R175 step 3). -/
def isUdp (v : EthView) : Bool := (v.ipv4 || v.ipv6) && v.proto == 17 && !v.fragment

/-- The end of the UDP payload: the UDP length, within the bytes held. -/
def udpEnd (bs : List Byte) (v : EthView) : Nat := min bs.length (v.l4 + max 8 (beAt bs (v.l4 + 4) 2))

/-! ## What a port writes (R390, R400 to R402) -/

/-- A T1S port. -/
def isT1s (p : Nat) : Bool := decide (p < 104)
/-- The interface in use (R390): a value that the port kind does not list acts as its first. -/
def ethIf (s : State) (p : Nat) : Nat :=
  let i := fld s (macPage p + 0x48) 23 22
  if isT1s p then 3 else if p < 108 then (if i ≤ 1 then i else 0) else if p < 112 then 1 else 2

/-- The bytes of a bridged copy with the outer tag that ETH_VLAN gives it (R401). -/
def vlanOut (s : State) (p : Nat) (c : Copy) (bs : List Byte) : List Byte :=
  let pg := macPage p
  let a := pg + 0x60
  let tagged := (ethView bs).tagged
  let vid := if tagged then beAt bs 14 2 % 4096 else 0
  let bare := if tagged then bs.take 12 ++ bs.drop 16 else bs
  if effBit s pg a 12 ∧ c.form.vid = eff s pg a 11 0 then bare
  else if tagged ∧ vid ≠ 0 then bs
  else bare.take 12 ++ beBytes 2 0x8100 ++ beBytes 2 (c.cls * 8192 + c.form.vid) ++ bare.drop 12

/-- A frame as it crosses the interface: padded to 60 bytes, with its FCS (R400). -/
def ethWire (bs : List Byte) : List Byte :=
  let b := bs ++ List.replicate (60 - bs.length) 0
  let c := crcOf crc32eth (b.map (·.toNat))
  b ++ [BitVec.ofNat 8 c, BitVec.ofNat 8 (c / 2 ^ 8), BitVec.ofNat 8 (c / 2 ^ 16), BitVec.ofNat 8 (c / 2 ^ 24)]

/-- The error code with which the PCS of an interface ends a failed frame (R402): 1 /E/, 2 error propagation, 3 ESDERR. -/
def pcsError (i : Nat) : Nat := if i ≤ 1 then 1 else if i = 2 then 2 else 3

/-- The bytes of a frame that is ended as a failed transmission (R402): what has left of it, and its FCS inverted. -/
def stompedBytes (sent : List Byte) : List Byte :=
  let c := crcOf crc32eth (sent.map (·.toNat))
  sent ++ [~~~(BitVec.ofNat 8 c), ~~~(BitVec.ofNat 8 (c / 2 ^ 8)), ~~~(BitVec.ofNat 8 (c / 2 ^ 16)), ~~~(BitVec.ofNat 8 (c / 2 ^ 24))]

end Sys2Proof.Machine
end

