-- ==== Sys2Proof/Machine/Samples.lean ====
section
/-! DEFINITION. What LOAD and the monitors measure: the busy time of buses and ports, and the live sets of monitors with the
latency of each copy (15_errors_and_monitors.md, R544, R547 to R550). -/
namespace Sys2Proof.Machine

/-! ## Busy time (R544, R548) -/

/-- A port's bus has been busy from a moment until now; what lies back further than the longest window of a monitor is forgotten. -/
def noteBusy (s : State) (p from_ : Nat) : State :=
  let kept := (mapGet [] s.busy p).filter (fun b => decide (s.now ≤ b.2 + secTicks 10))
  { s with busy := mapSet s.busy p ((from_, s.now) :: kept) }

/-- A span enters a list of spans kept in the order in which they begin. -/
def spanInsert (b : Nat × Nat) : List (Nat × Nat) → List (Nat × Nat)
  | [] => [b]
  | c :: cs => if b.1 ≤ c.1 then b :: c :: cs else c :: spanInsert b cs

/-- How much of the time from `lo` to `hi` spans cover that follow one another by their beginnings: what two of them cover
together counts once. -/
def spanTime : List (Nat × Nat) → Nat → Nat → Nat
  | [], _, _ => 0
  | (a, b) :: cs, lo, hi =>
    let a' := max a lo; let b' := min b hi
    (b' - a') + spanTime cs (max lo b') hi

/-- Busy time of a port per mille of a window (R544, R548). -/
def busyLoad (s : State) (p lo hi : Nat) : Nat :=
  spanTime ((mapGet [] s.busy p).foldl (fun l b => spanInsert b l) []) lo hi * 1000 / max 1 (hi - lo)

/-! ## Live sets (R547 to R550) -/

/-- The live set right after a clear. -/
def emptyLive : MonLive := { min := 0xFFFFFF, max := 0, count := 0, bins := [] }

def monEdge (s : State) (pg k : Nat) : Nat := rd s (pg + 0x50 + 4 * k)

/-- MON_STAT.EDGE_ERR: the edges are not non-decreasing (R549). -/
def edgeErr (s : State) (pg : Nat) : Bool := (List.range 14).any (fun k => decide (monEdge s pg (k + 1) < monEdge s pg k))

/-- The bin of a sample: how many edges are at or below it (R549). -/
def monBin (s : State) (pg v : Nat) : Nat := ((List.range 15).filter (fun k => decide (monEdge s pg k ≤ v))).length

/-- The region that owns an input or output of a monitor (R14, R547): none, 4, for the mouldboard's port 126, which is the chip's,
and for 127. -/
def monRegion (p : Nat) : Nat := if p = 126 ∨ p = 127 then 4 else regionOfPort p

/-- MON_SRC.KIND as it acts on a monitor (R547, R548): 0 OFF. -/
def monKind (s : State) (pg : Nat) : Nat :=
  let k := fld s (pg + 0x40) 23 21
  let port := fld s (pg + 0x40) 20 13
  if k = 0 ∨ 6 ≤ k then 0
  else if (k = 1 ∨ k = 2 ∨ k = 3) ∧ 143 < port then 0
  else if k = 4 ∧ 123 < port then 0
  else if k = 5 ∧ 4 < port then 0
  else if domainOf pg < 4 ∧ ¬((if k = 5 then port else monRegion port) = domainOf pg) then 0
  else k

/-- A sample enters the live set (R549). -/
def monTake (s : State) (pg v : Nat) : State :=
  let l := mapGet emptyLive s.monLive pg
  let b := monBin s pg v
  let l : MonLive :=
    { min := Nat.min l.min v, max := Nat.max l.max v, count := Nat.min 0xFFFFFF (l.count + 1),
      bins := mapSet l.bins b (Nat.min 0xFFFFFF (mapGet 0 l.bins b + 1)) }
  { s with monLive := mapSet s.monLive pg l }

/-! ## Latency (R548) -/

/-- The pages of the monitors: eight of the chip, four of each region (R547). -/
def monPages : List Nat :=
  (List.range 8).map (fun m => 0x891000 + m * 0x1000) ++
    (List.range 16).map (fun i => regionBase (i / 4) + 0x0C1000 + i % 4 * 0x1000)

/-- The first bit of a copy of a class leaves an output now, of a frame that was ready at a moment: every monitor of the output's
latency for the class takes the time between them (R548). -/
def latency (s : State) (o cls ready : Nat) : State :=
  forEach monPages s (fun s pg =>
    if monKind s pg = 1 ∧ fld s (pg + 0x40) 20 13 = o ∧ bit s (pg + 0x40) (5 + cls % 8) ∧ running s pg ∧ !(edgeErr s pg) then
      monTake s pg (min (s.now - ready) 0xFFFFFF)
    else s)

end Sys2Proof.Machine
end

