-- ==== Sys2Proof/Machine/Switch.lean ====
section
/-! DEFINITION. The shared-memory switch core: plots and their charging, back-pressure, queues, the scheduler, gates and
resequencers (04_switch_core.md, R120 to R173; R404 and R407 for the control frames of back-pressure). -/
namespace Sys2Proof.Machine

/-! ## Plots and areas (R120 to R131) -/

/-- The least reserve of an input (R129). -/
def minReserve (p : Nat) : Nat :=
  if p < 64 then 64 else if p < 88 then 8 else if p < 104 then 16 else if p < 124 then 96 else if p < 126 then 192
  else if p = 126 then 64 else 96

/-- ADM_RES[p], ADM_SHMAX[p] and ADM_USED[p]. -/
def admRes (p : Nat) : Nat := admPage + 0x100 + 4 * p
def admShmax (p : Nat) : Nat := admPage + 0x340 + 4 * p
def admUsed (p : Nat) : Nat := admPage + 0x580 + 4 * p
def admExhausted (p : Nat) : Nat := admPage + 0x7C0 + 4 * p

/-- RESERVE of an input as charged (R129). -/
def reserveOf (s : State) (p : Nat) : Nat := max (minReserve p) (eff s (inputCell p) (admRes p) 11 0)
/-- HEADROOM of an input as written. -/
def headroomOf (s : State) (p : Nat) : Nat := eff s (inputCell p) (admRes p) 23 12
/-- SHMAX.MAX of an input; larger values act as 65,536. -/
def shmaxOf (s : State) (p : Nat) : Nat := min 65536 (eff s (inputCell p) (admShmax p) 16 0)

/-- A 1G port, or a MAC port, that runs half duplex (R407). -/
def halfDuplex (s : State) (p : Nat) : Bool := decide (112 ≤ p) && decide (p < 124) && bit s (macPage p + 0x4C) 19

/-- The input takes back-pressure in its kind and mode now (R134, R407). -/
def takesBp (s : State) (p : Nat) : Bool :=
  if p < 64 then false
  else if p < 88 then bit s (linPage (p - 64) + 0x40) 23
  else if p < 124 then !(halfDuplex s p)
  else true

/-- Every input number of the admission arrays: 127 is reserved (R129). -/
def inputs : List Nat := (List.range 144).filter (fun p => p != 127)

/-- Every plot in use with its input. -/
def allPlots (s : State) : List (Nat × Plot) := s.frames.flatMap (fun f => f.2.plots.map (fun pl => (f.2.input, pl)))

/-- Plots of an input in an area. -/
def areaUse (s : State) (p : Nat) (a : Area) : Nat :=
  s.frames.foldl (fun n f => if f.2.input = p then n + (f.2.plots.filter (fun pl => pl.area == a)).length else n) 0

/-- Plots in an area over all inputs. -/
def areaAll (s : State) (a : Area) : Nat :=
  s.frames.foldl (fun n f => n + (f.2.plots.filter (fun pl => pl.area == a)).length) 0

/-- ADM_USABLE: rows in service (R138, R171). -/
def usable (s : State) : Nat := 65536 - s.rowsOut.length

/-- What the reserves and headrooms of every input present take (R130). -/
def committedPlots (s : State) : Nat :=
  inputs.foldl (fun n p => if portPresent s.fuses p then n + reserveOf s p + headroomOf s p else n) 0

/-- Plots of the shared pool; the figure of R130 below zero gives 0. -/
def poolSize (s : State) : Nat := usable s - committedPlots s
/-- The figure of R130 is below zero: ADM_STAT.OVERCOMMIT. -/
def overcommit (s : State) : Bool := decide (usable s < committedPlots s)
/-- F: free plots of the shared pool, less those its inputs and the held account hold (R127, R142). -/
def poolFree (s : State) : Nat := poolSize s - areaAll s .sh - areaAll s .held

/-- The area that a plot of an input is charged to (R127); none when every area is exhausted. -/
def chargeArea (s : State) (p : Nat) : Option Area :=
  if areaUse s p .res < reserveOf s p then some .res
  else if areaUse s p .sh < shmaxOf s p ∧ poolFree s > 0 then some .sh
  else if areaUse s p .hr < (if takesBp s p then headroomOf s p else 0) then some .hr
  else none

/-- Rows of a bank that no plot may take: in use, awaiting their test, or removed (R121, R170, R171). -/
def rowsTaken (s : State) (b : Nat) : List Nat :=
  (allPlots s).filterMap (fun e => if e.2.bank = b then some e.2.row else none) ++
    s.awaitTest.filterMap (fun e => if e.1 = bankPage b then some e.2 else none) ++
    s.rowsOut.filterMap (fun e => if e.1 = b then some e.2 else none)

/-- BANK_FREE.ROWS. -/
def bankFree (s : State) (b : Nat) : Nat := 16384 - (rowsTaken s b).dedup.length

/-- The bank of plot k of an item whose plot 0 took bank b0 (R121): rotation, skipping banks with no free row. -/
def bankFor (s : State) (b0 k : Nat) : Option Nat :=
  ((List.range 4).map (fun j => (b0 + k + j) % 4)).find? (fun b => decide (bankFree s b > 0))

/-- The bank with the most free rows, the lowest-numbered on a tie (R121). -/
def bestBank (s : State) : Nat :=
  ((List.range 4).foldl (fun (best : Nat × Nat) b =>
    if bankFree s b > best.2 then (b, bankFree s b) else best) (0, 0)).1

/-- The free row that a draw names: which free row a plot takes is unspecified (R121). -/
def freeRow (s : State) (b draw : Nat) : Nat :=
  let taken := (rowsTaken s b).dedup
  let free := (List.range 16384).filter (fun r => !(taken.contains r))
  (free[draw % free.length]?).getD 0

/-- One more plot of an area, the k-th of an item whose first is in bank `b0`; none when the areas or the memory are
exhausted. -/
def takePlot (s : State) (area : Option Area) (b0 k : Nat) : Option (Plot × State) :=
  match area, bankFor s b0 k with
  | some a, some b =>
    let (d, s') := drawNat s
    some ({ bank := b, row := freeRow s b d, area := a }, s')
  | _, _ => none

/-! ## Frames -/

def noFrame : Frame :=
  { input := 0, kind := .eth, cls := 0, bytes := [], plots := [], committed := false, poison := false, bad := false,
    judged := false, wantsTs := false, tag := 0, commitAt := 0, earlyAt := 0, ingressNs := 0, macsecIn := false, announced := false,
    ended := false, learn := none, badFlags := 0, srcDev := 0, charges := [] }

def getFrame (s : State) (id : Nat) : Frame := mapGet noFrame s.frames id
def putFrame (s : State) (id : Nat) (f : Frame) : State := { s with frames := mapSet s.frames id f }
def hasFrame (s : State) (id : Nat) : Bool := (mapGet? s.frames id).isSome

/-- Plots that a byte string fills. -/
def plotsFor (n : Nat) : Nat := max 1 ((n + 95) / 96)

/-- The copies queued for an output. -/
def outQueue (s : State) (o : Nat) : List Copy := mapGet [] s.outQ o
/-- State with the queue of an output replaced; a class left without a copy carries no credit on (R151). -/
def putQueue (s : State) (o : Nat) (q : List Copy) : State :=
  { s with
    outQ := mapPut [] s.outQ o q
    deficit := s.deficit.filter (fun d => d.1 / 8 != o || q.any (fun c => c.cls == d.1 % 8)) }

/-- EGR_PORT.STATE: 0 UP, 1 HELD, 2 FLUSHED. -/
def egrPort (o : Nat) : Nat := egrPage + 0x340 + 4 * o
def outState (s : State) (o : Nat) : Nat := fld s (egrPort o) 13 12

/-- Copies of a frame outstanding at outputs: queued, in flight, at a resequencer, or waiting as a verdict. -/
def liveCopies (s : State) (id : Nat) : Bool :=
  s.outQ.any (fun q => outState s q.1 == 0 && q.2.any (fun c => c.frame == id)) ||
    s.inFlight.any (fun c => c.2.frame == id) ||
    s.streams.any (fun st => st.2.held.any (fun h => h.2.copies.any (fun c => c.2.frame == id))) ||
    s.relWait.any (fun it => it.copies.any (fun c => c.2.frame == id)) ||
    s.verdicts.any (fun v => v.2.any (fun x => x.frame == some id)) ||
    s.heads.any (fun h => h.2.any (fun x => x.frame == some id)) ||
    s.laneQ.any (fun it => it.frame == some id) || s.lanes.any (fun l => l.2.any (fun it => it.frame == some id))
/-- Copies of a frame held for down outputs. -/
def heldCopies (s : State) (id : Nat) : Bool :=
  s.outQ.any (fun q => outState s q.1 != 0 && q.2.any (fun c => c.frame == id))
/-- A frame has a copy outstanding. -/
def outstanding (s : State) (id : Nat) : Bool := liveCopies s id || heldCopies s id

/-- EGR_QUEUED[o]: each copy counts its frame's plots. -/
def queuedPlots (s : State) (o : Nat) : Nat :=
  (outQueue s o).foldl (fun n c => n + (getFrame s c.frame).plots.length) 0
/-- Queue entries in use. DESIGN CHOICE: a copy that its egress is reading still holds its entry; R138 does not say when an entry
falls free (notes/assumptions/141.md). -/
def entriesUsed (s : State) : Nat := s.outQ.foldl (fun n q => n + q.2.length) 0 + s.inFlight.length
/-- ADM_ENTRY_FREE (R120, R138). -/
def entriesFree (s : State) : Nat := 262144 - entriesUsed s

/-! ## Back-pressure (R132, R133, R404, R407) -/

/-- U(p) and L(p) of R132. -/
def useOf (s : State) (p : Nat) : Nat := areaUse s p .res + areaUse s p .sh
def limitOf (s : State) (p : Nat) : Nat := reserveOf s p + min (shmaxOf s p) (areaUse s p .sh + poolFree s)

/-- Plots of a class charged to an input. -/
def classUse (s : State) (p c : Nat) : Nat :=
  s.frames.foldl (fun n f =>
    if f.2.input = p ∧ f.2.cls = c then n + (f.2.plots.filter (fun pl => pl.area != .held)).length else n) 0

/-- The classes that hold at least an eighth of U(p), as a bit set (R133). -/
def greedyClasses (s : State) (p : Nat) : Nat :=
  (List.range 8).foldl (fun m c => if 8 * classUse s p c ≥ useOf s p then m + 2 ^ c else m) 0

/-- ETH_FC.MODE as it acts on a port (R404, R407): 0 none, 1 PAUSE, 2 PFC. -/
def fcMode (s : State) (p : Nat) : Nat :=
  let m := eff s (macPage p) (macPage p + 0x50) 23 22
  if halfDuplex s p then 0
  else if p < 104 then (if bit s (macPage p + 0x58) 23 then (if m = 1 ∨ m = 2 then 1 else 0) else 0)
  else if m = 3 then 0 else m

/-- The address of entry 0, or zero when it is disabled (R404). -/
def ownAddress (s : State) (p : Nat) : List Byte :=
  let pg := macPage p
  if effBit s pg (pg + 0x78) 0 then wordBytes (eff s pg (pg + 0x140) 23 0) ++ wordBytes (eff s pg (pg + 0x180) 23 0)
  else List.replicate 6 0

/-- QUANTA sent; values below 64 act as 64 (R404). -/
def quantaOf (s : State) (p : Nat) : Nat := max 64 (fld s (macPage p + 0x50) 15 0)

/-- The 60 bytes of a MAC control frame before its FCS (R404). -/
def controlFrame (s : State) (p op : Nat) (body : List Byte) : List Byte :=
  let h := [0x01, 0x80, 0xC2, 0x00, 0x00, 0x01] ++ ownAddress s p ++ beBytes 2 0x8808 ++ beBytes 2 op ++ body
  h ++ List.replicate (60 - h.length) 0

def noMac : MacCh :=
  { tsq := [], txFrom := none, stamped := false, colls := 0, backoff := none, turn := false, burst := 0, turnEnd := 0,
    pauseTo := [], fcQ := [], ranAt := 0, skip := false, ctl := false, da := 0, nm := 0, learnWait := none, rxBytes := [] }
def getMac (s : State) (p : Nat) : MacCh := mapGet noMac s.mac p
def putMac (s : State) (p : Nat) (m : MacCh) : State := { s with mac := mapPut noMac s.mac p m }

/-- ETH_LINK and ETH_EVENTS of a port. -/
def ethLink (p : Nat) : Nat := macPage p + 0x4C
def ethEvents (p : Nat) : Nat := macPage p + 0x68
/-- A number of bit times at a port's speed, coded as SPEED_SET, in ticks. -/
def bitTenths (speed : Nat) : Nat :=
  match speed with
  | 1 => 1000
  | 2 => 100
  | 3 => 10
  | 4 => 4
  | 5 => 2
  | _ => 1
def bitTicks (s : State) (p n : Nat) : Nat := (n * bitTenths (fld s (ethLink p) 22 20) + 49) / 50

/-! ## Clusters and pairing as the outputs see them (R427 to R429, R623) -/

/-- WK_CH and WK_CHST of a bus channel's port; CL_CFG and CL_STAT of a cluster. -/
def wkCh (p : Nat) : Nat := wakePage (regionOfPort p) + 0x100 + 4 * wakeIndex p
def wkChst (p : Nat) : Nat := wakePage (regionOfPort p) + 0x180 + 4 * wakeIndex p
def clCfg (c : Nat) : Nat := clusterPage + 0x100 + 4 * c
def clStat (c : Nat) : Nat := clusterPage + 0x680 + 4 * c
/-- CL_STAT.STATE. -/
def clState (s : State) (c : Nat) : Nat := fld s (clStat c) 23 21

/-- The enabled cluster of which a bus channel is a member (R427, R428). -/
def clusterOf (s : State) (p : Nat) : Option Nat :=
  if p < 104 ∧ bit s (wkCh p) 23 then
    let c := fld s (wkCh p) 22 18
    if bit s (clCfg c) 23 then some c else none
  else none

/-- The cluster of a channel sleeps or prepares to (R429). -/
def chanAsleep (s : State) (p : Nat) : Bool :=
  match clusterOf s p with
  | some c => clState s c == 0 || clState s c == 4
  | none => false

/-- PAIR_STAT.STATE; 0 where the unit is absent. -/
def pairState (s : State) : Nat := if s.fuses.xTier then fld s (pairPage + 0x4C) 23 21 else 0
/-- The outputs of a pair member that is not ACTIVE are quiet (R623, R624). -/
def pairQuiet (s : State) : Bool := pairState s == 1 || pairState s == 2 || pairState s == 4

/-- PLCA runs on a T1S port. -/
def plcaOn (s : State) (p : Nat) : Bool := isT1s p && bit s (macPage p + 0x58) 23

/-- A frame has used a port's PLCA opportunity (R409): a further one may follow while MAX_BC allows it and the burst timer runs. -/
def plcaUsed (s : State) (p : Nat) : State :=
  let m := getMac s p
  if plcaOn s p then
    putMac s p { m with
      turn := decide (m.burst > 0)
      burst := m.burst - 1
      turnEnd := s.now + bitTicks s p (max 1 (fld s (macPage p + 0x5C) 7 0)) }
  else s

/-- Sends a PAUSE with a time, or a PFC with a class set and a time for each (R404). -/
def fcSend (s : State) (p classes quanta : Nat) : State :=
  let pg := macPage p
  let body :=
    if fcMode s p = 1 then controlFrame s p 0x0001 (beBytes 2 quanta)
    else controlFrame s p 0x0101 (beBytes 2 classes ++
      (List.range 8).flatMap (fun c => beBytes 2 (if classes / 2 ^ c % 2 = 1 then quanta else 0)))
  let s := setFld s (pg + 0x54) 15 8 (if quanta = 0 then 0 else if fcMode s p = 1 then 0xFF else classes)
  plcaUsed (send { incSat s (pg + 0xA0) with fcSentAt := mapSet s.fcSentAt p s.now } p .ethControl [] (ethWire body)) p

/-- A control frame cannot leave yet (R404, R409): a frame of which a bit has left is in flight, the PLCA opportunity is another
node's, or the T1S cell is quiet (R624) or its cluster asleep (R429). -/
def fcBlocked (s : State) (p : Nat) : Bool :=
  (getMac s p).txFrom.isSome || (isT1s p && (pairQuiet s || chanAsleep s p)) || (plcaOn s p && !(getMac s p).turn)

/-- The control frames that wait leave in order (R404). -/
def serveControl (s : State) (p : Nat) : State :=
  forEach (getMac s p).fcQ s (fun s x =>
    if fcBlocked s p then s
    else fcSend (putMac s p { getMac s p with fcQ := (getMac s p).fcQ.drop 1 }) p x.1 x.2)

/-- A control frame is due (R404): it goes out after the frame in flight and ahead of every queued frame; none on a port whose
link is down. -/
def sendControl (s : State) (p classes quanta : Nat) : State :=
  if bit s (ethLink p) 23 then
    serveControl (putMac s p { getMac s p with fcQ := (getMac s p).fcQ ++ [(classes, quanta)] }) p
  else s

/-- The control frame at XOFF, at a class joining the set, and at release (R404). -/
def pauseSend (s : State) (p oldSet newSet : Nat) (asserted released : Bool) : State :=
  if 88 ≤ p ∧ p < 124 ∧ fcMode s p ≠ 0 then
    if released then sendControl s p oldSet 0
    else if asserted ∨ (fcMode s p = 2 ∧ newSet ≠ oldSet) then sendControl s p newSet (quantaOf s p)
    else s
  else s

/-- Back-pressure asserted on an input that is not under it yet, with the classes of R133 withheld. -/
def assertXoff (s : State) (p : Nat) : State :=
  let a := admUsed p
  if bit s a 23 then s
  else
    let set := greedyClasses s p
    pauseSend { setBit s a 23 with withheld := mapPut 0 s.withheld p set } p 0 set true false

/-- Evaluates R132 and R133 for one input, with the pool's free plots already known. -/
def evalXoff (s : State) (p : Nat) : State :=
  let a := admUsed p
  let gap := max 1 (fld s (admPage + 0x40) 7 0)
  let u := useOf s p; let l := limitOf s p
  let was := bit s a 23
  let old := mapGet 0 s.withheld p
  if u ≥ l ∧ !was then assertXoff s p
  else if was ∧ areaUse s p .hr = 0 ∧ u + gap ≤ l then
    pauseSend { clrBit s a 23 with withheld := mapDel s.withheld p } p old 0 false true
  else if was then
    let set := old ||| greedyClasses s p
    pauseSend { s with withheld := mapPut 0 s.withheld p set } p old set false false
  else s

/-- Re-evaluates back-pressure on every input present, as on every change of F (R132). -/
def evalAll (s : State) : State :=
  forEach (inputs.filter (portPresent s.fuses)) s evalXoff

/-! ## Freeing plots (R126, R128, R142, R166, R170) -/

/-- State without a frame: its plots free, back-pressure evaluated afresh. -/
def dropFrame (s : State) (id : Nat) : State :=
  evalAll { s with
    frames := mapDel s.frames id
    openFrame := s.openFrame.filter (fun e => e.2 != id) }


/-- The rest of a frame that loses its plots while it arrives is not written (R126, R128); a learn request that waits for the
frame's good end waits on at its MAC (R226). -/
def dropRest (s : State) (p id : Nat) : State :=
  if mapGet? s.openFrame p = some id then
    let s := { s with dropping := p :: s.dropping }
    let q := (getFrame s id).learn
    if 88 ≤ p ∧ p < 124 then putMac s p { getMac s p with learnWait := q }
    else if 124 ≤ p ∧ p < 126 then putLnk s (p - 124) { getLnk s (p - 124) with learnWait := q }
    else s
  else s

/-- Frees a frame's plots when it has its verdict and no copy of it is outstanding, in arrival or not (R126, R142). -/
def freeIfDone (s : State) (id : Nat) : State :=
  let f := getFrame s id
  if hasFrame s id && f.judged && !(outstanding s id) then dropFrame (dropRest s f.input id) id else s

/-- The head furrow of a cell is cleared (R42): the items announced in it are not judged, and their frames are freed. -/
def clearHeads (s : State) (cell : Nat) : State :=
  let ids := ((mapGet [] s.heads cell).filterMap (fun h => h.frame)).dedup
  forEach ids { s with heads := mapDel s.heads cell } (fun s id =>
    freeIfDone (putFrame s id { getFrame s id with judged := true }) id)

/-- The plots of a frame with only held copies leave the input's areas for the held account as F allows (R142, R166). -/
def movePlots : List Plot → Nat → List Plot
  | [], _ => []
  | pl :: rest, free =>
    match pl.area with
    | .sh => { pl with area := .held } :: movePlots rest free
    | .held => pl :: movePlots rest free
    | _ => if free > 0 then { pl with area := .held } :: movePlots rest (free - 1) else pl :: movePlots rest free

/-- Moves the plots of a frame that has only held copies (R142, R166). -/
def heldMove (s : State) (id : Nat) : State :=
  let f := getFrame s id
  if heldCopies s id && !(liveCopies s id) then
    evalAll (putFrame s id { f with plots := movePlots f.plots (poolFree s) })
  else s

/-- Discards copies of an output's queue that a test names, each counted at an anchor (R139, R152, R162). -/
def discardCopies (s : State) (o anchor : Nat) (p : Copy → Bool) : State :=
  let gone := (outQueue s o).filter p
  let s := putQueue s o ((outQueue s o).filter (fun c => !p c))
  let s := addStat s anchor gone.length
  forEach gone s (fun s c => heldMove (freeIfDone s c.frame) c.frame)

/-- Anchors of EGRESS_DOWN[o] and AGED[o]. -/
def egrDown (o : Nat) : Nat := egrPage + 0xA00 + 4 * o
def egrAged (o : Nat) : Nat := egrPage + 0xC40 + 4 * o

/-- The moment from which a copy's latency counts (R548): the commit of its frame at its input, of a cut-through copy that its 64
words had come. -/
def readyAt (s : State) (c : Copy) : Nat := if c.cut then (getFrame s c.frame).earlyAt else (getFrame s c.frame).commitAt

/-! ## What an output sends (R100, R128, R159, R402, R415) -/

/-- The 802.1AS time in whole nanoseconds: the upper 48 + 32 bits of the counter (R411). -/
def timeNs (s : State) : Nat := s.timeFine / 2 ^ 32

/-- The 80-bit form of a time in nanoseconds. -/
def time80 (ns : Nat) : Nat := ns / 1000000000 % 2 ^ 48 * 2 ^ 32 + ns % 1000000000

/-- The 802.1AS time in whole nanoseconds as it was at a moment, a cycle of 5 ns (R412, R413). -/
def timeAt (s : State) (t : Nat) : Nat :=
  if s.now ≤ t then timeNs s
  else
    match s.timeLog.find? (fun x => decide (x.at_ ≤ t)) with
    | some x => (x.fine + (t - x.at_) * x.gain) % timeRange / 2 ^ 32
    | none => timeNs s

/-- The first bit of a frame that asked for a stamp leaves (R413, R415, R416): its entry enters the queue. A SNAPCLR of the same
moment has made room before (R417, R425; Ties.lean). -/
def tsPlace (s : State) (p tag : Nat) : State :=
  let m := getMac s p
  let a := macPage p + 0x6C
  if m.tsq.length ≥ 64 then
    let s := incSat s (macPage p + 0x70)
    let s := if bit s a 23 then s else setBit (setFld s a 15 0 tag) a 23
    setBit s (ethEvents p) 4
  else
    let e : TsEntry := { time := time80 (timeNs s + fld s (macPage p + 0x64) 11 0), failed := false, tag := tag, flying := true }
    setFld (putMac s p { m with tsq := m.tsq ++ [e] }) a 22 16 (m.tsq.length + 1)

/-- The frame in flight fails: its entry in the time-stamp queue says so (R415). DESIGN CHOICE: an entry that software has taken
before reads FAILED 0 (notes/assumptions/142.md). -/
def tsFails (s : State) (p : Nat) : State :=
  let m := getMac s p
  putMac s p { m with tsq := m.tsq.map (fun e => if e.flying then { e with failed := true } else e) }

/-- What waits in cipher lanes and resequencers of a copy that a MACsec port no longer sends is void (R145, R419). -/
def laneGone (s : State) (p : Nat) : State :=
  let gone := fun (x : ReseqItem) =>
    if x.plain.any (fun m => m.tx && m.port == p) then { x with plain := none, void := true } else x
  { s with
    laneQ := s.laneQ.filter (fun it => !(it.kind == 2 && it.port == p))
    lanes := s.lanes.map (fun l => (l.1, l.2.map (fun it => if it.kind = 2 ∧ it.port = p then { it with frame := none } else it)))
    relWait := s.relWait.map gone
    streams := s.streams.map (fun t => (t.1, { t.2 with held := t.2.held.map (fun h => (h.1, gone h.2)) }))
    macReleased := s.macReleased.filter (fun m => !(m.tx && m.port == p)) }

/-- A MAC has done with the copy in flight: no back-off, no lane result is left of it, and its bus was busy from its first bit on
(R548). -/
def macFlightOver (s : State) (p : Nat) : State :=
  let m := getMac s p
  let s := match m.txFrom with
    | some t => noteBusy s p t
    | none => s
  laneGone (putMac s p { m with
    colls := 0
    backoff := none
    txFrom := none
    stamped := false
    tsq := m.tsq.map (fun e => { e with flying := false }) }) p

/-- The copy that an output has sent or ended: no longer in flight; its frame freed by PLOT_FREE, moved when only held
copies remain (R142). -/
def endFlight (s : State) (o : Nat) : State :=
  match mapGet? s.inFlight o with
  | some c => heldMove { s with inFlight := mapDel s.inFlight o } c.frame
  | none => s

/-- Anchor of STOMPED of an output (R168). -/
def stomped (o : Nat) : Nat := egrPage + 0x80 + 4 * (if o < 124 then o - 104 else o - 116)

/-- The copy in flight at an output ends: no back-off, no lane result left of it; control frames that waited for it leave (R404). -/
def flightOver (s : State) (o : Nat) : State :=
  match mapGet? s.inFlight o with
  | some c =>
    let s := if 88 ≤ o ∧ o < 124 then macFlightOver s o else if 128 ≤ o then putFur s (rxRing (o - 128)) emptyFurrow else s
    let s := freeIfDone (endFlight { s with macOut := mapDel s.macOut o } o) c.frame
    if 88 ≤ o ∧ o < 124 then serveControl s o else s
  | none => s

/-- The first bit of the copy in flight at an output has not left: a MAC waits for its lane or its back-off. -/
def notBegun (s : State) (o : Nat) : Bool := decide (88 ≤ o) && decide (o < 124) && (getMac s o).txFrom.isNone

/-- A copy in flight is ended with the inverted FCS, or as an aborted link frame (R159, R402); one of which no bit has left is
removed without a count. How much of it has left is open within what memory holds. -/
def stompFlight (s : State) (o : Nat) : State :=
  match mapGet? s.inFlight o with
  | none => s
  | some c =>
    if notBegun s o then flightOver s o
    else
    let bs := vlanOut s o c (getFrame s c.frame).bytes
    let (r, s) := drawNat (addStat (if o < 124 then tsFails s o else s) (stomped o) 1)
    let s :=
      if o < 124 then send s o .ethStomped [pcsError (ethIf s o)] (stompedBytes (bs.take (r % (bs.length + 1))))
      else send s o .linkAbort [] []
    flightOver s o

/-- The queues of a map with the items that a test keeps, empty ones not listed. -/
def keepItems {α : Type} (p : α → Bool) (m : NMap (List α)) : NMap (List α) :=
  (m.map (fun e => (e.1, e.2.filter p))).filter (fun e => !e.2.isEmpty)

/-- An item of a lane without the frame withdrawn: it keeps its number, and its lane delivers a void (R145). -/
def laneForget (id : Nat) (it : LaneItem) : LaneItem := if it.frame = some id then { it with frame := none, copies := [] } else it

/-- An item of a resequencer without the copies of the frame withdrawn. -/
def reseqForget (id : Nat) (it : ReseqItem) : ReseqItem := { it with copies := it.copies.filter (fun c => c.2.frame != id) }

/-- Every trace of a frame but its plots, its verdict included, is removed (R100, R128, R159, R398): heads, verdicts, queued
copies, copies at lanes and resequencers; cut-through copies under way are stomped. -/
def withdraw (s : State) (id : Nat) : State :=
  let s := if hasFrame s id then putFrame s id { getFrame s id with judged := false } else s
  let s := { s with
    heads := keepItems (fun x => x.frame != some id) s.heads
    verdicts := keepItems (fun x => x.frame != some id) s.verdicts
    laneQ := s.laneQ.filter (fun it => it.frame != some id)
    lanes := s.lanes.map (fun l => (l.1, l.2.map (laneForget id)))
    relWait := s.relWait.map (reseqForget id)
    streams := s.streams.map (fun t => (t.1, { t.2 with held := t.2.held.map (fun h => (h.1, reseqForget id h.2)) })) }
  let s := forEach (s.outQ.map (·.1)) s (fun s o => putQueue s o ((outQueue s o).filter (fun c => c.frame != id)))
  forEach ((s.inFlight.filter (fun c => c.2.frame == id)).map (·.1)) s stompFlight

/-! ## Arrival (R126 to R128, R137) -/

/-- A frame's write into packet memory is rewound (R93, R128, R159): nothing of it stays queued, its plots are free, and it issues
no learn request (R222). -/
def rewindFrame (s : State) (p id : Nat) : State :=
  let s := if hasFrame s id then putFrame s id { getFrame s id with learn := none } else s
  dropFrame (withdraw (dropRest s p id) id) id

/-- One item of a frame is rewound: the frame goes with it unless other items of it are still under way (R128, R137, R176). -/
def rewindItem (s : State) (p id : Nat) : State := if outstanding s id then s else rewindFrame s p id

/-- An item that finds every area exhausted, or too few queue entries, is counted once (R128, R137). -/
def countExhausted (s : State) (p : Nat) : State := addStat (setBit s (admPage + 0x44) 1) (admExhausted p) 1

/-- The item in arrival at an input finds every area exhausted (R128). -/
def exhaust (s : State) (p : Nat) (frame : Option Nat) : State :=
  countExhausted (match frame with | some id => rewindFrame s p id | none => s) p

/-- A judged item finds too few queue entries (R137). -/
def exhaustItem (s : State) (p : Nat) (frame : Option Nat) : State :=
  countExhausted (match frame with | some id => rewindItem s p id | none => s) p

/-- The class of a frame before its verdict: the CLASS of its header over a link (R133, R608), the PCP of a tagged Ethernet frame,
else CLT_PORT.CLASS (R203 step 1). -/
def firstClass (s : State) (p : Nat) (bytes : List Byte) : Nat :=
  if 124 ≤ p ∧ p < 126 then (getLnk s (p - 124)).arriving.elim 0 (fun f => f.cls)
  else if (88 ≤ p ∧ p < 126) ∧ bytes.length ≥ 16 ∧ beAt bytes 12 2 = 0x8100 then byteAt bytes 14 / 32
  else
    let pg := coulterPage (regionOfPort p)
    if p = 126 then 0 else eff s pg (pg + 0x100 + 4 * coulterIndex p) 19 17

/-- One arriving plot of an item at an input that writes plots as they arrive (R126, R127): `bytes` fill it. -/
def plotArrives (s : State) (p : Nat) (first : Bool) (bytes : List Byte) : State :=
  let s := if first then { s with dropping := s.dropping.filter (fun q => q != p) } else s
  if s.dropping.contains p then s
  else
    let cur := if first then none else mapGet? s.openFrame p
    let f := match cur with
      | some id => getFrame s id
      | none => { noFrame with input := p, cls := firstClass s p bytes }
    let b0 := match f.plots with
      | pl :: _ => pl.bank
      | [] => bestBank s
    match takePlot s (chargeArea s p) b0 f.plots.length with
    | none =>
      let s := exhaust s p cur
      if s.dropping.contains p then s else { s with dropping := p :: s.dropping }
    | some (pl, s) =>
      let id := cur.getD s.nextFrame
      let early := if f.bytes.length < 192 ∧ 192 ≤ f.bytes.length + bytes.length then s.now else f.earlyAt
      let s := putFrame s id { f with bytes := f.bytes ++ bytes, plots := f.plots ++ [pl], earlyAt := early }
      let s := { s with openFrame := mapSet s.openFrame p id, nextFrame := if cur.isNone then s.nextFrame + 1 else s.nextFrame }
      evalAll s

/-- The plots of a whole item charged at its verdict (CAN, LIN and port 126, R126), in headroom where `hr` says so (R137): the
frame's number, or none when an area is missing (R128). -/
def placeItem (s : State) (p : Nat) (f : Frame) (hr : Bool) : Option (Nat × State) :=
  let b0 := bestBank s
  let r := (List.range (plotsFor f.bytes.length)).foldl (fun (acc : Option (List Plot × State)) k =>
    match acc with
    | none => none
    | some (pls, s) =>
      let s' := putFrame s s.nextFrame { f with input := p, plots := pls }
      match takePlot s' (if hr then some .hr else chargeArea s' p) b0 k with
      | some (pl, s'') => some (pls ++ [pl], s'')
      | none => none) (some ([], s))
  match r with
  | some (pls, s) =>
    let id := s.nextFrame
    some (id, evalAll { putFrame s id { f with input := p, plots := pls } with nextFrame := id + 1 })
  | none => none

/-! ## Resequencers (R144 to R149) -/

def emptyStream : Stream := { next := 0, held := [], gapFrom := 0, gapRuns := false }
def getStream (s : State) (n : Nat) : Stream := mapGet emptyStream s.streams n
def putStream (s : State) (n : Nat) (st : Stream) : State := { s with streams := mapPut emptyStream s.streams n st }

/-- The held items numbered from NEXT on without a gap leave in order; what remains. -/
def takeRun : Nat → NMap ReseqItem → Nat → List ReseqItem × NMap ReseqItem × Nat
  | 0, held, next => ([], held, next)
  | n + 1, held, next =>
    match mapGet? held next with
    | some it =>
      let (its, held', next') := takeRun n (mapDel held next) ((next + 1) % 65536)
      (it :: its, held', next')
    | none => ([], held, next)

/-- The distance of a number from NEXT, modulo 65,536. -/
def seqDist (next n : Nat) : Nat := (n % 65536 + 65536 - next) % 65536

/-- The held items numbered below a new NEXT, in order. -/
def heldBelow (st : Stream) (newNext : Nat) : List ReseqItem :=
  (List.range (min 256 (seqDist st.next newNext))).filterMap (fun i => mapGet? st.held ((st.next + i) % 65536))

/-- The gap timer after a change (R146): it runs while items are held, and restarts when NEXT advances. -/
def rearmGap (now oldNext : Nat) (st : Stream) : Stream :=
  if st.held.isEmpty then { st with gapRuns := false, gapFrom := 0 }
  else if st.gapRuns && st.next == oldNext then st
  else { st with gapRuns := true, gapFrom := now }

/-- What an item's arrival does to its stream (R144, R145): the items released in order, the stream after, the numbers
skipped, and whether the item came late. -/
def streamTake (now : Nat) (st : Stream) (num : Nat) (it : ReseqItem) : List ReseqItem × Stream × Nat × Bool :=
  let n := num % 65536
  let d := seqDist st.next n
  if d = 0 then
    let (run, held, next) := takeRun 256 st.held ((st.next + 1) % 65536)
    (it :: run, rearmGap now st.next { st with held := held, next := next }, 0, false)
  else if d < 256 then
    if (mapGet? st.held n).isSome then ([], st, 0, true)
    else ([], rearmGap now st.next { st with held := mapSet st.held n it }, 0, false)
  else if d < 32768 then
    let newNext := (n + 65536 - 255) % 65536
    let out := heldBelow st newNext
    let held := st.held.filter (fun e => !(decide (seqDist st.next e.1 < seqDist st.next newNext)))
    let skipped := seqDist st.next newNext - out.length
    let (run, held2, next2) := takeRun 256 (mapSet held n it) newNext
    (out ++ run, rearmGap now st.next { st with held := held2, next := next2 }, skipped, false)
  else ([], st, 0, true)

/-- The form of a copy that an output writes unchanged. -/
def plainForm : CopyForm :=
  { src := 7, format := 0, itemOff := 0, off := 0, len := 0, hdr := 0, fill := 0, layout := 0, split := false, why := 0,
    dev := 0, remote := false, tag := 0, sec := 0, stream := 0, num := 0, start := false, numbered := false, bridged := false, vid := 0 }

/-- What a void does (R145): like an item with d = 0 it advances the stream and releases nothing for itself. A void that
comes early stands for its number until NEXT reaches it. -/
def voidItem : ReseqItem := { copies := [], plain := none, void := true }

/-- A stream's items released before a start mark sets NEXT (R148), and at a reset (R149). -/
def streamFlush (st : Stream) (next : Nat) : List ReseqItem × Stream :=
  (heldBelow st ((st.next + 65535) % 65536) , { next := next % 65536, held := [], gapFrom := 0, gapRuns := false })

/-- The gap timer of a stream expires (R146): NEXT moves to the lowest held number. -/
def streamGap (now : Nat) (st : Stream) : List ReseqItem × Stream × Nat :=
  match (List.range 256).find? (fun i => (mapGet? st.held ((st.next + i) % 65536)).isSome) with
  | some skip =>
    let (run, held, next) := takeRun 256 st.held ((st.next + skip) % 65536)
    (run, rearmGap now st.next { st with held := held, next := next }, skip)
  | none => ([], { st with gapRuns := false, gapFrom := 0 }, 0)

/-- Notes an output that holds copies for a sleeping channel (R433). -/
def hintWake (s : State) (o : Nat) : State :=
  if chanAsleep s o && !(s.wakeHints.contains o) then { s with wakeHints := s.wakeHints ++ [o] } else s

/-! ## Queue entry and release -/

/-- Puts a copy in the queue of its output (R139). -/
def enqueue (s : State) (o : Nat) (c : Copy) : State := putQueue s o (outQueue s o ++ [{ c with visibleAt := s.now }])

/-- A copy on its way to an output meets the output's state (R162): queued while UP, within the share while HELD, else
discarded and counted. DESIGN CHOICE: of a frame still in arrival the plots arrived so far count against the share
(notes/assumptions/130.md). -/
def offerCopy (s : State) (o : Nat) (c : Copy) : State :=
  let n := (getFrame s c.frame).plots.length
  if outState s o = 0 then enqueue s o c
  else if outState s o = 1 ∧ queuedPlots s o + n ≤ fld s (egrPage + 0x100 + 4 * o) 16 0 then hintWake (enqueue s o c) o
  else addStat s (egrDown o) 1

/-- The frames of an item's copies that are no longer needed are freed, and those with held copies alone move (R126, R142). -/
def freeItem (s : State) (it : ReseqItem) : State :=
  forEach ((it.copies.map (fun c => c.2.frame)).dedup) s (fun s id => heldMove (freeIfDone s id) id)

/-- The copies of a released item reach their queues. -/
def placeRelease (s : State) (it : ReseqItem) : State :=
  freeItem (forEach it.copies s (fun s c => offerCopy s c.1 c.2)) it

/-- A released item needs more queue entries than are free (R137): its input is put under back-pressure, and the item waits in its
headroom where the input takes back-pressure and has room there, else it is rewound and counted. -/
def lackEntries (s : State) (it : ReseqItem) (p : Nat) : State :=
  let s := assertXoff (setBit s (admPage + 0x44) 2) p
  if takesBp s p && decide (areaUse s p .hr < headroomOf s p) then { s with relWait := s.relWait ++ [it] }
  else
    forEach ((it.copies.map (fun c => c.2.frame)).dedup) (countExhausted s p) (fun s id => rewindItem s p id)

/-- The release of a resequenced item to its next stage (R144, R462): its queue entries (R137), behind what of its input waits for
some, or its MACsec port. -/
def releaseItem (s : State) (it : ReseqItem) : State :=
  let s := match it.plain with
    | some p => { s with macReleased := s.macReleased ++ [p] }
    | none => s
  match it.copies with
  | [] => s
  | c :: _ =>
    if it.copies.length > entriesFree s then lackEntries s it c.2.input
    else if s.relWait.any (fun w => w.copies.any (fun x => x.2.input == c.2.input)) then { s with relWait := s.relWait ++ [it] }
    else placeRelease s it

/-- Released items that waited for queue entries are placed, in order, as far as entries are free (R137). -/
def serveReleases : Nat → State → State
  | 0, s => s
  | n + 1, s =>
    match s.relWait with
    | [] => s
    | it :: rest => if it.copies.length ≤ entriesFree s then serveReleases n (placeRelease { s with relWait := rest } it) else s

/-- Releases in order. -/
def releaseAll (s : State) (its : List ReseqItem) : State := forEach its s releaseItem

/-- An item with a number at its stream (R144, R148). -/
def reseqArrive (s : State) (n num : Nat) (start : Bool) (it : ReseqItem) : State :=
  let st := getStream s n
  let (pre, st) := if start then streamFlush st num else ([], st)
  let s := releaseAll s pre
  let (out, st', skipped, late) := streamTake s.now st num it
  let s := putStream s n st'
  let s := if late then incSat s (rsqPage + 0x54) else s
  let s := if skipped > 0 then addSat s (rsqPage + 0x58) skipped else s
  let s := releaseAll s out
  if late then forEach it.copies s (fun s c => freeIfDone s c.2.frame) else s

/-- A void at its stream (R145): counted; it carries the start mark of the item it stands for. DESIGN CHOICE: one that comes late
or twice counts in RSQ_LATE too, as an item would (notes/assumptions/130.md). -/
def reseqVoid (s : State) (n num : Nat) (start : Bool) : State := incSat (reseqArrive s n num start voidItem) (rsqPage + 0x60)

/-- The gap timer of a stream expires (R146). -/
def reseqGap (s : State) (n : Nat) : State :=
  let st := getStream s n
  if st.gapRuns then
    let (out, st', skipped) := streamGap s.now st
    releaseAll (incSat (addSat (putStream s n st') (rsqPage + 0x58) skipped) (rsqPage + 0x5C)) out
  else s

/-- RSQ_CMD.RESET on a stream (R149). -/
def reseqReset (s : State) (n : Nat) : State :=
  let (out, st) := streamFlush (getStream s n) 0
  releaseAll (putStream s n st) out

/-! ## Gates (R153 to R156) -/

/-- GATE_CTRL[i], GATE_CYCLE[i], GATE_OFFSET[i]. -/
def gateCtrl (i : Nat) : Nat := egrPage + 0xE80 + 4 * i
def gateCycle (i : Nat) : Nat := egrPage + 0xED0 + 4 * i
def gateOffset (i : Nat) : Nat := egrPage + 0xF20 + 4 * i

/-- The gates and interval of entry k of list j of MAC port i (R153). -/
def gateEntry (s : State) (i j k : Nat) : Nat × Nat :=
  let e := tGet s gateTable 0 0 (i * 128 + j * 64 + k)
  if e.valid && decide (k < 64) then (twf e 0 7 0, tw e 1) else (0xFF, 0)

/-- GATE_CYCLE[i] as it acts. -/
def gateCycleNs (s : State) (i : Nat) : Nat := max 1000 (rd s (gateCycle i))

/-- What stands for a MAC port whose gates operate and on which no cycle has started yet: every gate open (R154). -/
def gateIdle (s : State) (i : Nat) : GateRun :=
  { list := 0, entry := 0, began := 0, interval := 0, cycleBegan := 0, gates := 0xFF, started := false, cycle := gateCycleNs s i,
    offset := rd s (gateOffset i) }
def getGate (s : State) (i : Nat) : GateRun := mapGet (gateIdle s i) s.gateRun i

/-- How far an instant lies past the last one that meets the test of R154, with a cycle and an offset. -/
def pastStart (cycle offset t : Nat) : Nat := (t + cycle - offset % cycle) % cycle
/-- The next cycle start after a moment with the values in force (R154). -/
def cycleEnd (s : State) (run : GateRun) : Nat :=
  let t := if run.started then run.cycleBegan else timeNs s
  t + run.cycle - pastStart run.cycle run.offset t

/-- The instant at which a cycle start is due, if one is (R154): the end of the running cycle, else an instant of the 5 ns cycle
that has just passed. -/
def gateDue (s : State) (i : Nat) : Option Nat :=
  let run := getGate s i; let t := timeNs s
  if run.started then (if cycleEnd s run ≤ t then some (cycleEnd s run) else none)
  else
    let d := pastStart run.cycle run.offset t
    if d < 6 ∧ d ≤ t then some (t - d) else none

/-- A cycle that starts at an instant (R154): the selected list runs from entry 0, and the cycle and offset written apply
from then on. -/
def cycleAt (s : State) (i t : Nat) : GateRun :=
  let l := fld s (gateCtrl i) 1 1
  let (g, iv) := gateEntry s i l 0
  { list := l, entry := 0, began := t, interval := iv, cycleBegan := t, gates := g, started := true, cycle := gateCycleNs s i,
    offset := rd s (gateOffset i) }

/-- A gate cycle starts on MAC port i (R154), when one is due. -/
def gateStart (s : State) (i : Nat) : State :=
  if bit s (gateCtrl i) 0 then
    match gateDue s i with
    | some t =>
      let run := cycleAt s i t
      putBit { s with gateRun := mapSet s.gateRun i run } (gateCtrl i) 3 (run.list == 1)
    | none => s
  else s

/-- What follows the running entry: none where the list ends or the cycle's end comes first (R154). -/
def entryAfter (s : State) (i : Nat) (run : GateRun) : Option GateRun :=
  let (g, iv) := gateEntry s i run.list (run.entry + 1)
  let t := run.began + run.interval
  if !run.started || run.interval == 0 || iv == 0 || decide (run.entry + 1 ≥ 64) || decide (t ≥ cycleEnd s run) then none
  else some { run with entry := run.entry + 1, began := t, interval := iv, gates := g }

/-- The interval of the running entry ends (R154): the next entry's gates apply, unless the list ends, when the last
entry's gates hold to the cycle's end. -/
def gateNext (s : State) (i : Nat) : State :=
  match mapGet? s.gateRun i with
  | some run =>
    match entryAfter s i run with
    | some next => if bit s (gateCtrl i) 0 ∧ next.began ≤ timeNs s then { s with gateRun := mapSet s.gateRun i next } else s
    | none => s
  | none => s

/-- A move of the time cuts every running cycle short (R154, R412). -/
def gatesCut (s : State) : State :=
  { s with gateRun := s.gateRun.map (fun e => (e.1, { e.2 with started := false })) }

/-- The instant at which a class's gate next closes, within a bound of entries (R155): none when it stays open for them. -/
def gateClose : Nat → State → Nat → GateRun → Nat → Option Nat
  | 0, _, _, _, _ => none
  | n + 1, s, i, run, c =>
    if run.gates / 2 ^ c % 2 = 0 then some run.began
    else
      match entryAfter s i run with
      | some next => gateClose n s i next c
      | none => gateClose n s i (cycleAt s i (cycleEnd s run)) c

/-- Bits per second of a MAC port's speed in use (R422 ETH_LINK.SPEED). -/
def portSpeed (s : State) (o : Nat) : Nat :=
  if o < 104 then 10000000
  else match fld s (macPage o + 0x4C) 22 20 with
    | 1 => 10000000
    | 2 => 100000000
    | 3 => 1000000000
    | 4 => 2500000000
    | 5 => 5000000000
    | 6 => 10000000000
    | _ => 1000000000

/-- The gate of a copy's class is open and its transmission of `bytes` and 20 bytes of overhead ends before it closes
(R154, R155); a parity fault in the port's lists opens every gate (R252). -/
def gateAllows (s : State) (o c bytes : Nat) : Bool :=
  let i := o - 104
  if 104 ≤ o ∧ o < 124 ∧ bit s (gateCtrl i) 0 ∧ !(s.gateFaults.any (fun e => e / 128 == i)) then
    let run := getGate s i
    if run.gates / 2 ^ c % 2 = 0 then false
    else match gateClose 130 s i run c with
      | some t => decide ((bytes + 20) * 8 * 1000000000 < (t - timeNs s) * portSpeed s o)
      | none => true
  else true

/-! ## Cut-through (R157) -/

/-- The line rate of a port, for R157. -/
def lineRate (s : State) (p : Nat) : Nat := if 124 ≤ p then 20000000000 else portSpeed s p

/-- A copy meets the conditions of R157 but the two plots in memory. -/
def cutPermitted (s : State) (o : Nat) (c : Copy) : Bool :=
  let f := getFrame s c.frame
  s.fuses.xTier && ((decide (104 ≤ o) && decide (o < 112)) || o == 124 || o == 125) && bit s (egrPort o) 10 &&
    c.form.bridged && f.kind == .eth && !f.macsecIn && !(decide (o < 124) && bit s (macPage o + 0x40) 15) &&
    c.form.sec == 0 && c.form.format == 0 && decide (88 ≤ c.input) && decide (c.input < 126) && decide (lineRate s c.input ≥ lineRate s o)

/-- The head copy is readable (R150): committed, or meeting the cut-through conditions with 192 bytes in memory. -/
def readable (s : State) (o : Nat) (c : Copy) : Bool :=
  let f := getFrame s c.frame
  f.committed || (cutPermitted s o c && decide (f.plots.length ≥ 2))

/-! ## The scheduler (R150 to R152) -/

/-- The head copy of queue (input, class) at an output. -/
def headOf (s : State) (o i c : Nat) : Option Copy := (outQueue s o).find? (fun x => x.input == i && x.cls == c)

/-- The header fields under which a copy would leave on link k, as far as its credits depend on them (R614). -/
def linkProbe (s : State) (c : Copy) : LinkFrame :=
  { linkFrame s (if c.form.remote then 2 else 1) c.form.dev with
    cls := c.cls
    payload := (getFrame s c.frame).bytes }

/-- A copy may start on its Ebder link (R610, R614). -/
def linkCredit (s : State) (o : Nat) (c : Copy) : Bool := mayStart s (o - 124) (linkProbe s c)

/-- Class c is paused by the output's partner: ETH_FC_STAT.PAUSED of a MAC, credits of an Ebder link, an enabled host ring
without a descriptor for hardware (R603, R614). -/
def pausedFor (s : State) (o c : Nat) : Bool :=
  if 88 ≤ o ∧ o < 124 then bit s (macPage o + 0x54) (16 + c)
  else if o = 124 ∨ o = 125 then
    let q := (outQueue s o).filter (fun x => x.cls == c)
    !q.isEmpty && q.all (fun x => !(linkCredit s o x))
  else if 128 ≤ o then
    let a := hrxPage (o - 128) + ringBase (o - 128)
    effBit s (hrxPage (o - 128)) a 23 && fld s (a + 0x10) 15 0 == fld s (a + 0xC) 15 0
  else false

/-- A router-fed transmit object of a CAN channel is free (OBJ_CFG EN, DIR send, OWNER router, not pending), and none holds an
earlier copy of the same queue (R344). -/
def canHasRoom (s : State) (n i c : Nat) : Bool :=
  !(s.canQueue.any (fun e => e.1 / 96 == n && e.2 == i * 8 + c)) &&
  (List.range 96).any (fun i =>
    let cfg := rd s (objAddr n i 0); let cmd := rd s (objAddr n i 5)
    bitsOf cfg 23 23 == 1 && bitsOf cfg 22 22 == 1 && bitsOf cfg 21 21 == 1 && bitsOf cmd 23 23 == 0)

/-- A host RX ring is enabled and hardware owns a descriptor of it (R592, R605). -/
def ringHasRoom (s : State) (ring : Nat) : Bool :=
  let a := hrxPage ring + ringBase ring
  effBit s (hrxPage ring) a 23 && fld s (a + 0x10) 15 0 != fld s (a + 0xC) 15 0

/-- The identifier with which a copy leaves on a LIN port (R282, R310, R314). -/
def linIdOf (form : CopyForm) (bs : List Byte) : Nat :=
  match form.src with
  | 3 => beAt bs form.itemOff 4 % 64
  | 6 => byteAt bs (form.itemOff + 3) % 64
  | 8 => form.hdr % 64
  | _ => byteAt bs (form.itemOff + 1) % 64

/-- A LIN cell accepts the head copy of a queue (R373): for a PUBLISH identifier of SRC 0 its buffer must not be READY; a copy
for any other identifier is taken to be discarded. -/
def linHasRoom (s : State) (m i c : Nat) : Bool :=
  match headOf s (64 + m) i c with
  | some x =>
    let pg := linPage m
    let k := linIdOf x.form (getFrame s x.frame).bytes
    let cfg := pg + 0x100 + 4 * k
    !(eff s pg cfg 23 22 == 2 && eff s pg cfg 17 16 == 0 && bit s (pg + 0x20C + 0x10 * k) 0)
  | none => false

/-- The output cell can accept a frame (R150): a PLCA port in its opportunity alone (R409). -/
def cellAccepts (s : State) (o i c : Nat) : Bool :=
  (mapGet? s.inFlight o).isNone && !(decide (88 ≤ o) && decide (o < 124) && plcaOn s o && !(getMac s o).turn) &&
    (if o < 64 then canHasRoom s o i c
    else if o < 88 then linHasRoom s (o - 64) i c
    else if o = 126 then running s mbPage && decide (furWords (getFur s mbPage) + 24 ≤ 8192)
    else if 128 ≤ o then running s (hrxPage (o - 128)) && ringHasRoom s (o - 128)
    else true)

/-- The age limit of a class in ticks; none when 0 (R152, R168). -/
def maxAge (s : State) (c : Nat) : Option Nat :=
  let ms := min 1000 (fld s (egrPage + 0x60 + 4 * c) 9 0)
  if ms = 0 then none else some (msTicks ms)

/-- A copy has reached its age limit (R152). -/
def aged (s : State) (c : Copy) : Bool :=
  match maxAge s c.cls with
  | some t => decide (s.now - c.visibleAt ≥ t)
  | none => false

/-- What the SecY of a MACsec port adds to a frame that it protects: SecTAG and ICV (R477). -/
def secyGrowth (s : State) (o : Nat) : Nat :=
  let e := (tLive s secTable 2 (o - 104)).getD { words := [], valid := false }
  if bit s (macPage o + 0x40) 15 && twb e 0 23 && twb e 0 22 then (if twb e 0 14 then 32 else 24) else 0

/-- Bytes of a copy as a MAC writes it, before padding, SecTAG and FCS (R307, R313, R314, R317, R401): the frame with the
outer tag of R401, or a template's header with the PDU or message. -/
def writtenLen (s : State) (o : Nat) (c : Copy) : Nat :=
  let pg := macPage o
  let bs := (getFrame s c.frame).bytes
  let e := c.form.format / 16 % 8
  if e = 0 then
    if c.form.bridged then
      let tagged := beAt bs 12 2 == 0x8100 || beAt bs 12 2 == 0x88A8
      let bare := if tagged then bs.length - 4 else bs.length
      if effBit s pg (pg + 0x60) 12 ∧ c.form.vid = eff s pg (pg + 0x60) 11 0 then bare else bare + 4
    else bs.length
  else
    let hdr := clamp 14 72 (eff s pg (pg + 0x800 + 0x80 * (c.form.format % 16)) 21 15)
    let padded := (c.form.len + 3) / 4 * 4
    hdr + (if e = 1 ∨ e = 6 then 8 + c.form.len
      else 12 + (if e = 2 then 16 else if e = 3 then 8 else 12) + padded)

/-- What the gate guard judges: the frame's length on the wire with its FCS, or 9,216 bytes for a cut-through copy (R155). -/
def guardLen (s : State) (o : Nat) (c : Copy) : Nat :=
  if (getFrame s c.frame).committed then max 60 (writtenLen s o c + secyGrowth s o) + 4 else 9216

/-- A queue is eligible at its output (R150), its head aside from the age check. -/
def eligible (s : State) (o i c : Nat) : Bool :=
  match headOf s o i c with
  | some x =>
    readable s o x && outState s o == 0 && !(pausedFor s o c) && (!(o == 124 || o == 125) || linkCredit s o x) &&
      cellAccepts s o i c && gateAllows s o c (guardLen s o x)
  | none => false

/-- Inputs with an eligible queue of a class. -/
def eligInputs (s : State) (o c : Nat) : List Nat :=
  (((outQueue s o).filter (fun x => x.cls == c)).map (·.input)).dedup.filter (fun i => eligible s o i c)

/-- The next of a list of numbers after a position, cyclically. -/
def nextAfter (xs : List Nat) (pos : Nat) : Option Nat :=
  let later := xs.filter (fun x => decide (x > pos))
  let pick := fun (ys : List Nat) => ys.foldl (fun (m : Option Nat) y => match m with
    | none => some y
    | some z => some (min y z)) none
  match pick later with
  | some x => some x
  | none => pick xs

/-- Strict classes of an output, and the quantum of a class (R151). -/
def isStrict (s : State) (o c : Nat) : Bool := bit s (egrPort o) c
def quantumOf (s : State) (o c : Nat) : Nat := (fld s (egrPage + 0x580 + 4 * o) (3 * c + 2) (3 * c) + 1) * 1536

/-- The input served next within a class: round-robin, its starting point open (R17, R151). -/
def pickInput (s : State) (o c : Nat) : Option Nat × State :=
  let xs := eligInputs s o c
  match mapGet? s.rrInput (o * 8 + c) with
  | some last => (nextAfter xs last, s)
  | none =>
    let (d, s') := drawNat s
    (nextAfter xs (d % 144), s')

/-- Bytes that a copy costs: what its item occupies in packet memory (R151). DESIGN CHOICE: of a frame still in arrival, what it
occupies at the selection (notes/assumptions/130.md). -/
def costOf (s : State) (c : Copy) : Nat := (getFrame s c.frame).bytes.length

/-- Deficit round-robin over the non-strict classes: the class to serve and the deficits after (R151). -/
def drr : Nat → State → Nat → Nat → (Nat → Nat) → List Nat → Option Nat × State
  | 0, s, _, _, _, _ => (none, s)
  | n + 1, s, o, pos, cost, cls =>
    let d := mapGet 0 s.deficit (o * 8 + pos)
    if cls.contains pos && decide (cost pos ≤ d) then (some pos, { s with rrClass := mapSet s.rrClass o pos })
    else
      match nextAfter cls pos with
      | some c =>
        let s := { s with deficit := mapPut 0 s.deficit (o * 8 + c) (mapGet 0 s.deficit (o * 8 + c) + quantumOf s o c) }
        drr n s o c cost cls
      | none => (none, s)

/-- The round-robin of every class in a list has a place to go on from: its starting point is open (R17, R151). -/
def settleInputs (s : State) (o : Nat) (cls : List Nat) : State :=
  forEach cls s (fun s c =>
    if (mapGet? s.rrInput (o * 8 + c)).isSome then s
    else
      let (d, s) := drawNat s
      { s with rrInput := mapSet s.rrInput (o * 8 + c) (d % 144) })

/-- Bytes that the copy which a class would send next costs (R151). -/
def nextCost (s : State) (o c : Nat) : Nat :=
  match (pickInput s o c).1 with
  | some i => match headOf s o i c with
    | some x => costOf s x
    | none => 0
  | none => 0

/-- A class that has no eligible queue at its output carries no credit on (R151). -/
def idleDeficits (s : State) : State :=
  { s with deficit := s.deficit.filter (fun d => !(eligInputs s (d.1 / 8) (d.1 % 8)).isEmpty) }

/-- The class an output serves next (R151). -/
def pickClass (s : State) (o : Nat) : Option Nat × State :=
  let elig := (List.range 8).filter (fun c => !(eligInputs s o c).isEmpty)
  let s := { s with deficit := (List.range 8).foldl (fun m c =>
    if elig.contains c then m else mapDel m (o * 8 + c)) s.deficit }
  match (elig.filter (isStrict s o)).reverse with
  | c :: _ => (some c, s)
  | [] =>
    if elig.isEmpty then (none, s)
    else
      let s := settleInputs s o elig
      match mapGet? s.rrClass o with
      | some pos => drr 72 s o pos (nextCost s o) elig
      | none =>
        let (d, s') := drawNat s
        drr 72 s' o (d % 8) (nextCost s o) elig

/-- Takes a copy out of its queue. -/
def dequeue (s : State) (o : Nat) (c : Copy) : State := putQueue s o ((outQueue s o).erase c)

/-- Discards the aged head copies of an output's queues: heads whose age has reached the limit, and those behind them
(R152). -/
def ageHeads : Nat → State → Nat → State
  | 0, s, _ => s
  | n + 1, s, o =>
    match (outQueue s o).find? (fun x => aged s x && headOf s o x.input x.cls == some x) with
    | some x =>
      ageHeads n (heldMove (freeIfDone (addStat (dequeue s o x) (egrAged o) 1) x.frame) x.frame) o
    | none => s

/-- One grant of an output's scheduler (R150 to R152): the selected copy becomes the copy in flight. A poisoned copy is
discarded before its first bit and counted; one toward a CAN object, the mouldboard or a host ring ends there (R106). -/
def selectOne : Nat → State → Nat → State
  | 0, s, _ => s
  | n + 1, s, o =>
    match pickClass s o with
    | (some c, s) =>
      match pickInput s o c with
      | (some i, s) =>
        match headOf s o i c with
        | some x =>
          let s := dequeue s o x
          if aged s x then selectOne n (freeIfDone (addStat s (egrAged o) 1) x.frame) o
          else if (getFrame s x.frame).poison && decide (64 ≤ o) && decide (o < 126) then
            selectOne n (freeIfDone (incSat s (egrPage + 0x44)) x.frame) o
          else
            let d := mapGet 0 s.deficit (o * 8 + c)
            { s with
              deficit := if isStrict s o c then s.deficit else mapPut 0 s.deficit (o * 8 + c) (d - costOf s x)
              rrInput := mapSet s.rrInput (o * 8 + c) i
              inFlight := mapSet s.inFlight o { x with cut := !(getFrame s x.frame).committed } }
        | none => s
      | (none, s) => s
    | (none, s) => s

/-- A selection at an output: at most one copy leaves its queue, aged and poisoned ones before it discarded. -/
def selectAt (s : State) (o : Nat) : State := selectOne ((outQueue s o).length + 1) s o

/-! ## Faults of packet memory (R169 to R171) -/

/-- A permanent row's remedy: a spare row under the same plot number while spares remain, else removal (R171). -/
def remedyRow (s : State) (b row : Nat) : State :=
  let pg := bankPage b
  let s := if fld s (pg + 0x48) 13 0 = row then setBit s (pg + 0x48) 14 else s
  let sp := fld s (pg + 0x40) 22 16
  if sp > 0 then retire (setFld s (pg + 0x40) 22 16 (sp - 1)) 3 pg 0x12 row (64 - sp)
  else
    let s := { s with rowsOut := (b, row) :: s.rowsOut }
    let s := setFld s (pg + 0x40) 14 0 (fld s (pg + 0x40) 14 0 + 1)
    evalAll (retire s 4 pg 0x12 row 0)

/-- The deferred test of a row that faulted ends (R170, R537): a failed test raises a second record with FCLASS 2 and leads
to the remedy, a passed one counts the fault once. -/
def rowTested (s : State) (b row : Nat) (pass : Bool) : State :=
  let pg := bankPage b
  let s := { s with awaitTest := s.awaitTest.filter (fun e => !(e == (pg, row))) }
  let (perm, s) := classFault s pg row 0x12 (!pass)
  if perm then
    let s := if pass then s else raiseRec s pg 0x12 b 2 pg row
    remedyRow s b row
  else s

end Sys2Proof.Machine
end

