-- ==== Sys2Proof/Machine/Learn.lean ====
section
/-! DEFINITION. Learning, station moves, pins, flushes and ageing of the bridge tables, and the learn events
(06_learning_and_table_integrity.md, R221 to R241, R250). -/
namespace Sys2Proof.Machine

/-! ## Learn events (R238 to R241) -/

/-- The counters of the learning page in the order of R255. -/
def lrnCount (r k : Nat) : Nat := learnPage r + 0x68 + 4 * k

/-- Logs a learn event of a region when its code is enabled (R238); one that does not fit is counted, and the next that
fits follows a LOST event where that code is enabled too (R241). -/
def learnEvent (s : State) (r code : Nat) (words : List Nat) : State :=
  let pg := learnPage r
  if code < 16 ∧ bit s (pg + 0x54) code then
    let lost := if bit s (pg + 0x54) 9 then mapGet 0 s.lostEvents r else 0
    let need := words.length + (if lost > 0 then 2 else 0)
    if furWords (getFur s pg) + need > 4096 then
      incSat { s with lostEvents := mapPut 0 s.lostEvents r (min 0xFFFFFF (mapGet 0 s.lostEvents r + 1)) } (lrnCount r 9)
    else
      let s := if lost > 0 then
          furPush { s with lostEvents := mapDel s.lostEvents r } pg (furItem false [0x900000, lost])
        else s
      furPush s pg (furItem false words)
  else s

/-- An entry event of four words (R239). -/
def entryEvent (s : State) (r code port vid mac other idx : Nat) : State :=
  learnEvent s r code
    [code * 0x100000 + port % 256 * 0x1000 + vid % 4096, mac / 2 ^ 24 % 2 ^ 24, mac % 2 ^ 24,
      other % 256 * 0x10000 + idx % 0x4000]

/-- An event of two words (R239). -/
def shortEvent (s : State) (r code w1 : Nat) : State := learnEvent s r code [code * 0x100000, w1]

/-! ## Bridge entries (R196) -/

/-- The key words of a bridge entry. -/
def bridgeKey (mac vid : Nat) : List Nat := [vid % 4096 * 0x1000, mac / 2 ^ 24 % 2 ^ 24, mac % 2 ^ 24]
def beVid (e : TEntry) : Nat := twf e 0 23 12
def beMac (e : TEntry) : Nat := tw e 1 * 2 ^ 24 + tw e 2
def beStatic (e : TEntry) : Bool := twb e 3 23
def beGroup (e : TEntry) : Bool := twb e 3 22
def beHit (e : TEntry) : Bool := twb e 3 21
def beStrike (e : TEntry) : Bool := twb e 3 20
def bePinned (e : TEntry) : Bool := twb e 3 19
def beDest (e : TEntry) : Nat := twf e 3 11 0
/-- A bridge entry with HIT at a value and STRIKE cleared. -/
def beTouch (e : TEntry) (hit : Bool) : TEntry := twSet (twSet e 3 21 21 (b2n hit)) 3 20 20 0

/-- Bridge entry i of a region. -/
def bridgeAt (s : State) (r i : Nat) : TEntry := tGet s (lkpTable r) 1 0 i
def putBridge (s : State) (r i : Nat) (e : TEntry) : State := tPut s (lkpTable r) 1 0 i e
/-- Removes a bridge entry; the tracker entry of a pinned address goes with it. -/
def removeBridge (s : State) (r i : Nat) : State :=
  let e := bridgeAt s r i
  let s := putBridge s r i emptyEntry
  if bePinned e then
    { s with trackers := s.trackers.filter (fun t =>
        !(t.1 / 256 == r && t.2.mac == beMac e && t.2.vid == beVid e)) }
  else s

/-- The index that holds a key in a region's bridge table, the lowest way first (R194). -/
def bridgeFind (s : State) (r mac vid : Nat) : Option Nat := (waysHolding s r true (bridgeKey mac vid)).head?

/-- The lowest-numbered free candidate slot of a key (R225, R250). -/
def bridgeFree (s : State) (r mac vid : Nat) : Option Nat :=
  ((List.range 4).map (candidate true (bridgeKey mac vid))).find? (fun i =>
    !(bridgeAt s r i).valid && !(rowRemoved s (lkpTable r) i))

/-! ## Station moves and pinning (R229 to R231) -/

/-- The tracker entry of a key in a region. -/
def trackerOf (s : State) (r mac vid : Nat) : Option (Nat × Tracker) :=
  s.trackers.find? (fun t => t.1 / 256 == r && t.2.mac == mac && t.2.vid == vid)

/-- WINDOW_MS and MS; 0 acts as 1. -/
def moveWindow (s : State) (r : Nat) : Nat := msTicks (max 1 (fld s (learnPage r + 0x4C) 15 0))
def pinTime (s : State) (r : Nat) : Nat := msTicks (max 1 (fld s (learnPage r + 0x50) 17 0))

/-- A tracker entry free for a region: not listed, or its window expired and not pinned (R230). -/
def freeTracker (s : State) (r : Nat) : Option Nat :=
  ((List.range 256).map (fun i => r * 256 + i)).find? (fun k =>
    match mapGet? s.trackers k with
    | none => true
    | some t => !t.pinned && decide (s.now - t.start > moveWindow s r))

/-- Applies a move: DEST the new port, HIT 1, STRIKE 0, counted and logged (R229). -/
def applyMove (s : State) (r i port : Nat) : State :=
  let e := bridgeAt s r i
  let s := putBridge s r i (twSet (beTouch e true) 3 11 0 port)
  entryEvent (incSat s (lrnCount r 1)) r 0x2 port (beVid e) (beMac e) (beDest e) i

/-- A move of a learned address under the move tracker (R229, R230). -/
def stationMove (s : State) (r i port : Nat) : State :=
  let e := bridgeAt s r i
  let limit := fld s (learnPage r + 0x4C) 23 16
  let fresh : Tracker := { mac := beMac e, vid := beVid e, count := 1, start := s.now, pinned := false, pinEnd := 0 }
  if limit = 0 then applyMove s r i port
  else match trackerOf s r (beMac e) (beVid e) with
    | some (k, t) =>
      if s.now - t.start > moveWindow s r then applyMove { s with trackers := mapSet s.trackers k fresh } r i port
      else if t.count < limit then
        applyMove { s with trackers := mapSet s.trackers k { t with count := t.count + 1 } } r i port
      else
        let s := { s with trackers := mapSet s.trackers k { t with pinned := true, pinEnd := s.now + pinTime s r } }
        let s := putBridge s r i (twSet e 3 19 19 1)
        entryEvent (incSat s (lrnCount r 5)) r 0x4 (beDest e) (beVid e) (beMac e) port i
    | none =>
      match freeTracker s r with
      | some k => applyMove { s with trackers := mapSet s.trackers k fresh } r i port
      | none => applyMove (incSat s (lrnCount r 11)) r i port

/-- A region applies one learn request (R224, R225), no pin of its key being due to end (R254). -/
def learnApplied (s : State) (r : Nat) (q : LearnReq) : State :=
  match bridgeFind s r q.mac q.vid with
  | none =>
    (match bridgeFree s r q.mac q.vid with
      | some i =>
        let ws := (bridgeKey q.mac q.vid ++ [0x200000 + q.port]).map (BitVec.ofNat 24)
        let s := putBridge s r i { words := ws, valid := true }
        entryEvent (incSat s (lrnCount r 0)) r 0x1 q.port q.vid q.mac 0 i
      | none => entryEvent (incSat s (lrnCount r 3)) r 0x6 q.port q.vid q.mac 0 0)
  | some i =>
    let e := bridgeAt s r i
    if beStatic e || bePinned e then
      let s := putBridge s r i (beTouch e true)
      if beDest e ≠ q.port then incSat s (lrnCount r (if beStatic e then 7 else 6)) else s
    else if beDest e = q.port then putBridge s r i (beTouch e true)
    else stationMove s r i q.port

/-- WK_STAT.PARKED of a region (R451). -/
def parked (s : State) (r : Nat) : Bool := bit s (wakePage r + 0x44) 23

/-- A learn request on the learn bus: queued in all four regions, lost in one whose furrow is full or that is parked (R223,
R452). -/
def learnBus (s : State) (q : LearnReq) : State :=
  forEach [0, 1, 2, 3] s (fun s r =>
    let xs := mapGet [] s.learnQ r
    if xs.length ≥ 1024 ∨ parked s r then incSat s (lrnCount r 4)
    else { s with learnQ := mapPut [] s.learnQ r (xs ++ [q]) })

/-- A pin ends: PINNED cleared, the tracker entry freed, UNPINNED logged (R231). -/
def endPin (s : State) (r k : Nat) : State :=
  match mapGet? s.trackers k with
  | some t =>
    if t.pinned then
      let s := { s with trackers := mapDel s.trackers k }
      match bridgeFind s r t.mac t.vid with
      | some i =>
        let e := bridgeAt s r i
        entryEvent (putBridge s r i (twSet e 3 19 19 0)) r 0x5 (beDest e) t.vid t.mac 0 i
      | none => s
    else s
  | none => s

/-- A region applies one learn request (R224, R225): a pin of its key that ends at this moment ends first (R254). -/
def applyLearn (s : State) (r : Nat) (q : LearnReq) : State :=
  let s := match trackerOf s r q.mac q.vid with
    | some (k, t) => if t.pinned && decide (t.pinEnd ≤ s.now) then endPin s r k else s
    | none => s
  learnApplied s r q

/-- The request at the head of a region's learn input furrow is applied (R223, R224). -/
def learnHead (s : State) (r : Nat) : State :=
  match mapGet [] s.learnQ r with
  | q :: rest => handled (applyLearn { s with learnQ := mapPut [] s.learnQ r rest } r q) (learnPage r)
  | [] => s

/-- LRN_CMD.UNPIN_ALL (R231). -/
def unpinAll (s : State) (r : Nat) : State :=
  forEach ((s.trackers.filter (fun t => t.1 / 256 == r && t.2.pinned)).map (·.1)) s (fun s k => endPin s r k)

/-! ## Flushes (R236, R237) -/

/-- Indices of a region's valid learned entries that a test names. -/
def learnedWhere (s : State) (r : Nat) (p : TEntry → Bool) : List Nat :=
  s.tables.filterMap (fun e =>
    let base := tKey (lkpTable r) 1 0 0
    if base ≤ e.1 ∧ e.1 < base + 16384 ∧ e.2.valid ∧ !(beStatic e.2) ∧ p e.2 then some (e.1 - base) else none)

/-- Removes learned entries that a test names, each counted in LRN_FLUSHED, no event (R236). -/
def flushWhere (s : State) (r : Nat) (p : TEntry → Bool) : State :=
  forEach (learnedWhere s r p) s (fun s i => incSat (removeBridge s r i) (lrnCount r 12))

/-- LRN_CMD.FLUSH under LRN_FLUSH_SEL (R236). -/
def flushSel (s : State) (r : Nat) : State :=
  let a := learnPage r + 0x58
  flushWhere s r (fun e =>
    (!(bit s a 23) || beDest e == fld s a 19 12) && (!(bit s a 22) || beVid e == fld s a 11 0) &&
      (bit s a 21 || !(bePinned e)))

/-- Every region with DOWN_FLUSH flushes the learned, unpinned entries of an output that leaves UP (R237). -/
def downFlush (s : State) (o : Nat) : State :=
  if 88 ≤ o ∧ o ≤ 125 then
    forEach [0, 1, 2, 3] s (fun s r =>
      if bit s (learnPage r + 0x40) 4 then flushWhere s r (fun e => beDest e == o && !(beGroup e) && !(bePinned e)) else s)
  else s

/-! ## Ageing (R232 to R235) -/

/-- The visit's effect on a learned, unpinned entry (R233). -/
def ageEntry (s : State) (r i : Nat) : State :=
  let e := bridgeAt s r i
  if !e.valid || beStatic e || bePinned e then s
  else if beHit e then putBridge s r i (beTouch e false)
  else if !(beStrike e) then putBridge s r i (twSet e 3 20 20 1)
  else
    entryEvent (incSat (removeBridge s r i) (lrnCount r 2)) r 0x3 (beDest e) (beVid e) (beMac e) 0 i

/-- The duplicate check of a visit (R235): a static entry is kept over a learned one, else the one in the lower way. -/
def dedupEntry (s : State) (r i : Nat) : State :=
  let e := bridgeAt s r i
  if !e.valid then s
  else
    let key := bridgeKey (beMac e) (beVid e)
    let others := ((List.range 4).map (candidate true key)).filter (fun j =>
      j != i && (bridgeAt s r j).valid && keyMatches true (bridgeAt s r j) key)
    match others with
    | j :: _ =>
      let f := bridgeAt s r j
      if beStatic e && beStatic f then incSat s (lrnCount r 8)
      else
        let gone := if beStatic e then j else if beStatic f then i else max i j
        let g := bridgeAt s r gone
        entryEvent (incSat (removeBridge s r gone) (lrnCount r 8)) r 0x7 (beDest g) (beVid g) (beMac g) 0 gone
    | [] => s

/-- The harrow's next visit in a region (R232 to R235). -/
def ageVisit (s : State) (r : Nat) : State :=
  if rd s (learnPage r + 0x48) = 0 ∨ parked s r then s
  else
    let i := mapGet 0 s.sweepPos r
    let s := dedupEntry (ageEntry s r i) r i
    if i ≥ 16383 then
      let n := (mapGet 0 s.sweeps r + 1) % 2 ^ 24
      shortEvent { s with sweepPos := mapDel s.sweepPos r, sweeps := mapPut 0 s.sweeps r n } r 0x8 n
    else { s with sweepPos := mapPut 0 s.sweepPos r (i + 1) }

/-! ## What the learning page shows -/

/-- LRN_ENTRIES.LEARNED (R255). -/
def learnedNow (s : State) (r : Nat) : Nat := (learnedWhere s r (fun _ => true)).length
/-- LRN_TRACK: PINNED and USED (R255). -/
def trackNow (s : State) (r : Nat) : Nat :=
  let ts := s.trackers.filter (fun t => t.1 / 256 == r && (t.2.pinned || decide (s.now - t.2.start ≤ moveWindow s r)))
  (ts.filter (fun t => t.2.pinned)).length * 512 + ts.length

end Sys2Proof.Machine
end

