-- ==== Sys2Proof/Machine/Pdu.lean ====
section
/-! DEFINITION. The wire forms of PDUs: the pseudo-header of bus frames, socket-adaptor PDUs, ACF messages,
header templates and the permitted combinations (05_lookup_and_filtering.md R175 to R182; 08_pdu_formats.md R299 to
R317, R326). -/
namespace Sys2Proof.Machine

/-! ## Bus frames (R179) -/

/-- The header of a CAN frame. -/
structure CanHdr where
  ide : Bool
  fdf : Bool
  brs : Bool
  rtr : Bool
  esi : Bool
  id : Nat
  deriving DecidableEq, Repr

/-- The pseudo-header of a CAN frame (R179). -/
def canPseudo (h : CanHdr) (len : Nat) : List Byte :=
  BitVec.ofNat 8 (b2n h.ide * 128 + b2n h.fdf * 64 + b2n h.brs * 32 + b2n h.rtr * 16 + b2n h.esi * 8) ::
    (beBytes 4 h.id ++ [BitVec.ofNat 8 len, 0, 0])
/-- The CAN header that a pseudo-header gives. -/
def canOfPseudo (bs : List Byte) : CanHdr :=
  let b := byteAt bs 0
  { ide := b / 128 == 1, fdf := b / 64 % 2 == 1, brs := b / 32 % 2 == 1, rtr := b / 16 % 2 == 1, esi := b / 8 % 2 == 1,
    id := beAt bs 1 4 % (if b / 128 = 1 then 2 ^ 29 else 2 ^ 11) }
/-- The pseudo-header of a LIN frame (R179). -/
def linPseudo (responder enhanced : Bool) (pid len : Nat) : List Byte :=
  [BitVec.ofNat 8 (b2n responder * 128 + b2n enhanced * 64), BitVec.ofNat 8 pid, 0, 0, 0, BitVec.ofNat 8 len, 0, 0]

/-- The CAN FD data lengths (R281). -/
def fdLengths : List Nat := [0, 1, 2, 3, 4, 5, 6, 7, 8, 12, 16, 20, 24, 32, 48, 64]
/-- The next CAN FD data length, 64 at most. -/
def fdLength (n : Nat) : Nat := (fdLengths.find? (fun k => decide (n ≤ k))).getD 64

/-- A header from a PDU ID (R309, R310). -/
def canOfPduId (pid : Nat) : CanHdr :=
  let fdf := pid / 2 ^ 30 % 2 == 1
  let ide := pid / 2 ^ 31 % 2 == 1
  { ide := ide, fdf := fdf, brs := fdf && pid / 2 ^ 29 % 2 == 1, rtr := false, esi := false,
    id := if ide then pid % 2 ^ 29 else pid % 2 ^ 11 }
/-- The PDU ID of a CAN frame (R309). -/
def pduIdOfCan (h : CanHdr) : Nat :=
  b2n h.ide * 2 ^ 31 + b2n h.fdf * 2 ^ 30 + b2n h.brs * 2 ^ 29 + h.id % (if h.ide then 2 ^ 29 else 2 ^ 11)
/-- The header of a packed CAN frame from HDR (R281). -/
def canOfHdr (hdr : Nat) : CanHdr :=
  let ide := hdr / 2 ^ 29 % 2 == 1
  { ide := ide, fdf := hdr / 2 ^ 32 % 2 == 1, brs := hdr / 2 ^ 33 % 2 == 1, rtr := false, esi := false,
    id := if ide then hdr % 2 ^ 29 else hdr % 2 ^ 11 }

/-! ## Splitting (R306, R313 to R316) -/

/-- An item cut from a frame: source code (3 socket-adaptor PDU, 4 ACF CAN, 6 ACF LIN), where its header and its PDU stand,
the PDU's length, and the words of its route key below word 0's KIND and PORT. -/
structure Cut where
  src : Nat
  itemOff : Nat
  off : Nat
  len : Nat
  key : Nat
  deriving DecidableEq, Repr

/-- The socket-adaptor PDUs of a UDP payload from a position to its end, and whether a malformed remainder stopped the
walk (R306). -/
def walkSoad : Nat → List Byte → Nat → Nat → Nat → List Cut × Bool
  | 0, _, _, _, _ => ([], false)
  | n + 1, bs, udpPort, pos, stop =>
    if pos = stop then ([], false)
    else if pos + 8 > stop then ([], true)
    else
      let len := beAt bs (pos + 4) 4
      if pos + 8 + len > stop then ([], true)
      else
        let (rest, bad) := walkSoad n bs udpPort (pos + 8 + len) stop
        ({ src := 3, itemOff := pos, off := pos + 8, len := len, key := udpPort * 2 ^ 32 + beAt bs pos 4 } :: rest, bad)

/-- The CAN header of an ACF message at a position (R313). -/
def canOfAcf (bs : List Byte) (pos : Nat) : CanHdr :=
  let brief := beAt bs pos 2 / 512 == 2
  let b := byteAt bs (pos + 2)
  { rtr := b / 16 % 2 == 1, ide := b / 8 % 2 == 1, brs := b / 4 % 2 == 1, fdf := b / 2 % 2 == 1, esi := false,
    id := beAt bs (if brief then pos + 4 else pos + 12) 4 % (if b / 8 % 2 = 1 then 2 ^ 29 else 2 ^ 11) }

/-- The ACF messages of an AVTPDU from a position to its end, how many are of no known type, and whether a malformed
remainder stopped the walk (R189, R315, R316). -/
def walkAcf : Nat → List Byte → Nat → Nat → Nat → List Cut × Nat × Bool
  | 0, _, _, _, _ => ([], 0, false)
  | n + 1, bs, stream, pos, stop =>
    if pos ≥ stop then ([], 0, false)
    else
      let typ := beAt bs pos 2 / 512
      let quads := beAt bs pos 2 % 512
      let pad := byteAt bs (pos + 2) / 64
      if pos + 2 > stop ∨ quads < 2 ∨ pos + 4 * quads > stop then ([], 0, true)
      else if typ = 0 ∨ 3 < typ then
        let (rest, k, bad) := walkAcf n bs stream (pos + 4 * quads) stop
        (rest, k + 1, bad)
      else
        let hl := if typ = 1 then 16 else if typ = 2 then 8 else 12
        let len := 4 * quads - hl - pad
        let h := canOfAcf bs pos
        let lenOk :=
          decide (hl + pad ≤ 4 * quads) &&
            (if typ = 3 then decide (1 ≤ len) && decide (len ≤ 8)
             else if h.fdf && !h.rtr then fdLengths.contains len
             else decide (len ≤ 8))
        if lenOk then
          let bus := if typ = 3 then byteAt bs (pos + 2) % 32 else byteAt bs (pos + 3) % 32
          let (rest, k, bad) := walkAcf n bs stream (pos + 4 * quads) stop
          ({ src := if typ = 3 then 6 else 4, itemOff := pos, off := pos + hl, len := len,
             key := stream * 2 ^ 20 + typ * 2 ^ 16 + bus } :: rest, k, bad)
        else ([], 0, true)

/-- The AVTPDU at a position: its stream ID, where its messages start and end, or malformed in whole (R315). -/
def avtpdu (bs : List Byte) (pos : Nat) : Option (Nat × Nat × Nat) :=
  let sub := byteAt bs pos
  let sv := byteAt bs (pos + 1) / 128
  if byteAt bs (pos + 1) / 16 % 8 ≠ 0 then none
  else
    let stream := if sv = 1 then beAt bs (pos + 4) 8 else 0
    if sub = 0x82 then some (stream, pos + 12, pos + 12 + beAt bs (pos + 1) 2 % 2048)
    else some (stream, pos + 24, pos + 24 + beAt bs (pos + 20) 2)

/-! ## Permitted combinations (R299, R302) -/

/-- ENCAP and TPL of a FORMAT. -/
def encapOf (format : Nat) : Nat := format / 16 % 8
def tplOf (format : Nat) : Nat := format % 16

/-- The kind of an output: 0 CAN, 1 LIN, 2 Ethernet or T1S, 3 host ring or Ebder port. -/
def outKind (o : Nat) : Nat := if o < 64 then 0 else if o < 88 then 1 else if o < 124 then 2 else 3

/-- The ENCAP values that a copy may carry by its source and its output's kind (R302). Sources: 1 CAN, 2 LIN, 3
socket-adaptor PDU, 4 ACF CAN, 5 host packet, 6 ACF LIN, 7 bridged, 8 packed layout. -/
def permitted (src kind encap : Nat) : Bool :=
  match src, kind with
  | 1, 0 => encap == 0
  | 1, 2 => encap == 1 || encap == 2 || encap == 3
  | 2, 1 => encap == 0
  | 2, 2 => encap == 1 || encap == 4
  | 3, 0 | 3, 1 => encap == 5
  | 3, 2 => encap == 1
  | 4, 0 => encap == 5
  | 4, 2 => encap == 1 || encap == 2 || encap == 3
  | 6, 1 => encap == 5
  | 6, 2 => encap == 1 || encap == 4
  | 5, 0 | 5, 1 => encap == 5
  | 5, 2 => encap == 0
  | 7, 2 => encap == 0
  | 8, 0 => encap == 0 || encap == 6
  | 8, 1 => encap == 0
  | 8, 2 => encap == 1 || encap == 2 || encap == 3 || encap == 4 || encap == 6
  | 1, 3 | 2, 3 | 3, 3 | 4, 3 | 5, 3 | 6, 3 | 7, 3 | 8, 3 => encap == 0
  | _, _ => false

/-! ## How an output writes a copy -/

/-- The header with which a copy leaves on a CAN port (R281, R310, R317, R302). -/
def canHdrOf (form : CopyForm) (bs : List Byte) : CanHdr :=
  match form.src with
  | 3 => canOfPduId (beAt bs form.itemOff 4)
  | 4 => canOfAcf bs form.itemOff
  | 8 => canOfHdr form.hdr
  | _ => canOfPseudo (bs.drop form.itemOff)

/-- The PDU of a copy (R304). -/
def pduOf (form : CopyForm) (bs : List Byte) : List Byte := sliceBytes bs form.off form.len

/-- The PDU ID under which a copy leaves through SOAD (R307, R309). -/
def pduIdOf (form : CopyForm) (bs : List Byte) : Nat :=
  match form.src with
  | 1 => pduIdOfCan (canOfPseudo (bs.drop form.itemOff))
  | 2 => byteAt bs (form.itemOff + 1) % 64
  | 3 => beAt bs form.itemOff 4
  | 4 => pduIdOfCan (canOfAcf bs form.itemOff)
  | 6 => byteAt bs (form.itemOff + 3) % 64
  | _ => form.hdr % 2 ^ 32

/-- A byte string filled with zero bytes up to a multiple of four, with the pad. -/
def padQuads (bs : List Byte) : List Byte × Nat :=
  let p := (4 - bs.length % 4) % 4
  (bs ++ List.replicate p 0, p)

/-- An ACF CAN or CAN Brief message (R313). -/
def acfCan (brief : Bool) (bus : Nat) (h : CanHdr) (data : List Byte) : List Byte :=
  let (body, pad) := padQuads data
  let quads := ((if brief then 8 else 16) + body.length) / 4
  beBytes 2 ((if brief then 2 else 1) * 512 + quads) ++
    [BitVec.ofNat 8 (pad * 64 + b2n h.rtr * 16 + b2n h.ide * 8 + b2n h.brs * 4 + b2n h.fdf * 2 + b2n h.esi),
     BitVec.ofNat 8 (bus % 32)] ++
    (if brief then [] else List.replicate 8 0) ++ beBytes 4 h.id ++ body

/-- An ACF LIN message (R314). -/
def acfLin (bus lid : Nat) (data : List Byte) : List Byte :=
  let (body, pad) := padQuads data
  beBytes 2 (3 * 512 + (12 + body.length) / 4) ++ [BitVec.ofNat 8 (pad * 64 + bus % 32), BitVec.ofNat 8 (lid % 64)] ++
    List.replicate 8 0 ++ body

/-! ## Header templates (R311, R312, R424) -/

/-- Word w of template t of a MAC cell. -/
def tplWord (s : State) (pg t w : Nat) : Nat := eff s pg (pg + 0x800 + 0x80 * t + 4 * w) 23 0
/-- TYPE, HLEN, UDP_CSUM and BUS_ID of a template (R424 word 0). -/
def tplType (s : State) (pg t : Nat) : Nat := bitsOf (tplWord s pg t 0) 23 22
def tplHlen (s : State) (pg t : Nat) : Nat := clamp 14 72 (bitsOf (tplWord s pg t 0) 21 15)
def tplCsum (s : State) (pg t : Nat) : Bool := bitsOf (tplWord s pg t 0) 14 14 == 1
def tplBus (s : State) (pg t : Nat) : Nat := bitsOf (tplWord s pg t 0) 13 9

/-- Replaces bytes of a string from a position. -/
def overlay (bs : List Byte) (pos : Nat) (xs : List Byte) : List Byte :=
  bs.take pos ++ (xs.take (bs.length - pos)) ++ bs.drop (pos + xs.length)

/-- The ones-complement sum of 16-bit words, and the Internet checksum. -/
def onesSum (bs : List Byte) : Nat :=
  let raw := (List.range ((bs.length + 1) / 2)).foldl (fun a i => a + byteAt bs (2 * i) * 256 + byteAt bs (2 * i + 1)) 0
  let a := raw / 65536 + raw % 65536
  a / 65536 + a % 65536
def inetSum (bs : List Byte) : Nat := 65535 - onesSum bs

end Sys2Proof.Machine
end

