-- ==== Sys2Proof/Machine/Harrow.lean ====
section
/-! DEFINITION. The harrows: quarantine, repair and retirement of table entries (06_learning_and_table_integrity.md, R242 to
R252; R290 and R500 for the harrows of the signal router and of the security domain). A harrow is 0 to 3 for a region, 4
for the signal router, 5 for the security domain; a table is named by its TABLE code. -/
namespace Sys2Proof.Machine

/-- Where a harrow's registers stand: page and the slots of STAT, CAPTURE, PASSES, REPAIRS, QUARANTINES, QUAR_NOW and
SPARE (R255, R294, R501); 0 where there is none. -/
structure HarrowRegs where
  pg : Nat
  stat : Nat
  cap : Nat
  passes : Nat
  repairs : Nat
  quars : Nat
  spare : Nat
  deriving DecidableEq, Repr

def harrowRegs (h : Nat) : HarrowRegs :=
  if h < 4 then ⟨learnPage h, 0xA4, 0xA8, 0xAC, 0xB0, 0xB4, 0xC0⟩
  else if h = 4 then ⟨mbPage, 0x184, 0x188, 0x18C, 0x190, 0x194, 0x1A0⟩
  else ⟨secPage, 0x6C, 0x70, 0, 0, 0, 0x80⟩

/-- The table-port page and TABLE selector behind a harrow's TABLE code (R239, R290, R500). -/
def harrowTable (h code : Nat) : Nat × Nat :=
  if h < 4 then
    match code with
    | 0 => (hdgTable h, 0)
    | 1 => (lkpTable h, 0)
    | 2 => (lkpTable h, 2)
    | 3 => (polTable h, 0)
    | 4 => (grpTable, 0)
    | 5 => (lkpTable h, 1)
    | 6 => (gateTable, 0)
    | _ => (polTable h, 1)
  else if h = 4 then (mbTable, code)
  else (secTable, code)

/-- The order in which a pass visits its tables: those with a shadow first, then those whose parity alone is checked. -/
def passOrder (h : Nat) : List Nat :=
  if h < 4 then [0, 1, 2, 3, 4, 5, 6, 7] else if h = 4 then [0, 1, 2, 3, 4, 5, 6, 7, 8] else [0, 2, 3, 4, 1, 5]

/-- The entry carries a key for the quarantine of one region's group replica, or of the table itself (R246). -/
def quarKey (h code i : Nat) : Nat :=
  let (pg, t) := harrowTable h code
  if h < 4 ∧ code = 4 then tKey pg t 0 i + (h + 1) * 2 ^ 40 else tKey pg t 0 i

/-- The live copy of an entry as a harrow's region holds it, and that copy written (R242, R245). -/
def liveOf (s : State) (h code i : Nat) : TEntry :=
  let (pg, t) := harrowTable h code
  if h < 4 ∧ code = 4 then grpGet s h i else tGet s pg t 0 i
def putLive (s : State) (h code i : Nat) (e : TEntry) : State :=
  let (pg, t) := harrowTable h code
  if h < 4 ∧ code = 4 then { s with grpOwn := mapSet s.grpOwn (h * 4096 + i) e } else tPut s pg t 0 i e

/-- The row of an entry as a location (R537): a group entry has one location in each region, told apart above bit 24 of the row,
which is the model's own (R248; notes/assumptions/131.md). -/
def harrowRow (h code i : Nat) : Nat :=
  if h < 4 ∧ code = 4 then tRow (16 + h) i else tRow (harrowTable h code).2 i

/-- An entry is quarantined for a harrow's region. -/
def isQuar (s : State) (h code i : Nat) : Bool := s.tquar.contains (quarKey h code i)

/-- A "Table parity" or "Table mismatch" record of a harrow (R245, R246). -/
def harrowRecord (s : State) (h cls code fclass i : Nat) : State :=
  let (pg, t) := harrowTable h code
  raiseRec s (harrowRegs h).pg cls code fclass pg (tRow t i)

/-- An event of a region's harrow (R240): PARITY, QUARANTINE, RETIRED, NOSPARE. -/
def harrowEvent (s : State) (h ev code i : Nat) : State :=
  if h < 4 then shortEvent s h ev (code * 0x100000 + i % 0x8000) else s

/-- Increments a harrow's counter where it has one. -/
def harrowCount (s : State) (slot h : Nat) : State := if slot = 0 then s else incSat s ((harrowRegs h).pg + slot)

/-- Captures TABLE and INDEX of the first quarantine (R246, R294, R501). -/
def harrowCapture (s : State) (h code i : Nat) : State :=
  let a := (harrowRegs h).pg + (harrowRegs h).cap
  if h < 4 then if bit s a 15 then s else wr s a (code * 0x100000 + 0x8000 + i % 0x8000)
  else if h = 4 then if bit s a 20 then s else wr s a (code * 0x200000 + 0x100000 + i % 0x20000)
  else if bit s a 19 then s else wr s a (code * 0x100000 + 0x80000 + i % 0x400)

/-- Spare rows left of a harrow's table. -/
def spareAddr (h code : Nat) : Nat := (harrowRegs h).pg + (harrowRegs h).spare + 4 * code
/-- Spare rows left; the security page numbers its slots by table code, 0 to 4 (R501). -/
def sparesLeft (s : State) (h code : Nat) : Nat :=
  if (h < 4 ∧ code = 6) ∨ (h = 4 ∧ 6 < code) ∨ (h = 5 ∧ 4 < code) then 0
  else fld s (spareAddr h code) (if h = 5 then 3 else 5) 0

/-- A permanent row that found no spare is kept in mind (R249), as a roster entry of kind 0 that is never stored. -/
def markUnspared (s : State) (pg cls row : Nat) : State :=
  if rostered s 0 pg row then s
  else
    let e : RosterEntry := { kind := 0, page := pg / 0x1000, code := cls, row := row, spare := 0, min := operMin s }
    { s with unrostered := e :: s.unrostered }

/-- The remedy of a permanent entry (R248 to R250): a spare row, or NOSPARE; a bridge row without a spare is removed. -/
def retireEntry (s : State) (h code cls i : Nat) : State :=
  let (pg, t) := harrowTable h code
  let n := sparesLeft s h code
  let a := (harrowRegs h).pg + (harrowRegs h).stat
  let total := if h = 5 then 8 else 32
  if n > 0 then
    let s := setFld s (spareAddr h code) (if h = 5 then 3 else 5) 0 (n - 1)
    harrowEvent (retire (setBit s a 2) 3 pg cls (harrowRow h code i) (total - n)) h 0xC code i
  else
    let s := harrowEvent (setBit s a 3) h 0xD code i
    if h < 4 ∧ code = 5 then retire s 4 pg cls (tRow t i) 0
    else noSpare (markUnspared s pg cls (harrowRow h code i)) pg (tRow t i) code

/-- Quarantines an entry (R246): marked, counted, captured, logged and recorded; repeated mismatches make it permanent. -/
def quarantine (s : State) (h code i : Nat) : State :=
  let pg := (harrowTable h code).1
  let r := harrowRegs h
  let s := { s with tquar := quarKey h code i :: s.tquar }
  let s := harrowCapture (setBit (harrowCount s r.quars h) (r.pg + r.stat) 1) h code i
  let s := harrowEvent s h 0xB code i
  let (perm, s) := classFault s pg (harrowRow h code i) 0x14 false
  let s := harrowRecord s h 0x14 code (if perm then 2 else 1) i
  if perm then retireEntry s h code 0x14 i else s

/-- A repair that reads back, or not (R245, R248): counted and recorded; a permanent location is remedied. -/
def repaired (s : State) (h code i : Nat) (readBack : Bool) : State :=
  let pg := (harrowTable h code).1
  let r := harrowRegs h
  let s := if readBack then setBit (harrowCount s r.repairs h) (r.pg + r.stat) 0 else s
  let (perm, s) := classFault s pg (harrowRow h code i) 0x13 (!readBack)
  let s := harrowRecord s h 0x13 code (if perm then 2 else 1) i
  if perm then retireEntry s h code 0x13 i else s

/-- The harrow judges an entry of a table with a shadow (R243 to R246), given which copy has a word with bad parity; one that
found no spare is quarantined when it is faulty again (R249). -/
def judge (s : State) (h code i : Nat) (liveBad shadowBad readBack : Bool) : State :=
  let (pg, t) := harrowTable h code
  if tPending s pg t i || isQuar s h code i then s
  else if liveBad && shadowBad then quarantine s h code i
  else if (liveBad || shadowBad) && rostered s 0 pg (harrowRow h code i) then quarantine s h code i
  else if liveBad then repaired (putLive s h code i (tGet s pg t 1 i)) h code i readBack
  else if shadowBad then repaired (tPut s pg t 1 i (liveOf s h code i)) h code i readBack
  else if liveOf s h code i = tGet s pg t 1 i then s
  else quarantine s h code i

/-- Bad parity in the state of a policer (R252): the level is BURST, the time the present. -/
def polParity (s : State) (r i : Nat) (testOk : Bool) : State :=
  let burst := tw (tGet s (polTable r) 0 0 i) 2
  let s := { s with polState := mapSet s.polState (r * 4096 + i) { level := burst * 2 ^ 24, last := s.now } }
  let s := harrowEvent s r 0xA 7 i
  repaired s r 7 i testOk

/-- Bad parity in a bridge entry (R252): the entry is invalidated and its row tested. -/
def bridgeParity (s : State) (r i : Nat) (testOk : Bool) : State :=
  let s := harrowEvent (removeBridge s r i) r 0xA 5 i
  let (perm, s) := classFault s (lkpTable r) (tRow 1 i) 0x13 (!testOk)
  let s := harrowRecord s r 0x13 5 (if perm then 2 else 1) i
  if perm then retireEntry s r 5 0x13 i else s

/-- Bad parity in a gate control list of the region's MAC ports (R252): every gate of that port opens. -/
def gateParity (s : State) (r i : Nat) : State :=
  if regionOfPort (104 + i / 128) = r then
    let s := if s.gateFaults.contains i then s else { s with gateFaults := i :: s.gateFaults }
    let s := harrowEvent s r 0xA 6 i
    let (perm, s) := classFault s gateTable (tRow 0 i) 0x13 false
    let s := harrowRecord s r 0x13 6 (if perm then 2 else 1) i
    if perm then retireEntry s r 6 0x13 i else s
  else s

/-- A lookup flags an entry that it read with bad parity (R247). -/
def flagEntry (s : State) (h code i : Nat) : State :=
  if s.harrowFlags.contains (h, code, i) then s else { s with harrowFlags := s.harrowFlags ++ [(h, code, i)] }

/-- An entry acts as quarantined for the item at hand: quarantined, or read with bad parity (R246, R247); `bad` names the
entries (code, index) whose live word reads bad now. -/
def actsQuar (s : State) (h code i : Nat) (bad : List (Nat × Nat)) : Bool := isQuar s h code i || bad.contains (code, i)

/-- Flags the entries that a lookup read with bad parity, hit or not (R247). -/
def noteBad (s : State) (h code : Nat) (is : List Nat) (bad : List (Nat × Nat)) : State :=
  forEach (is.filter (fun i => bad.contains (code, i))) s (fun s i => flagEntry s h code i)

/-- Entries now quarantined by a harrow (HRW_QUAR_NOW, SRH_QUAR_NOW, SEC_QUAR_NOW). -/
def quarNow (s : State) (h : Nat) : Nat :=
  (s.tquar.filter (fun k =>
    let base := k % 2 ^ 40
    let pg := tKeyPage base
    if h < 4 then
      if pg = grpTable then k / 2 ^ 40 == h + 1 else decide (domainOf pg = h)
    else if h = 4 then pg == mbTable
    else pg == secTable)).length

end Sys2Proof.Machine
end

