-- ==== Sys2Proof/Machine/Lookup.lean ====
section
/-! DEFINITION. The region pipeline: the coulter's keys, the hedgerow, route and bridge lookup, group resolution and the
policer, up to the verdict (05_lookup_and_filtering.md, R174 to R209, R703, R704; R222 and R227 for the source lookup). -/
namespace Sys2Proof.Machine

/-! ## The coulter (R174 to R183) -/

/-- An item as the coulter cuts it: KIND, source code, header and PDU range, and K of its route key (R189). -/
structure Item where
  kind : Nat
  src : Nat
  itemOff : Nat
  off : Nat
  len : Nat
  key : Nat
  hdr : Nat
  deriving DecidableEq, Repr

/-- CLT_PORT[j] of a port. -/
def cltPort (p : Nat) : Nat := coulterPage (regionOfPort p) + 0x100 + 4 * coulterIndex p
def cltFld (s : State) (p hi lo : Nat) : Nat := eff s (coulterPage (regionOfPort p)) (cltPort p) hi lo

/-- CLT_CTRL.SPLIT_MAX in force. -/
def splitMax (s : State) (r : Nat) : Nat := clamp 1 64 (eff s (coulterPage r) (coulterPage r + 0x40) 6 0)

/-- The UDP destination port is an enabled CLT_SOAD entry. -/
def soadPort (s : State) (r udp : Nat) : Bool :=
  let pg := coulterPage r
  (List.range 8).any (fun i => effBit s pg (pg + 0x44) i && eff s pg (pg + 0x48 + 4 * i) 15 0 == udp)

/-- A host packet that came over a link is a BUS packet: the link header does not tell its form (R608). DESIGN CHOICE: it is one
when its first 8 bytes are a pseudo-header of R179 that gives the length of the rest (notes/assumptions/131.md). -/
def hostBus (bs : List Byte) : Bool :=
  decide (8 ≤ bs.length) && decide (bs.length ≤ 72) && byteAt bs 5 == bs.length - 8 && beAt bs 6 2 == 0

/-- The items of a frame, those of no kind, and whether a malformed remainder stopped the split (R175, R176, R189). -/
def cutItems (s : State) (p : Nat) (h : Head) : List Item × Nat × Bool :=
  let bs := h.bytes
  let r := regionOfPort p
  let whole : Nat → Nat → Nat → Nat → List Item := fun kind src off key =>
    [{ kind := kind, src := src, itemOff := 0, off := off, len := bs.length - off, key := key, hdr := 0 }]
  let cuts : Nat → List Cut → List Item := fun kind cs =>
    cs.map (fun c => { kind := kind, src := c.src, itemOff := c.itemOff, off := c.off, len := c.len, key := c.key, hdr := 0 })
  match h.kind with
  | .can =>
    if p < 64 then
      let c := canOfPseudo bs
      (whole 1 1 8 (b2n c.ide * 2 ^ 29 + c.id), 0, false)
    else (whole 5 5 8 h.tag, 0, false)
  | .lin => (whole 2 2 8 (byteAt bs 1 % 64), 0, false)
  | .pdu =>
    (match h.link with
      | some (tag, orig) =>
        let base : Item := { kind := 6, src := 7, itemOff := 0, off := 0, len := bs.length, key := tag, hdr := 0 }
        (match orig with
          | 1 => [{ base with src := 1, off := 8, len := bs.length - 8 }]
          | 2 => [{ base with src := 2, off := 8, len := bs.length - 8 }]
          | 3 => [{ base with src := 3, off := 8, len := bs.length - 8 }]
          | 4 =>
            let typ := beAt bs 0 2 / 512
            let hl := if typ = 1 then 16 else if typ = 2 then 8 else 12
            let len := 4 * (beAt bs 0 2 % 512) - hl - byteAt bs 2 / 64
            [{ base with src := if typ = 3 then 6 else 4, off := hl, len := len }]
          | 5 => if hostBus bs then [{ base with src := 5, off := 8, len := bs.length - 8 }] else [{ base with src := 5 }]
          | 0 =>
            let c := canOfPseudo bs
            [{ base with
               src := 8
               off := 8
               len := bs.length - 8
               hdr := b2n c.brs * 2 ^ 33 + b2n c.fdf * 2 ^ 32 + b2n c.ide * 2 ^ 29 + c.id }]
          | _ => [base], 0, false)
      | none => (whole 5 5 8 h.tag, 0, false))
  | .eth =>
    if 128 ≤ p then (whole 5 5 0 h.tag, 0, false)
    else
      let v := ethView bs
      let sub := byteAt bs v.l3
      if cltFld s p 14 14 = 1 ∧ v.etherType = 0x22F0 ∧ (sub = 0x82 ∨ sub = 0x05) then
        (match avtpdu bs v.l3 with
          | some (stream, pos, stop) =>
            if stop > bs.length then
              let (cs, k, _) := walkAcf bs.length bs stream pos bs.length
              (cuts 4 cs, k, true)
            else
              let (cs, k, badEnd) := walkAcf bs.length bs stream pos stop
              (cuts 4 cs, k, badEnd)
          | none => ([], 0, true))
      else if cltFld s p 15 15 = 1 ∧ h.ownAddr ∧ isUdp v ∧ soadPort s r (beAt bs (v.l4 + 2) 2) then
        let (cs, badEnd) := walkSoad bs.length bs (beAt bs (v.l4 + 2) 2) (v.l4 + 8) (udpEnd bs v)
        (cuts 3 cs, 0, badEnd)
      else if cltFld s p 16 16 = 1 then (whole 7 7 0 0, 0, false)
      else ([], 1, false)

/-- The words of a route key (R189). -/
def routeKey (kind p k : Nat) : List Nat :=
  [kind * 0x100000 + p % 256 * 0x1000 + k / 2 ^ 72 % 4096, k / 2 ^ 48 % 2 ^ 24, k / 2 ^ 24 % 2 ^ 24, k % 2 ^ 24]

/-- Where an anchor points in an item (R181); none where it is absent: a PDU or ACF message that came routed over a link has no
destination address and no pseudo-header. -/
def anchorAt (bs : List Byte) (kind : ItemKind) (it : Item) (a : Nat) : Option Nat :=
  let v := ethView bs
  let eth := kind == .eth
  match a with
  | 1 => if !eth && (it.src == 3 || it.src == 4 || it.src == 6) then none else some it.itemOff
  | 2 => if eth then some v.l3 else none
  | 3 => if eth && (v.ipv4 || v.ipv6) then some v.l4 else none
  | 4 =>
    if it.src = 3 ∨ it.src = 4 ∨ it.src = 6 then some it.off
    else if eth then (if (v.ipv4 || v.ipv6) && v.proto == 17 && !v.laterFragment then some (v.l4 + 8) else none)
    else if it.off = 8 then some 8 else none
  | 5 => if it.src = 3 ∨ it.src = 4 ∨ it.src = 6 then some it.itemOff else none
  | _ => none

/-- Anchor 1 of a frame that was split is still the destination address. -/
def anchorPos (bs : List Byte) (kind : ItemKind) (it : Item) (a : Nat) : Option Nat :=
  if a = 1 ∧ kind = .eth then some 0 else anchorAt bs kind it a

/-- FLAGS of HK0 (R180). DESIGN CHOICE: a host packet that came routed over a link is no Ethernet frame here and at the anchors
(notes/assumptions/130.md). -/
def hkFlags (p : Nat) (bs : List Byte) (h : Head) (it : Item) : Nat :=
  if it.kind = 1 ∨ it.kind = 2 then byteAt bs 0
  else if h.kind = .eth then
    let v := ethView bs
    b2n v.tagged * 128 + b2n v.ipv4 * 64 + b2n v.ipv6 * 32 + b2n (v.proto == 17) * 16 + b2n (v.proto == 6) * 8 +
      b2n v.laterFragment * 4 + byteAt bs 0 % 2 * 2 + b2n (h.ownAddr && decide (p < 128))
  else 0

/-- The hedgerow key (R180, R181). -/
def hedgeKey (s : State) (p : Nat) (h : Head) (it : Item) : List Nat :=
  let r := regionOfPort p
  let pg := coulterPage r
  let t := cltFld s p 23 20
  let hk0 := it.kind * 0x100000 + p % 256 * 0x1000 + t * 256 + hkFlags p h.bytes h it
  hk0 :: (List.range 7).map (fun w =>
    let a := pg + 0x200 + 0x20 * t + 4 * (w + 1)
    match anchorPos h.bytes h.kind it (eff s pg a 23 21) with
    | some pos => beAt h.bytes (pos + eff s pg a 20 13) 3
    | none => 0)

/-! ## The hedgerow (R184 to R188) -/

/-- A rule's VALUE and MASK match a key (R184). -/
def ruleMatches (e : TEntry) (hk : List Nat) : Bool :=
  (List.range 8).all (fun k => (hk.getD k 0 &&& tw e (8 + k)) == (tw e k &&& tw e (8 + k)))

/-- The live valid entries of a table in ascending index. -/
def liveEntries (s : State) (pg t : Nat) : List (Nat × TEntry) :=
  s.tables.filterMap (fun e =>
    let base := tKey pg t 0 0
    if base ≤ e.1 ∧ e.1 < base + 0x80000 ∧ e.2.valid then some (e.1 - base, e.2) else none)

/-- The rule that gives the verdict: the lowest matching index. DESIGN CHOICE: a rule or a route under quarantine whose live copy
is not valid matches nothing, so that no DENY or DROP of R246 follows from it (notes/assumptions/146.md). -/
def matchRule (s : State) (r : Nat) (hk : List Nat) : Option (Nat × TEntry) :=
  (liveEntries s (hdgTable r) 0).find? (fun e => ruleMatches e.2 hk)

/-- The hedgerow's verdict on an item (R186, R187): 0 PERMIT, 1 DENY, 2 REDIRECT, 3 TRAP, and the rule. -/
def hedge (s : State) (r : Nat) (hk : List Nat) (bad : List (Nat × Nat)) : Nat × Option TEntry × State :=
  let pg := hedgerowPage r
  let s := handled (noteBad s r 0 ((liveEntries s (hdgTable r) 0).map (·.1)) bad) pg
  match matchRule s r hk with
  | some (i, e) =>
    let s := wr s (pg + 0x44) (0x400 + i)
    let s := (List.range 8).foldl (fun s n =>
      if fld s (pg + 0x60 + 4 * n) 9 0 = i then addStat s (pg + 0x80 + 4 * n) 1 else s) s
    if actsQuar s r 0 i bad then (1, none, addStat s (learnPage r + 0xBC) 1)
    else
      let v := twf e 16 23 21
      if v = 1 ∨ 3 < v then (1, some e, incSat s (pg + 0x48))
      else if v = 3 then (3, some e, incSat s (pg + 0x4C))
      else (v, some e, s)
  | none =>
    let s := incSat (wr s (pg + 0x44) 0) (pg + 0x50)
    if effBit s pg (pg + 0x40) 0 then (1, none, incSat s (pg + 0x48)) else (0, none, s)

/-! ## Destinations (R192, R200 to R202, R302, R303, R615) -/

/-- What resolving a destination gives: discarded for a quarantined group, invalid, or copies. -/
inductive Dests where
  | discard | invalid
  | copies (os : List Nat)
  deriving DecidableEq, Repr

/-- Outputs named by a group entry's words that the variant has (R201). -/
def groupOutputs (s : State) (e : TEntry) : List Nat :=
  (List.range 144).filter (fun o =>
    twb e (o / 24) (o % 24) && o != 126 && o != 127 && portPresent s.fuses o)

/-- Resolves DEST and GROUP of this device in a region (R200, R201, R246); region 4 stands for port 126, which passes no
region. -/
def resolve (s : State) (r : Nat) (group : Bool) (dest : Nat) (bad : List (Nat × Nat)) : Dests :=
  if group then
    if actsQuar s r 4 dest bad && decide (r < 4) then .discard
    else match grpLive s r dest with
      | some e => .copies (groupOutputs s e)
      | none => .invalid
  else if dest ≤ 125 ∨ (128 ≤ dest ∧ dest ≤ 143) then
    if portPresent s.fuses dest then .copies [dest] else .invalid
  else .invalid

/-- LKP_BADDEST of a region plus one. -/
def badDest (s : State) (r : Nat) : State := incSat s (lookupPage r + 0x50)

/-- A BUS copy fits the frame it would fill (R303). -/
def busFits (form : CopyForm) (bs : List Byte) (o : Nat) : Bool :=
  if encapOf form.format ≠ 5 then true
  else if o < 64 then
    if (canHdrOf form bs).fdf then decide (form.len ≤ 64) else decide (form.len ≤ 8)
  else decide (form.len ≤ 8)

/-- The copies of a FORWARD toward this device's outputs, those refused under R302 and R303 counted. -/
def formCopies (s : State) (r : Nat) (form : CopyForm) (bs : List Byte) (os : List Nat) : List (Nat × CopyForm) × State :=
  os.foldl (fun (acc : List (Nat × CopyForm) × State) o =>
    if permitted form.src (outKind o) (encapOf form.format) && busFits form bs o then (acc.1 ++ [(o, form)], acc.2)
    else (acc.1, badDest acc.2 r)) ([], s)

/-- The Ebder port toward a device for data (R615): none for no path, the port, or port 124 for both links, of which
admission picks one. -/
def dataPath (s : State) (d : Nat) : Option (Nat × Bool) :=
  if s.fuses.xTier then
    match eff s routePage (routePage + 0x100 + 4 * d) 21 20 with
    | 1 => some (124, false)
    | 2 => some (125, false)
    | 3 => some (124, true)
    | _ => none
  else none

/-- The copies of a FORWARD to a destination on any device, whether the item is discarded by a quarantined group, and
whether the destination was invalid (R187, R192, R200, R201, R301). -/
def forward (s : State) (r input : Nat) (form : CopyForm) (bs : List Byte) (group : Bool) (dest dev : Nat)
    (bad : List (Nat × Nat)) : List (Nat × CopyForm) × Bool × Bool × State :=
  if dev ≠ s.fuses.devId then
    match dataPath s dev with
    | some (o, num) =>
      ([(o, { form with dev := dev, remote := true, tag := b2n group * 4096 + dest, numbered := num })], false, false, s)
    | none => ([], false, false, if s.fuses.xTier then incSat s (routePage + 0x48) else s)
  else
    let s := if group && decide (r < 4) then noteBad s r 4 [dest] bad else s
    match resolve s r group dest bad with
    | .discard => ([], true, false, addStat s (learnPage r + 0xBC) 1)
    | .invalid => ([], false, true, badDest s r)
    | .copies os =>
      let os := if form.bridged then os.filter (fun o => o != input) else os
      let (cs, s) := formCopies s r form bs os
      (cs, false, false, s)

/-! ## Routes and bridge (R194 to R199, R222, R227) -/

/-- What a lookup says of an item: discarded, its copies, its class and policer, its learn request. -/
structure Found where
  drop : Bool
  copies : List (Nat × CopyForm)
  cls : Option Nat
  pol : Option Nat
  learn : Option LearnReq
  deriving DecidableEq, Repr

def nothingFound : Found := { drop := true, copies := [], cls := none, pol := none, learn := none }

/-- The form of an item's copies before a route is known. -/
def itemForm (it : Item) : CopyForm :=
  { plainForm with src := it.src, itemOff := it.itemOff, off := it.off, len := it.len, hdr := it.hdr }

/-- The route lookup of an item (R189 to R195). -/
def routeLookup (s : State) (r p : Nat) (h : Head) (it : Item) (bad : List (Nat × Nat)) : Found × State :=
  let pg := lookupPage r
  let key := routeKey it.kind p it.key
  let s := noteBad s r 1 ((List.range 4).map (candidate false key)) bad
  let ways := waysHolding s r false key
  let s := if ways.length > 1 then incSat s (pg + 0x58) else s
  match ways with
  | [] =>
    let s := incSat s (pg + 0x44)
    if effBit s pg (pg + 0x40) 4 then
      ({ nothingFound with drop := false, copies := [(128 + eff s pg (pg + 0x40) 3 0, { itemForm it with why := 4 })] }, s)
    else (nothingFound, s)
  | i :: _ =>
    if actsQuar s r 1 i bad then (nothingFound, incSat s (pg + 0x4C))
    else
      let e := tGet s (lkpTable r) 0 0 i
      let action := twf e 4 23 21
      let format := twf e 5 6 0
      let form := { itemForm it with sec := twf e 7 23 14, stream := twf e 7 13 4 }
      let cls := if twb e 5 23 then some (twf e 5 22 20) else none
      let pol := if twb e 5 19 then some (twf e 5 18 7) else none
      let isCont := encapOf format == 6
      let unpack : List (Nat × CopyForm) := [(126, { form with layout := twf e 6 23 9, split := isCont })]
      let fwd := fun (s : State) =>
        forward s r p { form with format := if action = 3 ∧ isCont then 0 else format } h.bytes (twb e 4 20) (twf e 4 19 8)
          (twf e 4 7 2) bad
      match action with
      | 0 =>
        let (cs, gone, inv, s) := fwd s
        ({ drop := gone || inv, copies := cs, cls := cls, pol := pol, learn := none }, s)
      | 1 => ({ drop := false, copies := unpack, cls := cls, pol := pol, learn := none }, s)
      | 3 =>
        let (cs, gone, inv, s) := fwd s
        ({ drop := gone || inv, copies := cs ++ unpack, cls := cls, pol := pol, learn := none }, s)
      | _ => (nothingFound, incSat s (pg + 0x48))

/-- The source lookup of a bridged frame (R222, R227): the learn request that it issues, and whether the frame is discarded
at a pinned entry. -/
def sourceLookup (s : State) (r p vid : Nat) (vlanLearn : Bool) (bs : List Byte) (bad : List (Nat × Nat)) :
    Option LearnReq × Bool × State :=
  let sa := beAt bs 6 6
  let lp := learnPage r
  let req : LearnReq := { mac := sa, vid := vid, port := p }
  let may := vlanLearn && bit s (lp + 0x40) 0 && effBit s lp (lp + 0x44) (coulterIndex p - 22)
  if byteAt bs 6 % 2 = 1 ∨ sa = 0 then (none, false, incSat s (lrnCount r 10))
  else
    let ways := (waysHolding s r true (bridgeKey sa vid)).filter (fun i => !(bad.contains (5, i)))
    let s := if ways.length > 1 then incSat s (lookupPage r + 0x58) else s
    match ways with
    | [] => (if may then some req else none, false, s)
    | i :: _ =>
      let e := bridgeAt s r i
      let s := putBridge s r i (beTouch e true)
      let moved := decide (beDest e ≠ p)
      if (beStatic e || bePinned e) && moved then
        let s := incSat s (lrnCount r (if beStatic e then 7 else 6))
        (none, bePinned e && bit s (lp + 0x40) 3, s)
      else (if may && (!(beHit e) || moved) then some req else none, false, s)

/-- The bridge lookup of a frame (R197, R198, R222, R227): a VLAN entry under quarantine discards whatever it holds, a group only
what resolves to it (R246). DESIGN CHOICE: a frame that R197 discards because its input port is no member of FLOOD_GROUP makes no
source lookup, which R222 leaves open (notes/assumptions/146.md). -/
def bridgeLookup (s : State) (r p : Nat) (h : Head) (it : Item) (bad : List (Nat × Nat)) : Found × State :=
  let bs := h.bytes
  let vid := if outerVid bs = 0 then cltFld s p 11 0 else outerVid bs
  let form := { itemForm it with bridged := true, vid := vid }
  let s := noteBad s r 2 [vid] bad
  if actsQuar s r 2 vid bad then (nothingFound, addStat s (learnPage r + 0xBC) 1)
  else match tLive s (lkpTable r) 2 vid with
  | none => (nothingFound, incSat s (lookupPage r + 0x54))
  | some ve =>
      let flood := twf ve 0 11 0
      let member := match grpLive s r flood with
        | some g => twb g (p / 24) (p % 24)
        | none => false
      let s := noteBad s r 4 [flood] bad
      if !member then (nothingFound, incSat s (lookupPage r + 0x54))
      else
        let (req, pinDrop, s) := sourceLookup s r p vid (twb ve 0 23) bs bad
        if pinDrop then ({ nothingFound with learn := req }, s)
        else
          let da := beAt bs 0 6
          let ways := (waysHolding s r true (bridgeKey da vid)).filter (fun i => !(bad.contains (5, i)))
          let s := if ways.length > 1 then incSat s (lookupPage r + 0x58) else s
          let (group, dest, s) := match ways with
            | i :: _ =>
              if da = 2 ^ 48 - 1 then (true, flood, s)
              else
                let e := bridgeAt s r i
                (beGroup e, beDest e, if bit s (learnPage r + 0x40) 2 then putBridge s r i (beTouch e true) else s)
            | [] => (true, flood, s)
          let (cs, gone, inv, s) := forward s r p form bs group dest s.fuses.devId bad
          ({ drop := gone || inv, copies := cs, cls := none, pol := none, learn := req }, s)

/-! ## The policer (R203 to R208) -/

/-- Charges an item of a cost in bytes to a policer (R205, R206): 0 conforms or marked with a class, none when discarded. -/
inductive PolVerdict where
  | conform | mark (cls : Nat) | discard
  deriving DecidableEq, Repr

/-- The level after the tokens earned since the previous arrival (R205), in units of 2^-24 token. -/
def polEarned (lvl last t rate scale burst : Nat) : Nat :=
  min (burst * 2 ^ 24) (lvl + (t - last) * rate * 2 ^ 24 / (200 * 2 ^ min scale 23))

/-- The state of a policer: at image load the level is BURST (R208). -/
def polGet (s : State) (r i : Nat) : PolState := mapGet { level := 0, last := 0 } s.polState (r * 4096 + i)

/-- A policer in force charged with `cost` (R205, R206): the bucket earns since its last charge, then pays or stands. -/
def chargeBucket (s : State) (r i cost t : Nat) (e : TEntry) : PolVerdict × State :=
  let st := polGet s r i
  let lvl := polEarned st.level st.last t (tw e 1) (twf e 0 17 13) (tw e 2)
  if cost ≤ lvl then
    (.conform, { s with polState := mapSet s.polState (r * 4096 + i) { level := lvl - cost, last := t } })
  else
    let s := { s with polState := mapSet s.polState (r * 4096 + i) { level := lvl, last := t } }
    if twb e 0 21 then (.mark (twf e 0 20 18), addStat s (policerPage r + 0x44) 1)
    else (.discard, addStat s (policerPage r + 0x40) 1)

/-- One item charged to policer i of region r at arrival time t. DESIGN CHOICE: at a policer whose entry is not valid every item
conforms (notes/assumptions/130.md). -/
def charge (s : State) (r i bytes t : Nat) (bad : List (Nat × Nat)) : PolVerdict × State :=
  let s := handled (noteBad s r 3 [i] bad) (policerPage r)
  if actsQuar s r 3 i bad then (.discard, addStat s (learnPage r + 0xBC) 1)
  else
    let s := if bad.contains (7, i) then polParity s r i true else s
    match tLive s (polTable r) 0 i with
    | none => (.conform, s)
    | some e =>
      let mode := twf e 0 23 22
      if mode = 0 ∨ mode = 3 then (.conform, s)
      else chargeBucket s r i ((if mode = 1 then bytes else 1) * 2 ^ 24) t e

/-- The charge of one token to a policer in FRAMES mode is noted with a frame still in arrival, which may yet end BAD (R398). -/
def noteCharge (s : State) (frame : Option Nat) (r i : Nat) : State :=
  match frame with
  | some id =>
    if !(getFrame s id).ended && (tLive s (polTable r) 0 i).any (fun e => twf e 0 23 22 == 2) then
      putFrame s id { getFrame s id with charges := (r * 4096 + i) :: (getFrame s id).charges }
    else s
  | none => s

/-- The length by which an item is charged (R205): a PDU with its header, an ACF message whole, its pad bytes included (R313).
DESIGN CHOICE: a routed link item is charged its whole payload (notes/assumptions/130.md). -/
def polBytes (p : Nat) (h : Head) (it : Item) : Nat :=
  match it.kind with
  | 1 | 2 => it.len
  | 3 => it.off - it.itemOff + it.len
  | 4 => 4 * (beAt h.bytes it.itemOff 2 % 512)
  | 7 => h.bytes.length + 4
  | 5 => if p < 128 then it.len else h.bytes.length
  | _ => h.bytes.length

/-! ## The verdict (R28, R187, R203, R704) -/

/-- The class of an item before rules and routes (R203 step 1). -/
def portClass (s : State) (p : Nat) (h : Head) : Nat :=
  if h.kind = .eth ∧ (ethView h.bytes).tagged then outerPcp h.bytes else cltFld s p 19 17

/-- The MIRROR copy of a rule (R186, R187). -/
def mirrorCopy (it : Item) (rule : Option TEntry) : List (Nat × CopyForm) :=
  match rule with
  | some e => if twb e 17 23 then [(128 + twf e 17 22 19, { itemForm it with why := 2 })] else []
  | none => []

/-- One item through the stages of its region's pipeline: its verdict and its learn request, or none when it has no copy
left. -/
def judgeItem (s : State) (p : Nat) (h : Head) (it : Item) (bad : List (Nat × Nat)) :
    Option Verdict × Option LearnReq × State :=
  let r := regionOfPort p
  let hk := hedgeKey s p h it
  let (v, rule, s) := hedge s r hk bad
  let (found, s) : Found × State :=
    if v = 1 then (nothingFound, s)
    else if v = 3 then
      ({ nothingFound with
         drop := false
         copies := [(128 + twf (rule.getD emptyEntry) 17 22 19, { itemForm it with why := 1 })] }, s)
    else if v = 2 then
      let e := rule.getD emptyEntry
      let form := { itemForm it with bridged := it.kind == 7, vid := if it.kind = 7 then
        (if outerVid h.bytes = 0 then cltFld s p 11 0 else outerVid h.bytes) else 0 }
      let (cs, gone, _, s) := forward s r p form h.bytes (twb e 17 18) (twf e 17 17 6) s.fuses.devId bad
      ({ nothingFound with drop := gone, copies := cs }, s)
    else if it.kind = 7 then bridgeLookup (handled s (lookupPage r)) r p h it bad
    else routeLookup (handled s (lookupPage r)) r p h it bad
  let copies := if found.drop then []
    else found.copies ++ (if v = 0 ∨ v = 2 then mirrorCopy it rule else [])
  if copies.isEmpty then (none, found.learn, s)
  else
    let c0 := portClass s p h
    let c1 := found.cls.getD c0
    let c2 := match rule with
      | some e => if twb e 16 20 then twf e 16 19 17 else c1
      | none => c1
    let rulePol := match rule with
      | some e => if twb e 16 16 then some (twf e 16 15 4) else none
      | none => none
    let pol := match rulePol with
      | some i => some i
      | none => found.pol
    let mk : Nat → Verdict := fun cls =>
      { input := p, frame := h.frame, kind := h.kind, bytes := h.bytes, cls := cls, poison := h.poison, copies := copies,
        seqNo := h.seqNo, ingressNs := h.ingressNs, cameAt := h.cameAt, tag := h.tag, srcDev := h.srcDev }
    match pol with
    | none => (some (mk c2), found.learn, s)
    | some i =>
      match charge s r i (polBytes p h it) s.now bad with
      | (.conform, s) => (some (mk c2), found.learn, noteCharge s h.frame r i)
      | (.mark c, s) => (some (mk c), found.learn, s)
      | (.discard, s) => (none, found.learn, s)

/-- The policer that an item would be charged to, as its rule and its route name it (R203). -/
def policerOf (s : State) (p : Nat) (h : Head) (it : Item) : Option Nat :=
  let r := regionOfPort p
  let (v, rule, s) := hedge s r (hedgeKey s p h it) []
  let route := if v = 0 ∧ it.kind ≠ 7 then (routeLookup s r p h it []).1.pol else none
  if v = 1 then none
  else match rule with
    | some e => if twb e 16 16 then some (twf e 16 15 4) else route
    | none => route

/-- A head waits for the end of its frame where a policer in BYTES mode charges the frame's length (R205). -/
def headWaits (s : State) (p : Nat) (h : Head) : Bool :=
  match h.frame with
  | some id =>
    !(getFrame s id).ended && (cutItems s p h).1.any (fun it =>
      decide (5 ≤ it.kind) &&
        (match policerOf s p h it with
         | some i => (tLive s (polTable (regionOfPort p)) 0 i).any (fun e => twf e 0 23 22 == 1)
         | none => false))
  | none => false

/-- Every stage of the region's pipeline runs (R703). -/
def pipelineRuns (s : State) (r : Nat) : Bool :=
  running s (coulterPage r) && running s (hedgerowPage r) && running s (lookupPage r) && running s (policerPage r)

/-- A learn request waits until its frame is committed with a good FCS (R222). -/
def issueLearn (s : State) (frame : Option Nat) (q : LearnReq) : State :=
  match frame with
  | some id =>
    if (getFrame s id).committed then learnBus s q else putFrame s id { getFrame s id with learn := some q }
  | none => learnBus s q

/-- An item whose head has arrived is announced in its cell's head furrow of 64 entries (R178); a full furrow refuses it,
counted in CLT_KEY_OVF. True when announced. -/
def announce (s : State) (p : Nat) (h : Head) : Bool × State :=
  let q := mapGet [] s.heads (inputCell p)
  if q.length ≥ 64 then (false, incSat s (coulterPage (regionOfPort p) + 0x70))
  else (true, { s with heads := mapPut [] s.heads (inputCell p) (q ++ [h]) })

/-- A CAN or LIN frame that became valid: committed to its cell's receive furrow and announced (R178, R179, R337, R370). One that
the furrow has no room for is rewound as an overrun (R22, R111). True when it is committed. -/
def busItem (s : State) (p : Nat) (kind : ItemKind) (bytes : List Byte) : Bool × State :=
  let pg := portPage p
  let item := furItem false (packWords bytes)
  if furWords (getFur s pg) + item.length > furCap (kindOf s.fuses pg) pg then
    (false, { (furRewind s pg) with crossings := s.crossings ++ [(pg, 1)] })
  else
  let (ok, s) := announce s p
    { port := p, frame := none, kind := kind, bytes := bytes, poison := false, ownAddr := false, link := none, tag := 0,
      srcDev := s.fuses.devId, ingressNs := timeNs s, cameAt := s.now, seqNo := none }
  (ok, if ok then furPush s pg item else s)

/-- The coulter takes the item of a CAN or LIN head out of the cell's receive furrow: whether it is poisoned (R104). -/
def takeBusItem (s : State) (p : Nat) : Bool × State :=
  if p < 88 then
    let f := getFur s (portPage p)
    match f.items with
    | it :: rest => (it.any furPoison || f.failed, putFur s (portPage p) { f with items := rest, taken := 0, failed := false })
    | [] => (false, s)
  else (false, s)

/-- The cells that ask for a grant: those of a region whose head furrow holds a head that can pass (R17). -/
def cellsAsking (s : State) (r : Nat) : List Nat :=
  s.heads.filterMap (fun e => match e.2 with
    | h :: _ => if regionOfPort h.port = r ∧ !(headWaits s h.port h) then some e.1 else none
    | [] => none)

/-- A round-robin may grant a requester next: any of them while its starting point is open, else the first after the one served
last (R17, R18). -/
def rotates (last : Option Nat) (asking : List Nat) (x : Nat) : Bool :=
  match last with
  | some l => nextAfter asking l == some x
  | none => asking.contains x

/-- It is the turn of a cell at the arbiter of its block, and of the block at the arbiter of its region (R17, R18). -/
def mayPass (s : State) (r cell : Nat) : Bool :=
  let asking := cellsAsking s r
  let b := cell / 0x10000
  rotates (mapGet? s.rrBlock r) ((asking.map (fun c => c / 0x10000)).dedup) b &&
    rotates (mapGet? s.rrCell b) (asking.filter (fun c => c / 0x10000 == b)) cell

/-- The head at the front of a port's head furrow passes its region's pipeline (R28, R174 to R207) when its cell is next at the
arbiters: each item it gives leaves a verdict in the order of position; a frame without any is freed, and the rest of one still
in arrival is not written (R126). -/
def pipelineItem (s : State) (p : Nat) (bad : List (Nat × Nat)) : State :=
  let r := regionOfPort p
  let cell := inputCell p
  match mapGet [] s.heads cell with
  | [] => s
  | h :: rest =>
    if h.port ≠ p ∨ !pipelineRuns s r ∨ !mayPass s r cell then s
    else
      let s := handled { s with
        heads := mapPut [] s.heads cell rest
        rrCell := mapSet s.rrCell (cell / 0x10000) cell
        rrBlock := mapSet s.rrBlock r (cell / 0x10000) } (coulterPage r)
      let (bad0, s) := takeBusItem s p
      let h := { h with poison := h.poison || bad0 }
      let (items, noKind, malformed) := cutItems s p h
      let s := if noKind > 0 then addSat s (coulterPage r + 0x68) noKind else s
      let n := splitMax s r
      let s := if items.length > n then addSat s (coulterPage r + 0x6C) (items.length - n) else s
      let s := forEach (items.take n) s (fun s it =>
        let (v, q, s) := judgeItem s p h it bad
        let s := match q with
          | some q => issueLearn s h.frame q
          | none => s
        match v with
        | some v => { s with verdicts := mapPut [] s.verdicts r (mapGet [] s.verdicts r ++ [v]) }
        | none => s)
      let s := if malformed then raisePlain s (coulterPage r) 0x06 p else s
      match h.frame with
      | some id => freeIfDone (putFrame s id { getFrame s id with judged := true }) id
      | none => s

end Sys2Proof.Machine
end

