-- ==== Sys2Proof/Machine/Outputs.lean ====
section
/-! DEFINITION. Outputs going down and coming up, holds and flushes, STUCK, and admission: how a verdict's copies reach
their queues (04_switch_core.md, R126 to R128, R136, R137, R161 to R166; R429, R433, R623 for what keeps an output down). -/
namespace Sys2Proof.Machine

/-! ## Down and up (R161 to R166) -/

/-- EGR_PORT.HOLD_MS in force, in ticks. -/
def holdTime (s : State) (o : Nat) : Nat := msTicks (min 1000 (fld s (egrPort o) 23 14))

/-- An output is down (R161, R429, R623). -/
def downCond (s : State) (o : Nat) : Bool :=
  if o = 126 then false
  else
    (if o < 64 then decide (4 ≤ eff s (canPage o) (canPage o + 0x44) 2 0) || !(running s (canPage o)) || isFallow s (canPage o)
      else if o < 88 then !(running s (linPage (o - 64))) || isFallow s (linPage (o - 64))
      else if o < 124 then !(bit s (macPage o + 0x4C) 23) || !(running s (macPage o)) || isFallow s (macPage o)
      else if o < 126 then !(bit s (linkPage (o - 124) + 0x44) 23)
      else !(effBit s (hrxPage (o - 128)) (hrxPage (o - 128) + ringBase (o - 128)) 23)) ||
    bit s (egrPort o) 11 || chanAsleep s o || (pairState s == 4 && decide (o < 124))

/-- Discards every queued copy of an output, counted in EGRESS_DOWN (R162). -/
def flushOutput (s : State) (o : Nat) : State := discardCopies s o (egrDown o) (fun _ => true)

/-- An output leaves UP (R162, R164): held, or flushed at once with HOLD_MS 0; learned entries flushed where DOWN_FLUSH asks
(R237); plots with only held copies move to the held account (R142). Copies that an output holds already are held for whatever
keeps it down now (R433). -/
def outputDown (s : State) (o : Nat) : State :=
  if outState s o ≠ 0 then (if outState s o = 1 && !(outQueue s o).isEmpty then hintWake s o else s)
  else
    let s := downFlush { s with downSince := mapSet s.downSince o s.now } o
    if holdTime s o = 0 then flushOutput (setFld s (egrPort o) 13 12 2) o
    else
      let s := setFld s (egrPort o) 13 12 1
      let q := outQueue s o
      let s := forEach q s (fun s c => heldMove s c.frame)
      if q.isEmpty then s else hintWake s o

/-- An output comes back up (R163): held copies may leave, after the age check of the heads. -/
def outputUp (s : State) (o : Nat) : State :=
  if outState s o = 0 then s
  else
    let s := setFld { s with downSince := mapDel s.downSince o } (egrPort o) 13 12 0
    ageHeads ((outQueue s o).length + 1) s o

/-- An output's state follows its condition (R161 to R163). -/
def refreshOutput (s : State) (o : Nat) : State :=
  if !(portPresent s.fuses o) then s
  else if downCond s o then outputDown s o
  else outputUp s o

/-- Every output follows its condition. -/
def refreshAll (s : State) : State := forEach inputs s refreshOutput

/-- The hold of an output ends when HOLD_MS has passed since it went down (R162). -/
def holdOver (s : State) (o : Nat) : State :=
  if outState s o = 1 ∧ s.now - mapGet 0 s.downSince o ≥ holdTime s o then
    flushOutput (setFld s (egrPort o) 13 12 2) o
  else s

/-! ## STUCK (R161) -/

/-- Every class with a queued copy is paused by the partner; of an empty queue, some class. -/
def allPaused (s : State) (o : Nat) : Bool :=
  if (outQueue s o).isEmpty then (List.range 8).any (pausedFor s o)
  else (outQueue s o).all (fun c => pausedFor s o c.cls)

/-- An output that has been paused since a moment has been so for longer than STUCK_MS; 0 is never (R161). -/
def stuckFor (s : State) (since : Nat) : Bool :=
  let ms := min 1000 (fld s (egrPage + 0x40) 9 0)
  ms != 0 && decide (s.now - since > msTicks ms)

/-- The time since which the output is paused for every queued copy, kept as queues and pauses change; a pause that ends, or an
STUCK_MS that it has not lasted, clears STUCK. -/
def noteStuck (s : State) (o : Nat) : State :=
  if allPaused s o then
    match mapGet? s.stuckSince o with
    | some t => if bit s (egrPort o) 11 && !(stuckFor s t) then refreshOutput (clrBit s (egrPort o) 11) o else s
    | none => { s with stuckSince := mapSet s.stuckSince o s.now }
  else
    let s := { s with stuckSince := mapDel s.stuckSince o }
    if bit s (egrPort o) 11 then refreshOutput (clrBit s (egrPort o) 11) o else s

/-- STUCK_MS has passed without a break (R161). -/
def stuckOver (s : State) (o : Nat) : State :=
  match mapGet? s.stuckSince o with
  | some t =>
    if stuckFor s t ∧ !(outQueue s o).isEmpty ∧ o ≠ 126 then refreshOutput (setBit s (egrPort o) 11) o else s
  | none => s

/-! ## Admission (R126, R136, R137, R620) -/

/-- The link with fewer plots queued (R620). -/
def lighterLink (s : State) : Nat := if queuedPlots s 125 < queuedPlots s 124 then 125 else 124

/-- The next number of a multipath stream and its start mark (R620). -/
def nextNumber (s : State) (d stream : Nat) : Nat × Bool × State :=
  match mapGet? s.linkSeq (d * 1024 + stream) with
  | some n => (n, false, { s with linkSeq := mapSet s.linkSeq (d * 1024 + stream) ((n + 1) % 65536) })
  | none => (0, true, { s with linkSeq := mapSet s.linkSeq (d * 1024 + stream) 1 })

/-- Numbers the copies of an item that take both links. -/
def numberCopies (s : State) (cs : List (Nat × Copy)) : List (Nat × Copy) × State :=
  cs.foldl (fun (acc : List (Nat × Copy) × State) c =>
    if c.2.form.numbered && (c.1 == 124 || c.1 == 125) then
      let (n, st, s) := nextNumber acc.2 c.2.form.dev c.2.form.stream
      (acc.1 ++ [(lighterLink s, { c.2 with form := { c.2.form with num := n, start := st } })], s)
    else (acc.1 ++ [c], acc.2)) ([], s)

/-- DIR of a security profile (R468): 0 for profile 0, for NONE and where no entry is valid. -/
def profileDir (s : State) (k : Nat) : Nat :=
  if k = 0 then 0
  else match tLive s secTable 0 k with
    | some e => twf e 0 23 22
    | none => 0

/-- A SecOC item for the lanes. -/
def secItem (frame : Nat) (cs : List (Nat × Copy)) (form : CopyForm) : LaneItem :=
  { kind := 0, frame := some frame, copies := cs, profile := form.sec, port := 0, bytes := [], ingressNs := 0,
    stream := form.stream, num := 0, start := false, assoc := none, pn := 0, secy := emptyEntry, sa := emptyEntry, blocks := 0,
    poison := false }

/-- A copy's profile secures it: DIR says so, or a quarantine refuses what uses it (R462, R468, R500). -/
def isSecured (s : State) (sec : Nat) : Bool := profileDir s sec != 0 || (sec != 0 && isQuar s 5 0 sec)

/-- The copies of an admitted item reach their next stage: a cipher lane for a secured item (R462), the resequencer for a
numbered item from a link (R620), else their queues. -/
def placeCopies (s : State) (frame : Nat) (cs : List (Nat × Copy)) (seqNo : Option (Nat × Nat × Bool)) : State :=
  match cs.find? (fun c => isSecured s c.2.form.sec) with
  | some c => { s with laneQ := s.laneQ ++ [secItem frame cs c.2.form] }
  | none =>
    match seqNo with
    | some (stream, num, start) => reseqArrive s stream num start { copies := cs, plain := none, void := false }
    | none => forEach cs s (fun s c => offerCopy s c.1 c.2)

/-- After admission: outputs that hold copies may wake their cluster, plots with only held copies move, a frame without
copies is freed. -/
def afterPlacing (s : State) (frame : Nat) (os : List Nat) : State :=
  let s := forEach os s noteStuck
  heldMove (freeIfDone s frame) frame

/-- The frame of an item that had none: its plots charged at the verdict, or in headroom (R126, R137). -/
def placeVerdict (s : State) (v : Verdict) (hr : Bool) : Option (Nat × State) :=
  placeItem s v.input
    { noFrame with
      kind := v.kind
      cls := v.cls
      bytes := v.bytes
      committed := true
      judged := true
      ended := true
      commitAt := v.cameAt
      tag := v.tag
      srcDev := v.srcDev
      ingressNs := v.ingressNs } hr

/-- The copies of a verdict that are admitted: those toward ports below 124 are not in QUIET and GUARD (R623). -/
def takenCopies (s : State) (v : Verdict) : List (Nat × CopyForm) :=
  if pairState s == 1 || pairState s == 2 then v.copies.filter (fun c => !(decide (c.1 < 124))) else v.copies

/-- An item is admitted (R126): its verdict's copies placed, or its plots freed; one that needs more queue entries than are
free puts its input under back-pressure and is rewound (R137). -/
def admitItem (s : State) (v : Verdict) : State :=
  if v.poison || v.frame.any (fun id => (getFrame s id).poison) then
    let s := incSat s (admPage + 0x58)
    match v.frame with
    | some id => freeIfDone s id
    | none => s
  else
    let cs := takenCopies s v
    let lost := v.copies.length - cs.length
    let s := if lost > 0 then addStat s (pairPage + 0x60) lost else s
    if cs.isEmpty then
      match v.frame with
      | some id => freeIfDone s id
      | none => s
    else if cs.length > entriesFree s then
      exhaustItem (assertXoff (setBit s (admPage + 0x44) 2) v.input) v.input v.frame
    else
      let placed : Option (Nat × State) := match v.frame with
        | some id => some (id, evalXoff (putFrame s id { getFrame s id with cls := v.cls }) v.input)
        | none => placeVerdict s v false
      match placed with
      | none => exhaust s v.input none
      | some (id, s) =>
        let copies := cs.map (fun c =>
          (c.1, ({ frame := id, input := v.input, cls := v.cls, visibleAt := s.now, cut := false, form := c.2 } : Copy)))
        let (copies, s) := numberCopies s copies
        let s := placeCopies s id copies v.seqNo
        afterPlacing s id (copies.map (·.1))

/-- An item needs more queue entries than are free, and its input takes back-pressure and has room in its headroom for it
(R137). -/
def entriesShort (s : State) (v : Verdict) : Bool :=
  decide ((takenCopies s v).length > entriesFree s) && !v.poison && takesBp s v.input &&
    decide (areaUse s v.input .hr + (if v.frame.isSome then 0 else plotsFor v.bytes.length - 1) < headroomOf s v.input)

/-- Such an item is held in headroom: back-pressure is asserted, the verdict stays, and an item without plots takes them there. -/
def holdShort (s : State) (r : Nat) (v : Verdict) (rest : List Verdict) : State :=
  let s := assertXoff (setBit s (admPage + 0x44) 2) v.input
  if v.frame.isSome then s
  else match placeVerdict s v true with
    | some (id, s) => { s with verdicts := mapSet s.verdicts r ({ v with frame := some id } :: rest) }
    | none => exhaustItem { s with verdicts := mapPut [] s.verdicts r rest } v.input none

/-- The verdict at the head of a region's queue is admitted (R126). -/
def admission (s : State) (r : Nat) : State :=
  match mapGet [] s.verdicts r with
  | [] => s
  | v :: rest =>
    if !(running s admPage) then s
    else if entriesShort s v then holdShort s r v rest
    else handled (admitItem { s with verdicts := mapPut [] s.verdicts r rest } v) admPage

end Sys2Proof.Machine
end

