-- ==== Sys2Proof/Machine/Router.lean ====
section
/-! DEFINITION. The signal router: the signal store, transforms, unpacking, triggers and sends, packing, containers, the drill
and the signal-store port (07_signal_router.md, R257 to R298; 08_pdu_formats.md, R319 to R321, R326). -/
namespace Sys2Proof.Machine

/-! ## The signal store (R257 to R262) -/

/-- A slot of the signal store. -/
def getSlot (s : State) (i : Nat) : Slot := mapGet ⟨0, false, 0⟩ s.slots i
def putSlot (s : State) (i : Nat) (v : Slot) : State := { s with slots := mapPut ⟨0, false, 0⟩ s.slots i v }

/-- A write of a slot (R259): GEN plus 1, INV as the write says; a slot held invalid keeps everything (R262). -/
def writeSlot (s : State) (i v : Nat) (inv : Bool) : State :=
  if s.deadSlots.contains i then s
  else putSlot s i { value := v % 2 ^ 24, inv := inv, gen := ((getSlot s i).gen + 1) % 256 }

/-- A slot read with bad parity (R262): counted, tested, zeroed; its row spared or the slot held invalid when it is
permanent. -/
def slotParity (s : State) (i : Nat) (pass : Bool) : State :=
  if s.deadSlots.contains i then s
  else
    let row := i / 64
    let s := setFld (incSat s (ssPage + 0x64)) (ssPage + 0x68) 11 0 row
    let s := putSlot s i { getSlot s i with value := 0, inv := true }
    let (perm, s) := classFault s ssPage row 0x15 (!pass)
    let s := putBit s (ssPage + 0x68) 12 perm
    let s := raiseRec s ssPage 0x15 0 (if perm then 2 else 1) ssPage row
    if perm then
      let sp := fld s (ssPage + 0x68) 20 16
      if sp > 0 then retire (setFld s (ssPage + 0x68) 20 16 (sp - 1)) 3 ssPage 0x15 row (16 - sp)
      else noSpare { s with deadSlots := i :: s.deadSlots } ssPage row 0
    else s

/-- The slots that one step reads with bad parity, each with the outcome of its test (R262). -/
def slotFaults (s : State) (slots : List (Nat × Bool)) : State := forEach slots s (fun s x => slotParity s x.1 x.2)
/-- Some slot of the list is reported as a fault at all (R262: a slot held invalid reports none). -/
def anyFault (s : State) (slots : List (Nat × Bool)) : Bool := slots.any (fun x => !(s.deadSlots.contains x.1))

/-! ## Signals and their bits (R265 to R269) -/

/-- LEN of a signal: 0 acts as 1, above 64 as 64. -/
def sigLen (e : TEntry) : Nat := clamp 1 64 (twf e 0 14 8)
/-- Slots of a signal (R269). -/
def sigSlots (len : Nat) : Nat := (len + 23) / 24

/-- The bit position of signal bit j (R267). -/
def sigPos (be : Bool) (start len j : Nat) : Nat :=
  if be then
    let k := 7 - start % 8 + (len - 1 - j)
    (start / 8 + k / 8) * 8 + (7 - k % 8)
  else start + j

/-- The positions of a signal's bits, bit 0 first. -/
def sigBits (be : Bool) (start len : Nat) : List Nat := (List.range len).map (sigPos be start len)

/-- A signal's last byte lies beyond byte 63, or its slots run past the store (R268). -/
def sigBroken (be : Bool) (start len slot : Nat) : Bool :=
  (sigBits be start len).any (fun q => decide (512 ≤ q)) || decide (262144 < slot + sigSlots len)

/-- A bit of a PDU by position. -/
def pduBit (bs : List Byte) (q : Nat) : Nat := byteAt bs (q / 8) / 2 ^ (q % 8) % 2

/-- The value of a signal's bits. -/
def gather (bs : List Byte) (ps : List Nat) : Nat := (ps.zipIdx).foldl (fun a (q, j) => a + pduBit bs q * 2 ^ j) 0

/-- A value of `len` bits extended to whole slots, by its sign when SIGNED (R269, R273). -/
def extend (signed : Bool) (len v : Nat) : Nat :=
  if signed && bitsOf v (len - 1) (len - 1) == 1 then v + (2 ^ (24 * sigSlots len) - 2 ^ len) else v

/-- The slots' values of a wide value, slot 0 first. -/
def slotValues (len v : Nat) : List Nat := (List.range (sigSlots len)).map (fun m => v / 2 ^ (24 * m) % 2 ^ 24)

/-! ## Transforms (R271 to R273) -/

/-- The signed value of a 24-bit number. -/
def int24 (v : Nat) : Int := if v % 2 ^ 24 < 2 ^ 23 then (v % 2 ^ 24 : Nat) else ((v % 2 ^ 24 : Nat) : Int) - 2 ^ 24
/-- A 24-bit number read as signed or not. -/
def asInt (signed : Bool) (v : Nat) : Int := if signed then int24 v else ((v % 2 ^ 24 : Nat) : Int)
/-- The 24-bit pattern of an integer. -/
def of24 (i : Int) : Nat := (i % 2 ^ 24).toNat

/-- scale(x) of R272. -/
def scaleOf (signed : Bool) (frac a b x : Nat) : Int :=
  let p := int24 a * asInt signed x
  let p := if frac > 0 then p + 2 ^ (frac - 1) else p
  let y := p.fdiv (2 ^ frac) + int24 b
  if signed then max (-8388608) (min 8388607 y) else max 0 (min 16777215 y)

/-- min(MAX, max(MIN, x)) of R271. -/
def clampOf (signed : Bool) (lo hi : Nat) (x : Int) : Int := min (asInt signed hi) (max (asInt signed lo) x)

/-- What a transform gives: a value, a layout error (R271), or a quarantined entry by table and index (R293). -/
inductive XRes where
  | val (v : Nat)
  | broken
  | quar (code i : Nat)
  deriving DecidableEq, Repr

/-- Searches map pairs in order (R271): the OUT of the first whose IN equals x. DESIGN CHOICE: a pair of the run that is not valid
is passed over (notes/assumptions/43.md). -/
def mapSearch (s : State) (bad : List (Nat × Nat)) (x dflt : Nat) : List Nat → XRes
  | [] => .val dflt
  | i :: rest =>
    if actsQuar s 4 6 i bad then .quar 6 i
    else match tLive s mbTable 6 i with
      | some e => if tw e 0 = x then .val (tw e 1) else mapSearch s bad x dflt rest
      | none => mapSearch s bad x dflt rest

/-- Applies transform entry t (R271 to R273). -/
def transform (s : State) (bad : List (Nat × Nat)) (t x : Nat) : XRes :=
  if t = 0 then .val x
  else if actsQuar s 4 5 t bad then .quar 5 t
  else match tLive s mbTable 5 t with
    | none => .broken
    | some e =>
      let signed := twb e 0 20
      let frac := min 23 (twf e 0 19 15)
      match twf e 0 23 21 with
      | 1 => .val (of24 (scaleOf signed frac (tw e 1) (tw e 2) x))
      | 2 => .val (of24 (clampOf signed (tw e 3) (tw e 4) (asInt signed x)))
      | 3 => .val (of24 (clampOf signed (tw e 3) (tw e 4) (scaleOf signed frac (tw e 1) (tw e 2) x)))
      | 4 =>
        let base := twf e 1 23 11; let n := twf e 1 10 7
        if 8192 < base + n then .broken
        else mapSearch s bad x (tw e 2) ((List.range n).map (base + ·))
      | _ => .val x

/-! ## Counting -/

/-- MB_LAYOUT_ERR counts a layout error and MB_STAT shows it (R294). -/
def layoutErr (s : State) : State := setBit (incSat s (mbPage + 0x5C)) (mbPage + 0x4C) 3
/-- MB_QUAR_SKIP counts a piece of work skipped, and a parity fault is flagged to the harrow (R293, R247). -/
def quarSkip (s : State) (code i : Nat) (bad : List (Nat × Nat)) : State := noteBad (incSat s (mbPage + 0x7C)) 4 code [i] bad

/-! ## TX layouts (R274 to R279, R291) -/

def noTx : TxState :=
  { last := 0, pending := false, deferred := false, deferTo := 0, trig := false, repLeft := 0, repNext := 0, sent := false,
    count := 0, periodAt := 0 }
def getTx (s : State) (l : Nat) : TxState := mapGet noTx s.txStates l
def putTx (s : State) (l : Nat) (t : TxState) : State := { s with txStates := mapPut noTx s.txStates l t }

def txMode (e : TEntry) : Nat := twf e 0 23 22
def txLen (e : TEntry) : Nat := clamp 1 64 (twf e 0 21 15)
def txFormat (e : TEntry) : Nat := twf e 1 11 5
def txHdr (e : TEntry) : Nat := tw e 2 * 2 ^ 24 + tw e 3
def txFill (e : TEntry) : Nat := twf e 4 7 0
def txPeriod (e : TEntry) : Nat := twf e 4 23 8
def txMdt (e : TEntry) : Nat := twf e 6 23 8
def txIsMember (e : TEntry) : Bool := encapOf (txFormat e) == 7
def txIsContainer (e : TEntry) : Bool := encapOf (txFormat e) == 6

/-- DEST is a LIN port of this device: the layout is packed only when a slot pulls it (R282). -/
def txIsLin (s : State) (e : TEntry) : Bool :=
  !(twb e 0 5) && twf e 0 11 6 == s.fuses.devId && !(txIsMember e) && decide (64 ≤ twf e 1 23 12) && decide (twf e 1 23 12 < 88)

/-- The mouldboard may pack nothing: back-pressure stands on input 126 (R278). -/
def postponing (s : State) : Bool := bit s (admUsed 126) 23

/-- A layout becomes pending (R275, R278): it enters the send queue, counted in MB_POSTPONED during XOFF. -/
def makePending (s : State) (l : Nat) (trig : Bool) : State :=
  let s := putTx s l { getTx s l with pending := true, deferred := false, deferTo := 0, trig := trig }
  let s := { s with sendQ := s.sendQ ++ [l] }
  if postponing s then incSat s (mbPage + 0x78) else s

/-- Case 3 of R275: pending, or for a member the mark UPDATED and the send request that it issues to its container
(R321). -/
def sendNow (s : State) (l : Nat) (e : TEntry) (trig : Bool) : State :=
  if txIsMember e then
    let s := putTx s l { getTx s l with pending := true, deferred := false, deferTo := 0, trig := trig }
    let c := txHdr e / 2 ^ 24 % 2 ^ 14
    match tLive s mbTable 3 c with
    | some ce =>
      if txMode ce = 1 ∨ txIsLin s ce then s
      else
        let t := getTx s c
        if t.pending || t.deferred then incSat s (mbPage + 0x70)
        else if txMdt ce > 0 ∧ t.sent ∧ s.tick < t.last + txMdt ce + 1 then
          incSat (putTx s c { t with deferred := true, deferTo := t.last + txMdt ce + 1, trig := trig }) (mbPage + 0x74)
        else makePending s c trig
    | none => s
  else makePending s l trig

/-- A send request to a layout (R275, R321). DESIGN CHOICE: one that names a layout which is not valid does nothing and is counted
nowhere (notes/assumptions/43.md). -/
def sendRequest (s : State) (l : Nat) (trig periodic : Bool) : State :=
  match tLive s mbTable 3 l with
  | none => s
  | some e =>
    if txIsLin s e then s
    else
      let t := getTx s l
      if t.pending || t.deferred then incSat s (if periodic then drillPage + 0x48 else mbPage + 0x70)
      else if txMdt e > 0 ∧ t.sent ∧ s.tick < t.last + txMdt e + 1 then
        incSat (putTx s l { t with deferred := true, deferTo := t.last + txMdt e + 1, trig := trig }) (mbPage + 0x74)
      else sendNow s l e trig

/-- A trigger of a layout by a write (R274). -/
def trigger (s : State) (l : Nat) (changed : Bool) : State :=
  match tLive s mbTable 3 l with
  | none => s
  | some e =>
    match txMode e with
    | 1 => s
    | 3 => if changed then sendRequest s l true false else s
    | _ => sendRequest s l true false

/-- MB_CMD.SEND (R274): a trigger that always requests a send. -/
def mbSend (s : State) : State := sendRequest s (fld s (mbPage + 0x44) 13 0) true false

/-! ## Unpacking (R263 to R270) -/

/-- Offers something to the peer of a pair: the ACTIVE device sends it in a MIRROR frame on the pair link (R631). The
content's layout is the spec's open point: its items stand as numbers. -/
def mirrorOut (s : State) (info : List Nat) : State :=
  if pairState s = 3 then
    let k := fld s (pairPage + 0x40) 21 21
    offerService s k { linkFrame s 5 (peerId s k) with info := info }
  else s

/-- A pair member's unpack writes of mirrored slots are ignored while it is not ACTIVE (R631). -/
def mirrorMuted (s : State) (mirror : Bool) : Bool :=
  mirror && s.fuses.xTier && bit s (pairPage + 0x40) 23 && pairState s != 3

/-- The triggers of an entry fire in ascending order (R268, R274, R293). -/
def fireTriggers (s : State) (e : TEntry) (changed : Bool) (bad : List (Nat × Nat)) : State :=
  forEach (List.range (twf e 1 5 3)) s (fun s k =>
    let i := twf e 4 23 8 + k
    if 65536 ≤ i then layoutErr s
    else if actsQuar s 4 2 i bad then quarSkip s 2 i bad
    else match tLive s mbTable 2 i with
      | some t => trigger s (twf t 0 13 0) changed
      | none => s)

/-- Writes a signal's slots in one step and fires its triggers (R259, R269, R270, R274), mirrored where asked (R631). -/
def writeSignal (s : State) (e : TEntry) (vals : List Nat) (inv unpack : Bool) (bad : List (Nat × Nat)) : State :=
  let slot := twf e 1 23 6
  if unpack && mirrorMuted s (twb e 0 3) then s
  else
    let changed := vals.zipIdx.any (fun (v, m) =>
      !(s.deadSlots.contains (slot + m)) && (getSlot s (slot + m)).value != v)
    let s := forEach vals.zipIdx s (fun s (v, m) => writeSlot s (slot + m) v inv)
    let s := if twb e 0 3 then
        forEach vals.zipIdx s (fun s (v, m) => mirrorOut s [0, slot + m, v, b2n inv])
      else s
    fireTriggers s e changed bad

/-- The PDU bytes that the mouldboard reads and the PDU's length (R263). -/
structure Pdu where
  bytes : List Byte
  len : Nat
  deriving DecidableEq, Repr

/-- One unpack entry on a PDU (R266 to R273). -/
def unpackEntry (s : State) (p : Pdu) (i : Nat) (bad : List (Nat × Nat)) : State :=
  if 131072 ≤ i then layoutErr s
  else if actsQuar s 4 1 i bad then quarSkip s 1 i bad
  else match tLive s mbTable 1 i with
    | none => s
    | some e =>
      let len := sigLen e; let be := twb e 0 7; let start := twf e 0 23 15; let t := twf e 2 14 1
      if sigBroken be start len (twf e 1 23 6) then layoutErr s
      else
        let raw := extend (twb e 0 6) len (gather p.bytes (sigBits be start len))
        let x := if len > 24 then .val 0 else transform s bad t (raw % 2 ^ 24)
        match x with
        | .broken => layoutErr s
        | _ =>
          let short := (sigBits be start len).any (fun q => decide (8 * p.len ≤ q)) ||
            (twb e 0 2 && decide (8 * p.len ≤ twf e 2 23 15))
          if short then incSat s (mbPage + 0x54)
          else if twb e 0 2 && pduBit p.bytes (twf e 2 23 15) == 0 then incSat s (mbPage + 0x58)
          else match x with
            | .quar c j => quarSkip s c j bad
            | .val v => writeSignal s e (if len > 24 then slotValues len raw else [v]) false true bad
            | .broken => s

def noRx : RxState :=
  { lastTick := 0, timedOut := false, e2e := 0, lastCnt := 0, count := 0, deadline := 0, fresh := true }
def getRx (s : State) (l : Nat) : RxState := mapGet noRx s.rxStates l
def putRx (s : State) (l : Nat) (r : RxState) : State := { s with rxStates := mapPut noRx s.rxStates l r }

/-- DM_TIMEOUT of an RX layout. -/
def rxTimeout (e : TEntry) : Nat := twf e 1 23 8
/-- The deadline of an RX layout set from the current tick (R286, R297). DESIGN CHOICE: while MB_CTRL.DM_EN is 0 too, by a
reception, a RESTART or a turn, so that monitoring which is enabled later counts from then (notes/assumptions/147.md). -/
def rxArm (s : State) (l : Nat) : State :=
  match tLive s mbTable 0 l with
  | some e => putRx s l { getRx s l with deadline := s.tick + rxTimeout e + 1 }
  | none => s

/-- Drops a layout from the send queue with its deferral and repetitions. -/
def txForget (s : State) (l : Nat) : State :=
  let s := { s with sendQ := s.sendQ.filter (fun k => k != l) }
  putTx s l { getTx s l with pending := false, deferred := false, deferTo := 0, trig := false, repLeft := 0, repNext := 0 }

/-- A parity fault in an RX or TX state entry clears every field of it (R291). -/
def rxStateParity (s : State) (l : Nat) : State := rxArm (putRx s l noRx) l
def txStateParity (s : State) (l : Nat) : State := putTx (txForget s l) l noTx
/-- The same by the table's code, 7 or 8, counted in SRH_REPAIRS (R291). -/
def stateParity (s : State) (code l : Nat) : State :=
  incSat (if code = 7 then rxStateParity s l else txStateParity s l) (mbPage + 0x190)
/-- The state entries among those that one step reads with bad parity (R291). -/
def stateFaults (s : State) (bad : List (Nat × Nat)) : State :=
  forEach (bad.filter (fun x => x.1 == 7 || x.1 == 8)) s (fun s x => stateParity s x.1 x.2)

/-- The CRC parameters and field width of an E2E code (R264, R287, R509). -/
def e2eCrc (code : Nat) : Option (CrcParams × Nat) :=
  match code with
  | 1 => some (⟨8, 0x1D, 0xFF, false, 0xFF⟩, 1)
  | 2 => some (⟨8, 0x2F, 0xFF, false, 0xFF⟩, 1)
  | 3 => some (⟨16, 0x1021, 0xFFFF, false, 0⟩, 2)
  | 4 => some (crc32p4, 4)
  | _ => none

/-- The E2E status of a PDU and the counter received (R287). -/
def e2eStatus (e : TEntry) (st : RxState) (p : Pdu) : Option (Nat × Nat) :=
  match e2eCrc (twf e 1 7 4) with
  | none => none
  | some (crc, w) =>
    let pos := twf e 2 7 2; let cb := twf e 3 23 15
    let n := if twb e 3 14 then 8 else 4
    if 64 < p.len ∨ p.len < pos + w ∨ 8 * p.len < cb + n then some (7, 0)
    else
      let data := (p.bytes.take p.len).map (·.toNat)
      let id := twf e 2 23 8
      let body := [id % 256, id / 256] ++ data.take pos ++ data.drop (pos + w)
      let cnt := gather p.bytes (sigBits false cb n)
      if crcOf crc body ≠ beAt p.bytes pos w then some (5, cnt)
      else if st.fresh then some (6, cnt)
      else
        let d := (cnt + 2 ^ n - st.lastCnt % 2 ^ n) % 2 ^ n
        some (if d = 1 then 1 else if d = 0 then 3 else if d ≤ twf e 3 13 10 + 1 then 2 else 4, cnt)

/-- Records the E2E status of a PDU (R287). -/
def e2eRecord (s : State) (l : Nat) (e : TEntry) (p : Pdu) : State :=
  match e2eStatus e (getRx s l) p with
  | none => s
  | some (code, cnt) =>
    let st := getRx s l
    let st := if code = 5 ∨ code = 7 then { st with e2e := code } else { st with e2e := code, lastCnt := cnt, fresh := false }
    let s := putRx s l st
    let s := if code = 5 then incSat s (mbPage + 0x64) else if code = 3 then incSat s (mbPage + 0x68)
      else if code = 4 then incSat s (mbPage + 0x6C) else s
    if code = 3 ∨ code = 4 ∨ code = 5 then setBit s (mbPage + 0x4C) 1 else s

/-- The steps of R266 up to the entries: the layout valid and not quarantined, the reception recorded, the E2E status
recorded. None when nothing is unpacked. -/
def takeLayout (s : State) (l : Nat) (p : Pdu) (bad : List (Nat × Nat)) : Option TEntry × State :=
  match (if l < 32768 then tLive s mbTable 0 l else none) with
  | none => (none, layoutErr s)
  | some e =>
    if actsQuar s 4 0 l bad then (none, quarSkip s 0 l bad)
    else
      let st := getRx s l
      let s := putRx s l
        { st with
          lastTick := s.tick % 2 ^ 24
          timedOut := false
          count := (st.count + 1) % 2 ^ 24
          deadline := s.tick + rxTimeout e + 1 }
      (some e, if bit s (mbPage + 0x40) 1 then e2eRecord s l e p else s)

/-- UNPACK_BASE and UNPACK_CNT of an RX layout as a list of indices. -/
def rxRun (e : TEntry) : List Nat := (List.range (twf e 0 6 0)).map (twf e 0 23 7 + ·)

/-- Unpacks a PDU with an RX layout (R266). -/
def unpackPdu (s : State) (l : Nat) (p : Pdu) (bad : List (Nat × Nat)) : State :=
  match takeLayout s l p bad with
  | (some e, s) => forEach (rxRun e) s (fun s i => unpackEntry s p i bad)
  | (none, s) => s

/-- The RX layout that a directory's pairs give a contained ID (R319): a pair met under quarantine, the layout found, or none. -/
def directoryFind (s : State) (bad : List (Nat × Nat)) (id : Nat) : List Nat → Option (Nat ⊕ Nat)
  | [] => none
  | i :: rest =>
    if actsQuar s 4 6 i bad then some (.inl i)
    else match tLive s mbTable 6 i with
      | some e => if tw e 0 = id then some (.inr (tw e 1)) else directoryFind s bad id rest
      | none => directoryFind s bad id rest

/-- Splits a container from a position (R319). -/
def splitFrom : Nat → State → List Nat → Pdu → Nat → List (Nat × Nat) → State
  | 0, s, _, _, _, _ => s
  | n + 1, s, dir, p, pos, bad =>
    let stop := min p.len 64
    if stop < pos + 4 then s
    else
      let id := beAt p.bytes pos 3; let len := byteAt p.bytes (pos + 3)
      if id = 0 then s
      else if stop < pos + 4 + len then raisePlain s mbPage 0x06 126
      else
        let s := match directoryFind s bad id dir with
          | some (.inr m) => unpackPdu s m { bytes := sliceBytes p.bytes (pos + 4) len, len := len } bad
          | some (.inl i) => quarSkip s 6 i bad
          | none => s
        splitFrom n s dir p (pos + 4 + len) bad

/-- Splits a container with its directory layout (R319). -/
def splitContainer (s : State) (l : Nat) (p : Pdu) (bad : List (Nat × Nat)) : State :=
  match takeLayout s l p bad with
  | (some e, s) =>
    if 8192 < twf e 0 23 7 + twf e 0 6 0 then layoutErr s
    else splitFrom 17 s (rxRun e) p 0 bad
  | (none, s) => s

/-- The item in furrow format that a copy becomes at the mouldboard input furrow (R263): layout and split flag, the PDU's
length, and its first 64 bytes. -/
def mbItem (s : State) (c : Copy) : List (BitVec 28) :=
  let f := getFrame s c.frame
  furItem f.poison ([c.form.layout * 2 + b2n c.form.split, c.form.len] ++ packWords ((pduOf c.form f.bytes).take 64))

/-- The PDU of an item of the furrow. -/
def mbPdu (it : List (BitVec 28)) : Nat × Bool × Pdu :=
  let ws := it.map furData
  let len := ws.getD 1 0
  (ws.getD 0 0 / 2, ws.getD 0 0 % 2 == 1,
    { bytes := ((ws.drop 2).flatMap wordBytes).take (min len 64), len := len })

/-- A LIN channel's slot waits for its pull, which the mouldboard serves ahead of items and layouts (R277, R298, R372). -/
def pullWaits (s : State) : Bool := s.lin.any (fun c => c.2.frame.any (fun f => f.pull.isSome))

/-- The next layout to pack: the first of the send queue but for those that a WRITE has turned into a LIN port's or a member's,
which keep their state and are never sent from it (R282, R292, R299). -/
def nextLayout (s : State) : Option Nat :=
  s.sendQ.find? (fun l => !((tLive s mbTable 3 l).any (fun e => txIsLin s e || txIsMember e)))

/-- Both the input furrow and the send queue hold work that the mouldboard may take: it alternates (R277, R278). -/
def bothWait (s : State) : Bool :=
  !(getFur s mbPage).items.isEmpty && (nextLayout s).isSome && !(postponing s)

/-- The mouldboard takes the item at the head of its input furrow and unpacks it (R106, R266, R319), given the entries and
slots that it reads with bad parity; an item whose layout unpacks nothing is not counted in MB_UNPACKED (R294). It waits while a
pull does, and while a layout is next (R277). -/
def mbUnpack (s : State) (bad : List (Nat × Nat)) (slots : List (Nat × Bool)) : State :=
  let f := getFur s mbPage
  match f.items with
  | [] => s
  | it :: rest =>
    if !(running s mbPage) || pullWaits s || (bothWait s && s.mbLast == 1) then s
    else
      let s := furSettle (handled (putFur { s with mbLast := 1 } mbPage { f with items := rest, taken := 0, failed := false }) mbPage) mbPage
      let s := stateFaults s bad
      if it.any furPoison || f.failed then setBit (incSat s (mbPage + 0x50)) (mbPage + 0x4C) 0
      else
        let s := slotFaults s slots
        let (l, split, p) := mbPdu it
        let s := if (takeLayout s l p bad).1.isSome then addStat s (mbPage + 0x80) 1 else s
        if split then splitContainer s l p bad else unpackPdu s l p bad

/-! ## Packing (R279 to R282, R320) -/

/-- A pack under way: the buffer as a number, bit q of the PDU its bit q; the GEN values packed; layout errors met;
whether a quarantined entry stops it, and which. -/
structure Packing where
  buf : Nat
  seen : List (Nat × Nat)
  errs : Nat
  quar : Option (Nat × Nat)
  deriving DecidableEq, Repr

/-- The value of a pack entry's slots, after its transform. -/
def packValue (s : State) (e : TEntry) (bad : List (Nat × Nat)) : XRes :=
  let len := sigLen e; let slot := twf e 1 23 6
  let at' := fun m => if s.deadSlots.contains (slot + m) then 0 else (getSlot s (slot + m)).value
  if len > 24 then .val ((List.range (sigSlots len)).foldl (fun a m => a + at' m * 2 ^ (24 * m)) 0)
  else transform s bad (twf e 2 14 1) (at' 0)

/-- Writes the bits of a value at positions. -/
def scatter (buf v : Nat) (ps : List Nat) : Nat := ps.zipIdx.foldl (fun b (q, j) => setBits b q q (v / 2 ^ j % 2)) buf

/-- One pack entry (R280). DESIGN CHOICE: what it has seen of its slot starts at GEN 0, and a WRITE of the entry keeps it
(notes/assumptions/147.md). -/
def packEntry (s : State) (txlen : Nat) (bad : List (Nat × Nat)) (k : Packing) (i : Nat) : Packing :=
  if k.quar.isSome then k
  else if 131072 ≤ i then { k with errs := k.errs + 1 }
  else if actsQuar s 4 4 i bad then { k with quar := some (4, i) }
  else match tLive s mbTable 4 i with
    | none => k
    | some e =>
      let len := sigLen e; let be := twb e 0 7; let start := twf e 0 23 15; let ub := twb e 0 6; let up := twf e 2 23 15
      if sigBroken be start len (twf e 1 23 6) || (sigBits be start len).any (fun q => decide (8 * txlen ≤ q)) ||
          (ub && decide (8 * txlen ≤ up)) then { k with errs := k.errs + 1 }
      else match packValue s e bad with
        | .broken => { k with errs := k.errs + 1 }
        | .quar c j => { k with quar := some (c, j) }
        | .val v =>
          let buf := scatter k.buf v (sigBits be start len)
          if ub then
            let gen := (getSlot s (twf e 1 23 6)).gen
            { k with
              buf := setBits buf up up (b2n (gen != mapGet 0 s.seen i))
              seen := k.seen ++ [(i, gen)] }
          else { k with buf := buf }

/-- PACK_BASE and PACK_CNT of a TX layout as a list of indices. -/
def txRun (e : TEntry) : List Nat := (List.range (twf e 7 6 0)).map (twf e 7 23 7 + ·)

/-- A buffer of n bytes that hold FILL. -/
def fillBuf (fill n : Nat) : Nat := (List.range n).foldl (fun a i => a + fill * 256 ^ i) 0
/-- The bytes of a buffer. -/
def bufBytes (buf n : Nat) : List Byte := (List.range n).map (fun i => BitVec.ofNat 8 (buf / 256 ^ i))

/-- Packs a layout's entries (R280): its bytes, none when a quarantined entry stops it, and the layout errors counted. -/
def packLayout (s : State) (e : TEntry) (bad : List (Nat × Nat)) : Option (List Byte) × Nat × State :=
  let len := txLen e
  let k := (txRun e).foldl (packEntry s len bad) { buf := fillBuf (txFill e) len, seen := [], errs := 0, quar := none }
  let s := forEach (List.range k.errs) s (fun s _ => layoutErr s)
  match k.quar with
  | some (c, i) => (none, k.errs, quarSkip s c i bad)
  | none => (some (bufBytes k.buf len), k.errs, { s with seen := k.seen.foldl (fun m x => mapPut 0 m x.1 x.2) s.seen })

/-- A layout's state after it was packed (R276, R291): LAST, SENT, the count, and the repetitions that a triggered send
arms. -/
def txSent (s : State) (l : Nat) (e : TEntry) : State :=
  let t := getTx s l
  let t := if t.trig then { t with repLeft := twf e 5 7 5, repNext := s.tick + max 1 (twf e 6 7 0) } else t
  putTx { s with sendQ := s.sendQ.filter (fun k => k != l) } l
    { t with
      last := s.tick
      pending := false
      deferred := false
      trig := false
      sent := true
      count := (t.count + 1) % 2 ^ 16 }

/-- A member packed into its container (R320, R321): one whose request MDT defers keeps it, and is marked when its tick comes. -/
def memberSent (s : State) (m : Nat) (e : TEntry) : State :=
  let t := getTx s m
  if t.deferred then putTx s m { t with last := s.tick, sent := true, count := (t.count + 1) % 2 ^ 16 } else txSent s m e

/-- Packs one included member into a container's bytes so far (R320). -/
def packMember (s : State) (limit : Nat) (out : List Byte) (m : Nat) (e : TEntry) (bad : List (Nat × Nat)) :
    List Byte × State :=
  if limit < out.length + 4 + txLen e then (out, s)
  else match packLayout s e bad with
    | (some bs, _, s) => (out ++ beBytes 3 (txHdr e) ++ [BitVec.ofNat 8 (txLen e)] ++ bs, memberSent s m e)
    | (none, _, s) => (out, s)

/-- The members of container layout C in ascending index, those that fail the condition of R320 counted. -/
def packMembers (s : State) (c : Nat) (ce : TEntry) (bad : List (Nat × Nat)) : List Byte × State :=
  let all := txHdr ce / 2 ^ 47 % 2 == 1
  (txRun ce).foldl (fun (acc : List Byte × State) m =>
    let s := acc.2
    match (if m < 16384 then tLive s mbTable 3 m else none) with
    | none => (acc.1, layoutErr s)
    | some e =>
      if !(txIsMember e) || txHdr e / 2 ^ 24 % 2 ^ 14 != c then (acc.1, layoutErr s)
      else if actsQuar s 4 3 m bad then (acc.1, quarSkip s 3 m bad)
      else if all || (getTx s m).pending then packMember s (txLen ce) acc.1 m e bad
      else acc) ([], s)

/-- Container layout C is sent (R320): its ALL is 1, or some member is UPDATED. -/
def containerGoes (s : State) (c : Nat) (ce : TEntry) : Bool :=
  txHdr ce / 2 ^ 47 % 2 == 1 ||
    (txRun ce).any (fun m =>
      match (if m < 16384 then tLive s mbTable 3 m else none) with
      | none => false
      | some e => txIsMember e && txHdr e / 2 ^ 24 % 2 ^ 14 == c && (getTx s m).pending)

/-- The bytes of a layout as it is packed now (R280, R320), none when it is not sent: a container whose ALL is 0 with no member
UPDATED, or a layout that meets a quarantined entry. -/
def packBytes (s : State) (l : Nat) (e : TEntry) (bad : List (Nat × Nat)) : Option (List Byte) × Nat × State :=
  if txIsContainer e then
    let (out, s') := packMembers s l e bad
    if containerGoes s l e then
      (some (out ++ List.replicate (txLen e - out.length) (BitVec.ofNat 8 (txFill e))), 0, s')
    else (none, 0, s')
  else packLayout s e bad

/-- The form of a packed layout's copies. -/
def txForm (e : TEntry) : CopyForm :=
  { plainForm with
    src := 8
    format := txFormat e
    len := txLen e
    hdr := txHdr e
    fill := txFill e
    sec := twf e 8 23 14
    stream := twf e 8 13 4 }

/-- The copies of a packed layout (R192, R200, R201, R302, R303): what is not permitted or names nothing is counted in
MB_LAYOUT_ERR. -/
def txCopies (s : State) (e : TEntry) : List (Nat × CopyForm) × State :=
  let group := twb e 0 5; let dest := twf e 1 23 12; let dev := twf e 0 11 6
  let form := txForm e
  let (os, form, s) : List Nat × CopyForm × State :=
    if dev ≠ s.fuses.devId then
      match dataPath s dev with
      | some (o, num) => ([o], { form with dev := dev, remote := true, tag := b2n group * 4096 + dest, numbered := num }, s)
      | none => ([], form, if s.fuses.xTier then incSat s (routePage + 0x48) else s)
    else match resolve s 4 group dest [] with
      | .copies os => (os, form, s)
      | _ => ([], form, layoutErr s)
  let fdf := txHdr e / 2 ^ 32 % 2 == 1
  let s := if os.any (fun o => decide (o < 64)) && !fdf && decide (8 < txLen e) then layoutErr s else s
  os.foldl (fun (acc : List (Nat × CopyForm) × State) o =>
    if dev ≠ s.fuses.devId ∨ permitted 8 (outKind o) (encapOf form.format) then (acc.1 ++ [(o, form)], acc.2)
    else (acc.1, layoutErr acc.2)) ([], s)

/-- The mouldboard packs the next layout of the send queue and hands it to admission as an item of input 126 (R278,
R280, R291, R293), given the entries and slots that it reads with bad parity. It waits while a pull does, and while an item is
next (R277). -/
def mbPack (s : State) (bad : List (Nat × Nat)) (slots : List (Nat × Bool)) : State :=
  if postponing s || !(running s mbPage) || pullWaits s || (bothWait s && s.mbLast == 2) then s
  else
    let s := stateFaults s bad
    match nextLayout s with
    | none => s
    | some l =>
      let s := handled { s with sendQ := s.sendQ.filter (fun k => k != l), mbLast := 2 } mbPage
      match tLive s mbTable 3 l with
      | none => putTx s l { getTx s l with pending := false, trig := false }
      | some e =>
        if actsQuar s 4 3 l bad then quarSkip (putTx s l { getTx s l with pending := false, trig := false }) 3 l bad
        else
          let poison := anyFault s slots
          let s := slotFaults s slots
          match packBytes s l e bad with
          | (none, _, s) => putTx s l { getTx s l with pending := false, trig := false }
          | (some bs, _, s) =>
            let s := addStat (txSent s l e) (mbPage + 0x84) 1
            let (cs, s) := txCopies s e
            if cs.isEmpty then s
            else admitItem s
              { input := 126, frame := none, kind := .pdu, bytes := bs, cls := twf e 0 14 12, poison := poison, copies := cs,
                seqNo := none, ingressNs := timeNs s, cameAt := s.now, tag := 0, srcDev := s.fuses.devId }

/-- A pull of a layout by a LIN channel's slot (R277, R282, R372): its bytes, or refused while XOFF holds, or when the pack
meets poison, a quarantined entry or a layout error; so is a FORMAT that R302 does not permit toward a LIN port (R303). -/
def pullLayout (s : State) (l : Nat) (bad : List (Nat × Nat)) (slots : List (Nat × Bool)) : Option (List Byte) × State :=
  match tLive s mbTable 3 l with
  | none => (none, s)
  | some e =>
    let s := stateFaults s bad
    if postponing s || !(running s mbPage) then (none, s)
    else if actsQuar s 4 3 l bad then (none, quarSkip s 3 l bad)
    else if !(permitted 8 1 (encapOf (txFormat e))) then (none, layoutErr s)
    else
      let poison := anyFault s slots
      let s := slotFaults s slots
      match packLayout s e bad with
      | (none, _, s) => (none, s)
      | (some bs, errs, s) =>
        if poison ∨ errs > 0 then (none, s) else (some bs, addStat (txSent s l e) (mbPage + 0x84) 1)

/-! ## The drill (R283 to R286) -/

/-- An RX layout is a container directory: a live route that unpacks into it with ENCAP CONTAINER (R319). -/
def isDirectory (s : State) (l : Nat) : Bool :=
  [0, 1, 2, 3].any (fun r => (liveEntries s (lkpTable r) 0).any (fun e =>
    (twf e.2 4 23 21 == 1 || twf e.2 4 23 21 == 3) && encapOf (twf e.2 5 6 0) == 6 && twf e.2 6 23 9 == l))

/-- The substitution of one unpack entry at a deadline timeout (R259, R265, R269, R286). -/
def substitute (s : State) (i : Nat) (bad : List (Nat × Nat)) : State :=
  if 131072 ≤ i then layoutErr s
  else if actsQuar s 4 1 i bad then quarSkip s 1 i bad
  else match tLive s mbTable 1 i with
    | none => s
    | some e =>
      let len := sigLen e; let v := tw e 3
      if sigBroken (twb e 0 7) (twf e 0 23 15) len (twf e 1 23 6) then layoutErr s
      else
        let high := if twb e 0 6 && bitsOf v 23 23 == 1 then 0xFFFFFF else 0
        let vals := v :: List.replicate (sigSlots len - 1) high
        match twf e 0 5 4 with
        | 1 => writeSignal s e vals false false bad
        | 2 => writeSignal s e vals true false bad
        | _ => s

/-- A layout's deadline is due: DM_EN, DM_TIMEOUT above 0, not quarantined, not timed out, and the tick reached (R286,
R293). -/
def deadlineDue (s : State) (l : Nat) : Bool :=
  match tLive s mbTable 0 l, mapGet? s.rxStates l with
  | some e, some st =>
    bit s (mbPage + 0x40) 0 && decide (rxTimeout e > 0) && !(isQuar s 4 0 l) && !st.timedOut && decide (st.deadline ≤ s.tick)
  | _, _ => false

/-- The deadline timeout of an RX layout (R286); one whose entry reads with bad parity is not monitored then (R293). DESIGN
CHOICE: monitoring that quarantine suspends is no skipped work, so MB_QUAR_SKIP does not count it (notes/assumptions/147.md). -/
def deadlineTimeout (s : State) (l : Nat) (bad : List (Nat × Nat)) : State :=
  if deadlineDue s l && bad.contains (0, l) then noteBad s 4 0 [l] bad
  else if deadlineDue s l && running s drillPage then
    match tLive s mbTable 0 l with
    | some e =>
      let s := if isDirectory s l then s else forEach (rxRun e) s (fun s i => substitute s i bad)
      let s := putRx s l { getRx s l with timedOut := true, fresh := true }
      setBit (incSat s (mbPage + 0x60)) (mbPage + 0x4C) 2
    | none => s
  else s

/-- A deferred layout's tick has come (R275, R284): it becomes pending. -/
def deferralEnd (s : State) (l : Nat) : State :=
  let t := getTx s l
  if t.deferred && decide (t.deferTo ≤ s.tick) && running s drillPage then
    match tLive s mbTable 3 l with
    | some e => sendNow (putTx s l { t with deferred := false, deferTo := 0 }) l e t.trig
    | none => putTx s l { t with deferred := false, deferTo := 0 }
  else s

/-- A repetition is due (R276, R284): a send request. -/
def repetitionDue (s : State) (l : Nat) : State :=
  let t := getTx s l
  if t.repLeft > 0 ∧ t.repNext ≤ s.tick ∧ running s drillPage then
    match tLive s mbTable 3 l with
    | some e =>
      sendRequest (putTx s l { t with repLeft := t.repLeft - 1, repNext := s.tick + max 1 (twf e 6 7 0) }) l false false
    | none => putTx s l { t with repLeft := 0 }
  else s

/-- A periodic send of a layout is due at the current tick, once (R284). -/
def periodDue (s : State) (l : Nat) : Bool :=
  match tLive s mbTable 3 l with
  | some e =>
    let p := txPeriod e
    let off := twf e 5 23 8 % max 1 p
    (txMode e == 1 || txMode e == 2) && decide (p > 0) && decide (off ≤ s.tick) && (s.tick - off) % max 1 p == 0 &&
      (getTx s l).periodAt != s.tick + 1
  | none => false

/-- The periodic request of a layout (R284). -/
def periodicSend (s : State) (l : Nat) : State :=
  if periodDue s l && running s drillPage then
    sendRequest (putTx s l { getTx s l with periodAt := s.tick + 1 }) l false true
  else s

/-- The work of the drill at a tick start, in the order of R284, and DRL_PEAK (R285). -/
def drillWork (s : State) (bad : List (Nat × Nat)) : State :=
  let before := s.sendQ.length
  let s := forEach ((liveEntries s mbTable 0).map (·.1)) s (fun s l => deadlineTimeout s l bad)
  let tx := (liveEntries s mbTable 3).map (·.1)
  let s := forEach tx s deferralEnd
  let s := forEach tx s repetitionDue
  let s := forEach tx s periodicSend
  let made := s.sendQ.length - before
  if fld s (drillPage + 0x44) 14 0 < made then setFld s (drillPage + 0x44) 14 0 made else s

/-- The next drill tick begins 50 µs after the last began (R283, R284); the ACTIVE device of a pair mirrors the count every 20
ticks (R631). -/
def drillTick (s : State) (bad : List (Nat × Nat)) (slots : List (Nat × Bool)) : State :=
  let n := s.tick + 1
  let at_ := s.tickAt + 10000
  let s := handled (advance { s with tick := n, tickAt := at_ } at_) drillPage
  let s := if n % 20 = 0 then mirrorOut s [3, n] else s
  if running s drillPage then drillWork (slotFaults (stateFaults s bad) slots) bad else s

/-! ## Table writes and restarts (R286, R291, R292, R297) -/

/-- A WRITE or INVAL of an RX layout: its deadline set, TIMED_OUT and E2E state cleared (R292). -/
def rxChanged (s : State) (l : Nat) : State :=
  rxArm (putRx s l { getRx s l with timedOut := false, e2e := 0, lastCnt := 0, fresh := true }) l

/-- A turn changes an RX layout (R286, R571): its deadline is set; one that becomes valid waits for its first PDU. -/
def rxTurned (s : State) (l : Nat) (wasValid : Bool) : State :=
  rxArm (if wasValid then s else putRx s l { getRx s l with fresh := true }) l

/-- A TX layout is written (R291, R292): one that becomes valid has SENT and LAST cleared, but not by a turn. -/
def txWritten (s : State) (l : Nat) (wasValid turn : Bool) : State :=
  if wasValid || turn then s else putTx s l { getTx s l with sent := false, last := 0 }

/-- The mouldboard page completes a RESTART (R286, R297). -/
def mbRestart (s : State) : State :=
  let s := forEach (s.txStates.map (·.1)) s txForget
  forEach ((liveEntries s mbTable 0).map (·.1)) { s with sendQ := [], mbLast := 0 } rxArm

/-! ## The signal-store port (R260, R261) -/

/-- COUNT and SLOT of SS_SEL. -/
def ssCount (s : State) : Nat := max 1 (fld s (ssPage + 0x40) 23 22)
def ssSlot (s : State) : Nat := fld s (ssPage + 0x40) 17 0

/-- A command refused with a code. -/
def ssRefuse (s : State) (code : Nat) : State := setBit (setFld s (ssPage + 0x48) 11 8 code) (ssPage + 0x48) 2
/-- A command accepted. -/
def ssAccept (s : State) : State := clrBit (setFld s (ssPage + 0x48) 11 8 0) (ssPage + 0x48) 2

/-- What a READ of n slots from `base` writes when it completes: the words, INV and GEN of one instant (R260, R296). -/
def ssPuts (s : State) (base n : Nat) : List FieldPut :=
  (List.range n).map (fun k => { addr := ssPage + 0x50 + 4 * k, hi := 23, lo := 0, val := (getSlot s (base + k)).value }) ++
    [{ addr := ssPage + 0x48, hi := 14, lo := 12,
        val := (List.range n).foldl (fun a k => a + b2n (getSlot s (base + k)).inv * 2 ^ k) 0 },
      { addr := ssPage + 0x4C, hi := 23, lo := 0,
        val := (List.range n).foldl (fun a k => a + (getSlot s (base + k)).gen * 256 ^ (2 - k)) 0 }]

/-- SS_CMD.READ, with the slots it reads with bad parity (R260 to R262). -/
def ssReadNow (s : State) (slots : List (Nat × Bool)) : State :=
  if 262144 < ssSlot s + ssCount s then ssRefuse s 0x1
  else
    let s := slotFaults (ssAccept s) slots
    cmdStart s (ssPage + 0x44) 1 (ssPuts s (ssSlot s) (ssCount s))

/-- SS_CMD.WRITE by a requester (R260, R261): refused while WRITE_OFF is 1, as a lock violation. -/
def ssWriteNow (s : State) (req : Nat) : State :=
  if 262144 < ssSlot s + ssCount s then
    (if bit s (ssPage + 0x60) 0 then lockViolation (ssRefuse s 0x1) req (ssPage + 0x44) else ssRefuse s 0x1)
  else if bit s (ssPage + 0x60) 0 then lockViolation (ssRefuse s 0x3) req (ssPage + 0x44)
  else
    let base := ssSlot s
    let s := forEach (List.range (ssCount s)) (ssAccept s)
      (fun s k => writeSlot s (base + k) (rd s (ssPage + 0x50 + 4 * k)) false)
    cmdStart s (ssPage + 0x44) 2 []

/-- A command of the signal-store port: refused while one runs (R261). -/
def ssPort (s : State) (act : State → State) : State :=
  let s := cmdSettle s (ssPage + 0x44)
  if cmdBusy s (ssPage + 0x44) then ssRefuse s 0x6 else act s

/-- SS_CMD.READ and SS_CMD.WRITE. -/
def ssRead (s : State) (slots : List (Nat × Bool)) : State := ssPort s (fun s => ssReadNow s slots)
def ssWrite (s : State) (req : Nat) : State := ssPort s (fun s => ssWriteNow s req)

end Sys2Proof.Machine
end

