-- ==== Sys2Proof/Machine/Wake.lean ====
section
/-! DEFINITION. Clusters, wake events, false wakes and muting, the keep-awake ledger, transceiver modes, fail-safe sleep of the
channels, and parked regions (12_wake_and_sleep.md, R427 to R456). -/
namespace Sys2Proof.Machine

/-! ## Channels and clusters (R427 to R430) -/

/-- The bus channel ports present: CAN, LIN and T1S. -/
def busPorts (f : Fuses) : List Nat := (List.range 104).filter (portPresent f)
/-- The member channels of an enabled cluster. -/
def members (s : State) (c : Nat) : List Nat := (busPorts s.fuses).filter (fun p => clusterOf s p == some c)
/-- The transceiver die of a channel: T0 serves regions 0 and 1, T1 regions 2 and 3. -/
def dieOf (p : Nat) : Nat := regionOfPort p / 2

/-- A channel's cell is FALLOW (R44). -/
def chanFallow (s : State) (p : Nat) : Bool := isFallow s (portPage p)
/-- WK_CHST.MUTED of a channel. -/
def muted (s : State) (p : Nat) : Bool := bit s (wkChst p) 23

/-- CL_EVENTS, CL_WAKE_SRC, CL_PREP, CL_MAP_LO and CL_MAP_HI of a cluster. -/
def clEvents (c : Nat) : Nat := clusterPage + 0x700 + 4 * c
def clWakeSrc (c : Nat) : Nat := clusterPage + 0x780 + 4 * c
def clPrep (c : Nat) : Nat := clusterPage + 0x800 + 4 * c
/-- CL_STAT.REQ: a software request holds. -/
def clReq (s : State) (c : Nat) : Bool := bit s (clStat c) 20

def noTimers : ClTimers :=
  { entered := 0, repeatFor := 0, nmAt := 0, nmFor := 0, nmForced := false, waitFor := 0, cycleAt := 0, cycleFor := 0 }
def getCl (s : State) (c : Nat) : ClTimers := mapGet noTimers s.clusters c
def putCl (s : State) (c : Nat) (t : ClTimers) : State := { s with clusters := mapPut noTimers s.clusters c t }

/-- A timer field in units of 10 ms; 0 acts as 1 (R455). -/
def tenMs (n : Nat) : Nat := msTicks (10 * max 1 n)
def clNmTimeout (s : State) (c : Nat) : Nat := tenMs (fld s (clusterPage + 0x380 + 4 * c) 23 12)
def clRepeat (s : State) (c : Nat) : Nat := tenMs (fld s (clusterPage + 0x380 + 4 * c) 11 0)
def clWait (s : State) (c : Nat) : Nat := tenMs (fld s (clusterPage + 0x400 + 4 * c) 23 12)
def clCycle (s : State) (c : Nat) : Nat := tenMs (fld s (clusterPage + 0x400 + 4 * c) 11 0)

/-! ## Transceiver modes (R436, R449) -/

def noLin : LinCh :=
  { kept := [], runs := false, fresh := false, slotAt := 0, resume := [], collide := none, inSlot := false, frame := none,
    endedAt := 0, late := false, pulses := 0, waiting := 0, waitFrom := 0, edgeAt := some 0, readied := [], filled := [] }
def getLin (s : State) (m : Nat) : LinCh := mapGet noLin s.lin m
def putLin (s : State) (m : Nat) (c : LinCh) : State := { s with lin := mapPut noLin s.lin m c }

/-- A LIN channel's bus shows an edge, or begins to be heard (R385). -/
def linEdge (s : State) (m at' : Nat) : State := putLin s m { getLin s m with edgeAt := some at' }

/-- FILT in force for a channel, in the unit of its kind (R436). -/
def filtOf (s : State) (p : Nat) : Nat :=
  let f := fld s (wkCh p) 16 9
  if p < 64 then (if f = 0 then 10 else clamp 5 40 f)
  else if p < 88 then (if f = 0 then 80 else clamp 30 150 f)
  else (if f = 0 then 2 else clamp 2 16 f)

/-- MODE LISTEN or LOOPBACK of a CAN channel (R328). -/
def chanListens (s : State) (p : Nat) : Bool :=
  decide (p < 64) && (let m := eff s (canPage p) (canPage p + 0x44) 2 0; m == 1 || m == 3)

/-- The mode in which the wake controller wants a transceiver, and whether its detector is armed (R449). -/
def trxWanted (s : State) (p : Nat) : Nat × Bool :=
  if s.failsafe.contains (dieOf p) then (3, !(chanFallow s p) && !(s.fallowKnown.contains (portPage p)) && !(muted s p))
  else if chanFallow s p then (2, false)
  else
    let arm := bit s (wkCh p) 17 && !(muted s p)
    match clusterOf s p with
    | some c =>
      if clState s c = 0 then (2, arm)
      else if clState s c = 4 ∧ bit s (clStat c) 18 then (mapGet 0 s.trxMode p, arm)
      else (if chanListens s p && p < 88 then 1 else 0, false)
    | none => (if chanListens s p && p < 88 then 1 else 0, false)

def noCan : CanCh :=
  { tec := 0, recv := 0, joined := false, prevMode := 0, recovering := false, boffs := [], current := none, sendAt := 0, cancelled := [],
    acks := 0, rxOpen := false }
def getCan (s : State) (n : Nat) : CanCh := mapGet noCan s.can n
def putCan (s : State) (n : Nat) (c : CanCh) : State := { s with can := mapPut noCan s.can n c }

/-- A CAN channel leaves the bus: it integrates before it takes part again (R330). -/
def canLeave (s : State) (p : Nat) : State := if p < 64 then putCan s p { getCan s p with joined := false } else s

/-- A CAN channel takes part in its bus, or waits to (R330, R449): its page runs, MODE is 0 to 3, it is not FALLOW and its
transceiver neither sleeps nor stands in FAILSAFE. -/
def canTakes (s : State) (p : Nat) : Bool :=
  running s (canPage p) && !(chanFallow s p) && decide (eff s (canPage p) (canPage p + 0x44) 2 0 < 4) &&
    !([2, 3].contains (mapGet 0 s.trxMode p))

/-- A channel begins bus integration: a false-wake window that waits for it starts (R443). -/
def fwStart (s : State) (p : Nat) : State :=
  if s.fwWait.contains p && (decide (64 ≤ p) || canTakes s p) then
    setBit { s with fwWait := s.fwWait.filter (fun q => q != p), fwFrom := mapSet s.fwFrom p s.now } (wkChst p) 22
  else s

/-- Commands a transceiver into the mode of R449 where that differs from the last command, and arms or disarms its detector; a
detector takes FILT when it is armed (R436). A CAN channel whose transceiver sleeps or stands in FAILSAFE is off its bus (R429,
R450), and integrates afresh when it is back (R330, R440). -/
def refreshTrx (s : State) (p : Nat) : State :=
  let (m, arm) := trxWanted s p
  let s := if mapGet 0 s.trxMode p = m then s
    else
      let s := if mapGet 0 s.trxMode p = 2 ∧ 64 ≤ p ∧ p < 88 then linEdge s (p - 64) s.now else s
      let s := send { s with trxMode := mapPut 0 s.trxMode p m } p .modeWord [m] []
      if p < 64 then (if m = 2 ∨ m = 3 then canLeave s p else fwStart s p) else s
  if arm then (if (mapGet? s.armed p).isSome then s else { s with armed := mapSet s.armed p (filtOf s p) })
  else { s with armed := mapDel s.armed p }

/-- Commands every transceiver of a cluster's members. -/
def refreshMembers (s : State) (c : Nat) : State :=
  forEach (members s c) s (fun s p => refreshTrx (refreshOutput s p) p)

/-! ## Parked regions (R451 to R453) -/

/-- Every policer level of a region set to BURST (R208, R452). -/
def policersFull (s : State) (r : Nat) : State :=
  forEach (liveEntries s (polTable r) 0) s (fun s e =>
    { s with polState := mapSet s.polState (r * 4096 + e.1) { level := tw e.2 2 * 2 ^ 24, last := s.now } })

/-- The ports of a region, of region 2 the host rings among them (R14). -/
def regionPorts (f : Fuses) (r : Nat) : List Nat :=
  ((List.range 126) ++ (List.range 16).map (128 + ·)).filter (fun p => portPresent f p && regionOfPort p == r)

/-- Furrows of a region's pages, head furrows and learn furrow are empty. -/
def regionQuiet (s : State) (r : Nat) : Bool :=
  s.furrows.all (fun f => !(decide (domainOf f.1 = r)) || (decide (furWords f.2 = 0) && f.2.waits.isEmpty)) &&
    s.heads.all (fun h => h.2.all (fun x => regionOfPort x.port != r)) && (mapGet [] s.verdicts r).isEmpty &&
    (mapGet [] s.learnQ r).isEmpty

/-- What must have held for 10 ms when a region parks (R451). -/
def parkable (s : State) (r : Nat) : Bool :=
  (regionPorts s.fuses r).all (fun p =>
      (if p < 104 then
        chanFallow s p || (match clusterOf s p with | some c => clState s c == 0 | none => false)
      else true) &&
      (if 88 ≤ p ∧ p < 124 then chanFallow s p || !(running s (macPage p)) else true) &&
      (if 124 ≤ p ∧ p < 126 then !(bit s (linkPage (p - 124) + 0x44) 23) else true) &&
      (outQueue s p).isEmpty && (mapGet? s.inFlight p).isNone) &&
    (r != 2 || !(bit s (pciePage + 0x40) 23)) && regionQuiet s r

/-- Every enabled cluster is in BUS_SLEEP. -/
def clustersAsleep (s : State) : Bool :=
  (List.range 32).all (fun c => !(bit s (clCfg c) 23) || clState s c == 0)

/-- A condition whose time counts holds, or does not: the moment it came to hold is kept, and forgotten as it ceases. -/
def noteFrom (s : State) (i : Nat) (holds : Bool) : State :=
  if holds then (if (mapGet? s.heldFrom i).isSome then s else { s with heldFrom := mapSet s.heldFrom i s.now })
  else { s with heldFrom := mapDel s.heldFrom i }

/-- Since when what a region's parking needs has held (R451), and what an automatic STANDBY needs (R655). -/
def noteHeld (s : State) : State :=
  let s := forEach [0, 1, 2, 3] s (fun s r => noteFrom s r (!(parked s r) && parkable s r))
  noteFrom s 4 ([0, 1, 2, 3].all (parked s) && clustersAsleep s)

/-- A condition has held for a time without a break. -/
def heldFor (s : State) (i ticks : Nat) : Bool :=
  match mapGet? s.heldFrom i with
  | some t => decide (t + ticks ≤ s.now)
  | none => false

/-- The power state follows the parked regions: PARTIAL while any is parked (R451, R643). -/
def notePark (s : State) : State :=
  let st := fld s (pwrPage + 0x40) 23 21
  noteHeld (if st = 3 ∨ st = 4 then
    setFld s (pwrPage + 0x40) 23 21 (if [0, 1, 2, 3].any (parked s) then 4 else 3)
  else s)

/-- A region is asked to run (R452, R453): it unparks, and does not park at this very moment (R456). -/
def unpark (s : State) (r : Nat) : State :=
  let s := { s with heldFrom := mapSet s.heldFrom (8 + r) s.now }
  if parked s r then notePark (policersFull (wr (clrBit s (wakePage r + 0x44) 23) (regionBase r + 0x30) 0) r) else s

/-- A region parks (R451): what it needs has held for 10 ms, and nothing asks it to run at this moment (R456). -/
def regionPark (s : State) (r : Nat) : State :=
  if bit s (wakePage r + 0x40) 23 && parkable s r && heldFor s r (msTicks 10) && mapGet? s.heldFrom (8 + r) != some s.now &&
      !(parked s r) && fld s (pwrPage + 0x40) 23 21 ≥ 3 then
    let s := wr { s with pace := mapDel s.pace r } (regionBase r + 0x30) 0xC00000
    notePark (incSat (setBit s (wakePage r + 0x44) 23) (wakePage r + 0x4C))
  else s

/-! ## The keep-awake ledger (R446, R447) -/

/-- Whole seconds of the monitor timebase since entry into ACTIVE (R446). -/
def kaSeconds (s : State) : Nat := (s.now - s.activeAt) / secTicks 1 % 2 ^ 24

/-- Sources of a cluster whose last NM PDU is younger than NM_TIMEOUT. -/
def youngSources (s : State) (c : Nat) : List Nat :=
  s.keepAwake.filterMap (fun e =>
    if e.2.cluster = c ∧ s.now - e.2.seenAt < clNmTimeout s c then some e.1 else none)

/-- HOLDING of a cluster's entries (R447): the one young source holds it in READY_SLEEP without a request. -/
def refreshHolding (s : State) (c : Nat) : State :=
  let holder : Option Nat :=
    if clState s c = 3 && !(clReq s c) then
      (match youngSources s c with
        | [i] => some i
        | _ => none)
    else none
  { s with keepAwake := s.keepAwake.map (fun e =>
      if e.2.cluster = c then
        if holder = some e.1 then
          (e.1, if e.2.holding then e.2 else { e.2 with holding := true, heldFrom := s.now, noted := false })
        else (e.1, { e.2 with holding := false, heldFrom := 0, noted := false })
      else e) }

/-- KA_USED follows the ledger. -/
def noteLedger (s : State) : State := setFld s (clusterPage + 0x48) 8 0 s.keepAwake.length

/-- A remote NM PDU updates the ledger (R446). -/
def kaUpdate (s : State) (c source p : Nat) : State :=
  let t := kaSeconds s
  match s.keepAwake.find? (fun e => e.2.cluster == c && e.2.source == source) with
  | some (i, e) =>
    let e := { e with port := p, lastSeen := t, seenAt := s.now, count := min 0xFFFFFF (e.count + 1) }
    { s with keepAwake := mapSet s.keepAwake i e }
  | none =>
    match lowestFree s.keepAwake 256 with
    | some i =>
      let e : KaEntry :=
        { cluster := c, source := source, port := p, firstSeen := t, lastSeen := t, seenAt := s.now, count := 1,
          flagged := false, holding := false, heldFrom := 0, noted := false }
      noteLedger { s with keepAwake := mapSet s.keepAwake i e }
    | none => setBit (incSat s (clusterPage + 0x50)) (clusterPage + 0x44) 22

/-- KA_LIMIT.S in force; none when 0. -/
def kaLimit (s : State) : Option Nat :=
  let n := rd s (clusterPage + 0x40)
  if n = 0 then none else some (secTicks (min 86400 n))

/-- An entry has held its cluster without a break for KA_LIMIT.S seconds (R447): flagged once in each such hold. -/
def kaFlag (s : State) (i : Nat) : State :=
  match mapGet? s.keepAwake i with
  | some e =>
    let s := refreshHolding s e.cluster
    (match mapGet? s.keepAwake i, kaLimit s with
      | some e, some t =>
        if e.holding && !e.noted && decide (s.now - e.heldFrom ≥ t) then
          let s := { s with keepAwake := mapSet s.keepAwake i { e with flagged := true, noted := true } }
          let s := setBit (incSat s (clusterPage + 0x4C)) (clEvents e.cluster) 4
          if bit s (clusterPage + 0x44) 23 then s
          else setBit (setFld s (clusterPage + 0x44) 7 0 i) (clusterPage + 0x44) 23
        else s
      | _, _ => s)
  | none => s

/-! ## Cluster states (R430 to R435, R441, R442) -/

/-- A cluster's state as the ACTIVE device mirrors it: state and request (R631). -/
def mirrorCluster (s : State) (c : Nat) : State := mirrorOut s [2, c, clState s c, b2n (clReq s c)]

/-- LIN members are marked when their cluster enters PREPARE_SLEEP or BUS_SLEEP: the end of sleep starts their schedules
(R378, R386). -/
def markLin (s : State) (c st : Nat) : State :=
  if st = 0 ∨ st = 4 then
    forEach ((members s c).filter (fun p => decide (64 ≤ p) && decide (p < 88))) s (fun s p =>
      { s with linMark := mapSet s.linMark (p - 64) st })
  else s

/-- A cluster in a state, its transceivers, outputs, ledger flags and mirror following. -/
def setCluster (s : State) (c st : Nat) : State :=
  noteHeld (mirrorCluster (refreshHolding (refreshMembers (clrBit (setFld (markLin s c st) (clStat c) 23 21 st) (clStat c) 18) c) c) c)

/-- The NM timer of a cluster starts (R430). -/
def nmStart (s : State) (c : Nat) : State :=
  putCl s c { getCl s c with nmAt := s.now, nmFor := clNmTimeout s c, nmForced := false }

/-- The NM PDU of a cluster (R432): a send request to its layout, and the CYCLE and NM timers start. -/
def nmSend (s : State) (c : Nat) : State :=
  if bit s (clCfg c) 21 then
    let s := putCl s c { getCl s c with cycleAt := s.now, cycleFor := clCycle s c }
    nmStart (sendRequest s (fld s (clusterPage + 0x480 + 4 * c) 13 0) false false) c
  else s

/-- A cluster enters REPEAT_MESSAGE (R430, R432). -/
def enterRepeat (s : State) (c : Nat) : State :=
  let s := putCl s c { getCl s c with entered := s.now, repeatFor := clRepeat s c }
  nmSend (nmStart (setCluster s c 1) c) c

/-- The NM timer of a cluster has expired (R430, R434). -/
def nmExpired (s : State) (c : Nat) : Bool :=
  let t := getCl s c
  t.nmForced || decide (s.now - t.nmAt ≥ t.nmFor)

/-- A cluster enters PREPARE_SLEEP (R430, R441). -/
def enterPrepare (s : State) (c : Nat) : State :=
  setCluster (putCl s c { getCl s c with entered := s.now, waitFor := clWait s c }) c 4

/-- A cluster enters READY_SLEEP, and passes on at once when its NM timer has expired (R430). -/
def enterReady (s : State) (c : Nat) : State :=
  let s := setCluster s c 3
  if nmExpired s c then enterPrepare s c else s

/-- CL_WAKE_SRC records a cause (R437, R442). -/
def wakeSource (s : State) (c cause who : Nat) (fromLatch : Bool) : State :=
  wr s (clWakeSrc c) (cause * 0x200000 + who % 256 * 0x2000 + b2n fromLatch * 0x1000)

/-- Regions with a member of a cluster unpark on its wake (R453). -/
def unparkMembers (s : State) (c : Nat) : State :=
  forEach ((members s c).map regionOfPort).dedup s unpark

/-- The LIN members of a cluster are commanded to wake their bus (R434), but for the channel whose event woke it. -/
def wakeLin (s : State) (c cause who : Nat) : State :=
  forEach ((members s c).filter (fun p => decide (64 ≤ p) && decide (p < 88) && !(cause == 1 && p == who))) s (fun s p =>
    if s.linWakeCmd.contains p then s else { s with linWakeCmd := s.linWakeCmd ++ [p] })

/-- One cluster woken (R430, R434, R442): from BUS_SLEEP, or as a wake in prepare. True when it left BUS_SLEEP. -/
def wakeOne (s : State) (c cause who : Nat) (fromLatch : Bool) : Bool × State :=
  if !(bit s (clCfg c) 23) then (false, s)
  else if clState s c = 0 then
    if cause = 6 then (false, s)
    else
      let s := wakeSource (setBit s (clEvents c) 0) c cause who fromLatch
      (true, enterRepeat (wakeLin (unparkMembers s c) c cause who) c)
  else if clState s c = 4 then
    let s := incSat (setBit (wakeSource s c cause who fromLatch) (clEvents c) 2) (clPrep c)
    (false, enterRepeat s c)
  else (false, s)

/-- A 32-bit cluster map from its two registers. -/
def clusterMap (s : State) (lo hi : Nat) : List Nat :=
  (List.range 32).filter (fun c => if c < 24 then bit s lo c else bit s hi (c - 24))

/-- A cluster woken, and one step of propagation when it leaves BUS_SLEEP (R430, R439). -/
def wakeCluster (s : State) (c cause who : Nat) (fromLatch : Bool) : State :=
  let (left, s) := wakeOne s c cause who fromLatch
  if left && (cause == 1 || cause == 2 || cause == 4 || cause == 5) then
    forEach (clusterMap s (clusterPage + 0x500 + 4 * c) (clusterPage + 0x580 + 4 * c)) s (fun s d =>
      (wakeOne s d 3 c fromLatch).2)
  else s

/-- Traffic wakes (R433): outputs that hold copies for a sleeping member channel wake its cluster. -/
def serveHints (s : State) : State :=
  let hints := s.wakeHints
  forEach hints { s with wakeHints := [] } (fun s o =>
    match clusterOf s o with
    | some c =>
      if chanAsleep s o && bit s (clCfg c) 20 && outState s o == 1 && !(outQueue s o).isEmpty && !(bit s (wkChst o) 21) then
        wakeCluster s c 5 o false
      else s
    | none => s)

/-- CL_CMD of a cluster (R430, R433): RELEASE stands over REQUEST. -/
def clRequest (s : State) (c : Nat) : State :=
  let s := setBit s (clStat c) 20
  let s :=
    if !(bit s (clCfg c) 23) then s
    else if clState s c = 3 then setCluster s c 2
    else wakeCluster s c 4 0 false
  serveHints (mirrorCluster s c)

/-- CL_CMD.RELEASE (R430, R433). -/
def clRelease (s : State) (c : Nat) : State :=
  let s := clrBit s (clStat c) 20
  let s := if bit s (clCfg c) 23 ∧ clState s c = 2 then enterReady s c else refreshHolding s c
  serveHints (mirrorCluster s c)

/-- REPEAT has elapsed since entry into REPEAT_MESSAGE (R430). -/
def repeatExpiry (s : State) (c : Nat) : State :=
  let t := getCl s c
  if bit s (clCfg c) 23 && clState s c == 1 && decide (s.now - t.entered ≥ t.repeatFor) then
    serveHints (if clReq s c then setCluster s c 2 else enterReady s c)
  else s

/-- The NM timer of a cluster expires (R430): it acts in READY_SLEEP only. -/
def nmTimerExpiry (s : State) (c : Nat) : State :=
  if bit s (clCfg c) 23 && clState s c == 3 && nmExpired s c then serveHints (enterPrepare s c) else s

/-- CYCLE has elapsed (R432): the next NM PDU in REPEAT_MESSAGE or NORMAL. -/
def nmCycle (s : State) (c : Nat) : State :=
  let t := getCl s c
  if bit s (clCfg c) 23 && (clState s c == 1 || clState s c == 2) && decide (s.now - t.cycleAt ≥ t.cycleFor) then nmSend s c
  else s

/-- WAIT has elapsed in PREPARE_SLEEP: arming starts (R441). -/
def waitExpiry (s : State) (c : Nat) : State :=
  let t := getCl s c
  if bit s (clCfg c) 23 && clState s c == 4 && !(bit s (clStat c) 18) && decide (s.now - t.entered ≥ t.waitFor) then
    forEach (members s c) (setBit s (clStat c) 18) refreshTrx
  else s

/-- The sleep commit (R441 step 3). -/
def sleepCommit (s : State) (c : Nat) : State :=
  if bit s (clCfg c) 23 && clState s c == 4 && bit s (clStat c) 18 then
    let s := { s with linWakeCmd := s.linWakeCmd.filter (fun p => clusterOf s p != some c) }
    setCluster (setBit s (clEvents c) 1) c 0
  else s

/-- A LIN responder reports GOTOSLEEP or IDLE (R434): the NM timer of its cluster expires at once. -/
def linReport (s : State) (p : Nat) : State :=
  match clusterOf s p with
  | some c =>
    let s := putCl s c { getCl s c with nmForced := true }
    if clState s c = 3 then enterPrepare s c else s
  | none => s

/-! ## Remote NM PDUs and valid frames (R431, R443, R444, R446) -/

/-- A remote NM PDU of a source on a channel (R430, R431, R446). -/
def remoteNm (s : State) (p source : Nat) : State :=
  match clusterOf s p with
  | some c =>
    if clState s c = 0 then s
    else
      let s := kaUpdate (nmStart s c) c source p
      if clState s c = 4 then (wakeOne s c 6 p false).2 else refreshHolding s c
  | none => s

/-- SOURCE of a frame for its cluster's ledger (R446): the identifier, or the byte at NODE_POS. -/
def kaSource (s : State) (p ident : Nat) (data : List Byte) : Nat :=
  match clusterOf s p with
  | some c => if bit s (clCfg c) 19 then byteAt data (fld s (clCfg c) 18 13) else ident
  | none => ident

/-- A CAN frame counts as a remote NM PDU (R431). -/
def canCounts (s : State) (p : Nat) (ide : Bool) (ident : Nat) : Bool :=
  match clusterOf s p with
  | some c =>
    if bit s (clCfg c) 22 then true
    else
      let hi := rd s (clusterPage + 0x300 + 4 * c)
      let want := bitsOf hi 9 5 * 2 ^ 24 + rd s (clusterPage + 0x200 + 4 * c)
      let mask := bitsOf hi 4 0 * 2 ^ 24 + rd s (clusterPage + 0x280 + 4 * c)
      (bitsOf hi 23 23 == 1) == ide && (ident ^^^ want) &&& mask == 0
  | none => false

/-- A valid frame on a channel closes its false-wake window and ends its mute (R443, R444). -/
def validFrame (s : State) (p : Nat) : State :=
  let s := { clrBit s (wkChst p) 22 with fwWait := s.fwWait.filter (fun q => q != p), fwFrom := mapDel s.fwFrom p }
  if muted s p then refreshTrx (clrBit s (wkChst p) 23) p else s

/-- CL_STAT.COMFAIL clears when no member channel holds COMFAIL (R445). -/
def comfailJudge (s : State) (c : Nat) : State :=
  if (members s c).any (fun q => bit s (wkChst q) 21) then s else clrBit s (clStat c) 19

/-- LONE of a channel changes (R445): COMFAIL of the channel and of its cluster. -/
def comfail (s : State) (p : Nat) (lone : Bool) : State :=
  match clusterOf s p with
  | some c =>
    if lone then
      if clState s c = 0 then s
      else setBit (setBit (setBit s (wkChst p) 21) (clStat c) 19) (clEvents c) 3
    else comfailJudge (clrBit s (wkChst p) 21) c
  | none => if lone then s else clrBit s (wkChst p) 21

/-! ## Wake events (R436 to R438, R443) -/

/-- An armed detector's report reaches the wake controller (R437): the channel's cluster wakes, and a wake from BUS_SLEEP
opens a false-wake window once the channel begins bus integration (R443). -/
def wakeReport (s : State) (p : Nat) (fromLatch : Bool) : State :=
  let r := regionOfPort p
  let s := incSat (setBit s (wakePage r + 0x48) 0) (wakePage r + 0x280 + 4 * wakeIndex p)
  match clusterOf s p with
  | some c =>
    let slept := clState s c == 0
    let s := wakeCluster s c 1 p fromLatch
    if slept && clState s c == 1 then
      fwStart { s with fwWait := if s.fwWait.contains p then s.fwWait else s.fwWait ++ [p] } p
    else s
  | none => s

/-- A false-wake window expires (R443, R444): a false wake is recorded, and the hour's count may mute the channel. -/
def fwExpiry (s : State) (p : Nat) : State :=
  match mapGet? s.fwFrom p with
  | some t =>
    let r := regionOfPort p
    if s.now - t ≥ msTicks (clamp 10 10000 (fld s (wakePage r + 0x40) 13 0)) then
      let s := clrBit { s with fwFrom := mapDel s.fwFrom p } (wkChst p) 22
      let s := incSat (setBit s (wakePage r + 0x48) 1) (wakePage r + 0x200 + 4 * wakeIndex p)
      let s := incFld s (wkChst p) 15 8
      let lim := fld s (wkCh p) 8 0
      if lim ≠ 0 ∧ fld s (wkChst p) 15 8 ≥ lim then
        refreshTrx (setBit (setBit s (wkChst p) 23) (wakePage r + 0x48) 2) p
      else s
    else s
  | none => s

/-- A new hour period of the false-wake counts begins (R444). -/
def fwHour (s : State) : State := forEach (busPorts s.fuses) s (fun s p => setFld s (wkChst p) 15 8 0)

/-- An edge of a WAKE_IN pin meets WIN_CFG (R438). -/
def winSelected (s : State) (k : Nat) (rising : Bool) (heldUs : Nat) : Bool :=
  let a := clusterPage + 0x60 + 4 * k
  let e := fld s a 23 22
  (e == 3 || (e == 1 && rising) || (e == 2 && !rising)) && decide (clamp 10 1000 (fld s a 21 12) ≤ heldUs)

/-- A selected WAKE_IN edge acts on its clusters (R438). -/
def winReport (s : State) (k : Nat) (fromLatch : Bool) : State :=
  let s := setBit s (clusterPage + 0x90) k
  forEach (clusterMap s (clusterPage + 0x70 + 4 * k) (clusterPage + 0x80 + 4 * k)) s (fun s c => wakeCluster s c 2 k fromLatch)

/-- The RESTART of a wake page (R42, R443, R445): no window runs or waits for its channels, COMFAIL of the clusters is judged
afresh. -/
def wakeRestart (s : State) (r : Nat) : State :=
  let s := { s with
    fwWait := s.fwWait.filter (fun p => regionOfPort p != r)
    fwFrom := s.fwFrom.filter (fun e => regionOfPort e.1 != r) }
  forEach (List.range 32) s comfailJudge

/-- Something asks a region to run (R453): PARK_EN is 0, or a cluster with a member in it is awake. -/
def unparkAsked (s : State) (r : Nat) : Bool :=
  !(bit s (wakePage r + 0x40) 23) ||
    (busPorts s.fuses).any (fun p => regionOfPort p == r && (match clusterOf s p with | some c => clState s c != 0 | none => false))

/-! ## Entry into ACTIVE (R435) -/

/-- The clusters at entry into ACTIVE: awake at start, or woken by a latched source, else asleep. -/
def clustersAtActive (s : State) : State :=
  let latched := s.latched
  let s := { s with latched := [] }
  let s := forEach (List.range 32) s (fun s c =>
    if bit s (clCfg c) 23 then
      if bit s (clCfg c) 12 then enterRepeat s c
      else refreshMembers (setFld (markLin s c 0) (clStat c) 23 21 0) c
    else s)
  let s := forEach (busPorts s.fuses) s refreshTrx
  forEach latched s (fun s w => if w.1 = 2 then winReport s w.2 true else wakeReport s w.2 true)

/-- A cluster state from the peer (R631): entered, with its timers started at entry, transceivers commanded; one that leaves
BUS_SLEEP unparks its members' regions (R453). -/
def clusterMirrored (s : State) (c st req : Nat) : State :=
  let s := putBit s (clStat c) 20 (req == 1)
  if clState s c = st then s
  else
    let s := if clState s c = 0 then unparkMembers s c else s
    match st with
    | 1 => enterRepeat s c
    | 4 => enterPrepare s c
    | _ => setCluster s c st

end Sys2Proof.Machine
end

