-- ==== Sys2Proof/Machine/Can.lean ====
section
/-! DEFINITION. CAN channels: modes, fault confinement, reception, message objects, transmission, bus-off and HELD, LONE, the
spare cell and FALLOW (09_can_channels.md, R328 to R363; R624 for quiet channels). -/
namespace Sys2Proof.Machine

/-! ## Modes and fault confinement (R328 to R333) -/

/-- CAN_MODE.MODE as the channel uses it (R329). -/
def canMode (s : State) (n : Nat) : Nat := eff s (canPage n) (canPage n + 0x44) 2 0
/-- The mode in which the channel acts: a quiet pair member's channels act as LISTEN (R624). -/
def canActs (s : State) (n : Nat) : Nat :=
  let m := canMode s n
  if pairQuiet s && decide (m < 4) then 1 else m

/-- CAN_CTRL, CAN_STATUS, CAN_EVENTS of a channel. -/
def canCtrl (n : Nat) : Nat := canPage n + 0x40
def canStatus (n : Nat) : Nat := canPage n + 0x5C
def canEvents (n : Nat) : Nat := canPage n + 0x68
def fdEn (s : State) (n : Nat) : Bool := bit s (canCtrl n) 23
def brsEn (s : State) (n : Nat) : Bool := bit s (canCtrl n) 22

/-- A hardware write of MODE discards a software write that waits (R329); the output and the transceiver follow. -/
def setCanMode (s : State) (n m : Nat) : State :=
  let a := canPage n + 0x44
  let s := setFld { s with bOld := s.bOld.filter (fun b => !(b.addr == a)) } a 2 0 m
  fwStart (refreshTrx (refreshOutput s n) n) n

/-- The channel takes part in the bus: nothing keeps it off, it has integrated and is not recovering (R330). -/
def canOnBus (s : State) (n : Nat) : Bool :=
  canTakes s n && (getCan s n).joined && !(getCan s n).recovering

/-- ERROR_PASSIVE: a count above 127 (R331). -/
def canPassive (s : State) (n : Nat) : Bool := decide (127 < (getCan s n).tec) || decide (127 < (getCan s n).recv)

/-- CAN_ECR and CAN_STATUS.FSTATE follow the counts, and CAN_EVENTS.PASSIVE an entry into ERROR_PASSIVE (R331, R360): BUS_OFF
lasts through HELD and the recovery (R351, R353, R354). -/
def noteCounts (s : State) (n : Nat) (wasPassive : Bool) : State :=
  let c := getCan s n
  let s := wr s (canPage n + 0x60)
    (min 255 c.tec * 0x10000 + b2n (decide (128 ≤ c.recv)) * 0x8000 + c.recv % 128 * 0x100)
  let s := setFld s (canStatus n) 23 22 (if fld s (canPage n + 0x44) 2 0 = 4 ∨ fld s (canPage n + 0x44) 2 0 = 5 ∨ c.recovering then 2
    else if canPassive s n then 1 else 0)
  if canPassive s n && !wasPassive then setBit s (canEvents n) 5 else s

/-- State with the counts of a channel replaced, in NORMAL and LOOPBACK only (R331). -/
def setCounts (s : State) (n tec recv : Nat) : State :=
  if canActs s n = 0 ∨ canActs s n = 3 then
    let was := canPassive s n
    noteCounts (putCan s n { getCan s n with tec := tec, recv := recv }) n was
  else s

/-- CAN_STATUS.RANGE and integration at RUN (R330, R333). -/
def canRun (s : State) (n : Nat) : State :=
  let pg := canPage n
  let nbt := 3 + fld s (pg + 0x48) 23 16 + fld s (pg + 0x48) 15 9
  let dbt := 3 + fld s (pg + 0x50) 23 19 + fld s (pg + 0x50) 18 15
  let nc := (fld s (pg + 0x4C) 4 0 + 1) * nbt
  let dc := (fld s (pg + 0x4C) 9 5 + 1) * dbt
  let bad := decide (nc < 80) || decide (8000 < nc) ||
    (fdEn s n && brsEn s n && (decide (nc < dc) || decide (dc < 10) || decide (dbt < 5)))
  fwStart (refreshOutput (canLeave (putBit s (canStatus n) 17 bad) n) n) n

/-- Transmitter delay compensation in force (R333). -/
def tdcOn (s : State) (n : Nat) : Bool := bit s (canCtrl n) 17 && decide (fld s (canPage n + 0x4C) 9 5 ≤ 1)

/-! ## Message objects (R340 to R343) -/

def objW (s : State) (n i w : Nat) : Nat := rd s (objAddr n i w)
def objBit (s : State) (n i w b : Nat) : Bool := bitsOf (objW s n i w) b b == 1
/-- A software send object, a router-fed object, a receive object (R340). -/
def objSend (s : State) (n i : Nat) : Bool := objBit s n i 0 23 && objBit s n i 0 22 && !(objBit s n i 0 21)
def objRouter (s : State) (n i : Nat) : Bool := objBit s n i 0 22 && objBit s n i 0 21
def objRecv (s : State) (n i : Nat) : Bool := objBit s n i 0 23 && !(objBit s n i 0 22) && !(objBit s n i 0 21)
/-- REQ reads 1: the object is pending. -/
def objPending (s : State) (n i : Nat) : Bool := objBit s n i 5 23
def objects : List Nat := List.range 96

/-- The frame header of an object (R340). -/
def objHdr (s : State) (n i : Nat) : CanHdr :=
  let h := objW s n i 1
  let ide := bitsOf h 23 23 == 1
  let id := bitsOf h 4 0 * 2 ^ 24 + objW s n i 2
  { ide := ide, fdf := bitsOf h 21 21 == 1, brs := bitsOf h 20 20 == 1, rtr := bitsOf h 22 22 == 1 && bitsOf h 21 21 == 0,
    esi := false, id := if ide then id else id % 2 ^ 11 }

/-- LEN of an object as it acts (R340). -/
def objLen (s : State) (n i : Nat) : Nat :=
  let l := min 64 (bitsOf (objW s n i 1) 19 13)
  if (objHdr s n i).fdf then l else min 8 l

/-- The data of an object's frame, padded with 0x00 to a CAN FD data length (R340). -/
def objData (s : State) (n i : Nat) : List Byte :=
  let h := objHdr s n i
  let l := objLen s n i
  let raw := ((List.range 22).flatMap (fun k => wordBytes (objW s n i (7 + k)))).take l
  if h.fdf then raw ++ List.replicate (fdLength l - l) 0 else if h.rtr then [] else raw

/-- Writes a frame into an object's words 1, 2 and 7 to 28 (R339). -/
def objStore (s : State) (n i : Nat) (h : CanHdr) (data : List Byte) (len : Nat) : State :=
  let hw := b2n h.ide * 2 ^ 23 + b2n (h.rtr && !h.fdf) * 2 ^ 22 + b2n h.fdf * 2 ^ 21 + b2n (h.brs && h.fdf) * 2 ^ 20 +
    min 64 len * 2 ^ 13 + h.id / 2 ^ 24 % 32
  let s := wr (wr s (objAddr n i 1) hw) (objAddr n i 2) (h.id % 2 ^ 24)
  forEach (List.range 22) s (fun s k => wr s (objAddr n i (7 + k)) (beAt data (3 * k) 3))

/-- CAN_OBJ_INFO: router-fed objects with EN 1, and how many are free (R343). -/
def objInfo (s : State) (n : Nat) : Nat :=
  let rs := objects.filter (fun i => objBit s n i 0 23 && objRouter s n i)
  rs.length * 0x10000 + (rs.filter (fun i => !(objPending s n i))).length * 0x100

/-- A 96-bit map of the objects, by word (R342). -/
def objMap (s : State) (n w b : Nat) : Nat :=
  (List.range 24).foldl (fun m j => m + b2n (objBit s n (24 * w + j) 5 b) * 2 ^ j) 0

/-- The request of an object ends with an outcome bit of OBJ_CMD (R341 to R343): REQ and FROZEN cleared, CAN_END_MAP set; a
router-fed object sets no outcome bit, and its frame is counted in CAN_RTR_DISCARD unless it was sent. -/
def objEnd (s : State) (n i outcome : Nat) : State :=
  let c := getCan s n
  let s := putCan s n { c with cancelled := c.cancelled.filter (fun j => j != i) }
  if !(objPending s n i) then s
  else
    let a := objAddr n i 5
    let s := setBit (clrBit (clrBit s a 23) a 13) (canPage n + 0xA0 + 4 * (i / 24)) (i % 24)
    let key := n * 96 + i
    let s := { s with canReq := mapDel s.canReq key, canQueue := mapDel s.canQueue key, canLimits := mapDel s.canLimits key }
    if objRouter s n i then (if outcome = 19 then s else addStat s (canPage n + 0x108) 1)
    else setBit s a outcome

/-- An object becomes pending (R341, R345, R350): OBJ_TRIES cleared, frozen in BUS_OFF and HELD. -/
def objPend (s : State) (n i : Nat) : State :=
  let a := objAddr n i 5
  let s := wr (setBit s a 23) (objAddr n i 6) 0
  let s := if 4 ≤ canMode s n then setBit s a 13 else s
  { s with canReq := mapSet s.canReq (n * 96 + i) s.canReqNext, canReqNext := s.canReqNext + 1 }

/-- OBJ_CMD.REQ on object i (R336, R341, R359). -/
def objRequest (s : State) (n i : Nat) : State :=
  if !(objSend s n i) || objPending s n i then s
  else
    let s := objPend s n i
    if isFallow s (canPage n) then objEnd s n i 15
    else if (objHdr s n i).fdf && !(fdEn s n) then objEnd (incSat s (canPage n + 0xE8)) n i 17
    else s

/-- OBJ_CMD.CANCEL on object i (R348). -/
def objCancel (s : State) (n i : Nat) : State :=
  if !(objPending s n i) then s
  else if (getCan s n).current = some i then
    let c := getCan s n
    putCan s n { c with cancelled := if c.cancelled.contains i then c.cancelled else c.cancelled ++ [i] }
  else objEnd s n i 15

/-- A write of OBJ_CMD (R339, R348): outcome bits and NEW cleared by ones but for those that hardware sets at
this very moment (R50), then REQ or CANCEL, neither when both are set. -/
def objCommand (s : State) (n i v : Nat) : State :=
  let a := objAddr n i 5
  let s := setFld s a 21 14 (fld s a 21 14 &&& (255 - bitsOf v 21 14 ||| hwSet s a 21 14))
  let req := bitsOf v 23 23 == 1; let cancel := bitsOf v 22 22 == 1
  if req && cancel then s
  else if req then objRequest s n i
  else if cancel then objCancel s n i
  else s

/-- The bits of window word w that a write or the image may set (R340); words 5 and 6 have their own rules. -/
def objMask (w : Nat) : Nat :=
  if w = 0 then 0xFFFFF0 else if w = 1 then 0xFFE01F else if w = 3 then 0xC0001F else if w = 5 ∨ w = 6 then 0
  else if w = 28 then 0xFF0000 else 0xFFFFFF

/-- The object in the window (R340); none when OBJ is above 95. -/
def objSel (s : State) (n : Nat) : Option Nat :=
  let i := fld s (canPage n + 0x70) 6 0
  if i < 96 then some i else none

/-- A read of window word w (R340, R343): CANCEL reads 1 while a cancel waits for the end of its frame (R9, R348). -/
def objRead (s : State) (n w : Nat) : Nat :=
  match objSel s n with
  | none => 0
  | some i =>
    if objRouter s n i && (w == 1 || w == 2 || decide (7 ≤ w)) then 0
    else if w = 5 ∧ (getCan s n).cancelled.contains i then objW s n i w ||| 2 ^ 22
    else objW s n i w

/-- Hardware owns the object (R339, R341, R343): a router-fed one, a pending one, a receive object in use while NEW is 0. An
object with EN 0 is not in use and is software's (DEDUCED, notes/assumptions/130.md). -/
def objHard (s : State) (n i : Nat) : Bool :=
  objRouter s n i || objPending s n i || (objRecv s n i && !(objBit s n i 5 21))

/-- A write of window word w by a requester (R340 to R343, R55, R56, R65). -/
def objWrite (s : State) (req n w v : Nat) : State :=
  let pg := canPage n
  let slot := pg + 0x200 + 4 * w
  match objSel s n with
  | none => s
  | some i =>
    let a := objAddr n i w
    let masked := v &&& objMask w
    if w = 0 ∨ w = 3 ∨ w = 4 then
      if masked = rd s a then s
      else if bit s (pg + 0x24) 0 then
        lockViolation (if w = 0 ∧ running s pg then qRefused s slot else s) req slot
      else if w = 0 then (if running s pg then qRefused s slot else wr s a masked)
      else
        let s := canLook s pg
        let s := if inItem s pg && !(s.bOld.any (fun b => b.cell == pg && b.addr == a)) then
            { s with bOld := { cell := pg, addr := a, old := BitVec.ofNat 24 (rd s a) } :: s.bOld }
          else s
        wr s a masked
    else if w = 5 then objCommand s n i v
    else if w = 6 then s
    else if objHard s n i || hwMoved s a 23 0 then s
    else syncWord (wr s a masked) a (rd s a) masked

/-! ## Reception (R336 to R339) -/

/-- A receive object matches a frame (R338). -/
def objMatches (s : State) (n i : Nat) (h : CanHdr) : Bool :=
  let o := objHdr s n i
  let mh := eff s (canPage n) (objAddr n i 3) 23 0
  let mask := bitsOf mh 4 0 * 2 ^ 24 + eff s (canPage n) (objAddr n i 4) 23 0
  let oid := bitsOf (objW s n i 1) 4 0 * 2 ^ 24 + objW s n i 2
  objRecv s n i && o.ide == h.ide && (h.id ^^^ oid) &&& mask == 0 &&
    (bitsOf mh 23 23 == 0 || objBit s n i 1 22 == (h.rtr && !h.fdf)) && (bitsOf mh 22 22 == 0 || o.fdf == h.fdf)

/-- Offers a valid frame to the receive objects in ascending index (R338); `len` is what LEN shows. -/
def objOffer (s : State) (n : Nat) (h : CanHdr) (data : List Byte) (len : Nat) : State :=
  match objects.find? (fun i =>
    objMatches s n i h && (!(objBit s n i 5 21) || !(objBit s n i 0 20))) with
  | none => s
  | some i =>
    if objBit s n i 5 21 then
      setBit (incSat (setBit s (objAddr n i 5) 20) (canPage n + 0xE0)) (canEvents n) 0
    else setBit (objStore s n i h data len) (objAddr n i 5) 21

/-- A frame offered to the pipeline and to the receive objects (R337). The pseudo-header of a remote frame shows the count of its
data bytes, none (DESIGN CHOICE, notes/assumptions/130.md). -/
def canDeliver (s : State) (n : Nat) (h : CanHdr) (data : List Byte) (len : Nat) : State :=
  let s := if effBit s (canPage n) (canCtrl n) 19 then (busItem s n .can (canPseudo h data.length ++ data)).2 else s
  objOffer s n h data len

/-- LONE of a channel ends (R355, R445). -/
def loneEnds (s : State) (n : Nat) : State :=
  let s := putCan s n { getCan s n with acks := 0 }
  if bit s (canStatus n) 21 then comfail (clrBit s (canStatus n) 21) n false else s

/-- An error code in LEC or DLEC and in its counter (R360): 1 stuff, 2 form, 3 ACK, 4 bit 1, 5 bit 0, 6 CRC; 0 names none of
them. -/
def noteError (s : State) (n code : Nat) (dataPhase : Bool) : State :=
  if code = 0 then s
  else
  let s := setFld s (canStatus n) (if dataPhase then 6 else 9) (if dataPhase then 4 else 7) code
  if 1 ≤ code ∧ code ≤ 6 then incSat s (canPage n + 0xC4 + 4 * (code - 1)) else s

/-- How long a frame keeps the bus of a channel busy, in ticks: its bits at the nominal and at the data bit rate of 80 MHz (R334,
R544). -/
def canFrameTicks (s : State) (n : Nat) (h : CanHdr) (data : List Byte) : Nat :=
  let pg := canPage n
  let nc := (fld s (pg + 0x4C) 4 0 + 1) * (3 + fld s (pg + 0x48) 23 16 + fld s (pg + 0x48) 15 9)
  let dc := (fld s (pg + 0x4C) 9 5 + 1) * (3 + fld s (pg + 0x50) 23 19 + fld s (pg + 0x50) 18 15)
  let f := [b2n h.ide, b2n h.fdf, b2n h.brs, b2n h.rtr, b2n h.esi, h.id] ++ data.map (·.toNat)
  (Config.canNominal f * nc + Config.canData f * dc) * 5 / 2

/-- An attempt of the channel to send ends: the bus was busy since it began (R544). -/
def canSpent (s : State) (n : Nat) : State := noteBusy s n (getCan s n).sendAt

/-- An error detected while receiving (R331): REC rises by `ones` (0 where the standard adds only the eights) and by 8 for
each occurrence of its other rules; a channel in NORMAL signals it by an error flag, RESTRICTED integrates (R328); the frame's
words are rewound (R95, R96). How long it kept the bus busy is a free value. -/
def canRxError (s : State) (n code : Nat) (dataPhase : Bool) (ones eights : Nat) : State :=
  let (d, s) := drawNat s
  let s := noteBusy s n (s.now - d % usTicks 10000)
  let s := noteError (canQuiet s n) n code dataPhase
  let s := if canActs s n = 0 then send s n .canErrorFlag [b2n (canPassive s n)] [] else s
  let s := if effBit s (canPage n) (canCtrl n) 19 then furRewind s (canPage n) else s
  let c := getCan s n
  let s := setCounts s n c.tec (min 255 (c.recv + ones + 8 * eights))
  if canActs s n = 2 then putCan s n { getCan s n with joined := false } else s

/-- REC after a valid reception (R331): 1 less, and from above 127 a value of 119 to 127 that the standard leaves open. -/
def recAfter (s : State) (n : Nat) : State :=
  let c := getCan s n
  if c.recv > 127 then
    let (d, s) := drawNat s
    setCounts s n c.tec (119 + d % 9)
  else setCounts s n c.tec (c.recv - 1)

/-- A frame of another node becomes valid on a channel (R336, R337, R355, R431, R443); NORMAL and RESTRICTED have acknowledged it
(R328). -/
def canReceived (s : State) (n : Nat) (h : CanHdr) (data : List Byte) : State :=
  let s := canQuiet s n
  if h.fdf && !(fdEn s n) then
    if bit s (canCtrl n) 21 then
      putCan (setBit (incSat s (canPage n + 0xEC)) (canEvents n) 2) n { getCan s n with joined := false }
    else canRxError s n 2 false 1 0
  else
    let s := handled (noteBusy s n (s.now - canFrameTicks s n h data)) (canPage n)
    let s := if canActs s n = 0 ∨ canActs s n = 2 then send s n .canAck [] [] else s
    let s := addStat (loneEnds (recAfter s n) n) (canPage n + 0x100) 1
    let s := validFrame s n
    let s := if canCounts s n h.ide h.id then remoteNm s n (kaSource s n h.id data) else s
    serveHints (canDeliver s n h data data.length)

/-! ## Transmission (R344 to R349) -/

/-- The arbitration field of a frame as a number: the lower wins (R345). -/
def arbKey (h : CanHdr) : Nat :=
  let rtr := b2n (h.rtr && !h.fdf)
  if h.ide then h.id / 2 ^ 18 % 2 ^ 11 * 2 ^ 21 + 2 ^ 20 + 2 ^ 19 + h.id % 2 ^ 18 * 2 + rtr
  else h.id % 2 ^ 11 * 2 ^ 21 + rtr * 2 ^ 20

/-- An object competes: pending, not frozen, not cancelled (R345). -/
def objCompetes (s : State) (n i : Nat) : Bool :=
  objPending s n i && objBit s n i 0 23 && objBit s n i 0 22 && !(objBit s n i 5 13) && !((getCan s n).cancelled.contains i)

/-- The order of R345 between two objects. -/
def objBefore (s : State) (n i j : Nat) : Bool :=
  let ki := arbKey (objHdr s n i); let kj := arbKey (objHdr s n j)
  let ri := mapGet 0 s.canReq (n * 96 + i); let rj := mapGet 0 s.canReq (n * 96 + j)
  decide (ki < kj) || (ki == kj && (decide (ri < rj) || (ri == rj && decide (i < j))))

/-- The object that a selection chooses. -/
def objBest (s : State) (n : Nat) : Option Nat :=
  (objects.filter (objCompetes s n)).foldl (fun b i => match b with
    | none => some i
    | some j => if objBefore s n i j then some i else some j) none

/-- Ends a pending object whose frame the channel's format settings refuse (R336). -/
def fmtRefuse (s : State) (n i : Nat) : State := objEnd (incSat s (canPage n + 0xE8)) n i 17

/-- A selection instant (R345): the best object goes on the bus; frames that R336 refuses are ended first. -/
def canSelect : Nat → State → Nat → State
  | 0, s, _ => s
  | k + 1, s, n =>
    match objBest s n with
    | none => s
    | some i =>
      if (objHdr s n i).fdf && !(fdEn s n) then canSelect k (fmtRefuse s n i) n
      else setFld (putCan s n { getCan s n with current := some i, sendAt := s.now, rxOpen := false }) (canStatus n) 3 2 2

/-- A selection may start a frame (R328, R330, R356, R429, R624). -/
def canMaySend (s : State) (n : Nat) : Bool :=
  canOnBus s n && (canActs s n == 0 || canActs s n == 3) && (getCan s n).current.isNone && !(bit s (canStatus n) 20) &&
    !(chanAsleep s n)

/-- The limits of an object's request: error retries and arbitration losses (R344, R347). -/
def objLimits (s : State) (n i : Nat) : Nat × Nat :=
  if objRouter s n i then
    let l := mapGet 0xFFFF s.canLimits (n * 96 + i)
    (l / 256, l % 256)
  else (bitsOf (objW s n i 0) 19 12, bitsOf (objW s n i 0) 11 4)

/-- The object on the bus leaves it. -/
def objOff (s : State) (n : Nat) : State := setFld (putCan s n { getCan s n with current := none }) (canStatus n) 3 2 0

/-- The object on the bus loses arbitration (R346, R347, R348): the channel receives the frame that won. -/
def canArbLoss (s : State) (n : Nat) : State :=
  match (getCan s n).current with
  | none => s
  | some i =>
    let s := incSat (objOff s n) (canPage n + 0xDC)
    let s := putCan s n { getCan s n with rxOpen := true }
    let arbs := fld s (objAddr n i 6) 23 16 + 1
    let s := setFld s (objAddr n i 6) 23 16 (min 255 arbs)
    let lim := (objLimits s n i).2
    if lim ≠ 255 ∧ arbs > lim then objEnd s n i 16
    else if (getCan s n).cancelled.contains i then objEnd s n i 15
    else s

/-- The loop delay measured in a frame sent with BRS (R335). -/
def tdcMeasure (s : State) (n i : Nat) (delay : Option Nat) : State :=
  let h := objHdr s n i
  if tdcOn s n && h.fdf && h.brs && brsEn s n then
    let a := canPage n + 0x54
    match delay with
    | some d =>
      if fld s a 16 10 ≤ d ∧ d ≤ 127 then
        let s := wr s (canPage n + 0x64) (128 + d)
        if d + fld s a 23 17 > 127 then setBit s (canEvents n) 1 else s
      else setBit s (canEvents n) 1
    | none => setBit s (canEvents n) 1
  else s

/-- A router-fed object is emptied, a software request ended, at an outcome (R353, R354, R359). -/
def objClear (s : State) (n outcome : Nat) (routerOnly : Bool) : State :=
  forEach objects s (fun s i => if objPending s n i && (objRouter s n i || !routerOnly) then objEnd s n i outcome else s)

/-- Entry into HELD (R353). -/
def canHeld (s : State) (n : Nat) : State :=
  let s := objClear (setBit (setCanMode s n 5) (canEvents n) 8) n 15 true
  let s := putCan s n { getCan s n with recovering := false }
  raisePlain s (canPage n) 0x07 (n % 8 + 1)

/-- Entry into BUS_OFF and the policy of its block (R350, R352). -/
def canBusOff (s : State) (n : Nat) : State :=
  let c := getCan s n
  let pol := commonOf (canPage n) + 0x40
  let window := msTicks (clamp 1 1000000 (fld s pol 19 0))
  let recent := (c.boffs.filter (fun t => decide (s.now - t < window))).length
  let s := putCan s n
    { c with
      prevMode := canMode s n
      joined := false
      recovering := true
      current := none
      rxOpen := false
      boffs := (s.now :: c.boffs).take 15 }
  let s := setFld (setCanMode s n 4) (canStatus n) 16 10 0
  let s := setFld (incSat (setBit s (canEvents n) 6) (canPage n + 0xC0)) (canStatus n) 23 22 2
  let s := forEach objects s (fun s i => if objPending s n i then setBit s (objAddr n i 5) 13 else s)
  if fld s pol 23 20 ≠ 0 ∧ recent ≥ fld s pol 23 20 then canHeld s n else s

/-- TEC rises by `add` (R331), and above 255 the channel enters BUS_OFF (R350). -/
def canTecAdds (s : State) (n add : Nat) : State :=
  if canOnBus s n && (canActs s n == 0 || canActs s n == 3) then
    let c := getCan s n
    let s := setCounts s n (c.tec + add) c.recv
    if (getCan s n).tec > 255 then canBusOff s n else s
  else s

/-- The attempt of the object on the bus ends in an error (R331, R335, R347, R350, R355): the error's code and phase, whether
a rule of the standard exempts it, occurrences that add 8 more, whether a dominant bit was seen in a passive flag. A form or
ACK error lies after the data phase; an attempt that ended before that phase has no loop delay to miss. With no attempt on the
bus only the additions of 8 remain: dominant bits after the flag of an error or overload frame (R331). -/
def canTxError (s : State) (n code : Nat) (dataPhase exempt domSeen : Bool) (eights : Nat) (delay : Option Nat) : State :=
  match (getCan s n).current with
  | none => canTecAdds s n (8 * eights)
  | some i =>
    let past := delay.isSome || dataPhase || code == 2 || code == 3
    let s := noteError s n code dataPhase
    let s := objOff (if past then tdcMeasure (canSpent s n) n i delay else canSpent s n) n
    let passive := canPassive s n
    let s := if canActs s n = 0 then send s n .canErrorFlag [b2n passive] [] else s
    let c := getCan s n
    let add := (if exempt || (code == 3 && passive && !domSeen) then 0 else 8) + 8 * eights
    let acks := if code = 3 then c.acks + 1 else 0
    let s := setCounts (putCan s n { c with acks := acks }) n (c.tec + add) c.recv
    let s := if acks ≥ 32 ∧ !(bit s (canStatus n) 21) then
        comfail (setBit (setBit s (canStatus n) 21) (canEvents n) 4) n true
      else s
    if (getCan s n).tec > 255 then
      let gone := (getCan s n).cancelled.contains i
      let s := canBusOff s n
      if gone then objEnd s n i 15 else s
    else
      let errs := fld s (objAddr n i 6) 15 8 + 1
      let s := setFld s (objAddr n i 6) 15 8 (min 255 errs)
      let lim := (objLimits s n i).1
      if lim ≠ 255 ∧ errs > lim then objEnd s n i (if code = 3 then 18 else 17)
      else if (getCan s n).cancelled.contains i then objEnd s n i 15
      else s

/-- The frame of the object on the bus is sent (R331, R335 to R337, R341, R348, R355). -/
def canTxDone (s : State) (n : Nat) (delay : Option Nat) : State :=
  match (getCan s n).current with
  | none => s
  | some i =>
    let o := objHdr s n i
    let h := { o with esi := canPassive s n && o.fdf, brs := o.brs && o.fdf && brsEn s n }
    let data := objData s n i
    let s := objOff (tdcMeasure (handled (canSpent s n) (canPage n)) n i delay) n
    let loop := canMode s n == 3
    let len := if h.rtr then objLen s n i else data.length
    let s := if loop then s
      else send s n .canFrame [b2n h.ide, b2n h.fdf, b2n h.brs, b2n h.esi, b2n h.rtr, h.id, len] data
    let c := getCan s n
    let s := setCounts s n (c.tec - 1) c.recv
    let s := objEnd (addStat (loneEnds s n) (canPage n + 0x104) 1) n i 19
    if effBit s (canPage n) (canCtrl n) 20 || loop then canDeliver s n h data len else s

/-- The lowest free router-fed object (R344). -/
def objFree (s : State) (n : Nat) : Option Nat :=
  objects.find? (fun i => objBit s n i 0 23 && objRouter s n i && !(objPending s n i))

/-- The data with which a copy fills a CAN frame (R281, R303, R309, R310, R325): padded to a CAN FD data length. DESIGN CHOICE:
R303 is judged at the lookup, on the PDU as it then is; of one that GENERATE makes longer than the frame the first 8 or 64 bytes
are sent (notes/assumptions/148.md). -/
def canDataOf (form : CopyForm) (h : CanHdr) (bs : List Byte) : List Byte :=
  let d := pduOf form bs
  if h.fdf then
    let d := d.take 64
    d ++ List.replicate (fdLength d.length - d.length) (if form.src = 8 then BitVec.ofNat 8 form.fill else 0)
  else if h.rtr then [] else d.take 8

/-- A routed copy selected for the channel is written into the lowest free router-fed object (R106, R336, R344, R353). -/
def canFill (s : State) (n : Nat) : State :=
  match mapGet? s.inFlight n with
  | none => s
  | some c =>
    let f := getFrame s c.frame
    let h := canHdrOf c.form f.bytes
    let done := fun (s : State) => freeIfDone (endFlight s n) c.frame
    if f.poison then done (incSat s (canPage n + 0xE4))
    else if h.fdf && !(fdEn s n) then done (incSat s (canPage n + 0xE8))
    else match objFree s n with
      | none => s
      | some i =>
        let data := canDataOf c.form h f.bytes
        let len := if h.rtr && !h.fdf then c.form.len else data.length
        let key := n * 96 + i
        let lim := eff s (canPage n) (canPage n + 0x58) 23 16 * 256 + eff s (canPage n) (canPage n + 0x58) 15 8
        let s := latency (objPend (objStore s n i h data len) n i) n c.cls (readyAt s c)
        let s := { s with
          canQueue := mapSet s.canQueue key (c.input * 8 + c.cls)
          canLimits := mapSet s.canLimits key lim }
        let s := if 5 ≤ canMode s n then objEnd s n i 15 else s
        done s

/-! ## Bus integration, recovery, restart (R330, R351, R354) -/

/-- The 128th occurrence of 11 recessive bits (R351). -/
def canRecovered (s : State) (n : Nat) : State :=
  let c := getCan s n
  let s := putCan s n { c with tec := 0, recv := 0, recovering := false, joined := !([2, 3].contains (mapGet 0 s.trxMode n)) }
  let s := setFld (setBit s (canEvents n) 7) (canStatus n) 16 10 0
  let s := forEach objects s (fun s i => clrBit s (objAddr n i 5) 13)
  let s := if fld s (canPage n + 0x44) 2 0 = 4 then setCanMode s n c.prevMode else s
  noteCounts s n false

/-- A channel sees 11 consecutive recessive bits (R330, R351, R443): it counts them in recovery, else it may take part. -/
def canIntegrate (s : State) (n : Nat) : State :=
  let c := getCan s n
  if !(running s (canPage n)) || isFallow s (canPage n) || fld s (canPage n + 0x44) 2 0 == 5 then s
  else if c.recovering then
    let k := fld s (canStatus n) 16 10
    if k ≥ 127 then canRecovered s n else setFld s (canStatus n) 16 10 (k + 1)
  else if mapGet 0 s.trxMode n = 2 ∨ mapGet 0 s.trxMode n = 3 then s
  else putCan s n { c with joined := true }

/-- What the RESTART of a CAN cell does beyond the general clearing (R354). -/
def canRestart (s : State) (n : Nat) : State :=
  let c := getCan s n
  let m := fld s (canPage n + 0x44) 2 0
  let s := objClear (putCan s n { c with current := none, cancelled := [] }) n 15 false
  let s := forEach objects s (fun s i => wr s (objAddr n i 6) 0)
  let off := m == 4 || m == 5
  let s := putCan s n
    { c with
      tec := 0
      recv := 0
      joined := false
      recovering := c.recovering || off
      boffs := []
      current := none
      cancelled := []
      rxOpen := false
      acks := 0 }
  let s := if off then setCanMode s n c.prevMode else s
  let s := comfail (setFld s (canStatus n) 16 10 0) n false
  clearHeads (noteCounts s n true) (canPage n)

/-! ## The software write of MODE (R329) -/

/-- A software write of CAN_MODE: 4 to 7, and any while a hardware mode stands, is ignored; else it waits for the item
boundary. -/
def canModeWrite (s : State) (req n v : Nat) : State :=
  let a := canPage n + 0x44
  let held := fld s a 2 0
  if 4 ≤ v % 8 ∨ (4 ≤ held ∧ held ≤ 6) then s else softWord s req a v

/-! ## Spare cell and FALLOW (R357 to R359) -/

/-- The page of the spare cell of a channel's block. -/
def sparePage (n : Nat) : Nat := commonOf (canPage n) + 0x9000
def spareActive (s : State) (n : Nat) : Bool := bit s (sparePage n + 0x40) 23

/-- A channel enters FALLOW (R359): record, roster, requests ended, transceiver asleep. -/
def canToFallow (s : State) (n code : Nat) : State :=
  if isFallow s (canPage n) then s
  else
    let s := putCan s n { getCan s n with joined := false, recovering := false, current := none, rxOpen := false }
    let s := setBit (setCanMode { s with fallow := canPage n :: s.fallow } n 6) (canEvents n) 9
    let s := objClear s n 15 false
    refreshTrx (retire s 1 (canPage n) code 0 0) n

/-- The digital side of a channel changes its cell (R357, R541): the frame in flight is lost and its attempt not counted, a
request whose cancellation waited for that frame ends with CANCELLED (R348), and the new cell integrates before it takes part. -/
def canMoved (s : State) (n : Nat) : State :=
  let gone := (getCan s n).cancelled
  let s := putCan { s with movedAt := mapSet s.movedAt n s.now } n
    { getCan s n with joined := false, current := none, cancelled := [], rxOpen := false }
  forEach gone s (fun s i => objEnd s n i 15)

/-- The spare cell takes over a channel (R357, R358); where it already serves another, or fails while it serves this one,
the channel enters FALLOW (R359). -/
def canTakeover (s : State) (n code : Nat) : State :=
  if isFallow s (canPage n) then s
  else if spareActive s n || isFallow s (sparePage n) then canToFallow s n code
  else
    let s := canMoved (wr s (sparePage n + 0x40) (0x800000 + (n % 8 + 1))) n
    retire (setBit s (canEvents n) 10) 2 (canPage n) code 0 9

/-- An object's word fails parity (R357): the software request ends with TXERR, the router-fed object is emptied. -/
def objParity (s : State) (n i : Nat) : State :=
  let s := setBit s (objAddr n i 5) 14
  let s := if (getCan s n).current = some i then objOff s n else s
  objEnd s n i 17

end Sys2Proof.Machine
end

