-- ==== Sys2Proof/Machine/Lin.lean ====
section
/-! DEFINITION. LIN channels: identifiers and buffers, schedule tables, responses, errors, wake pulses and FALLOW
(10_lin_channels.md, R364 to R388). -/
namespace Sys2Proof.Machine

/-! ## Identifiers and frames (R365 to R370) -/

/-- LIN_CTRL.ROLE: the channel is its cluster's commander. -/
def linCommander (s : State) (m : Nat) : Bool := bit s (linPage m + 0x40) 23
/-- LIN_SCHED, LIN_STATUS and LIN_EVENTS of a channel. -/
def linSched (m : Nat) : Nat := linPage m + 0x50
def linStatus (m : Nat) : Nat := linPage m + 0x5C
def linEvents (m : Nat) : Nat := linPage m + 0x60
def linCfg (m i : Nat) : Nat := linPage m + 0x100 + 4 * i
def linBuf (m i k : Nat) : Nat := linPage m + 0x200 + 0x10 * i + 4 * k
def linBufStat (m i : Nat) : Nat := linPage m + 0x20C + 0x10 * i

/-- The bit time of a channel in ns: LIN_BAUD.DIV × 25 ns, DIV from 2,000 to 40,000 (R364). -/
def linBitNs (s : State) (m : Nat) : Nat := 25 * clamp 2000 40000 (fld s (linPage m + 0x44) 15 0)
/-- Bits by which the channel's break and delimiter exceed 13 and 1 (R365, R387). -/
def linExtra (s : State) (m : Nat) : Nat := min 13 (fld s (linPage m + 0x40) 20 16) + fld s (linPage m + 0x40) 15 14
/-- Bit times of a header: break, delimiter, sync byte and PID (R365, R368). -/
def linHeadBits (s : State) (m : Nat) : Nat := 34 + linExtra s m

/-- The protected identifier of an identifier (R365). -/
def linPid (i : Nat) : Nat :=
  let b := fun k => i / 2 ^ k % 2
  i % 64 + (b 0 + b 1 + b 2 + b 4) % 2 * 64 + (1 + b 1 + b 3 + b 4 + b 5) % 2 * 128

/-- The inverted 8-bit sum with end-around carry (R367). -/
def linSum (bs : List Nat) : Nat := 255 - bs.foldl (fun a b => if a + b ≥ 256 then a + b - 255 else a + b) 0

/-- ENH of an identifier as its frames use it: 0x3C and 0x3D are classic (R367). -/
def linEnhanced (s : State) (m i : Nat) : Bool :=
  i != 0x3C && i != 0x3D && effBit s (linPage m) (linCfg m i) 21

/-- The checksum of an identifier's frame (R367). -/
def linCheck (s : State) (m i : Nat) (data : List Byte) : Nat :=
  linSum ((if linEnhanced s m i then [linPid i] else []) ++ data.map (·.toNat))

/-- Data bytes of an identifier: LEN + 1. -/
def linLen (s : State) (m i : Nat) : Nat := eff s (linPage m) (linCfg m i) 20 18 + 1
/-- DIR of an identifier, 3 as NONE (R369), PUBLISH with SRC 3 as NONE (R371): 0 none, 1 subscribe, 2 publish. -/
def linDir (s : State) (m i : Nat) : Nat :=
  let d := eff s (linPage m) (linCfg m i) 23 22
  if d = 3 ∨ (d = 2 ∧ eff s (linPage m) (linCfg m i) 17 16 = 3) then 0 else d
def linSrc (s : State) (m i : Nat) : Nat := eff s (linPage m) (linCfg m i) 17 16

/-- The data bytes in a response buffer. -/
def linBufData (s : State) (m i : Nat) : List Byte :=
  ((List.range 3).flatMap (fun k => wordBytes (rd s (linBuf m i k)))).take 8

/-- Bytes brought to a length, padded with 0xFF (R373). -/
def linFit (n : Nat) (bs : List Byte) : List Byte := (bs ++ List.replicate n 0xFF).take n

/-- The bus is dominant: no frame starts (R356, R381). -/
def linDominant (s : State) (m : Nat) : Bool := bit s (linStatus m) 20
/-- The channel hears its bus: its page runs, it is not FALLOW and its transceiver neither sleeps nor stands in FAILSAFE (R449,
R450). -/
def linHears (s : State) (m : Nat) : Bool :=
  running s (linPage m) && !(isFallow s (linPage m)) && !([2, 3].contains (mapGet 0 s.trxMode (64 + m)))

/-- The channel may transmit headers and responses: its page runs, it is not FALLOW, its cluster is awake, the pair's outputs
are not quiet and the bus is not dominant (R356, R381, R382, R429, R624). -/
def linMaySend (s : State) (m : Nat) : Bool :=
  linHears s m && !(chanAsleep s (64 + m)) && !(pairQuiet s) && !(linDominant s m)
/-- A frame that begins now at the channel's own bit time. -/
def linNew (s : State) (m i dir len : Nat) : LinFrame :=
  { ident := i, dir := dir, data := [], len := len, event := none, pull := none, began := s.now, bitNs := linBitNs s m }
/-- 1.4 × TF of a frame in ns, TF = 34 + 10 × (N + 1) bit times and the bits beyond 13 of the break and 1 of the delimiter
(R368). -/
def linLimitNs (s : State) (m : Nat) (f : LinFrame) : Nat := (linHeadBits s m + 10 * (f.len + 1)) * f.bitNs * 14 / 10
/-- The frame has lasted at least, or more than, 1.4 × TF (R368). -/
def linDue (s : State) (m : Nat) (f : LinFrame) : Bool := decide (linLimitNs s m f ≤ 5 * (s.now - f.began))
def linOver (s : State) (m : Nat) (f : LinFrame) : Bool := decide (linLimitNs s m f < 5 * (s.now - f.began))

/-- The frame in flight, with LIN_STATUS.ACTIVE (R387). -/
def linFrame (s : State) (m : Nat) (f : LinFrame) : State :=
  setBit (putLin s m { getLin s m with frame := some f }) (linStatus m) 16
/-- The frame in flight ends: the bus was busy since its break began (R544). -/
def linEnd (s : State) (m : Nat) : State :=
  let s := match (getLin s m).frame with
    | some f => handled (noteBusy s (64 + m) f.began) (linPage m)
    | none => s
  clrBit (putLin s m { getLin s m with frame := none, endedAt := s.now }) (linStatus m) 16

/-- An error of R380: LEC, its counter, LIN_EVENTS.ERROR. -/
def linError (s : State) (m code : Nat) : State :=
  setBit (incSat (setFld s (linStatus m) 23 21 code) (linPage m + 0x80 + 4 * (code - 1))) (linEvents m) 0

/-! ## Data of a published response (R371, R372) -/

/-- No data is available for an identifier (R371): the last data sent when KEEP is 1, else no response and a miss. -/
def linNoData (s : State) (m : Nat) (f : LinFrame) : State :=
  let f := { f with pull := none }
  match mapGet? (getLin s m).kept f.ident with
  | some d =>
    if effBit s (linPage m) (linCfg m f.ident) 15 then linFrame s m { f with data := linFit f.len d }
    else linFrame (incSat s (linPage m + 0xA4)) m { f with dir := 0 }
  | none => linFrame (incSat s (linPage m + 0xA4)) m { f with dir := 0 }

/-- Software sets READY of a buffer that is READY (R388). -/
def linReadyAgain (s : State) (m i : Nat) : State :=
  if bit s (linBufStat m i) 0 then putLin s m { getLin s m with readied := mapSet (getLin s m).readied i s.now } else s

/-- The response that a routed copy filled begins: its first bit leaves (R548). -/
def linFirst (s : State) (m i : Nat) : State :=
  let c := getLin s m
  match mapGet? c.filled i with
  | some (cls, ready) => latency (putLin s m { c with filled := mapDel c.filled i }) (64 + m) cls ready
  | none => s

/-- The buffer of an identifier is taken: READY cleared, SENT set (R371); a software set of this moment stands (R388). -/
def linTake (s : State) (m : Nat) (f : LinFrame) : State :=
  let st := linBufStat m f.ident
  if bit s st 0 then
    let stands := mapGet? (getLin s m).readied f.ident == some s.now
    linFrame (linFirst (setBit (if stands then s else clrBit s st 0) st 1) m f.ident) m { f with data := linFit f.len (linBufData s m f.ident) }
  else linNoData s m f

/-- A published response begins (R371): from its buffer, or as a frame that waits for its pull. -/
def linPublish (s : State) (m : Nat) (f : LinFrame) : State :=
  if linSrc s m f.ident = 1 then linFrame s m { f with pull := some (eff s (linPage m) (linCfg m f.ident) 13 0) }
  else linTake s m f

/-- LIN_PULL (R277, R282, R372): the mouldboard packs the layout for which a slot or a response waits, or refuses. -/
def linPull (s : State) (m : Nat) (bad : List (Nat × Nat)) (slots : List (Nat × Bool)) : State :=
  match (getLin s m).frame with
  | some f =>
    (match f.pull with
      | some l =>
        (match pullLayout s l bad slots with
          | (some d, s) => linFrame s m { f with pull := none, data := linFit f.len d }
          | (none, s) => linNoData s m f)
      | none => s)
  | none => s

/-- How the channel treats the response of a header (R369, R371, R376). -/
def linRespond (s : State) (m : Nat) (f : LinFrame) : State :=
  match linDir s m f.ident with
  | 2 => linPublish s m { f with dir := 2 }
  | d => linFrame s m { f with dir := d }

/-! ## The schedule (R375 to R379, R386) -/

/-- A slot word. -/
def linSlot (s : State) (m t i : Nat) : Nat := eff s (linPage m) (linPage m + 0x600 + 0x100 * (t % 8) + 4 * (i % 64)) 23 0
def slotDelay (w : Nat) : Nat := bitsOf w 11 0
def slotArg (w : Nat) : Nat := bitsOf w 14 12
def slotId (w : Nat) : Nat := bitsOf w 20 15
def slotType (w : Nat) : Nat := bitsOf w 23 21

/-- Software's next table. -/
def linNextTable (s : State) (m : Nat) : Nat := fld s (linPage m + 0x48) 2 0

/-- The schedule starts at slot 0 of NEXT (R378); one that starts while its cluster sleeps starts anew at the end of sleep. -/
def linStart (s : State) (m : Nat) : State :=
  let s := if chanAsleep s (64 + m) then s else { s with linMark := mapDel s.linMark m }
  let s := putLin s m
    { getLin s m with
      runs := true
      fresh := true
      inSlot := false
      slotAt := s.now
      resume := []
      collide := none
      late := false }
  setFld s (linSched m) 23 13 (linNextTable s m * 256)

/-- Where a schedule goes on: table, slot, the collision tables still to return from, and whether the running table
wrapped. -/
structure SlotPos where
  table : Nat
  slot : Nat
  resume : List (Nat × Nat)
  wrapped : Bool
  deriving DecidableEq, Repr

/-- A position in a table, which a slot with DELAY 0 or the 64th slot ends: a collision table returns to the slot after its
EVENT slot, any other table wraps (R375, R376). -/
def settle (s : State) (m : Nat) : List (Nat × Nat) → Nat → Nat → SlotPos
  | [], t, i =>
    if i < 64 ∧ slotDelay (linSlot s m t i) ≠ 0 then ⟨t, i, [], false⟩ else ⟨t, 0, [], true⟩
  | (rt, ri) :: rest, t, i =>
    if i < 64 ∧ slotDelay (linSlot s m t i) ≠ 0 then ⟨t, i, (rt, ri) :: rest, false⟩ else settle s m rest rt ri

/-- The slot after the running one (R376): the first slot after a start, the collision table's first, a SWITCH slot's table,
or the next in the table. -/
def slotAfter (s : State) (m : Nat) : SlotPos :=
  let c := getLin s m
  let t := fld s (linSched m) 23 21; let i := fld s (linSched m) 20 15
  if c.fresh then settle s m [] t i
  else
    let w := linSlot s m t i
    match c.collide with
    | some ct => settle s m ((t, i + 1) :: c.resume) ct 0
    | none => if slotType w = 6 then settle s m c.resume (slotArg w) 0 else settle s m c.resume t (i + 1)

/-- The slot to start, after a pending SWITCH (R378): it waits for a collision table, and with AT_END for a wrap. -/
def nextSlot (s : State) (m : Nat) : SlotPos × Bool :=
  let p := slotAfter s m
  if bit s (linPage m + 0x4C) 0 && p.resume.isEmpty && (!(bit s (linPage m + 0x48) 3) || p.wrapped) then
    (⟨linNextTable s m, 0, [], false⟩, true)
  else (p, false)

/-- When the next slot is due on the grid (R377). -/
def slotDue (s : State) (m : Nat) : Nat :=
  let c := getLin s m
  if c.fresh then c.slotAt
  else c.slotAt + slotDelay (linSlot s m (fld s (linSched m) 23 21) (fld s (linSched m) 20 15)) * 20000

/-- A header leaves the channel (R364, R365): PID, break and delimiter in bits, the bit time in ns. -/
def linHeader (s : State) (m i : Nat) : State :=
  let s := addStat (send s (64 + m) .linHeader [linPid i, 13 + min 13 (fld s (linPage m + 0x40) 20 16),
    1 + fld s (linPage m + 0x40) 15 14, linBitNs s m] []) (linPage m + 0xC4) 1
  linEdge s m (s.now + linHeadBits s m * linBitNs s m / 5)

/-- The first identifier of a SPORADIC slot whose buffer is READY (R376). -/
def sporadic (s : State) (m w : Nat) : Option Nat :=
  ((List.range (slotArg w + 1)).map (slotId w + ·)).find? (fun i =>
    decide (i < 64) && bit s (linBufStat m i) 0 && (linSrc s m i == 0 || linSrc s m i == 2))

/-- The SLEEP frame (R376, R386): header 0x3C, then 0x00 and seven bytes of 0xFF; the schedule halts and the wake controller
hears of it. -/
def linSleep (s : State) (m : Nat) : State :=
  let s := linHeader s m 0x3C
  let s := clrBit (putLin s m { getLin s m with runs := false, inSlot := false }) (linSched m) 14
  linFrame s m { linNew s m 0x3C 2 8 with data := 0x00 :: List.replicate 7 0xFF }

/-- What a slot does (R376). -/
def slotAct (s : State) (m w : Nat) : State :=
  let i := slotId w
  match slotType w with
  | 0 => linRespond (linHeader s m i) m (linNew s m i 0 (linLen s m i))
  | 1 => linFrame (linHeader s m i) m { linNew s m i 1 (linLen s m i) with event := some (slotArg w) }
  | 2 =>
    (match sporadic s m w with
      | some k => linRespond (linHeader s m k) m (linNew s m k 0 (linLen s m k))
      | none => s)
  | 3 =>
    if bit s (linBufStat m 60) 0 then linTake (linHeader s m 0x3C) m (linNew s m 0x3C 2 (linLen s m 60)) else s
  | 4 => linFrame (linHeader s m 0x3D) m (linNew s m 0x3D 1 8)
  | 5 => linSleep s m
  | _ => s

/-- The running slot's place in LIN_SCHED. -/
def noteSlot (s : State) (m : Nat) (p : SlotPos) : State :=
  putBit (setFld (setFld s (linSched m) 23 21 p.table) (linSched m) 20 15 p.slot) (linSched m) 13 (!p.resume.isEmpty)

/-- The end of sleep starts a schedule (R378): the channel's cluster is awake again, the channel has no wake of its own to
finish, and its schedule was halted or its cluster slept. -/
def linAwake (s : State) (m : Nat) : State :=
  match mapGet? s.linMark m with
  | some st =>
    if chanAsleep s (64 + m) || s.linWakeCmd.contains (64 + m) then s
    else if st = 0 ∨ !(getLin s m).runs then linStart s m
    else { s with linMark := mapDel s.linMark m }
  | none => s

/-- The frame in flight keeps the next slot waiting past its due time (R377). -/
def linLate (s : State) (m : Nat) : State :=
  if (getLin s m).late then s
  else setBit (incSat (putLin s m { getLin s m with late := true }) (linPage m + 0xA0)) (linEvents m) 1

/-- XOFF holds the slot start (R379): the whole schedule waits, the slot counted once. -/
def linPostpone (s : State) (m : Nat) : State :=
  if bit s (linSched m) 14 then s else setBit (incSat s (linPage m + 0x9C)) (linSched m) 14

/-- A slot starts at its place, with its start on the grid (R377 to R379). While the bus is dominant it starts no frame and stays
silent (R356, R381; DESIGN CHOICE, notes/assumptions/132.md). -/
def slotBegin (s : State) (m : Nat) (p : SlotPos) (switched : Bool) (start : Nat) : State :=
  let s := if switched then clrBit s (linPage m + 0x4C) 0 else s
  let s := putLin s m
    { getLin s m with
      fresh := false
      slotAt := start
      resume := p.resume
      collide := none
      inSlot := slotDelay (linSlot s m p.table p.slot) != 0
      late := false }
  let s := clrBit (noteSlot s m p) (linSched m) 14
  let w := linSlot s m p.table p.slot
  if slotDelay w = 0 then putLin s m { getLin s m with fresh := true } else if linDominant s m then s
  else slotAct s m w

/-- The running slot has lasted its DELAY and its frame has ended: the slot is over, and the cell at its item boundary (R53,
R377). -/
def slotOver (s : State) (m : Nat) : State :=
  let c := getLin s m
  if c.inSlot && c.frame.isNone && decide (slotDue s m ≤ s.now) then putLin s m { c with inSlot := false } else s

/-- A commander's next slot starts when it is due and no frame is in flight, or waits while XOFF holds (R376 to R379); in
PREPARE_SLEEP the SLEEP frame is sent in its place (R386). It starts none before its wake pulse and in the 100 ms behind it
(R384). -/
def slotStart (s : State) (m : Nat) : State :=
  let s := linAwake s m
  let c := getLin s m
  let p := 64 + m
  if !(linCommander s m) || !c.runs || !(running s (linPage m)) || isFallow s (linPage m) || pairQuiet s || s.linWakeCmd.contains p ||
      c.waiting != 0 then s
  else
    let due := slotDue s m
    if s.now < due then s
    else if c.frame.isSome then linLate s m
    else
      let s := if c.endedAt > due && !(bit s (linSched m) 14) then linLate s m else s
      if chanAsleep s p then
        (match clusterOf s p with
          | some k => if clState s k = 4 && !(linDominant s m) then (if bit s (admUsed p) 23 then linPostpone s m else linSleep s m) else s
          | none => s)
      else if bit s (admUsed p) 23 then linPostpone s m
      else
        let start := if bit s (linSched m) 14 then s.now else if (getLin s m).late then max due c.endedAt else due
        let (q, sw) := nextSlot s m
        slotBegin s m q sw start

/-! ## Headers, responses and time limits (R366 to R371, R380, R385) -/

/-- A header reaches a responder (R366, R369, R371, R380, R384): the measured bit time in units of 25 ns and the PID, with whose
stop bit the header ends, or none where a stop bit of its sync or PID reads dominant. Its break began a nominal header before
(DEDUCED, notes/assumptions/132.md). -/
def linHeaderIn (s : State) (m measured : Nat) (pid : Option Nat) : State :=
  if linCommander s m || !(linHears s m) then s
  else
    let s := { s with linWakeCmd := s.linWakeCmd.filter (fun p => p != 64 + m) }
    let s := if (getLin s m).frame.isSome then linEnd s m else s
    let s := linEdge (putLin s m { getLin s m with pulses := 0, waiting := 0 }) m s.now
    let div := clamp 2000 40000 (fld s (linPage m + 0x44) 15 0)
    match pid with
    | none => linError s m 2
    | some pid =>
      if 100 * measured < 86 * div ∨ 114 * div < 100 * measured then linError s m 4
      else if linPid (pid % 64) ≠ pid % 256 then linError s m 3
      else
        let i := pid % 64
        let f := { linNew s m i 0 (linLen s m i) with
          began := s.now - linHeadBits s m * 25 * measured / 5
          bitNs := 25 * measured }
        if linDir s m i = 2 ∧ !(linMaySend s m) then linFrame s m f else linRespond s m f

/-- An EVENT slot met a collision (R376): its collision table runs next. -/
def linCollide (s : State) (m : Nat) (f : LinFrame) (code : Nat) : State :=
  match f.event with
  | some t =>
    if code = 2 ∨ code = 5 ∨ code = 7 then setBit (putLin s m { getLin s m with collide := some t }) (linEvents m) 3 else s
  | none => s

/-- The frame in flight ends in an error (R380); a received one is rewound (R95, R96), but not where no response
came. -/
def linFail (s : State) (m : Nat) (f : LinFrame) (code : Nat) : State :=
  let s := linError (linEnd s m) m code
  let s := if f.dir = 1 ∧ code ≠ 1 ∧ code ≠ 6 ∧ effBit s (linPage m) (linPage m + 0x40) 22 then furRewind s (linPage m) else s
  linCollide s m f code

/-- A LIN frame offered to the pipeline (R179, R370): LIN_RX_FRAMES counts what is committed. -/
def linCommit (s : State) (m i : Nat) (data : List Byte) (other : Bool) : State :=
  let (ok, s) := busItem s (64 + m) .lin (linPseudo other (linEnhanced s m i) (linPid i) data.length ++ data)
  if ok then addStat s (linPage m + 0xC0) 1 else s

/-- The channel's own response has been sent (R365, R370, R371): PID, checksum, response space in bits and bit time in ns; it is
kept for KEEP, and committed with SELF_RX. -/
def linSent (s : State) (m : Nat) (f : LinFrame) : State :=
  let c := getLin s m
  let s := putLin s m { c with kept := mapSet c.kept f.ident f.data }
  let s := send s (64 + m) .linResponse [linPid f.ident, linCheck s m f.ident f.data, 1 + fld s (linPage m + 0x40) 13 12, f.bitNs] f.data
  let s := addStat (linEnd s m) (linPage m + 0xC4) 1
  if effBit s (linPage m) (linPage m + 0x40) 21 then serveHints (linCommit s m f.ident f.data false) else s

/-- A response of another node that passes every check (R370, R385, R431): the responder's sleep request is reported and not
delivered. -/
def linGood (s : State) (m : Nat) (f : LinFrame) (data : List Byte) : State :=
  let s := linEnd s m
  let s := validFrame s (64 + m)
  let s := remoteNm s (64 + m) (kaSource s (64 + m) f.ident data)
  if f.ident = 0x3C ∧ byteAt data 0 = 0 ∧ !(linCommander s m) then
    serveHints (linReport (setBit s (linEvents m) 5) (64 + m))
  else if effBit s (linPage m) (linPage m + 0x40) 22 then serveHints (linCommit s m f.ident data true)
  else serveHints s

/-- A frame is not complete by 1.4 × TF (R368, R380): whether a response byte came. -/
def linTimeout (s : State) (m : Nat) (someByte : Bool) : State :=
  match (getLin s m).frame with
  | none => s
  | some f =>
    if !(linDue s m f) then s
    else if f.dir = 1 then
      if someByte then linFail s m f 7
      else if f.event.isSome then linEnd s m
      else linFail s m f 6
    else linEnd s m

/-- The response of the frame in flight ends (R367 to R371, R376, R380): the bytes received, data and checksum, and an error seen
on the bus: 1 bit, in a response or in a commander's header, 2 framing, else none. A response that is not whole by 1.4 × TF is
incomplete. -/
def linResponse (s : State) (m : Nat) (bytes : List Byte) (err : Nat) : State :=
  match (getLin s m).frame with
  | none => s
  | some f =>
    let s := linEdge s m s.now
    if !(running s (linPage m)) || f.pull.isSome then s
    else if err = 1 ∧ (f.dir = 2 ∨ linCommander s m) then linFail s m f 1
    else if f.dir = 2 then (if err = 2 then linFail s m f err else linSent s m f)
    else if f.dir = 0 then linEnd s m
    else if linOver s m f then linTimeout s m (!bytes.isEmpty)
    else if err = 2 then linFail s m f 2
    else if bytes.length < f.len + 1 then s
    else
      let data := bytes.take f.len
      if byteAt bytes f.len = linCheck s m f.ident data then linGood s m f data else linFail s m f 5

/-- A crossing of the channel's cell fails in the middle of a frame (R22): an underrun ends the response that it sends, an overrun
rewinds the one that it receives. DESIGN CHOICE: LEC, whose causes R380 lists without this one, keeps its value
(notes/assumptions/132.md). -/
def linCross (s : State) (m : Nat) (under : Bool) : State :=
  match (getLin s m).frame with
  | some f =>
    if under then (if f.dir = 2 then linEnd s m else s)
    else if f.dir = 1 then furRewind (linEnd s m) (linPage m)
    else s
  | none => s

/-! ## Routed copies (R373) -/

/-- A routed copy selected for a LIN channel is written into its buffer, or discarded (R106, R373). -/
def linFill (s : State) (m : Nat) : State :=
  let o := 64 + m
  match mapGet? s.inFlight o with
  | none => s
  | some c =>
    let f := getFrame s c.frame
    let i := linIdOf c.form f.bytes
    let done := fun (s : State) => freeIfDone (endFlight s o) c.frame
    if f.poison then done (incSat s (egrPage + 0x44))
    else if linDir s m i ≠ 2 ∨ linSrc s m i ≠ 0 then done (incSat s (linPage m + 0xA8))
    else if bit s (linBufStat m i) 0 then s
    else
      let n := linLen s m i
      let d := pduOf c.form f.bytes
      let s := if d.length > n then incSat s (linPage m + 0xAC) else s
      let d := linFit n d
      let s := forEach (List.range 3) s (fun s k => wr s (linBuf m i k) (beAt d (3 * k) 3))
      let ch := getLin s m
      done (putLin (setBit s (linBufStat m i) 0) m { ch with filled := mapSet ch.filled i (c.cls, readyAt s c) })

/-- LIN_SCHED_CMD.SWITCH (R378): it reads 1 until the switch is made. -/
def linSwitch (s : State) (m : Nat) : State := setBit s (linPage m + 0x4C) 0

/-! ## Wake and idle (R384, R385) -/

/-- A wake pulse leaves the channel; the wait runs from its end (R384). -/
def linPulse (s : State) (m pulses : Nat) : State :=
  let us := clamp 250 5000 (fld s (linPage m + 0x54) 12 0)
  let s := send s (64 + m) .linWake [us] []
  putLin s m { getLin s m with
    pulses := pulses
    waiting := 1
    waitFrom := s.now + usTicks us
    edgeAt := some (s.now + usTicks us) }

/-- A channel commanded to wake its bus sends its first pulse (R384). -/
def linWakePulse (s : State) (m : Nat) : State :=
  if s.linWakeCmd.contains (64 + m) && (getLin s m).waiting == 0 && running s (linPage m) && !(isFallow s (linPage m)) then
    linPulse s m 1
  else s

/-- A wake wait ends (R384): the commander starts its schedule; a responder sends the next pulse, pauses after three, and
begins again. A request that the wake controller has ended stops the pattern. -/
def linWaitEnd (s : State) (m : Nat) : State :=
  let c := getLin s m
  let left := s.linWakeCmd.contains (64 + m)
  if c.waiting = 0 then s
  else if !left || isFallow s (linPage m) then putLin s m { c with pulses := 0, waiting := 0 }
  else if linCommander s m then
    if s.now - c.waitFrom < msTicks 100 then s
    else
      let s := putLin { s with linWakeCmd := s.linWakeCmd.filter (fun p => p != 64 + m) } m { c with pulses := 0, waiting := 0 }
      linStart s m
  else if c.waiting = 1 then
    if s.now - c.waitFrom < msTicks 200 then s
    else if c.pulses ≥ 3 then putLin s m { c with pulses := 0, waiting := 2, waitFrom := s.now }
    else linPulse s m (c.pulses + 1)
  else if s.now - c.waitFrom < msTicks 1500 then s
  else linPulse s m 1

/-- No bus edge for LIN_IDLE.MS (R385): reported once for each such time, whatever mode the transceiver has. -/
def linIdle (s : State) (m : Nat) : State :=
  let quiet := (getLin s m).edgeAt.any (fun e =>
    decide (e + msTicks (clamp 4000 10000 (fld s (linPage m + 0x58) 13 0)) ≤ s.now))
  if running s (linPage m) && !(isFallow s (linPage m)) && quiet then
    let s := setBit (putLin s m { getLin s m with edgeAt := none }) (linEvents m) 4
    if linCommander s m then s else serveHints (linReport s (64 + m))
  else s

/-! ## RUN, RESTART and FALLOW (R378, R382, R383) -/

/-- Every READY of a channel is cleared. -/
def linClearReady (s : State) (m : Nat) : State :=
  forEach (List.range 64) s (fun s i => if bit s (linBufStat m i) 0 then clrBit s (linBufStat m i) 0 else s)

/-- What RUN of a LIN cell does beyond the general start (R378). -/
def linRun (s : State) (m : Nat) : State := refreshOutput (linEdge (linStart s m) m s.now) (64 + m)

/-- What the RESTART of a LIN cell does beyond the general clearing (R383). -/
def linRestart (s : State) (m : Nat) : State :=
  let c := getLin s m
  let s := linClearReady (putLin s m { noLin with pulses := c.pulses, waiting := c.waiting, waitFrom := c.waitFrom, edgeAt := c.edgeAt }) m
  let s := clrBit s (linStatus m) 16
  clearHeads (linStart s m) (linPage m)

/-- A channel enters FALLOW (R382). -/
def linToFallow (s : State) (m code : Nat) : State :=
  let pg := linPage m
  if isFallow s pg then s
  else
    let s := linClearReady (putLin s m noLin) m
    let s := setBit (setBit { s with fallow := pg :: s.fallow } (linStatus m) 15) (linEvents m) 6
    let s := { clrBit (clrBit s (linSched m) 14) (linStatus m) 16 with linWakeCmd := s.linWakeCmd.filter (fun p => p != 64 + m) }
    refreshTrx (refreshOutput (retire s 1 pg code 0 0) (64 + m)) (64 + m)

end Sys2Proof.Machine
end

