-- ==== Sys2Proof/Machine/Aes.lean ====
section
/-! DEFINITION. The cipher of the lanes (R458): AES with 128-bit and 256-bit keys, CMAC of NIST SP 800-38B, GCM as IEEE
802.1AE uses it, the counter-mode KDF of NIST SP 800-108 (R493), AES-KW of NIST SP 800-38F (R495) and CTR_DRBG of NIST SP 800-90A
(R484). Bytes are numbers below 256. -/
namespace Sys2Proof.Machine

/-! ## The field of AES and its S-box -/

/-- Doubling in the field of AES. -/
def gfDouble (x : Nat) : Nat := if x < 128 then 2 * x else (2 * x % 256) ^^^ 0x1B

/-- The product of two elements, over the low `n` bits of the second. -/
def gfMul : Nat → Nat → Nat → Nat
  | 0, _, _ => 0
  | n + 1, x, y => (if y % 2 = 1 then x else 0) ^^^ gfMul n (gfDouble x) (y / 2)

/-- The inverse of an element, 0 of 0: its 254th power. -/
def gfInv (x : Nat) : Nat :=
  let m := gfMul 8
  let x2 := m x x; let x4 := m x2 x2; let x8 := m x4 x4; let x16 := m x8 x8; let x32 := m x16 x16
  let x64 := m x32 x32; let x128 := m x64 x64
  m x128 (m x64 (m x32 (m x16 (m x8 (m x4 x2)))))

/-- A byte rotated left. -/
def rotByte (x k : Nat) : Nat := x * 2 ^ k % 256 + x / 2 ^ (8 - k)

/-- The S-box. -/
def sbox (x : Nat) : Nat :=
  let y := gfInv x
  y ^^^ rotByte y 1 ^^^ rotByte y 2 ^^^ rotByte y 3 ^^^ rotByte y 4 ^^^ 0x63

/-- Byte strings combined bit by bit, as long as the shorter. -/
def xorBytes (a b : List Nat) : List Nat := List.zipWith (· ^^^ ·) a b

/-! ## AES -/

/-- The round constant of round i, from 1. -/
def rcon : Nat → Nat
  | 0 => 0x8D
  | i + 1 => gfDouble (rcon i)

/-- One more word of the key schedule: `ws` are the words so far, four bytes each. -/
def keyWord (nk : Nat) (ws : List (List Nat)) : List Nat :=
  let i := ws.length
  let prev := ws.getD (i - 1) []
  let t :=
    if i % nk = 0 then
      let r := (prev.drop 1 ++ prev.take 1).map sbox
      xorBytes r [rcon (i / nk), 0, 0, 0]
    else if nk = 8 ∧ i % nk = 4 then prev.map sbox
    else prev
  xorBytes (ws.getD (i - nk) []) t

/-- The key schedule extended by `n` words. -/
def keyWords (nk : Nat) : Nat → List (List Nat) → List (List Nat)
  | 0, ws => ws
  | n + 1, ws => keyWords nk n (ws ++ [keyWord nk ws])

/-- A byte string in pieces of four bytes. -/
def quadsOf : Nat → List Nat → List (List Nat)
  | 0, _ => []
  | n + 1, bs => bs.take 4 :: quadsOf n (bs.drop 4)

/-- The round keys of a key of 16 or 32 bytes. -/
def roundKeys (key : List Nat) : List (List Nat) :=
  let nk := key.length / 4
  let ws := keyWords nk (4 * (nk + 7) - nk) (quadsOf nk key)
  (List.range (nk + 7)).map (fun r => (ws.drop (4 * r)).take 4 |>.flatten)

/-- The rows of the state shifted. -/
def shiftRows (st : List Nat) : List Nat := (List.range 16).map (fun i => st.getD (i % 4 + 4 * ((i / 4 + i % 4) % 4)) 0)

/-- One column mixed. -/
def mixColumn (c : List Nat) : List Nat :=
  (List.range 4).map (fun r =>
    let at' := fun k => c.getD ((r + k) % 4) 0
    gfDouble (at' 0) ^^^ gfDouble (at' 1) ^^^ at' 1 ^^^ at' 2 ^^^ at' 3)

/-- The rounds after the first key addition. -/
def aesRounds : List (List Nat) → List Nat → List Nat
  | [], st => st
  | [k], st => xorBytes (shiftRows (st.map sbox)) k
  | k :: ks, st => aesRounds ks (xorBytes ((quadsOf 4 (shiftRows (st.map sbox))).flatMap mixColumn) k)

/-- One block enciphered. -/
def aesBlock (key block : List Nat) : List Nat :=
  match roundKeys key with
  | k :: ks => aesRounds ks (xorBytes block k)
  | [] => block

/-! ## Numbers and byte strings -/

/-- `n` bytes of a number, most significant first. -/
def numBytes : Nat → Nat → List Nat
  | 0, _ => []
  | n + 1, v => v / 256 ^ n % 256 :: numBytes n v
/-- A number from bytes, most significant first. -/
def bytesNum (bs : List Nat) : Nat := bs.foldl (fun a b => a * 256 + b) 0

/-! ## CMAC -/

/-- Doubling of a 128-bit block for the subkeys of CMAC. -/
def cmacDouble (x : Nat) : Nat := if x < 2 ^ 127 then 2 * x else (2 * x % 2 ^ 128) ^^^ 0x87

/-- The chained blocks of CMAC, the last one masked with its subkey. -/
def cmacChain (key : List Nat) (k1 k2 : Nat) : Nat → List Nat → List Nat → List Nat
  | 0, st, _ => st
  | n + 1, st, msg =>
    if msg.length > 16 then cmacChain key k1 k2 n (aesBlock key (xorBytes st (msg.take 16))) (msg.drop 16)
    else
      let last :=
        if msg.length = 16 then xorBytes msg (numBytes 16 k1)
        else xorBytes (msg ++ 0x80 :: List.replicate (15 - msg.length) 0) (numBytes 16 k2)
      aesBlock key (xorBytes st last)

/-- AES-CMAC of a message. -/
def aesCmac (key msg : List Nat) : List Nat :=
  let l := bytesNum (aesBlock key (List.replicate 16 0))
  let k1 := cmacDouble l
  cmacChain key k1 (cmacDouble k1) (msg.length / 16 + 1) (List.replicate 16 0) msg

/-! ## GCM -/

/-- The product of two elements of the field of GHASH: bit 0 of the standard is the most significant here. -/
def ghashMul : Nat → Nat → Nat → Nat → Nat
  | 0, _, _, z => z
  | n + 1, x, v, z =>
    let z := if x / 2 ^ n % 2 = 1 then z ^^^ v else z
    ghashMul n x (if v % 2 = 1 then v / 2 ^^^ (0xE1 * 2 ^ 120) else v / 2) z

/-- GHASH over a string of whole blocks. -/
def ghash (h : Nat) : Nat → Nat → List Nat → Nat
  | 0, y, _ => y
  | n + 1, y, bs => if bs.isEmpty then y else ghash h n (ghashMul 128 (y ^^^ bytesNum (bs.take 16)) h 0) (bs.drop 16)

/-- A byte string filled with zero bytes to whole blocks. -/
def padBlock (bs : List Nat) : List Nat := bs ++ List.replicate ((16 - bs.length % 16) % 16) 0

/-- Counter mode from a counter on. -/
def gcmCtr (key iv : List Nat) : Nat → Nat → List Nat → List Nat
  | 0, _, _ => []
  | n + 1, ctr, bs =>
    if bs.isEmpty then []
    else xorBytes (bs.take 16) (aesBlock key (iv ++ numBytes 4 ctr)) ++ gcmCtr key iv n (ctr + 1) (bs.drop 16)

/-- The tag of GCM over additional data and ciphertext, with a 96-bit initialisation vector. -/
def gcmTag (key iv aad ct : List Nat) : List Nat :=
  let h := bytesNum (aesBlock key (List.replicate 16 0))
  let data := padBlock aad ++ padBlock ct ++ numBytes 8 (8 * aad.length) ++ numBytes 8 (8 * ct.length)
  xorBytes (numBytes 16 (ghash h (data.length / 16 + 1) 0 data)) (aesBlock key (iv ++ [0, 0, 0, 1]))

/-- The text enciphered or deciphered by GCM. -/
def gcmText (key iv bs : List Nat) : List Nat := gcmCtr key iv (bs.length / 16 + 1) 2 bs

/-! ## Key derivation (R493) -/

/-- The KDF in counter mode: `bits` is 128 or 256. -/
def kdf (source label ctx : List Nat) (bits : Nat) : List Nat :=
  (List.range (bits / 128)).flatMap (fun i =>
    aesCmac source ([i + 1] ++ label ++ [0] ++ ctx ++ numBytes 2 bits))

/-! ## Deciphering -/

/-- The inverse of the S-box. -/
def invSbox (y : Nat) : Nat := gfInv (rotByte y 1 ^^^ rotByte y 3 ^^^ rotByte y 6 ^^^ 0x05)

/-- The rows of the state shifted back. -/
def invShiftRows (st : List Nat) : List Nat :=
  (List.range 16).map (fun i => st.getD (i % 4 + 4 * ((i / 4 + 4 - i % 4) % 4)) 0)

/-- One column mixed back. -/
def invMixColumn (c : List Nat) : List Nat :=
  (List.range 4).map (fun r =>
    let at' := fun k => c.getD ((r + k) % 4) 0
    gfMul 8 (at' 0) 14 ^^^ gfMul 8 (at' 1) 11 ^^^ gfMul 8 (at' 2) 13 ^^^ gfMul 8 (at' 3) 9)

/-- The rounds of deciphering after the last key addition, the round keys in reverse. -/
def aesBack : List (List Nat) → List Nat → List Nat
  | [], st => st
  | [k], st => xorBytes ((invShiftRows st).map invSbox) k
  | k :: ks, st => aesBack ks ((quadsOf 4 (xorBytes ((invShiftRows st).map invSbox) k)).flatMap invMixColumn)

/-- One block deciphered. -/
def aesUnblock (key block : List Nat) : List Nat :=
  match (roundKeys key).reverse with
  | k :: ks => aesBack ks (xorBytes block k)
  | [] => block

/-! ## AES-KW (R495) -/

/-- A byte string in semiblocks of 64 bits. -/
def semiblocks : Nat → List Nat → List (List Nat)
  | 0, _ => []
  | n + 1, bs => bs.take 8 :: semiblocks n (bs.drop 8)

/-- The integrity check value of AES-KW. -/
def kwIv : List Nat := List.replicate 8 0xA6

/-- One step of a wrap: the check register and the semiblocks, the semiblock `i` taken, `t` the step's number. -/
def kwStep (key : List Nat) (x : List Nat × List (List Nat)) (t i : Nat) : List Nat × List (List Nat) :=
  let b := aesBlock key (x.1 ++ x.2.getD i [])
  (xorBytes (b.take 8) (numBytes 8 t), x.2.set i (b.drop 8))

/-- One step of an unwrap. -/
def kwBack (key : List Nat) (x : List Nat × List (List Nat)) (t i : Nat) : List Nat × List (List Nat) :=
  let b := aesUnblock key (xorBytes x.1 (numBytes 8 t) ++ x.2.getD i [])
  (b.take 8, x.2.set i (b.drop 8))

/-- A text of whole semiblocks wrapped. -/
def kwWrap (key text : List Nat) : List Nat :=
  let n := text.length / 8
  let x := (List.range (6 * n)).foldl (fun x k => kwStep key x (k + 1) (k % n)) (kwIv, semiblocks n text)
  x.1 ++ x.2.flatten

/-- A wrap undone; none when its integrity check fails. -/
def kwUnwrap (key wrapped : List Nat) : Option (List Nat) :=
  let n := wrapped.length / 8 - 1
  let x := (List.range (6 * n)).reverse.foldl (fun x k => kwBack key x (k + 1) (k % n)) (wrapped.take 8, semiblocks n (wrapped.drop 8))
  if x.1 = kwIv then some x.2.flatten else none

/-! ## CTR_DRBG (R484) -/

/-- `n` blocks of output behind a counter: AES-256 in counter mode. -/
def ctrBlocks (key v : Nat) (n : Nat) : List Nat :=
  (List.range n).flatMap (fun i => aesBlock (numBytes 32 key) (numBytes 16 ((v + i + 1) % 2 ^ 128)))

/-- CTR_DRBG_Update with AES-256: key and counter from 48 bytes of provided data. -/
def ctrUpdate (key v : Nat) (data : List Nat) : Nat × Nat :=
  let x := xorBytes (ctrBlocks key v 3) data
  (bytesNum (x.take 32), bytesNum (x.drop 32))

end Sys2Proof.Machine
end

