-- ==== Sys2Proof/Machine/Ethernet.lean ====
section
/-! DEFINITION. Ethernet ports: receiving, sending and header templates, flow control, half duplex and PLCA, the time and its
stamps, FALLOW (11_ethernet_ports.md, R389 to R426; R159 and R178 for cut-through and heads; R306 to R317 and R311, R312 for
the forms written). -/
namespace Sys2Proof.Machine

/-! ## Ports (R389 to R393) -/

/-- ETH_LINK.UP. -/
def ethUp (s : State) (p : Nat) : Bool := bit s (ethLink p) 23
/-- The cell runs and is not FALLOW. -/
def macLive (s : State) (p : Nat) : Bool := running s (macPage p) && !(isFallow s (macPage p))
/-- The cell hears its medium: it is live, and the PHY of a T1S segment neither sleeps nor stands in FAILSAFE (R429, R450). -/
def macHears (s : State) (p : Nat) : Bool := macLive s p && !(isT1s p && [2, 3].contains (mapGet 0 s.trxMode p))
/-- The port uses CSMA/CD (R408): a half-duplex 1G port, or a T1S port without PLCA. -/
def csma (s : State) (p : Nat) : Bool := if isT1s p then !(plcaOn s p) else halfDuplex s p
/-- ETH_CTRL.MACSEC_EN. -/
def macsecOn (s : State) (p : Nat) : Bool := bit s (macPage p + 0x40) 15

/-- The interface supports a speed, coded as SPEED_SET (R390). -/
def ethSpeedOk (i speed : Nat) : Bool :=
  match i with
  | 0 => speed == 6
  | 1 => speed == 4 || speed == 5 || speed == 6
  | 2 => speed == 1 || speed == 2 || speed == 3
  | _ => speed == 1

/-- The speed and duplex that a port takes from the interface's in-band status or from ETH_PHY (R390, R391). -/
def ethModes (s : State) (p speed : Nat) (half : Bool) : Nat × Bool :=
  let i := ethIf s p
  let set := fld s (macPage p + 0x48) 21 19
  if i = 3 then (1, true)
  else if i = 0 then (6, false)
  else if ethSpeedOk i set && !(p < 112 && 108 ≤ p && set == 6) then
    (set, i == 2 && (set == 1 || set == 2) && bit s (macPage p + 0x48) 18)
  else (speed, i == 2 && (speed == 1 || speed == 2) && half)

/-! ## Egress time stamps (R413 to R417) -/

/-- The words that SNAPCLR on TSQ_HEAD takes, the oldest entry removed (R415, R417). -/
def tsTake (s : State) (p : Nat) : List Nat × State :=
  let m := getMac s p
  match m.tsq with
  | [] => ([0, 0, 0, 0, 0], s)
  | e :: rest =>
    ([e.time % 2 ^ 24, e.time / 2 ^ 24 % 2 ^ 24, e.time / 2 ^ 48 % 2 ^ 24, e.time / 2 ^ 72 % 2 ^ 8,
      0x800000 + b2n e.failed * 0x400000 + e.tag % 2 ^ 16],
     setFld (putMac s p { m with tsq := rest }) (macPage p + 0x6C) 22 16 rest.length)

/-- The item in arrival at an input is rewound (R93, R128). -/
def rewindOpen (s : State) (p : Nat) : State :=
  match mapGet? s.openFrame p with
  | some id => dropFrame (withdraw s id) id
  | none => s

/-- A producer rewinds its uncommitted words (R93, R96, R100): a consumer that has begun the item gets the marker. -/
def furRewound (s : State) (pg : Nat) (wrote : List Nat) : State :=
  let s := if wrote.isEmpty then s else furWrite s pg wrote
  let f := getFur s pg
  let marker := f.marker || decide (0 < f.openTaken)
  let s := furRewind (putFur s pg { f with openWords := [], openTaken := 0, marker := marker }) pg
  furSettle (if kindOf s.fuses pg = 0x09 then rewindOpen s (88 + instanceOf 0x09 pg) else s) pg

/-- A producer's open item does not fit: a clocked island rewinds it and an overrun is recorded, a stage inside the core waits
with the whole item (R22, R95, R111). -/
def furFull (s : State) (pg : Nat) (data : List Nat) : State :=
  let f := getFur s pg
  if islandIn (kindOf s.fuses pg) then { (furRewound s pg []) with crossings := s.crossings ++ [(pg, 1)] }
  else
    putFur s pg { f with openWords := [], openTaken := 0, waits := f.waits ++ [furItem false (f.openWords.map furData ++ data)] }

/-- A producer commits an item: the words already written and `data` (R92). The consumer's place in an item that it began while
open is kept. A producer that has received a poisoned word of the item rewinds instead (R95, R105). -/
def furCommit (s : State) (pg : Nat) (data : List Nat) (poison : Bool) : State :=
  let f := getFur s pg
  if f.openWords.isEmpty && data.isEmpty then s
  else if poison then furRewound s pg data
  else if furWords f + data.length > furCap (kindOf s.fuses pg) pg then furFull s pg data
  else
    let taken := if f.items.isEmpty then f.openTaken else f.taken
    let item := furItem false (f.openWords.map furData ++ data)
    let f := { f with items := f.items ++ [item], taken := taken, openWords := [], openTaken := 0 }
    furSettle (noteFill (putFur s pg f) pg) pg

/-! ## Receiving (R394 to R399) -/

/-- ETH_LEN.MAXLEN in force. -/
def maxLen (s : State) (p : Nat) : Nat := clamp 64 9216 (eff s (macPage p) (macPage p + 0x44) 13 0)

/-- The destination address equals an enabled address entry (R395). -/
def ownAddr (s : State) (p da : Nat) : Bool :=
  let pg := macPage p
  (List.range 16).any (fun k =>
    effBit s pg (pg + 0x78) k && eff s pg (pg + 0x140 + 4 * k) 23 0 * 2 ^ 24 + eff s pg (pg + 0x180 + 4 * k) 23 0 == da)

/-- The port accepts a frame by its destination address (R395). -/
def addrAccepts (s : State) (p da : Nat) : Bool :=
  let a := macPage p + 0x40
  let f := fun i => effBit s (macPage p) a i
  !(f 23) || ownAddr s p da || (da == 2 ^ 48 - 1 && f 22) || (da != 2 ^ 48 - 1 && da / 2 ^ 40 % 2 == 1 && f 21)

/-- The head of a frame. -/
def ethHead (s : State) (p id : Nat) (f : Frame) : Head :=
  { port := p, frame := some id, kind := .eth, bytes := f.bytes, poison := f.poison, ownAddr := ownAddr s p (beAt f.bytes 0 6),
    link := none, tag := 0, srcDev := s.fuses.devId, ingressNs := f.ingressNs, cameAt := s.now, seqNo := none }

/-- The bytes of a UDP payload that its split needs, of those from `pos` to `stop` (R177, R307): every PDU header. -/
def soadNeed : Nat → List Byte → Nat → Nat → Nat → Nat
  | 0, _, _, _, need => need
  | n + 1, bs, pos, stop, need =>
    if pos + 8 > stop then need
    else if bs.length < pos + 8 then pos + 8
    else soadNeed n bs (pos + 8 + beAt bs (pos + 4) 4) stop (pos + 8)

/-- The bytes of an AVTPDU that its split needs, of those from `pos` to `stop` (R177, R313): every message header. -/
def acfNeed : Nat → List Byte → Nat → Nat → Nat → Nat
  | 0, _, _, _, need => need
  | n + 1, bs, pos, stop, need =>
    if pos ≥ stop then need
    else if bs.length < pos + 3 then pos + 3
    else
      let typ := beAt bs pos 2 / 512
      let next := pos + 4 * (beAt bs pos 2 % 512)
      let hl := if typ = 1 then 16 else if typ = 2 then 8 else 12
      if next < pos + 8 ∨ next > stop then pos + 3
      else if typ = 0 ∨ 3 < typ then acfNeed n bs next stop (pos + 3)
      else if bs.length < pos + hl then pos + hl
      else acfNeed n bs next stop (pos + hl)

/-- The bytes at the start of a frame that its classification, its keys and FLAGS need, as far as those held tell (R175, R177,
R180), and where its split ends. -/
def headNeed (s : State) (p : Nat) (own : Bool) (bs : List Byte) : Nat × Nat :=
  let v := ethView bs
  let n := bs.length
  let ip :=
    if v.ipv4 then v.l3 + 10
    else if v.ipv6 then (if decide (v.l3 + 7 ≤ n) && v.proto == 44 then v.l3 + 44 else v.l3 + 7)
    else if v.etherType = 0x0800 ∨ v.etherType = 0x86DD then v.l3 + 1
    else v.l3
  if n < v.l3 then (v.l3, 0)
  else if n < ip then (ip, 0)
  else if cltFld s p 14 14 = 1 ∧ v.etherType = 0x22F0 then
    let sub := byteAt bs v.l3
    let hdr := v.l3 + (if sub = 0x82 then 12 else if sub = 0x05 then 24 else 1)
    if n < v.l3 + 1 ∨ n < hdr then (hdr, 0)
    else if sub = 0x82 ∨ sub = 0x05 then
      (match avtpdu bs v.l3 with
        | some (_, pos, stop) => (acfNeed n bs pos stop hdr, stop)
        | none => (hdr, 0))
    else (hdr, 0)
  else if cltFld s p 15 15 = 1 ∧ own ∧ isUdp v then
    if n < v.l4 + 8 then (v.l4 + 8, 0)
    else if soadPort s (regionOfPort p) (beAt bs (v.l4 + 2) 2) then
      let stop := v.l4 + max 8 (beAt bs (v.l4 + 4) 2)
      (soadNeed n bs (v.l4 + 8) stop (v.l4 + 8), stop)
    else (v.l4 + 8, 0)
  else (ip, 0)

/-- The head of a frame that has not ended: of a split frame the bytes still to come stand as zeros up to the split's end, and
the headers in front of them are held (R177). -/
def earlyHead (s : State) (p : Nat) (h : Head) : Head :=
  { h with bytes := h.bytes ++ List.replicate ((headNeed s p h.ownAddr h.bytes).2 - h.bytes.length) 0 }

/-- The `n` bytes held of a frame suffice for the coulter before the frame has ended (R177): what the classification and the keys
need, and every extractor of the port's template at every item. -/
def headReady (s : State) (p n : Nat) (h : Head) : Bool :=
  let t := cltFld s p 23 20
  let pg := coulterPage (regionOfPort p)
  decide ((headNeed s p h.ownAddr (h.bytes.take n)).1 ≤ n) &&
    (cutItems s p h).1.all (fun it =>
      (List.range 7).all (fun w =>
        let a := pg + 0x200 + 0x20 * t + 4 * (w + 1)
        match anchorPos h.bytes h.kind it (eff s pg a 23 21) with
        | some pos => decide (pos + eff s pg a 20 13 + 3 ≤ n)
        | none => true))

/-- A frame finds its head furrow full (R178): rewound. -/
def headRefused (s : State) (p id : Nat) : State := rewindFrame s p id

/-- A frame in arrival is announced once the head that it has so far suffices (R178). -/
def announceHead (s : State) (p id : Nat) (h : Head) : State :=
  let f := getFrame s id
  if f.announced || !(headReady s p f.bytes.length (earlyHead s p h)) then s
  else
    let (ok, s) := announce s p (earlyHead s p h)
    if ok then putFrame s id { getFrame s id with announced := true } else headRefused s p id

/-- The frame in arrival at a MAC is announced once its head suffices (R178). -/
def announceEarly (s : State) (p : Nat) : State :=
  match mapGet? s.openFrame p with
  | some id => announceHead s p id (ethHead s p id (getFrame s id))
  | none => s

/-- SOURCE that a frame on a T1S port gives by its first plot (R446): the low 24 bits of its source address, or a byte counted
from the first after the EtherType. -/
def t1sSource (s : State) (p : Nat) (bs : List Byte) : Nat := kaSource s p (beAt bs 9 3) (bs.drop (ethView bs).l3)

/-- A frame on a T1S port has ended good (R431, R443, R446): every one counts, whatever becomes of it. -/
def t1sHeard (s : State) (p : Nat) : State :=
  if p < 104 then remoteNm (validFrame s p) p (getMac s p).nm else s

/-- Bytes of a frame in arrival pass the cell's receive furrow on their way into plots, which take them as they come (R21, R126,
R394). -/
def macCross (s : State) (p : Nat) (bytes : List Byte) : State :=
  let s := furWrite s (macPage p) (packWords bytes)
  let f := getFur s (macPage p)
  putFur s (macPage p) { f with openTaken := f.openWords.length }

/-- The frame in arrival has left the receive furrow: what it was is past, and a rewind marker is taken (R100). -/
def macCrossed (s : State) (p : Nat) : State :=
  let f := getFur s (macPage p)
  let s := if f.marker then { s with delivered := mapSet s.delivered (macPage p) rewindMarker } else s
  putFur s (macPage p) { f with openWords := [], openTaken := 0, marker := false, failed := false }

/-- The MAC rewinds the frame in arrival (R95, R96): what it has written of it is discarded, and packet memory, which has begun
it, gets the rewind marker (R100). -/
def macRewind (s : State) (p : Nat) : State :=
  let f := getFur s (macPage p)
  furRewind (putFur s (macPage p) { f with openWords := [], openTaken := 0, marker := f.marker || decide (0 < f.openTaken) }) (macPage p)

/-- The frame in arrival finds no room in the receive furrow (R22, R95): rewound, an overrun of the cell. -/
def macOverrun (s : State) (p : Nat) : State :=
  let s := macRewind { s with crossings := s.crossings ++ [(macPage p, 1)] } p
  match mapGet? s.openFrame p with
  | some id => rewindFrame s p id
  | none =>
    let s := putMac s p { getMac s p with learnWait := none }
    if s.dropping.contains p then s else { s with dropping := p :: s.dropping }

/-- The destination address of a frame is refused (R395): the words written are rewound. -/
def addrDrop (s : State) (p : Nat) (bytes : List Byte) : State :=
  incSat (macRewind (macCross (macCrossed s p) p (bytes.take 6)) p) (macPage p + 0x98)

/-- The frame in arrival on a MACsec port is rewound in its receive furrow as an overrun (R22, R95); what is still to come of it
is lost. -/
def macsecOver (s : State) (p : Nat) : State :=
  putMac (furRewound s (macPage p) []) p { getMac s p with rxBytes := [], skip := true }

/-- A piece of a frame in arrival on a MACsec port goes into the port's receive furrow, where the whole frame waits for a lane
(R418); what the furrow has no room for is an overrun (R22). -/
def macsecPlot (s : State) (p : Nat) (first : Bool) (bytes : List Byte) : State :=
  let pg := macPage p
  let s := if first then
      let f := getFur s pg
      putFur (putMac s p { getMac s p with rxBytes := [], skip := false, da := beAt bytes 0 6 }) pg
        { f with openWords := [], openTaken := 0, failed := f.failed && !f.items.isEmpty }
    else s
  if (getMac s p).skip then s
  else if furRoom s pg < (packWords bytes).length then macsecOver { s with crossings := s.crossings ++ [(pg, 1)] } p
  else putMac (furWrite s pg (packWords bytes)) p { getMac s p with rxBytes := (getMac s p).rxBytes ++ bytes }

/-- A plot of a frame arrives from a MAC (R126, R177, R395, R396, R397): the address filter and the control frames act on
the first, nothing is written beyond MAXLEN. -/
def ethPlot (s : State) (p : Nat) (first : Bool) (bytes : List Byte) : State :=
  if macsecOn s p then (if macHears s p && ethUp s p then macsecPlot s p first bytes else s)
  else
  let m := getMac s p
  let s := if first then
      macCrossed (putMac s p { m with
        skip := false
        ctl := false
        da := beAt bytes 0 6
        learnWait := none
        nm := t1sSource s p bytes }) p
    else s
  if !(macHears s p) || !(ethUp s p) then s
  else if first && beAt bytes 12 2 == 0x8808 then putMac s p { getMac s p with skip := true, ctl := true }
  else if first && decide (6 ≤ bytes.length) && !(addrAccepts s p (beAt bytes 0 6)) then
    putMac (addrDrop s p bytes) p { getMac s p with skip := true }
  else if (getMac s p).skip then s
  else
    let have' := match mapGet? s.openFrame p with
      | some id => if first then 0 else (getFrame s id).bytes.length
      | none => 0
    let b := bytes.take (maxLen s p - have')
    if b.isEmpty then s
    else if furRoom s (macPage p) < (packWords b).length then macOverrun s p
    else announceEarly (plotArrives (macCross s p b) p first b) p

/-- Pieces of at most one plot. -/
def plotPieces : Nat → List Byte → List (List Byte)
  | 0, _ => []
  | n + 1, bs => if bs.isEmpty then [] else bs.take 96 :: plotPieces n (bs.drop 96)

/-- The rest of a frame arrives in plots: `first` when it begins with the rest. -/
def ethRest (s : State) (p : Nat) (first : Bool) (rest : List Byte) : State :=
  forEach ((plotPieces (rest.length + 1) rest).zipIdx) s (fun s (b, i) => ethPlot s p (first && i == 0) b)

/-- The ingress stamp of a frame whose first bit came `since` cycles of 5 ns ago (R413, R414). -/
def ingressStamp (s : State) (p since : Nat) : Nat := timeAt s (s.now - since) - fld s (macPage p + 0x64) 23 12

/-- The head of a frame that waits in its head furrow holds all of the frame from its end on. -/
def headWhole (s : State) (id : Nat) : State :=
  let f := getFrame s id
  { s with heads := s.heads.map (fun h => (h.1, h.2.map (fun x =>
      if x.frame = some id then { x with bytes := f.bytes, ingressNs := f.ingressNs } else x))) }

/-- A good frame is committed (R397): announced where its head was not, its learn request issued. -/
def frameCommit (s : State) (p id since : Nat) : State :=
  let f := getFrame s id
  let s := putFrame { s with openFrame := mapDel s.openFrame p } id
    { f with committed := true, ended := true, commitAt := s.now, ingressNs := ingressStamp s p since, learn := none }
  if f.announced then
    let s := headWhole s id
    let s := match f.learn with
      | some q => learnBus s q
      | none => s
    freeIfDone s id
  else
    let (ok, s) := announce s p (ethHead s p id (getFrame s id))
    if ok then putFrame s id { getFrame s id with announced := true } else dropFrame s id

/-- Counts of a frame that is committed marked BAD (R398). -/
def badCounted (s : State) (p : Nat) : State := setBit (addStat s (macPage p + 0xD0) 1) (ethEvents p) 3

/-- BAD_EN of a port (R398). -/
def badOn (s : State) (p : Nat) : Bool := effBit s (macPage p) (macPage p + 0x40) 20

/-- Reception statistics of a good frame (R397): its length includes the FCS. -/
def rxGood (s : State) (p da len : Nat) : State :=
  let pg := macPage p
  let s := addStat (addStat s (pg + 0xC0) 1) (pg + 0xC4) len
  if da = 2 ^ 48 - 1 then addStat s (pg + 0xCC) 1
  else if da / 2 ^ 40 % 2 = 1 then addStat s (pg + 0xC8) 1
  else s

/-- A policer that an early verdict has charged gets its tokens back: a frame that ends BAD charges none (R398). -/
def refund (s : State) (k : Nat) : State :=
  let st := polGet s (k / 4096) (k % 4096)
  { s with polState := mapSet s.polState k { st with level := st.level + 2 ^ 24 } }

/-- A frame is committed marked BAD (R398, R399): one copy to its host ring, and none other; no policer is charged. -/
def badCommit (s : State) (p id since flags : Nat) : State :=
  let pg := macPage p
  let s := withdraw (badCounted (forEach (getFrame s id).charges s refund) p) id
  let f := getFrame s id
  let s := putFrame { s with openFrame := mapDel s.openFrame p } id
    { f with
      committed := true
      ended := true
      announced := true
      judged := true
      bad := true
      badFlags := flags
      commitAt := s.now
      ingressNs := ingressStamp s p since
      learn := none
      charges := []
      bytes := f.bytes.take (maxLen s p) }
  let o := 128 + eff s pg (pg + 0x40) 19 16
  let c : Copy :=
    { frame := id, input := p, cls := f.cls, visibleAt := s.now, cut := false, form := { plainForm with len := f.bytes.length } }
  freeIfDone (releaseItem s { copies := [(o, c)], plain := none, void := false }) id

/-- How a received frame ends (R397): 0 abort, 1 runt, 2 code, 3 oversize, 4 FCS, 5 good. -/
def rxOutcome (s : State) (p len : Nat) (abort code fcs : Bool) : Nat :=
  if abort then 0 else if len < 64 then 1 else if code then 2 else if len > maxLen s p then 3 else if fcs then 4 else 5

/-- The error flags of a BAD frame as its descriptor carries them (R398, R600). -/
def badFlagsOf (s : State) (p len : Nat) (code fcs : Bool) : Nat :=
  b2n fcs * 4 + b2n code * 8 + b2n (decide (len > maxLen s p)) * 16

/-- The counter of an outcome below good (R397). -/
def rxCounter (outcome : Nat) : Nat :=
  match outcome with
  | 0 => 0x90
  | 1 => 0x8C
  | 2 => 0x84
  | 3 => 0x88
  | _ => 0x80

/-- A frame that was being written ends with its outcome (R397, R398). -/
def rxEnd (s : State) (p id len since outcome flags : Nat) : State :=
  if outcome = 5 then rxGood (frameCommit (macCrossed s p) p id since) p (beAt (getFrame s id).bytes 0 6) len
  else
    let s := incSat s (macPage p + rxCounter outcome)
    if outcome ≥ 2 ∧ badOn s p then badCommit (macCrossed s p) p id since flags
    else rewindOpen (macRewind s p) p

/-- A frame that lost its plots while it arrived ends (R96, R126, R128, R222, R397): its outcome is the MAC's, and a learn request
that waits for its good end is issued. -/
def rxLost (s : State) (p len outcome : Nat) : State :=
  let m := getMac s p
  let s := { putMac s p { m with learnWait := none } with dropping := s.dropping.filter (fun q => q != p) }
  if outcome = 5 then
    let s := rxGood (macCrossed s p) p m.da len
    match m.learnWait with
    | some q => learnBus s q
    | none => s
  else
    let s := incSat s (macPage p + rxCounter outcome)
    if outcome ≥ 2 ∧ badOn s p then badCounted (macCrossed s p) p else macRewind s p

/-- A MAC control frame, or one that the port does not accept, ends (R395 to R397): of a control frame a bad end is counted. -/
def rxSkipped (s : State) (p outcome : Nat) : State :=
  if (getMac s p).ctl ∧ outcome ≠ 5 then macRewind (incSat s (macPage p + rxCounter outcome)) p else s

/-- A good frame of a MACsec port is committed to its receive furrow, where it waits for a cipher lane (R418, R462); its receive
statistics are counted. -/
def macsecRx (s : State) (p : Nat) (bytes : List Byte) (len since : Nat) : State :=
  let it : LaneItem :=
    { kind := 1, frame := none, copies := [], profile := 0, port := p, bytes := bytes, ingressNs := ingressStamp s p since,
      stream := 0, num := 0, start := false, assoc := none, pn := 0, secy := emptyEntry, sa := emptyEntry, blocks := 0, poison := false }
  rxGood { (furCommit s (macPage p) [] false) with laneQ := s.laneQ ++ [it] } p (beAt bytes 0 6) len

/-- A frame ends on a MACsec port (R395, R396, R397, R418): one that ends BAD takes plots for its host copy alone. Of one that its
furrow had no room for only the outcome is left. -/
def macsecReceived (s : State) (p : Nat) (len since outcome flags : Nat) : State :=
  let pg := macPage p
  let m := getMac s p
  let bytes := m.rxBytes
  let s := putMac s p { m with rxBytes := [], skip := false }
  let past := fun (s : State) => putFur s pg { getFur s pg with openWords := [], openTaken := 0 }
  let bad := fun (s : State) => incSat s (pg + rxCounter outcome)
  if m.skip then (if outcome = 5 then rxGood s p m.da len else bad s)
  else if beAt bytes 12 2 = 0x8808 then (if outcome = 5 then past s else furRewound (bad s) pg [])
  else if decide (6 ≤ bytes.length) && !(addrAccepts s p (beAt bytes 0 6)) then addrDrop (past s) p bytes
  else if outcome = 5 then macsecRx s p bytes len since
  else if outcome ≥ 2 ∧ badOn s p then
    let pcs := (plotPieces (bytes.length + 1) (bytes.take (maxLen s p))).zipIdx
    let s := forEach pcs (past (bad s)) (fun s (b, i) => plotArrives s p (i == 0) b)
    match mapGet? s.openFrame p with
    | some id => badCommit s p id since flags
    | none => s
  else furRewound (bad s) pg []

/-- A received frame ends (R397): `rest` are its bytes not yet in plots, without the FCS, `first` when they begin it; `len`
counts the FCS; its first bit came `since` cycles of 5 ns ago. One that had not ended when the link went down ends as an abort. -/
def ethReceived (s : State) (p : Nat) (first : Bool) (rest : List Byte) (len since : Nat) (abort code fcs : Bool) : State :=
  let abort := abort || !(ethUp s p)
  if !(macHears s p) then s
  else if macsecOn s p then
    macsecReceived (handled (noteBusy (ethRest s p first rest) p (s.now - since)) (macPage p)) p len since
      (rxOutcome s p len abort code fcs) (badFlagsOf s p len code fcs)
  else
    let s := handled (noteBusy (ethRest s p first rest) p (s.now - since)) (macPage p)
    let outcome := rxOutcome s p len abort code fcs
    let s := if outcome = 5 then t1sHeard s p else s
    if (getMac s p).skip then rxSkipped (putMac s p { getMac s p with skip := false }) p outcome
    else
      match mapGet? s.openFrame p with
      | some id => rxEnd s p id len since outcome (badFlagsOf s p len code fcs)
      | none =>
        if s.dropping.contains p then rxLost s p len outcome
        else if first && outcome < 2 then incSat s (macPage p + rxCounter outcome)
        else s

/-! ## What a port writes (R307, R309 to R313, R317, R401) -/

/-- HDR[0 .. HLEN - 1] of a template. -/
def tplHdr (s : State) (pg t : Nat) : List Byte :=
  ((List.range 24).flatMap (fun j => wordBytes (tplWord s pg t (4 + j)))).take (tplHlen s pg t)

/-- The class in the PCP of the outermost VLAN tag of a header (R312). -/
def setPcp (h : List Byte) (cls : Nat) : List Byte :=
  if (ethView h).tagged then overlay h 14 [BitVec.ofNat 8 (cls * 32 + byteAt h 14 % 32)] else h

/-- A header of TYPE 1 or 2 with its lengths and checksums for a payload (R312). -/
def udpHeader (v6 csum : Bool) (h payload : List Byte) : List Byte :=
  let n := h.length
  let l3 := (ethView h).l3
  let ulen := 8 + payload.length
  let h := overlay (overlay h (n - 4) (beBytes 2 ulen)) (n - 2) [0, 0]
  let h :=
    if v6 then overlay h (l3 + 4) (beBytes 2 (n - (l3 + 40) + payload.length))
    else
      let h := overlay (overlay h (l3 + 2) (beBytes 2 (n - l3 + payload.length))) (l3 + 4) [0, 0]
      let h := overlay h (l3 + 10) [0, 0]
      overlay h (l3 + 10) (beBytes 2 (inetSum (sliceBytes h l3 (byteAt h l3 % 16 * 4))))
  if v6 || csum then
    let pseudo :=
      if v6 then sliceBytes h (l3 + 8) 32 ++ beBytes 4 ulen ++ [0, 0, 0, 17]
      else sliceBytes h (l3 + 12) 8 ++ [0, 17] ++ beBytes 2 ulen
    let c := inetSum (pseudo ++ h.drop (n - 8) ++ payload)
    overlay h (n - 2) (beBytes 2 (if c = 0 then 0xFFFF else c))
  else h

/-- The stream ID of a template. -/
def tplStream (s : State) (pg t : Nat) : Nat :=
  tplWord s pg t 1 % 2 ^ 16 * 2 ^ 48 + tplWord s pg t 2 * 2 ^ 24 + tplWord s pg t 3

/-- The header of an AVTPDU with a sequence number and a data length (R317). -/
def ntscfHeader (seq len stream : Nat) : List Byte :=
  [0x82, BitVec.ofNat 8 (0x80 + len / 256 % 8), BitVec.ofNat 8 len, BitVec.ofNat 8 seq] ++ beBytes 8 stream

/-- The ACF message that a copy becomes (R313, R314). -/
def acfOf (c : Copy) (bus : Nat) (bs : List Byte) : List Byte :=
  let e := encapOf c.form.format
  if e = 4 then acfLin bus (linIdOf c.form bs) (pduOf c.form bs)
  else acfCan (e == 3) bus (canHdrOf c.form bs) (pduOf c.form bs)

/-- A copy has a form in which an Ethernet or T1S port can write it (R310 to R317): its template suits its encapsulation. -/
def ethWrites (s : State) (p : Nat) (c : Copy) : Bool :=
  let e := encapOf c.form.format; let ty := tplType s (macPage p) (tplOf c.form.format)
  e == 0 || ((e == 1 || e == 6) && (ty == 1 || ty == 2)) || ((e == 2 || e == 3 || e == 4) && ty == 0)

/-- What a copy leaves as on an Ethernet or T1S port, before padding and FCS (R299 to R317, R401): none where its template
is unusable for it. -/
def ethWrite (s : State) (p : Nat) (c : Copy) : Option (List Byte) × State :=
  let pg := macPage p
  let bs := (getFrame s c.frame).bytes
  let e := encapOf c.form.format; let t := tplOf c.form.format
  if e = 0 then (some (if c.form.bridged then vlanOut s p c bs else bs), s)
  else
    let ty := tplType s pg t
    let h := setPcp (tplHdr s pg t) c.cls
    if e = 1 ∨ e = 6 then
      if ty = 1 ∨ ty = 2 then
        let d := pduOf c.form bs
        let payload := beBytes 4 (pduIdOf c.form bs) ++ beBytes 4 d.length ++ d
        (some (udpHeader (ty == 2) (tplCsum s pg t) h payload ++ payload), s)
      else (none, s)
    else if (e = 2 ∨ e = 3 ∨ e = 4) ∧ ty = 0 then
      let bus := if c.form.src = 8 then c.form.hdr / 2 ^ 40 % 32 else tplBus s pg t
      let msg := acfOf c bus bs
      let k := p * 16 + t
      let seq := mapGet 0 s.tplSeq k
      (some (h ++ ntscfHeader seq msg.length (tplStream s pg t) ++ msg),
       { s with tplSeq := mapPut 0 s.tplSeq k ((seq + 1) % 256) })
    else (none, s)

/-! ## Sending (R400, R402, R403, R415) -/

/-- A complete frame has left (R400): statistics, the burst of a PLCA opportunity. -/
def ethComplete (s : State) (p : Nat) (bs : List Byte) : State :=
  let pg := macPage p
  let w := ethWire bs
  let s := addStat (addStat s (pg + 0xD4) 1) (pg + 0xD8) w.length
  let s := send s p .ethFrame [] w
  flightOver (plcaUsed (handled s pg) p) p

/-- What the copy in flight leaves as, whole: what its lane gave on a MACsec port (R419), its form elsewhere, none where its
template is unusable. -/
def outBytes (s : State) (p : Nat) (c : Copy) : Option (List Byte) × State :=
  if macsecOn s p then (mapGet? s.macOut p, s) else ethWrite s p c

/-- Ends the copy in flight at a MAC in a failed transmission (R402, R403): `cut` where the link takes it away, else with the FCS
inverted and the error code of the PCS. How much of it has left is open where `part` does not say it; one of which no bit has left
ends without a count (R165). -/
def txEnds (s : State) (p : Nat) (cut : Bool) (part : Option Nat) : State :=
  match mapGet? s.inFlight p with
  | none => s
  | some c =>
    if notBegun s p then flightOver s p
    else
    let (bs, s) := outBytes s p c
    let s := incSat (tsFails s p) (macPage p + 0x94)
    let bs := bs.getD []
    let (r, s) := match part with
      | some n => (n, s)
      | none => drawNat s
    let left := bs.take (if part.isSome then r else r % (bs.length + 1))
    let s := if cut then send s p .ethCut [] left else send s p .ethStomped [pcsError (ethIf s p)] (stompedBytes left)
    flightOver (plcaUsed s p) p

/-- The copy in flight at a MAC ends as a failed transmission (R402). -/
def ethFails (s : State) (p : Nat) : State := txEnds s p false none

/-- The copy in flight is cut off where it stands as its link goes down (R403). -/
def txAbort (s : State) (p : Nat) : State := txEnds s p true none

/-- The MAC may send the copy in flight (R400, R408, R409, R419, R429, R624): its link is up, no back-off runs, the PLCA
opportunity is its own, its lane has released it, the segment's cluster is awake and the pair's outputs are not quiet. -/
def macMaySend (s : State) (p : Nat) : Bool :=
  let m := getMac s p
  macLive s p && ethUp s p && m.backoff.isNone && !(plcaOn s p && !m.turn) &&
    !(isT1s p && (chanAsleep s p || pairQuiet s)) && (!(macsecOn s p) || (mapGet? s.macOut p).isSome)

/-- The first bit of the copy in flight leaves as soon as the MAC may send it (R106, R413, R415, R548): one that is poisoned or
has no form is discarded before. DESIGN CHOICE: no time passes between what lets the MAC send and the first bit
(notes/assumptions/142.md). -/
def macBegins (s : State) (p : Nat) : State :=
  match mapGet? s.inFlight p with
  | none => s
  | some c =>
    let m := getMac s p
    let f := getFrame s c.frame
    if m.txFrom.isSome || !(macMaySend s p) then s
    else if f.poison then flightOver (incSat s (egrPage + 0x44)) p
    else if !(macsecOn s p) && !(ethWrites s p c) then flightOver s p
    else
      let s := latency (putMac s p { m with txFrom := some s.now, stamped := true }) p c.cls (readyAt s c)
      if f.wantsTs && !m.stamped then tsPlace s p f.tag else s

/-- Every MAC that may begin its copy in flight does so. -/
def macsBegin (s : State) : State :=
  forEach ((s.inFlight.map (·.1)).filter (fun o => decide (88 ≤ o) && decide (o < 124))) s macBegins

/-- A transmit MAC ends a frame (R400 to R402): complete, or failed by an underrun, which the cell records (R22). A frame not yet
whole cannot be complete; on a MACsec port it leaves as its lane gave it (R419). -/
def ethSent (s : State) (p left : Nat) (failed : Bool) : State :=
  match mapGet? s.inFlight p with
  | none => s
  | some c =>
    let f := getFrame s c.frame
    if !(macLive s p) || !(ethUp s p) || notBegun s p then s
    else if f.poison then stompFlight s p
    else if failed then { txEnds s p false (some left) with crossings := s.crossings ++ [(macPage p, 0)] }
    else if !f.committed then s
    else
      match outBytes s p c with
      | (some bs, s) => ethComplete s p bs
      | (none, s) => flightOver s p

/-! ## Link (R391 to R393) -/

/-- The link is declared down (R392, R403): the frame in flight is cut off. -/
def linkDown (s : State) (p : Nat) : State :=
  if !(ethUp s p) then s
  else
    let s := setBit (clrBit (clrBit s (ethLink p) 23) (ethLink p) 17) (ethEvents p) 0
    let s := putMac s p { getMac s p with fcQ := [] }
    refreshOutput (txAbort s p) p

/-- The link condition lapses (R392): that of a T1S port in CSMA/CD mode holds while the cell runs; PLCA status is no longer OK
(R422). -/
def linkLapses (s : State) (p : Nat) : State :=
  if isT1s p && csma s p && macLive s p then s else clrBit (linkDown s p) (ethLink p) 17

/-- ETH_LINK.UP_MS in ticks. -/
def upHold (s : State) (p : Nat) : Nat := msTicks (min 1000 (fld s (ethLink p) 9 0))

/-- The link condition has held for `held` ticks with the in-band speed and duplex (R391, R392); on a T1S port in CSMA/CD mode it
has held since the cell began to run. That of a PLCA port is the PLCA status, which PLCA_OK shows from its beginning on (R422). -/
def linkUp (s : State) (p speed : Nat) (half : Bool) (held : Nat) : State :=
  let s := if macLive s p && plcaOn s p then setBit s (ethLink p) 17 else s
  let held := if isT1s p && csma s p then s.now - (getMac s p).ranAt else held
  if ethUp s p || !(macLive s p) || held < upHold s p then s
  else
    let (sp, hd) := ethModes s p speed half
    let s := putBit (setFld (setBit s (ethLink p) 23) (ethLink p) 22 20 sp) (ethLink p) 19 hd
    refreshOutput (setBit s (ethEvents p) 1) p

/-- A change of speed or duplex reported in-band takes the link down, then up again under R392 (R393). -/
def speedChange (s : State) (p speed : Nat) (half : Bool) : State :=
  let (sp, hd) := ethModes s p speed half
  if ethUp s p && (sp != fld s (ethLink p) 22 20 || hd != bit s (ethLink p) 19) then
    putBit (setFld (linkDown s p) (ethLink p) 22 20 sp) (ethLink p) 19 hd
  else s

/-! ## Flow control (R404, R406, R407) -/

/-- RX_EN as it acts, and whether PFC is obeyed (R406, R407). -/
def fcObeys (s : State) (p : Nat) : Bool :=
  effBit s (macPage p) (macPage p + 0x50) 21 && !(csma s p)

/-- A class is paused for a time, or its pause ends (R406). -/
def pauseClass (s : State) (p c quanta : Nat) : State :=
  let m := getMac s p
  if quanta = 0 then clrBit (putMac s p { m with pauseTo := mapDel m.pauseTo c }) (macPage p + 0x54) (16 + c)
  else
    let t := s.now + bitTicks s p (quanta * 512)
    setBit (putMac s p { m with pauseTo := mapSet m.pauseTo c t }) (macPage p + 0x54) (16 + c)

/-- A received MAC control frame is consumed (R396, R406). -/
def macControl (s : State) (p : Nat) (bs : List Byte) : State :=
  if !(macHears s p) || !(ethUp s p) || beAt bs 12 2 != 0x8808 then s
  else
    let op := beAt bs 14 2
    if op ≠ 0x0001 ∧ op ≠ 0x0101 then s
    else
      let s := incSat s (macPage p + 0x9C)
      if !(fcObeys s p) then s
      else if op = 1 then noteStuck (forEach (List.range 8) s (fun s c => pauseClass s p c (beAt bs 16 2))) p
      else if isT1s p then s
      else
        noteStuck (forEach (List.range 8) s (fun s c =>
          if byteAt bs 17 / 2 ^ c % 2 = 1 then pauseClass s p c (beAt bs (18 + 2 * c) 2) else s)) p

/-- A class's pause time ends (R406). -/
def pauseEnd (s : State) (p c : Nat) : State :=
  match mapGet? (getMac s p).pauseTo c with
  | some t => if t ≤ s.now then noteStuck (pauseClass s p c 0) p else s
  | none => s

/-- QUANTA × 256 bit times have passed since the last control frame while XOFF holds (R404). -/
def pauseRefresh (s : State) (p : Nat) : State :=
  if bit s (admUsed p) 23 ∧ fcMode s p ≠ 0 ∧ (getMac s p).fcQ = [] ∧ s.now - mapGet 0 s.fcSentAt p ≥ bitTicks s p (quantaOf s p * 256) then
    sendControl s p (mapGet 0 s.withheld p) (quantaOf s p)
  else s

/-! ## Half duplex, CSMA/CD and PLCA (R408 to R410) -/

/-- A frame being sent meets a collision (R408): `late` after its first 512 bits. -/
def collision (s : State) (p : Nat) (late : Bool) : State :=
  if !(csma s p) || notBegun s p || (mapGet? s.inFlight p).isNone || !(macLive s p) then s
  else
    let pg := macPage p
    let s := send (incSat s (pg + 0xA4)) p .ethJam [] []
    if late then flightOver (incSat (tsFails s p) (pg + 0xA8)) p
    else
      let m := getMac s p
      let n := m.colls + 1
      if n ≥ 16 then flightOver (incSat (tsFails s p) (pg + 0xAC)) p
      else
        let (d, s) := drawNat s
        let r := d % 2 ^ min n 10
        let s := noteBusy s p (m.txFrom.getD s.now)
        serveControl (putMac s p { m with colls := n, txFrom := none, backoff := some (s.now + bitTicks s p (r * 512)) }) p

/-- The back-off ends (R408): the frame is attempted again. -/
def backoffEnd (s : State) (p : Nat) : State :=
  match (getMac s p).backoff with
  | some t => if t ≤ s.now then putMac s p { getMac s p with backoff := none } else s
  | none => s

/-- A carrier starts on a CSMA/CD T1S segment (R410): jammed while XOFF holds, unless the segment sleeps or prepares to (R429). -/
def forcedJam (s : State) (p : Nat) : State :=
  if isT1s p && csma s p && bit s (admUsed p) 23 && macLive s p && !(pairQuiet s) && !(chanAsleep s p) then
    send (incSat s (macPage p + 0xB0)) p .ethJam [] []
  else s

/-- PLCA node ID in force (R409). -/
def plcaId (s : State) (p : Nat) : Nat := min 254 (fld s (macPage p + 0x58) 22 15)

/-- A transmit opportunity of the node begins, with the coordinator's beacon at the cycle's start, or TO_TIMER or BURST_TMR has
run in it unused (R409, R624). -/
def plcaTurn (s : State) (p : Nat) (begins : Bool) : State :=
  if !(plcaOn s p) || !(macLive s p) then s
  else if begins then
    let quiet := pairQuiet s || chanAsleep s p
    let s := if plcaId s p = 0 ∧ !quiet then send s p .plcaBeacon [max 1 (fld s (macPage p + 0x58) 14 7)] [] else s
    serveControl (putMac s p { getMac s p with
      turn := !quiet
      burst := fld s (macPage p + 0x5C) 15 8
      turnEnd := s.now + bitTicks s p (max 1 (fld s (macPage p + 0x5C) 23 16)) }) p
  else if (mapGet? s.inFlight p).isNone && decide ((getMac s p).turnEnd ≤ s.now) then
    putMac s p { getMac s p with turn := false, burst := 0 }
  else s

/-! ## The time (R412) -/

/-- State with the time moved by a signed number of nanoseconds (R412). -/
def timeStep (s : State) : State :=
  let v := rd s (timePage + 0x48)
  let d := if v < 2 ^ 23 then v * 2 ^ 32 else timeRange - (2 ^ 24 - v) * 2 ^ 32
  gatesCut { s with timeFine := (s.timeFine + d) % timeRange }

/-- The 80-bit time as its wide value reads (R411). -/
def time80Now (s : State) : Nat := time80 (timeNs s)
/-- The time committed (R412): nanoseconds of 10^9 or more act as 999,999,999. -/
def timeCommit (s : State) (v : Nat) : State :=
  gatesCut { s with timeFine := (v / 2 ^ 32 % 2 ^ 48 * 1000000000 + min 999999999 (v % 2 ^ 32)) * 2 ^ 32 }

/-! ## RESTART and FALLOW (R421) -/

/-- What the RESTART of a MAC cell does beyond the general clearing (R42): the frame in arrival is rewound, the one in
flight cut off, the link goes through R392 again. -/
def macRestart (s : State) (p : Nat) : State :=
  let s := putMac (txAbort (rewindOpen s p) p) p noMac
  let s := { s with laneQ := s.laneQ.filter (fun it => !(it.kind == 1 && it.port == p)) }
  let s := clearHeads s (macPage p)
  refreshOutput { s with dropping := s.dropping.filter (fun q => q != p) } p

/-- A MAC cell begins to run (R392). -/
def macRun (s : State) (p : Nat) : State := refreshOutput (putMac s p { getMac s p with ranAt := s.now }) p

/-- A MAC cell enters FALLOW (R421). -/
def macToFallow (s : State) (p code : Nat) : State :=
  let pg := macPage p
  if isFallow s pg then s
  else
    let s := rewindOpen (linkDown s p) p
    let s := setBit (setBit { s with fallow := pg :: s.fallow } (ethLink p) 18) (ethEvents p) 5
    let s := retire s 1 pg code 0 0
    let s := refreshOutput (putMac s p { noMac with tsq := (getMac s p).tsq }) p
    if isT1s p then refreshTrx s p else s

end Sys2Proof.Machine
end

