-- ==== Sys2Proof/Machine/Security.lean ====
section
/-! DEFINITION. Cipher lanes, SecOC, MACsec, the entropy source and DRBG, the life cycle and the key slots (13_security.md,
R457 to R506; R323 to R325 for the secured PDU). -/
namespace Sys2Proof.Machine

/-! ## Life cycle and keys (R486, R490, R494) -/

/-- LC_STAT.STATE: 0 BLANK, 1 MANUFACTURE, 2 PRODUCTION, 3 RETURN, 4 SCRAPPED. -/
def lcState (s : State) : Nat := fld s (lcPage + 0x40) 23 21
/-- The root in use (R486). -/
def lcRoot (s : State) : Option Nat :=
  let st := lcState s
  if 1 ≤ st ∧ st ≤ 3 ∧ bit s (lcPage + 0x40) (8 + st) then mapGet? s.roots (st - 1) else none

/-- The bytes of a key. -/
def slotKey (k : KeySlot) : List Nat := numBytes (if k.k256 then 32 else 16) k.key
/-- The check value of a key (R490). -/
def kcvOf (key : Nat) (k256 : Bool) : Nat :=
  bytesNum ((aesBlock (numBytes (if k256 then 32 else 16) key) (List.replicate 16 0)).take 3)

/-- A key that a lane may use with a usage flag (R494): bit 5 CMAC_GEN, 4 CMAC_VER, 3 GCM_ENC, 2 GCM_DEC, 1 IMAGE_AUTH,
0 KDF. -/
def keyFor (s : State) (slot flag : Nat) : Option KeySlot :=
  match mapGet? s.keys slot with
  | some k => if k.usage / 2 ^ flag % 2 = 1 ∧ lcState s ≠ 4 then some k else none
  | none => none

/-! ## Service work and the DRBG (R461 to R463, R484) -/

/-- Service work waits for the lanes (R462): its unit, 0 a key command, 1 the DRBG, 2 the life cycle, 3 the records of committed
keys, and its AES blocks. What R461 gives no cost for is not counted (DESIGN CHOICE, notes/assumptions/132.md). -/
def serviceWork (s : State) (unit blocks : Nat) : State :=
  { s with laneQ := s.laneQ ++ [
      { kind := 3, frame := none, copies := [], profile := unit, port := 0, bytes := [], ingressNs := 0, stream := 0, num := 0,
        start := false, assoc := none, pn := 0, secy := emptyEntry, sa := emptyEntry, blocks := blocks, poison := false }] }

/-- Blocks of a wrap or an unwrap of a record; of a DRBG request for a number of bits, which a reseed precedes with prediction
resistance; of the store key's derivation with its label of 5, context of 1 and fixed bytes of 4 (R461, R484, R493, R495). -/
def wrapBlocks (k256 : Bool) : Nat := if k256 then 30 else 18
def drbgBlocks (bits : Nat) (fresh : Bool) : Nat := (if fresh then 6 else 3) + (bits + 127) / 128
def storeBlocks : Nat := 4

/-- DRBG_STAT.STATE: 0 UNINSTANTIATED, 1 READY, 2 ERROR. -/
def drbgState (s : State) : Nat := fld s (entPage + 0x4C) 23 22

/-- 384 bits from the entropy source (R483, R484): three times 512 raw bits, whose outcome nothing states, conditioned into 128 by
AES-256-CMAC under the fixed internal key. -/
def entropySeed (s : State) : List Nat × State :=
  let raw := fun (s : State) => drawBytes s 64
  let cond := fun (bs : List Byte) => aesCmac (numBytes 32 Config.conditionKey) (bs.map (·.toNat))
  let (a, s) := raw s
  let (b, s) := raw s
  let (c, s) := raw s
  (cond a ++ cond b ++ cond c, s)

/-- The DRBG is seeded anew from the entropy source (R484): from nothing at its instantiation, else from its present state. -/
def drbgSeed (s : State) (anew : Bool) : State :=
  let (seed, s) := entropySeed s
  let d := s.drbg
  let x := if anew then ctrUpdate 0 0 seed else ctrUpdate d.key d.v seed
  { s with drbg := { key := x.1, v := x.2, requests := 0 } }

/-- A request to the DRBG for a number of bits (R484): seeded anew first with prediction resistance, or after 2^20 requests. -/
def drbgRequest (s : State) (bits : Nat) (fresh : Bool) : List Nat × State :=
  let s := if fresh || decide (2 ^ 20 ≤ s.drbg.requests) then drbgSeed s false else s
  let d := s.drbg
  let n := (bits + 127) / 128
  let x := ctrUpdate d.key ((d.v + n) % 2 ^ 128) (List.replicate 48 0)
  ((ctrBlocks d.key d.v n).take (bits / 8), { s with drbg := { key := x.1, v := x.2, requests := d.requests + 1 } })

/-- The store key of the present state (R495); none where no root is in use. -/
def storeKey (s : State) : Option (List Nat) :=
  (lcRoot s).map (fun r => kdf (numBytes 32 r) [0x73, 0x74, 0x6F, 0x72, 0x65] [lcState s] 256)

/-- What the record of a slot wraps (R495): the key, then slot, usage flags, K256, STATE and three zero bytes. -/
def recordText (slot key : Nat) (k256 : Bool) (usage state : Nat) : List Nat :=
  numBytes (if k256 then 32 else 16) key ++ numBytes 2 slot ++ [usage, b2n k256, state, 0, 0, 0]

/-- A record unwrapped (R495): key and usage, where its integrity check holds and it is the slot's. -/
def recordKey (s : State) (slot : Nat) (r : KeyRec) : Option (Nat × Nat) :=
  match storeKey s with
  | some sk =>
    (match kwUnwrap sk r.wrapped with
      | some text =>
        let n := if r.k256 then 32 else 16
        let key := bytesNum (text.take n); let usage := text.getD (n + 2) 0
        if text = recordText slot key r.k256 usage r.state then some (key, usage) else none
      | none => none)
  | none => none

/-- The slot of a record fills (R495). -/
def keyLoad (s : State) (slot key usage : Nat) (k256 : Bool) : State :=
  let k : KeySlot := { key := key, k256 := k256, persist := true, origin := 4, usage := usage, kcv := kcvOf key k256 }
  { s with keys := mapSet s.keys slot k }

/-- A key word is read with bad parity (R498): counted, the slot emptied and reloaded from its record; a slot classed
permanent is retired (R537). -/
def keyParity (s : State) (slot : Nat) : State :=
  let persist := match mapGet? s.keys slot with
    | some k => k.persist
    | none => false
  let s := incSat { s with keys := mapDel s.keys slot } (keyPage + 0x88)
  let (perm, s) := classFault s keyPage slot 0x1E false
  let s := raiseRec s keyPage 0x1E 0 (if perm then 2 else 1) keyPage slot
  if perm then retire { s with keysRetired := slot :: s.keysRetired } 5 keyPage 0x1E slot 0
  else
    match mapGet? s.keyRecs slot with
    | some r =>
      (match (if persist then recordKey s slot r else none) with
        | some (key, usage) => serviceWork (keyLoad s slot key usage r.k256) 3 (storeBlocks + wrapBlocks r.k256 + 1)
        | none => s)
    | none => s

/-! ## Freshness state (R469, R473, R474) -/

/-- FV, HOLD and EXHAUSTED of a profile's freshness state. -/
def fvOf (s : State) (k : Nat) : Nat :=
  let e := tGet s secTable 1 0 k
  tw e 0 * 2 ^ 40 + tw e 1 * 2 ^ 16 + twf e 2 23 8
def fvHold (s : State) (k : Nat) : Bool := twb (tGet s secTable 1 0 k) 2 7
def fvExhausted (s : State) (k : Nat) : Bool := twb (tGet s secTable 1 0 k) 2 6

/-- A freshness state written whole. -/
def putFv (s : State) (k fv : Nat) (hold exhausted : Bool) : State :=
  tPut s secTable 1 0 k
    { words := [BitVec.ofNat 24 (fv / 2 ^ 40), BitVec.ofNat 24 (fv / 2 ^ 16),
        BitVec.ofNat 24 (fv % 2 ^ 16 * 256 + b2n hold * 128 + b2n exhausted * 64)],
      valid := true }

/-- FV_FULL in bits, FV_BITS, MAC_BITS, AUTH_LEN and WINDOW of a profile entry (R468). -/
def fvFull (e : TEntry) : Nat := 8 * clamp 1 8 (twf e 1 7 4)
def fvBits (e : TEntry) : Nat := min (fvFull e) (twf e 2 23 17)
def macBits (e : TEntry) : Nat := clamp 8 128 (twf e 2 16 9)
def authLen (e : TEntry) : Nat := min 64 (twf e 0 11 5)
def fvWindow (e : TEntry) : Nat := max 1 (tw e 3)
/-- Bytes of a trailer, and the secured length (R323). -/
def trailerLen (e : TEntry) : Nat := (fvBits e + macBits e + 7) / 8

/-- A new freshness value of a profile: kept in the settings each time its step changes, for a persistent profile, and
mirrored by the ACTIVE device of a pair (R474, R631). -/
def setFv (s : State) (k : Nat) (e : TEntry) (fv : Nat) : State :=
  let old := fvOf s k
  let s := mirrorOut (putFv s k fv (fvHold s k) (fvExhausted s k)) [1, k, fv]
  let step := 2 ^ twf e 2 8 5
  if twb e 2 4 ∧ old / step ≠ fv / step then { s with fvSaved := mapSet s.fvSaved k fv } else s

/-- The freshness value of a profile that is no longer in the step that was saved is saved, for a persistent profile (R474). -/
def saveFv (s : State) (k : Nat) : State :=
  match tLive s secTable 0 k with
  | some e =>
    let step := 2 ^ twf e 2 8 5
    if twb e 2 4 ∧ (mapGet? s.fvSaved k).map (· / step) ≠ some (fvOf s k / step) then
      { s with fvSaved := mapSet s.fvSaved k (fvOf s k) }
    else s
  | none => s

/-- The message of a secured PDU's CMAC (R324). -/
def secMessage (e : TEntry) (auth : List Byte) (fv : Nat) : List Nat :=
  numBytes 2 (twf e 1 23 8) ++ auth.map (·.toNat) ++ numBytes (fvFull e / 8) fv

/-- The MAC_BITS most significant bits of the CMAC (R324). -/
def secMac (e : TEntry) (k : KeySlot) (auth : List Byte) (fv : Nat) : Nat :=
  bytesNum (aesCmac (slotKey k) (secMessage e auth fv)) / 2 ^ (128 - macBits e)

/-- The trailer of a secured PDU (R323). -/
def secTrailer (e : TEntry) (fv mac : Nat) : List Byte :=
  let n := trailerLen e
  beBytes n ((fv % 2 ^ fvBits e * 2 ^ macBits e + mac) * 2 ^ (8 * n - fvBits e - macBits e))

/-! ## What a received frame's SecTAG leads to (R475, R476, R478) -/

/-- The SecY of a MACsec port, and its entry where it is valid. -/
def secyOf (p : Nat) : Nat := p - 104

def secyEntry (s : State) (p : Nat) : TEntry := (tLive s secTable 2 (secyOf p)).getD emptyEntry

/-- A frame is uncontrolled (R477, R478): EtherType 0x888E, or BYPASS_ET. -/
def uncontrolled (e : TEntry) (bs : List Byte) : Bool :=
  beAt bs 12 2 == 0x888E || (twb e 0 13 && beAt bs 12 2 == twf e 6 15 0)

def rxSci (e : TEntry) : Nat := twf e 0 15 0 * 2 ^ 48 + tw e 1 * 2 ^ 24 + tw e 2

/-- A key that a MACsec association may use (R494). -/
def saKey (s : State) (e a : TEntry) (flag : Nat) : Option KeySlot :=
  match keyFor s (twf a 0 22 13) flag with
  | some k => if k.k256 == twb e 0 19 then some k else none
  | none => none

/-- What a lane reads of a SecTAG (R478): whether it is sound, SC, ES, encrypted, AN, the low bits of the PN, the SCI where
it is carried, where the secure data begin and how many bytes they are. -/
structure SecTagView where
  ok : Bool
  es : Bool
  enc : Bool
  an : Nat
  pn : Nat
  sci : Option Nat
  off : Nat
  len : Nat
  deriving DecidableEq, Repr

/-- Reads a SecTAG (R478): a short frame that the sender padded to 60 bytes agrees with its SL. -/
def secTagView (bs : List Byte) : SecTagView :=
  let tci := byteAt bs 14
  let sc := tci / 32 % 2 == 1
  let off := if sc then 28 else 20
  let sl := byteAt bs 15 % 64
  let room := bs.length - off - 16
  let len := if sl = 0 then room else sl
  let fits := decide (off + 16 ≤ bs.length) &&
    (if sl = 0 then decide (48 ≤ room) else decide (sl < 48) && (sl == room || (decide (sl < room) && bs.length == 60)))
  { ok := tci / 128 == 0 && fits, es := tci / 64 % 2 == 1, enc := tci / 8 % 2 == 1, an := tci % 4, pn := beAt bs 16 4,
    sci := if sc then some (beAt bs 20 8) else none, off := off, len := len }

/-- What a received frame's SCI and AN lead to (R478, R500): an association that validates it, a quarantined channel or
association, by table and index, or neither. -/
inductive RxChoice where
  | use (j : Nat)
  | quar (code j : Nat)
  | noSa
  deriving DecidableEq, Repr

/-- The receive association of a frame (R478): enabled channel for the SCI, enabled association for the AN; what is quarantined
refuses the frame whatever its live copy says (R500). -/
def rxAssoc (s : State) (p : Nat) (bs : List Byte) (v : SecTagView) : RxChoice :=
  let y := secyOf p
  let sci := match v.sci with
    | some x => x
    | none => if v.es then beAt bs 6 6 * 65536 + 1 else rxSci (tGet s secTable 3 0 (4 * y))
  match (List.range 4).find? (fun k =>
    let c := tGet s secTable 3 0 (4 * y + k)
    rxSci c == sci && ((c.valid && twb c 0 23) || isQuar s 5 3 (4 * y + k))) with
  | some k =>
    let j := 20 * y + 4 + 4 * k + v.an
    if isQuar s 5 3 (4 * y + k) then .quar 3 (4 * y + k)
    else if isQuar s 5 4 j then .quar 4 j
    else if (tLive s secTable 4 j).any (fun a => twb a 0 23) then .use j
    else .noSa
  | none => .noSa

/-- A received frame has a plaintext item in its lane's holding furrow (R478, R479): a controlled one with a sound SecTAG, an
association and a key for it. -/
def hasPlain (s : State) (it : LaneItem) : Bool :=
  let e := secyEntry s it.port
  let v := secTagView it.bytes
  it.kind == 1 && !(isQuar s 5 2 (secyOf it.port)) && !(uncontrolled e it.bytes) && beAt it.bytes 12 2 == 0x88E5 && v.ok && twb e 0 23 &&
    (match rxAssoc s it.port it.bytes v with
     | .use j => (saKey s e ((tLive s secTable 4 j).getD emptyEntry) 2).isSome
     | _ => false)

/-! ## Failures, voids and releases (R145, R466, R472) -/

/-- The counter of a reason of SEC_FAIL_CAP (R472, R501). -/
def secCounter (reason : Nat) : Nat :=
  match reason with
  | 1 => 0x48
  | 2 => 0x4C
  | 3 => 0x50
  | 4 => 0x58
  | 5 => 0x5C
  | 6 => 0x60
  | _ => 0x54

/-- A SecOC failure is counted and, first, captured (R472). -/
def secFail (s : State) (profile reason : Nat) : State :=
  let s := incSat s (secPage + secCounter reason)
  if bit s (secPage + 0x44) 23 then s else wr s (secPage + 0x44) (0x800000 + reason * 0x100000 + profile % 0x400)

/-- LANE_STAT.BUSY follows a lane's queue. -/
def laneBusy (s : State) (i : Nat) : State := putBit s (lanePage i + 0x40) 21 (!(mapGet [] s.lanes i).isEmpty)

/-- The item at the front of a lane, taken out of it; unless a parity fault ends it (`ev` 1), the lane has handled it (R543). -/
def laneTake (s : State) (i ev : Nat) : Option (LaneItem × State) :=
  match mapGet [] s.lanes i with
  | it :: rest =>
    let s := laneBusy { s with lanes := mapPut [] s.lanes i rest } i
    some (it, if ev = 1 then s else handled s (lanePage i))
  | [] => none

/-- An item that a lane gives up (R145, R466): its copies are gone, its frame freed, its void delivered. Service work, which has
no stream, is given to a lane anew (DESIGN CHOICE, notes/assumptions/144.md). -/
def laneVoid (s : State) (it : LaneItem) : State :=
  if it.kind = 3 then { s with laneQ := s.laneQ ++ [it] }
  else
  let s := reseqVoid s it.stream it.num it.start
  match it.frame with
  | some id => if it.kind = 2 then flightOver s it.port else freeIfDone s id
  | none => s

/-- An item that a lane releases in the order of its stream (R462); one whose copy the port no longer sends leaves a void (R145). -/
def laneRelease (s : State) (it : LaneItem) (copies : List (Nat × Copy)) (plain : Option MacPlain) : State :=
  let gone := decide (it.kind = 2) && it.frame.isNone
  let s := reseqArrive s it.stream it.num it.start { copies := copies, plain := if gone then none else plain, void := gone }
  match it.frame with
  | some id => if it.kind = 0 then afterPlacing s id (copies.map (·.1)) else s
  | none => s

/-- A lane's mask generator takes a new seed from the DRBG, or waits for one while the DRBG is in ERROR (R459, R484). -/
def maskSeed (s : State) (i : Nat) : State :=
  if drbgState s = 1 then
    let (bs, s) := drbgRequest s 128 false
    serviceWork { s with maskGen := mapSet s.maskGen i { seed := bytesNum bs, blocks := 0, due := false } } 1 (drbgBlocks 128 false)
  else
    let g := mapGet { seed := 0, blocks := 0, due := false } s.maskGen i
    { s with maskGen := mapSet s.maskGen i { g with due := true } }

/-- AES blocks that a lane computes: LANE_BLOCKS counts them, and its mask generator is reseeded after every 2^20 (R459, R502). -/
def laneBlocks (s : State) (i n : Nat) : State :=
  let s := addStat s (lanePage i + 0x4C) n
  match mapGet? s.maskGen i with
  | some g =>
    let s := { s with maskGen := mapSet s.maskGen i { g with blocks := g.blocks + n } }
    if 2 ^ 20 ≤ g.blocks + n && !g.due then maskSeed s i else s
  | none => s

/-- Plaintext is written into the lane's holding furrow (R479). -/
def laneHolds (s : State) (i : Nat) (bs : List Byte) : State := furWrite s (lanePage i) (packWords bs)

/-- The plaintext item is committed and passed on (R418, R479). -/
def laneCommits (s : State) (i : Nat) : State :=
  let s := furCommit s (lanePage i) [] false
  putFur s (lanePage i) { getFur s (lanePage i) with items := [], taken := 0, failed := false }

/-- The plaintext item of a received frame is rewound in the lane's holding furrow (R96, R460, R479). -/
def laneRewinds (s : State) (i : Nat) : State :=
  let s := furRewound s (lanePage i) []
  putFur s (lanePage i) { getFur s (lanePage i) with failed := false }

/-- A parity fault of a lane (R460): the item is voided, its plaintext rewound, the fault counted and recorded, the known-answer
test begins. -/
def laneFault (s : State) (i : Nat) (it : LaneItem) : State :=
  let pg := lanePage i
  let s := if hasPlain s it then laneRewinds s i else s
  let s := setBit (incSat s (pg + 0x44)) (pg + 0x40) 22
  let s := raiseRec s pg 0x1B i 3 pg 0
  laneVoid { s with awaitTest := (pg, 0) :: s.awaitTest } it

/-- A poisoned item ends at its lane (R106). -/
def lanePoison (s : State) (i : Nat) (it : LaneItem) : State :=
  laneVoid (incSat (if hasPlain s it then laneRewinds s i else s) (lanePage i + 0x48)) it

/-- The lane is in service (R460, R463). -/
def laneServes (s : State) (i : Nat) : Bool :=
  running s (lanePage i) && !(isFallow s (lanePage i)) && !(bit s (lanePage i + 0x40) 22)

/-! ## SecOC (R470 to R473) -/

/-- The PDU of a SecOC item, as its copies refer to it. -/
def itemPdu (s : State) (it : LaneItem) : List Byte :=
  match it.frame, it.copies with
  | some id, c :: _ => pduOf c.2.form (getFrame s id).bytes
  | _, _ => []

/-- The header of an item whose PDU range takes `n` bytes (R179, R304, R306, R313, R325): its length says so. -/
def reHeader (src : Nat) (hdr : List Byte) (n : Nat) : List Byte :=
  match src with
  | 3 => overlay hdr 4 (beBytes 4 n)
  | 4 | 6 =>
    let quads := (hdr.length + n + 3) / 4
    let h := overlay hdr 0 (beBytes 2 (beAt hdr 0 2 / 512 * 512 + quads))
    overlay h 2 [BitVec.ofNat 8 ((4 * quads - hdr.length - n) * 64 + byteAt hdr 2 % 64)]
  | _ => if hdr.length = 8 then overlay hdr 5 [BitVec.ofNat 8 n] else hdr

/-- The frame of an item with another PDU in place of its PDU (R470 step 4, R471 step 5), and where the item begins: a frame that
holds the one item is made anew, in one that was split the item is written behind the others, pad bytes and all. -/
def placeItemPdu (f : Frame) (form : CopyForm) (pdu : List Byte) : List Byte × Nat :=
  let hdr := reHeader form.src (sliceBytes f.bytes form.itemOff (form.off - form.itemOff)) pdu.length
  if f.kind = .eth then
    (f.bytes ++ hdr ++ pdu ++ List.replicate (if form.src = 4 ∨ form.src = 6 then (4 - (hdr.length + pdu.length) % 4) % 4 else 0) 0,
     f.bytes.length)
  else (f.bytes.take form.itemOff ++ hdr ++ pdu, form.itemOff)

/-- A plot for each 96 bytes by which a frame in memory has grown, as long as the areas of its input have one (R127, R128). -/
def growFrame : Nat → State → Nat → Option State
  | 0, s, _ => some s
  | n + 1, s, id =>
    let f := getFrame s id
    match takePlot s (chargeArea s f.input) ((f.plots.headD { bank := 0, row := 0, area := .res }).bank) f.plots.length with
    | some (pl, s) => growFrame n (evalAll (putFrame s id { getFrame s id with plots := f.plots ++ [pl] })) id
    | none => none

/-- The PDU stands in packet memory in place of the item's PDU, charged to the item's input (R470 step 4, R471 step 5), and the
copies refer to it; none where its input has no plot for a longer item (R128). -/
def placeSecured (s : State) (it : LaneItem) (pdu : List Byte) : Option (List (Nat × Copy) × State) :=
  match it.frame, it.copies with
  | some id, c :: _ =>
    let f := getFrame s id
    let form := c.2.form
    let (bytes, at') := placeItemPdu f form pdu
    let more := plotsFor (f.bytes.length - form.len + pdu.length) - f.plots.length
    (match growFrame more (putFrame s id { f with bytes := bytes }) id with
      | some s =>
        let off := at' + (form.off - form.itemOff)
        some (it.copies.map (fun c =>
          (c.1, { c.2 with form := { c.2.form with itemOff := at', off := off, len := pdu.length } })), s)
      | none => none)
  | _, _ => some (it.copies, s)

/-- A secured item for which its input has no plot is rewound and counted (R128). -/
def laneExhausts (s : State) (it : LaneItem) : State :=
  laneVoid (match it.frame with | some id => countExhausted s (getFrame s id).input | none => s) it

/-- A refused or failed SecOC item (R472). -/
def secRefuse (s : State) (it : LaneItem) (reason : Nat) : State := laneVoid (secFail s it.profile reason) it

/-- The key of a profile for a use (R494); `ev` 2 is a key word with bad parity, which empties the slot (R498). -/
def secKey (s : State) (e : TEntry) (flag ev : Nat) : Option KeySlot × State :=
  let slot := twf e 0 21 12
  match keyFor s slot flag with
  | some k => if ev = 2 then (none, keyParity s slot) else (some k, s)
  | none => (none, s)

/-- GENERATE on an item (R470). -/
def secGenerate (s : State) (i : Nat) (it : LaneItem) (e : TEntry) (ev : Nat) : State :=
  let pdu := itemPdu s it
  if pdu.length < authLen e then secRefuse s it 3
  else if fvOf s it.profile = 2 ^ fvFull e - 1 then
    secRefuse (putFv s it.profile (fvOf s it.profile) (fvHold s it.profile) true) it 7
  else
    let fv := (fvOf s it.profile + 1) % 2 ^ 64
    let s := setFv s it.profile e fv
    match secKey s e 5 ev with
    | (none, s) => secRefuse s it 4
    | (some k, s) =>
      let auth := pdu.take (authLen e)
      let s := laneBlocks s i it.blocks
      match placeSecured s it (auth ++ secTrailer e fv (secMac e k auth fv)) with
      | some (cs, s) => laneRelease (addStat s (secPage + 0x64) 1) it cs none
      | none => laneExhausts s it

/-- The candidate freshness value (R471 step 2). -/
def fvCandidate (latest m full t : Nat) : Nat :=
  if m = full then t
  else if m = 0 then latest + 1
  else
    let l := latest % 2 ^ m; let h := latest - l
    if t > l then h + t else h + 2 ^ m + t

/-- The copies of a verified item (R471 step 5): VERIFY_STRIP releases the authentic PDU alone, and an UNPACK copy reads its bytes
in both cases; none where the authentic PDU of a split frame's item finds no plot (R128). -/
def verifiedCopies (s : State) (it : LaneItem) (e : TEntry) (pdu : List Byte) : Option (List (Nat × Copy) × State) :=
  if twf e 0 23 22 = 3 then placeSecured s it (pdu.take (authLen e))
  else
    some (it.copies.map (fun c => if c.1 = 126 then (c.1, { c.2 with form := { c.2.form with len := authLen e } }) else c), s)

/-- VERIFY or VERIFY_STRIP on an item (R471). -/
def secVerify (s : State) (i : Nat) (it : LaneItem) (e : TEntry) (ev : Nat) : State :=
  let pdu := itemPdu s it
  let n := trailerLen e
  if pdu.length < authLen e + n then secRefuse s it 3
  else
    let tr := beAt pdu (authLen e) n / 2 ^ (8 * n - fvBits e - macBits e)
    let latest := fvOf s it.profile
    let c := fvCandidate latest (fvBits e) (fvFull e) (tr / 2 ^ macBits e)
    if !(decide (latest < c) && decide (c ≤ latest + fvWindow e) && decide (c < 2 ^ fvFull e)) then secRefuse s it 2
    else
      match secKey s e 4 ev with
      | (none, s) => secRefuse s it 4
      | (some k, s) =>
        let s := laneBlocks s i it.blocks
        if secMac e k (pdu.take (authLen e)) c ≠ tr % 2 ^ macBits e then secRefuse s it 1
        else
          let s := addStat (setFv s it.profile e c) (secPage + 0x68) 1
          match verifiedCopies s it e pdu with
          | some (cs, s) => laneRelease s it cs none
          | none => laneExhausts s it

/-- A lane handles the SecOC item at its front (R460, R470 to R473, R498, R500): `gen` for a GENERATE profile; `ev` is 0, or
a fault met: 1 lane parity, 2 key parity, 3 freshness state read with bad parity, 4 profile read with bad parity. -/
def laneSecoc (s : State) (i : Nat) (gen : Bool) (ev : Nat) : State :=
  match laneTake s i ev with
  | none => s
  | some (it, s') =>
    if it.kind ≠ 0 ∨ !(laneServes s i) then s
    else
      let poison := it.poison || it.frame.any (fun id => (getFrame s id).poison)
      let refused := decide (ev = 4) || isQuar s 5 0 it.profile
      if refused && !poison && ev != 1 then secRefuse (if ev = 4 then flagEntry s' 5 0 it.profile else s') it 6
      else
      match tLive s secTable 0 it.profile with
      | none => laneRelease s' it it.copies none
      | some e =>
        let dir := twf e 0 23 22
        if dir = 0 then laneRelease s' it it.copies none
        else if (dir == 1) != gen then s
        else if poison then lanePoison s' i it
        else if ev = 1 then laneFault s' i it
        else if ev = 3 then secRefuse (putFv s' it.profile (fvOf s it.profile) true (fvExhausted s it.profile)) it 5
        else if fvHold s it.profile then secRefuse s' it 5
        else if gen then secGenerate s' i it e ev
        else secVerify s' i it e ev

/-! ## MACsec (R475 to R482) -/

/-- Anchor of SecY counter k (R501). -/
def secyStat (p k : Nat) : Nat := secPage + 0x100 + 0x20 * secyOf p + 4 * k
def countSecy (s : State) (p k : Nat) : State := addStat s (secyStat p k) 1

/-- NEXT_PN and EXHAUSTED of an association state (R476). -/
def nextPn (s : State) (j : Nat) : Nat :=
  let e := tGet s secTable 5 0 j
  tw e 0 * 2 ^ 40 + tw e 1 * 2 ^ 16 + twf e 2 23 8
def pnExhausted (s : State) (j : Nat) : Bool := twb (tGet s secTable 5 0 j) 2 7
def putPn (s : State) (j pn : Nat) (exhausted : Bool) : State :=
  tPut s secTable 5 0 j
    { words := [BitVec.ofNat 24 (pn / 2 ^ 40), BitVec.ofNat 24 (pn / 2 ^ 16),
        BitVec.ofNat 24 (pn % 2 ^ 16 * 256 + b2n exhausted * 128)],
      valid := true }

/-- A frame sent is uncontrolled (R420, R477): a MAC control frame too, whoever made it. -/
def sendsOpen (e : TEntry) (bs : List Byte) : Bool := uncontrolled e bs || beAt bs 12 2 == 0x8808

/-- The transmit SCI of a SecY (R475), the SCI of a receive channel and SSCI and SALT of an association (R476). -/
def txSci (e : TEntry) : Nat := twf e 2 15 0 * 2 ^ 48 + tw e 3 * 2 ^ 24 + tw e 4
def saSsci (a : TEntry) : Nat := tw a 4 * 256 + twf a 5 23 16
def saSalt (a : TEntry) : Nat :=
  twf a 5 15 0 * 2 ^ 80 + tw a 6 * 2 ^ 56 + tw a 7 * 2 ^ 32 + tw a 8 * 2 ^ 8 + twf a 9 23 16

/-- The initialisation vector of a frame: SCI and PN, or with XPN the salt combined with SSCI and PN. -/
def gcmIv (xpn : Bool) (sci pn : Nat) (a : TEntry) : List Nat :=
  if xpn then numBytes 12 (saSalt a ^^^ (saSsci a * 2 ^ 64 + pn)) else numBytes 8 sci ++ numBytes 4 pn

/-- The transmit association that a SecY entry names (R475, R476). -/
def txIndex (p : Nat) (e : TEntry) : Nat := 20 * secyOf p + twf e 0 16 15

/-- The association that protects a frame (R477 step 1): enabled and not exhausted; a quarantined one gives no PN (R500). -/
def txAssoc (s : State) (p : Nat) : Option Nat :=
  let j := txIndex p (secyEntry s p)
  match tLive s secTable 4 j with
  | some a => if twb a 0 23 && !(pnExhausted s j) && !(isQuar s 5 4 j) then some j else none
  | none => none

/-- The NEXT_PN whose reaching sets the bit of a SecY in SEC_PN_EVENTS (R481). -/
def pnThreshold (e : TEntry) : Nat := if twb e 0 20 then 0xC000000000000000 else 0xC0000000

/-- A transmit association's NEXT_PN has come to a number (R481). -/
def pnEvent (s : State) (p pn : Nat) : State :=
  if pnThreshold (secyEntry s p) ≤ pn then setBit s (secPage + 0x78) (secyOf p) else s

/-- NEXT_PN of a transmit association advances (R477 step 2, R481). -/
def advancePn (s : State) (p j : Nat) : State :=
  let xpn := twb (secyEntry s p) 0 20
  let pn := nextPn s j
  let thr := pnThreshold (secyEntry s p)
  let s := putPn s j ((pn + 1) % 2 ^ 64) (pn == (if xpn then 2 ^ 64 - 1 else 0xFFFFFFFF))
  if pn < thr then pnEvent s p (pn + 1) else s

/-- The SecTAG of a frame sent (R477 step 3), with the AN of the association that protects it. -/
def secTag (e : TEntry) (an pn d : Nat) : List Byte :=
  let sc := twb e 0 14; let c := twb e 0 21
  beBytes 2 0x88E5 ++
    [BitVec.ofNat 8 (b2n sc * 32 + b2n c * 12 + an % 4), BitVec.ofNat 8 (if d < 48 then d else 0)] ++
    beBytes 4 (pn % 2 ^ 32) ++ (if sc then beBytes 8 (txSci e) else [])

def natBytes (bs : List Byte) : List Nat := bs.map (·.toNat)
def ofNats (bs : List Nat) : List Byte := bs.map (BitVec.ofNat 8)

/-- A frame protected (R477 steps 3 and 4). -/
def macProtect (e a : TEntry) (k : KeySlot) (an pn : Nat) (bs : List Byte) : List Byte :=
  let data := bs.drop 12
  let hd := bs.take 12 ++ secTag e an pn data.length
  let iv := gcmIv (twb e 0 20) (txSci e) pn a
  let key := slotKey k
  if twb e 0 21 then
    let ct := gcmText key iv (natBytes data)
    hd ++ ofNats ct ++ ofNats (gcmTag key iv (natBytes hd) ct)
  else hd ++ data ++ ofNats (gcmTag key iv (natBytes (hd ++ data)) [])

/-- A frame leaves its lane for its MAC cell. -/
def txPlain (it : LaneItem) (bs : List Byte) : Option MacPlain :=
  some { tx := true, port := it.port, bytes := bs, assoc := none, pn := 0, ingressNs := 0 }

/-- A key that a MACsec association may use (R494, R498); `ev` 2 is a key word with bad parity. -/
def macKey (s : State) (e a : TEntry) (flag ev : Nat) : Option KeySlot × State :=
  match saKey s e a flag with
  | some k => if ev = 2 then (none, keyParity s (twf a 0 22 13)) else (some k, s)
  | none => (none, s)

/-- A controlled frame that cannot be protected is discarded (R475, R477). -/
def txDrop (s : State) (it : LaneItem) : State := laneVoid (countSecy s it.port 7) it

/-- The frame in flight of a port reads poison. -/
def flightPoison (s : State) (p : Nat) : Bool :=
  match mapGet? s.inFlight p with
  | some c => (getFrame s c.frame).poison
  | none => false

/-- An item that a quarantined table entry refuses, or one read with bad parity, which is flagged (R247, R500). -/
def secQuarDrop (s : State) (it : LaneItem) (flagged : Option (Nat × Nat)) : State :=
  laneVoid (incSat (match flagged with | some (code, j) => flagEntry s 5 code j | none => s) (secPage + 0x60)) it

/-- A lane protects the frame at its front with the SecY and association that it took at dispatch (R477, R500, R506); `ev` is 0,
or 1 lane parity, 2 key parity, 4 the SecY, 5 the association read with bad parity. -/
def laneProtect (s : State) (i ev : Nat) : State :=
  match laneTake s i ev with
  | none => s
  | some (it, s') =>
    if it.kind ≠ 2 ∨ !(laneServes s i) then s
    else
      let p := it.port
      let e := it.secy
      let j := txIndex p e
      if it.poison || flightPoison s p then lanePoison s' i it
      else if ev = 1 then laneFault s' i it
      else if ev = 4 ∨ isQuar s 5 2 (secyOf p) then secQuarDrop s' it (if ev = 4 then some (2, secyOf p) else none)
      else if sendsOpen e it.bytes then laneRelease (laneBlocks s' i 1) it [] (txPlain it it.bytes)
      else if !(twb e 0 23) then txDrop s' it
      else if !(twb e 0 22) then laneRelease s' it [] (txPlain it it.bytes)
      else if ev = 5 ∨ isQuar s 5 4 j then secQuarDrop s' it (if ev = 5 then some (4, j) else none)
      else if it.assoc.isNone then txDrop s' it
      else
        match macKey s' e it.sa 3 ev with
        | (none, s') => txDrop (incSat s' (secPage + 0x58)) it
        | (some k, s') =>
          let s' := countSecy (laneBlocks s' i it.blocks) p 6
          laneRelease s' it [] (txPlain it (macProtect e it.sa k (j - 20 * secyOf p) it.pn it.bytes))

/-- The packet number of a received frame: with XPN its upper half is recovered from NEXT_PN (R480). -/
def recoverPn (xpn : Bool) (next low : Nat) : Nat :=
  if xpn then
    let hi := next / 2 ^ 32
    (if next / 2 ^ 31 % 2 = 1 ∧ low < 2 ^ 31 then hi + 1 else hi) % 2 ^ 32 * 2 ^ 32 + low
  else low

/-- The plaintext of a frame, with the 12 address bytes in front (R478, R479). -/
def macPlaintext (xpn : Bool) (sci pn : Nat) (a : TEntry) (k : KeySlot) (bs : List Byte) (v : SecTagView) : List Byte :=
  let data := sliceBytes bs v.off v.len
  bs.take 12 ++ (if v.enc then ofNats (gcmText (slotKey k) (gcmIv xpn sci pn a) (natBytes data)) else data)

/-- The ICV that a frame must carry (R478). -/
def macIcv (xpn : Bool) (sci pn : Nat) (a : TEntry) (k : KeySlot) (bs : List Byte) (v : SecTagView) : List Nat :=
  let hd := bs.take v.off
  let data := sliceBytes bs v.off v.len
  let iv := gcmIv xpn sci pn a
  if v.enc then gcmTag (slotKey k) iv (natBytes hd) (natBytes data) else gcmTag (slotKey k) iv (natBytes (hd ++ data)) []

/-- A received frame that goes on (R478). -/
def rxPlain (it : LaneItem) (bs : List Byte) (assoc : Option Nat) (pn : Nat) : Option MacPlain :=
  some { tx := false, port := it.port, bytes := bs, assoc := assoc, pn := pn, ingressNs := it.ingressNs }

/-- A received frame is discarded with a count (R478). -/
def rxDrop (s : State) (it : LaneItem) (k : Nat) : State := laneVoid (countSecy s it.port k) it

/-- A controlled frame with a sound SecTAG (R478 to R480): `ev` 2 is a key word, 5 the association, 6 the channel read with bad
parity. -/
def rxValidate (s : State) (i : Nat) (it : LaneItem) (e : TEntry) (v : SecTagView) (ev : Nat) : State :=
  let p := it.port
  match (if twb e 0 23 then rxAssoc s p it.bytes v else .noSa) with
  | .noSa => rxDrop s it 3
  | .quar _ _ => secQuarDrop s it none
  | .use j =>
    let c := 4 * secyOf p + (j - 20 * secyOf p - 4) / 4
    if ev = 5 then secQuarDrop s it (some (4, j))
    else if ev = 6 then secQuarDrop s it (some (3, c))
    else
      let a := (tLive s secTable 4 j).getD emptyEntry
      match macKey s e a 2 ev with
      | (none, s) => rxDrop (incSat s (secPage + 0x58)) it 3
      | (some k, s) =>
        let xpn := twb e 0 20
        let pn := recoverPn xpn (nextPn s j) v.pn
        let sci := rxSci (tGet s secTable 3 0 c)
        let plain := macPlaintext xpn sci pn a k it.bytes v
        let s := laneHolds (laneBlocks s i it.blocks) i plain
        if macIcv xpn sci pn a k it.bytes v = natBytes (sliceBytes it.bytes (v.off + v.len) 16) then
          laneRelease (laneCommits s i) it [] (rxPlain it plain (some j) pn)
        else rxDrop (laneRewinds s i) it 5

/-- A lane handles the received frame at its front by the first row of R478 that matches; `ev` as for protection. -/
def laneReceive (s : State) (i ev : Nat) : State :=
  match laneTake s i ev with
  | none => s
  | some (it, s') =>
    if it.kind ≠ 1 ∨ !(laneServes s i) then s
    else
      let p := it.port
      let e := secyEntry s p
      if it.poison then lanePoison s' i it
      else if ev = 1 then laneFault s' i it
      else if ev = 4 ∨ isQuar s 5 2 (secyOf p) then secQuarDrop s' it (if ev = 4 then some (2, secyOf p) else none)
      else if uncontrolled e it.bytes then laneRelease (laneBlocks s' i 1) it [] (rxPlain it it.bytes none 0)
      else if beAt it.bytes 12 2 ≠ 0x88E5 then
        if twb e 0 18 || !(twb e 0 23) then rxDrop s' it 1
        else laneRelease (countSecy s' p 1) it [] (rxPlain it it.bytes none 0)
      else
        let v := secTagView it.bytes
        if !v.ok then rxDrop s' it 2 else rxValidate s' i it e v ev

/-- The plaintext of a MACsec port takes plots and is announced as the region's item (R418). -/
def plainArrives (s : State) (m : MacPlain) : State :=
  let p := m.port
  let s := forEach ((plotPieces (m.bytes.length + 1) m.bytes).zipIdx) s (fun s (b, i) => plotArrives s p (i == 0) b)
  match mapGet? s.openFrame p with
  | some id =>
    let s := frameCommit (putFrame s id { getFrame s id with macsecIn := true }) p id 0
    if hasFrame s id then
      let s := { s with heads := s.heads.map (fun h => (h.1, h.2.map (fun x =>
        if x.frame = some id then { x with ingressNs := m.ingressNs } else x))) }
      putFrame s id { getFrame s id with ingressNs := m.ingressNs }
    else s
  | none => { s with dropping := s.dropping.filter (fun q => q != p) }

/-- A released frame reaches its port (R419, R480): a sent one its MAC cell; a received one after its replay check. -/
def macDeliver (s : State) (m : MacPlain) : State :=
  if m.tx then
    if (mapGet? s.inFlight m.port).isSome then { s with macOut := mapSet s.macOut m.port m.bytes } else s
  else
    match m.assoc with
    | none => plainArrives s m
    | some j =>
      let e := secyEntry s m.port
      if twb e 0 17 && decide (m.pn < nextPn s j - tw e 1) then countSecy s m.port 4
      else
        let s := putPn s j (max (nextPn s j) (m.pn + 1)) (pnExhausted s j)
        plainArrives (countSecy s m.port 0) m

/-- Every frame that a resequencer has released to a MACsec port goes on, in order. -/
def serveMac (s : State) : State :=
  let q := s.macReleased
  forEach q { s with macReleased := [] } macDeliver

/-- A copy selected by a MACsec port waits for a lane, as its output writes it (R419, R462). -/
def protectNext (s : State) (p : Nat) : State :=
  match mapGet? s.inFlight p with
  | none => s
  | some c =>
    if !(macsecOn s p) then s
    else
      match ethWrite s p c with
      | (none, s) => flightOver s p
      | (some bs, s) =>
        let it : LaneItem :=
          { kind := 2, frame := some c.frame, copies := [], profile := 0, port := p, bytes := bs, ingressNs := 0, stream := 0,
            num := 0, start := false, assoc := none, pn := 0, secy := emptyEntry, sa := emptyEntry, blocks := 0, poison := false }
        { s with laneQ := s.laneQ ++ [it] }

/-! ## The dispatcher (R463 to R465) -/

/-- An item may be dispatched: a SecOC item is committed, and no other item of its profile is in the lanes (R465). -/
def mayDispatch (s : State) (it : LaneItem) : Bool :=
  it.kind != 0 ||
    ((match it.frame with
      | some id => (getFrame s id).committed
      | none => false) && !(s.lanes.any (fun l => l.2.any (fun x => x.kind == 0 && x.profile == it.profile))))

/-- The item dispatched next (R463): MACsec receive frames first, then the other traffic in arrival order, then service work. -/
def nextItem (s : State) : Option LaneItem :=
  match s.laneQ.find? (fun it => it.kind == 1) with
  | some it => some it
  | none =>
    match s.laneQ.find? (fun it => it.kind != 3 && mayDispatch s it) with
    | some it => some it
    | none => s.laneQ.find? (fun it => it.kind == 3)

/-- The lane in service with the fewest blocks queued, the lowest-numbered on a tie (R463). -/
def bestLane (s : State) : Option Nat :=
  let load := fun i => (mapGet [] s.lanes i).foldl (fun n it => n + it.blocks) 0
  ((List.range 16).filter (laneServes s)).foldl (fun (b : Option Nat) i =>
    match b with
    | none => some i
    | some j => if load i < load j then some i else some j) none

/-- The AES blocks of an item (R461). -/
def itemBlocks (s : State) (it : LaneItem) : Nat :=
  if it.kind = 3 then it.blocks
  else if it.kind = 0 then
    let e := (tLive s secTable 0 it.profile).getD emptyEntry
    max 1 ((2 + authLen e + fvFull e / 8 + 15) / 16)
  else if uncontrolled (secyEntry s it.port) it.bytes || (it.kind == 2 && beAt it.bytes 12 2 == 0x8808) then 1
  else
    let d := if it.kind = 2 then it.bytes.length - 12 else (secTagView it.bytes).len
    (d + 15) / 16 + 1

/-- The stream that numbers an item (R462). -/
def itemStream (s : State) (it : LaneItem) : Nat :=
  if it.kind = 0 then it.stream else if it.kind = 1 then twf (secyEntry s it.port) 5 13 4 else twf (secyEntry s it.port) 5 23 14

/-- The next number of a stream and whether it carries the start mark (R464). -/
def takeNumber (s : State) (stream : Nat) : Nat × Bool × State :=
  let v := mapGet 0 s.laneSeq stream
  (v / 2, v % 2 == 0, { s with laneSeq := mapSet s.laneSeq stream ((v / 2 + 1) % 65536 * 2 + 1) })

/-- A received frame leaves its port's receive furrow for a lane (R418, R462): what failed its parity there is poisoned (R105). -/
def leavesFurrow (s : State) (it : LaneItem) : LaneItem × State :=
  if it.kind = 1 then
    let pg := macPage it.port
    let f := getFur s pg
    let waiting := (s.laneQ.filter (fun x => x.kind == 1 && x.port == it.port)).length
    if f.items.length ≤ waiting then (it, s)
    else
      let bad := f.failed || (f.items.headD []).any furPoison
      ({ it with poison := it.poison || bad },
        furSettle (putFur s pg { f with items := f.items.drop 1, taken := 0, failed := false }) pg)
  else (it, s)

/-- The dispatcher numbers the next traffic item, gives a frame to be protected its association and PN, and hands it to a lane
(R463, R464, R477). -/
def dispatch (s : State) : State :=
  match nextItem s, bestLane s with
  | some it, some i =>
    if !(running s secPage) then s
    else
      let (it, s) := leavesFurrow { s with laneQ := s.laneQ.erase it } it
      let stream := itemStream s it
      let (num, start, s) := if it.kind = 3 then (0, false, s) else takeNumber s stream
      let e := secyEntry s it.port
      let assoc :=
        if it.kind = 2 && !(sendsOpen e it.bytes) && twb e 0 23 && twb e 0 22 && !(isQuar s 5 2 (secyOf it.port)) then
          txAssoc s it.port
        else none
      let pn := match assoc with
        | some j => nextPn s j
        | none => 0
      let sa := match assoc with
        | some j => (tLive s secTable 4 j).getD emptyEntry
        | none => emptyEntry
      let s := match assoc with
        | some j => advancePn s it.port j
        | none => s
      let it := { it with
        stream := stream, num := num, start := start, assoc := assoc, pn := pn, blocks := itemBlocks s it, sa := sa,
        secy := if it.kind = 2 then e else emptyEntry }
      laneBusy { s with lanes := mapPut [] s.lanes i (mapGet [] s.lanes i ++ [it]) } i
  | _, _ => s

/-- A stream's next item carries the start mark (R464). -/
def markStart (s : State) (stream : Nat) : State :=
  let v := mapGet 0 s.laneSeq stream
  { s with laneSeq := mapPut 0 s.laneSeq stream (v / 2 * 2) }

/-- The streams that a SecOC profile's items carry: of waiting lane items, and of the TX layouts and routes that name it (R464). -/
def profileStreams (s : State) (i : Nat) : List Nat :=
  (s.laneQ.filter (fun it => it.kind == 0 && it.profile == i)).map (·.stream) ++
    (s.tables.filterMap (fun e =>
      if e.2.valid && tKeyPage e.1 == mbTable && tKeyTable e.1 == 3 && twf e.2 8 23 14 == i then some (twf e.2 8 13 4) else none)) ++
    (s.tables.filterMap (fun e =>
      if e.2.valid && decide (domainOf (tKeyPage e.1) < 4) && blockOf (tKeyPage e.1) == 8 && tKeyTable e.1 == 0 &&
          twf e.2 7 23 14 == i then some (twf e.2 7 13 4) else none))

/-- The streams that a SecY entry names. -/
def secyStreams (e : TEntry) : List Nat := [twf e 5 23 14, twf e 5 13 4]

/-- What a table-port WRITE of a security table does beyond the entry (R464, R469, R474, R476): `copy` 0 is the live copy. -/
def secWritten (s : State) (t copy i : Nat) : State :=
  if t = 1 then saveFv (putFv s i (fvOf s i) false false) i
  else if copy ≠ 0 then s
  else if t = 0 then forEach (profileStreams s i) s markStart
  else if t = 2 then forEach (secyStreams (tGet s secTable 2 0 i)) s markStart
  else if t = 4 then
    let a := tGet s secTable 4 0 i
    let pn := tw a 1 * 2 ^ 40 + tw a 2 * 2 ^ 16 + twf a 3 23 8
    let s := putPn s i pn false
    if i % 20 < 4 then pnEvent s (104 + i / 20) pn else s
  else s

/-- A RESTART of the security common page: every stream's next item carries the start mark (R464). -/
def secRestart (s : State) : State := { s with laneSeq := s.laneSeq.map (fun e => (e.1, e.2 / 2 * 2)) }

/-- A RESTART of the key page: a key command that runs fills nothing (R42). -/
def keyRestart (s : State) : State := { s with keyWork := none }

/-- A lane's known-answer test ends (R460, R537): back in service, or FALLOW. -/
def laneTested (s : State) (i : Nat) (pass : Bool) : State :=
  let pg := lanePage i
  if !(bit s (pg + 0x40) 22) then s
  else
    let s := clrBit { s with awaitTest := s.awaitTest.filter (fun e => !(e == (pg, 0))) } (pg + 0x40) 22
    let (perm, s) := classFault s pg 0 0x1B (!pass)
    if perm then
      let s := if pass then s else raiseRec s pg 0x1B i 2 pg 0
      let lost := mapGet [] s.lanes i
      let s := setBit { s with fallow := pg :: s.fallow, lanes := mapDel s.lanes i } (pg + 0x40) 23
      retire (forEach lost (laneBusy s i) laneVoid) 1 pg 0x1B 0 0
    else s

/-! ## Entropy and DRBG (R483 to R485) -/

/-- The number of ones among 1,024 bits. -/
def onesOf (x : Nat) : Nat :=
  [1, 2, 4, 8, 16, 32, 64, 128, 256, 512].foldl (fun x k =>
    let mask := (2 ^ 1024 - 1) / (2 ^ k + 1)
    (x &&& mask) + (x / 2 ^ k &&& mask)) x

/-- 35 ones in a row among 1,024 bits. -/
def run35 (x : Nat) : Bool :=
  let x2 := x &&& x / 2
  let x4 := x2 &&& x2 / 2 ^ 2
  let x8 := x4 &&& x4 / 2 ^ 4
  let x16 := x8 &&& x8 / 2 ^ 8
  let x32 := x16 &&& x16 / 2 ^ 16
  (x32 &&& x2 / 2 ^ 32 &&& x / 2 ^ 34) != 0

/-- The repetition count test fails on 1,024 raw bits (R483): 35 equal bits in a row. -/
def rctFails (bits : Nat) : Bool := run35 (bits % 2 ^ 1024) || run35 (2 ^ 1024 - 1 - bits % 2 ^ 1024)

/-- The adaptive proportion test fails on a window of 1,024 raw bits, the first of them bit 0 (R483): its first bit occurs 760
times or more. -/
def aptFails (bits : Nat) : Bool :=
  let n := onesOf (bits % 2 ^ 1024)
  decide (760 ≤ (if bits % 2 = 1 then n else 1024 - n))

/-- A health test fails (R483): `apt` for the adaptive proportion test, else the repetition count test. The restart that follows
is the retry (R537): when it fails in turn, the fault is permanent, and nothing can be spared. -/
def entropyFail (s : State) (apt : Bool) : State :=
  let a := entPage + 0x40
  let s := setBit (setBit (clrBit s a 23) a 22) a (if apt then 20 else 21)
  let s := incSat s (entPage + 0x44)
  let s := setFld s (entPage + 0x4C) 23 22 2
  if s.awaitTest.contains (entPage, 0) then
    let s := { s with awaitTest := s.awaitTest.filter (fun e => !(e == (entPage, 0))) }
    let s := (classFault s entPage 0 0x1D true).2
    noSpare (raiseRec s entPage 0x1D (if apt then 2 else 1) 2 entPage 0) entPage 0 0
  else
    let s := raiseRec s entPage 0x1D (if apt then 2 else 1) 3 entPage 0
    { s with awaitTest := (entPage, 0) :: s.awaitTest }

/-- The DRBG is instantiated, and the mask generators that wait for a reseed get one (R459, R484). -/
def drbgReady (s : State) : State :=
  let s := serviceWork (drbgSeed (setFld s (entPage + 0x4C) 23 22 1) true) 1 3
  forEach (s.maskGen.filter (fun e => e.2.due)) s (fun s e => maskSeed s e.1)

/-- The startup test ends well (R483, R484): the source gives output and the DRBG is instantiated; a failure before it was
transient. -/
def entropyStarted (s : State) : State :=
  let a := entPage + 0x40
  if !(running s entPage) || !(bit s a 22) then s
  else
    let s := setBit (clrBit s a 22) a 23
    let s := drbgReady s
    if s.awaitTest.contains (entPage, 0) then
      let s := { s with awaitTest := s.awaitTest.filter (fun e => !(e == (entPage, 0))) }
      let (perm, s) := classFault s entPage 0 0x1D false
      if perm then noSpare s entPage 0 0 else s
    else s

/-- The noise source has given 1,024 raw bits (R483): a health test that fails on them clears HEALTHY and restarts the startup
test. -/
def entropyBits (s : State) (bits : Nat) : State :=
  if running s entPage && (rctFails bits || aptFails bits) then entropyFail s (!(rctFails bits)) else s

/-- The startup test has seen its 1,024 bits (R483): it passes when both tests do. -/
def entropyTested (s : State) (bits : Nat) : State :=
  if rctFails bits || aptFails bits then (if bit s (entPage + 0x40) 22 then entropyBits s bits else s) else entropyStarted s

/-- The entropy source stops (R483, R484): no output, no startup test under way, the DRBG in ERROR. -/
def entropyStops (s : State) : State :=
  setFld (clrBit (clrBit s (entPage + 0x40) 23) (entPage + 0x40) 22) (entPage + 0x4C) 23 22 2

/-- DRBG_CMD.RESEED (R484): no register shows the seed. -/
def drbgReseed (s : State) : State := if drbgState s = 1 then serviceWork (drbgSeed s false) 1 3 else s

/-- A read of DRBG_OUT (R485): 24 bits of the DRBG, or 0 with ERR_SEEN while it is not READY. DESIGN CHOICE: each read is a
request of its own (notes/assumptions/144.md). -/
def drbgOut (s : State) : Nat × State :=
  if drbgState s = 1 then
    let again := decide (2 ^ 20 ≤ s.drbg.requests)
    let (bs, s) := drbgRequest s 24 false
    (bytesNum bs, serviceWork s 1 (drbgBlocks 24 again))
  else (0, setBit s (entPage + 0x4C) 21)

/-! ## Life-cycle transitions (R487, R488) -/

/-- A transition of R487. -/
def lcAllowed (st target : Nat) : Bool :=
  (st == 0 && target == 1) || (st == 1 && target == 2) || (st == 2 && target == 3) || (decide (st < 4) && target == 4)

/-- A GO refused with a code. -/
def lcRefuse (s : State) (code : Nat) : State := setBit (setFld s (lcPage + 0x40) 15 12 code) (lcPage + 0x40) 16

/-- What a root's fuses hold when its programming failed its read-back (R488): nothing that passes the root's check. -/
def rootBroken : Nat := 2 ^ 256
/-- The root that a transition would program was left partly programmed. -/
def rootSpoilt (s : State) (target : Nat) : Bool := decide (rootBroken ≤ mapGet 0 s.roots (target - 1))

def spoilRoot (s : State) (target : Nat) : State :=
  if target = 4 then s else { s with roots := mapSet s.roots (target - 1) rootBroken }
/-- The programming of a transition fails (R488): its root was spoilt before, or does not read back now. -/
def burnFails (s : State) (target : Nat) (burnOk : Bool) : Bool := !burnOk || (target != 4 && rootSpoilt s target)

/-- The command register of the life-cycle page. -/
def lcCmd : Nat := lcPage + 0x48

/-- LC_CMD.GO by a requester (R488, R497); `burnOk` is false when programming fails its read-back, which leaves the root partly
programmed. BUSY holds while the fuses are programmed; PENDING, or ERR with 0x7, shows when it ends. -/
def lcGo (s : State) (req : Nat) (burnOk : Bool) : State :=
  let a := lcPage + 0x40
  let s := cmdSettle s lcCmd
  let code := fld s (lcPage + 0x44) 23 12; let target := fld s (lcPage + 0x44) 2 0
  let s := wr s (lcPage + 0x44) 0
  if reqPf req = 1 then lockViolation (lcRefuse s 0x4) req (lcPage + 0x48)
  else
    if !(lcAllowed (lcState s) target) then lcRefuse s 0x1
    else if code ≠ 0x5A5 then lcRefuse s 0x2
    else if bit s (lcPage + 0x4C) 0 then lockViolation (lcRefuse s 0x3) req (lcPage + 0x48)
    else if drbgState s ≠ 1 then lcRefuse s 0x5
    else if cmdBusy s lcCmd ∨ fld s a 20 18 ≠ lcState s then lcRefuse s 0x6
    else
      let s := clrBit (setFld s a 15 12 0) a 16
      if burnFails s target burnOk then
        cmdStart (spoilRoot s target) lcCmd 1 [{ addr := a, hi := 16, lo := 16, val := 1 }, { addr := a, hi := 15, lo := 12, val := 7 }]
      else
      let s :=
        if target = 4 then { s with keyRecs := [] }
        else
          let (bs, s) := drbgRequest s 256 true
          serviceWork { s with roots := mapSet s.roots (target - 1) (bytesNum bs) } 2 (drbgBlocks 256 true)
      cmdStart s lcCmd 1
        ({ addr := a, hi := 20, lo := 18, val := target } ::
          (if target = 4 then [] else [{ addr := a, hi := 8 + target, lo := 8 + target, val := 1 }]))

/-- The state that the fuses hold once what LC_CMD.GO began has ended: the target of a burn that runs or has ended, else PENDING. -/
def lcPending (s : State) : Nat :=
  match ((mapGet? s.cmds lcCmd).map (·.puts)).getD [] with
  | p :: _ => if p.hi = 20 then p.val else fld s (lcPage + 0x40) 20 18
  | [] => fld s (lcPage + 0x40) 20 18

/-- The state fuse is programmed: fuses are only ever blown. -/
def lcBlown (s : State) (target : Nat) : State := { s with fuseLc := max s.fuseLc target }

/-- A reset meets the life-cycle fuses (R487, R488): a transition that has ended takes effect; one that still runs was done, or
left its root partly programmed, or had not begun, which a free value chooses. -/
def lcCut (s : State) : State :=
  let target := lcPending s
  if cmdBusy s lcCmd ∧ target ≠ lcState s then
    let (r, s) := drawNat s
    if r % 3 = 0 then lcBlown s target
    else if r % 3 = 1 then spoilRoot s target
    else { s with roots := mapDel s.roots (target - 1) }
  else lcBlown s target

/-! ## Key commands (R491 to R497) -/

/-- KEY_SEL.SLOT, and the attributes it gives: USAGE, K256, PERSIST. -/
def keySlotSel (s : State) : Nat := fld s (keyPage + 0x40) 9 0
def keyUsageSel (s : State) : Nat := fld s (keyPage + 0x40) 23 18
def key256Sel (s : State) : Bool := bit s (keyPage + 0x40) 17
def keyPersistSel (s : State) : Bool := bit s (keyPage + 0x40) 16

/-- A key command refused with a code, or accepted. -/
def keyRefuse (s : State) (code : Nat) : State := setBit (setFld s (keyPage + 0x48) 23 20 code) (keyPage + 0x48) 2
def keyAccept (s : State) : State := clrBit (setFld s (keyPage + 0x48) 23 20 0) (keyPage + 0x48) 2

/-- The record of a slot follows its key (R495): wrapped under the store key. Where no root is in use there is no store key and no
record (notes/assumptions/144.md). -/
def keyRecord (s : State) (slot : Nat) (k : KeySlot) : State :=
  match (if k.persist then storeKey s else none) with
  | some sk =>
    let text := recordText slot k.key k.k256 k.usage (lcState s)
    { s with keyRecs := mapSet s.keyRecs slot { wrapped := kwWrap sk text, k256 := k.k256, state := lcState s } }
  | none => { s with keyRecs := mapDel s.keyRecs slot }

/-- Blocks of a slot's check value and record (R461, R490, R495). -/
def keyBlocks (k : KeySlot) : Nat := 1 + if k.persist then storeBlocks + wrapBlocks k.k256 else 0

/-- A slot to be filled with a key and the attributes of KEY_SEL when the lanes have done the command's work, `blocks` beside
those of its check value and record (R462, R492). -/
def keyFill (s : State) (key origin blocks : Nat) : State :=
  let k : KeySlot :=
    { key := key, k256 := key256Sel s, persist := keyPersistSel s, origin := origin, usage := keyUsageSel s,
      kcv := kcvOf key (key256Sel s) }
  serviceWork { s with keyWork := some (keySlotSel s, k) } 0 (blocks + keyBlocks k)

/-- The slot refuses COMMIT, GENERATE and DERIVE with 0x2 (R489, R491, R537). -/
def keyBarred (s : State) : Bool :=
  lcState s == 4 || s.keysRetired.contains (keySlotSel s) || (keyPersistSel s && lcState s == 0)

/-- The command register of the key page. -/
def keyCmd : Nat := keyPage + 0x44
/-- A key command of a requester: PF1 is ignored as a lock violation (R497), one that arrives while another runs is refused
(R492, R75). -/
def keyPort (s : State) (req : Nat) (act : State → State) : State :=
  let s := cmdSettle s keyCmd
  if reqPf req = 1 then lockViolation s req keyCmd
  else if cmdBusy s keyCmd then keyRefuse s 0x6
  else act s
/-- A key command that changes a slot: SEC_LOCK.KEYS refuses it (R492, R496). -/
def keyGate (s : State) (req : Nat) (act : State → State) : State :=
  keyPort s req (fun s =>
    if bit s (secPage + 0x40) 0 then lockViolation (keyRefuse s 0x3) req keyCmd else act s)

/-- KEY_CMD.GENERATE (R492). -/
def keyGenerate (s : State) (req : Nat) : State :=
  keyGate s req (fun s =>
    if keyBarred s then keyRefuse s 0x2
    else if drbgState s ≠ 1 then keyRefuse s 0x7
    else
      let bits := if key256Sel s then 256 else 128
      let (bs, s) := drbgRequest s bits true
      cmdStart (keyFill (keyAccept s) (bytesNum bs) 2 (drbgBlocks bits true)) keyCmd 2 [])

/-- Bytes of a KDF register group (R493): 12 at most. -/
def kdfBytes (s : State) (base n : Nat) : List Nat :=
  (natBytes ((List.range 4).flatMap (fun k => wordBytes (rd s (keyPage + base + 4 * k))))).take (min 12 n)
def kdfLabel (s : State) : List Nat := kdfBytes s 0x60 (fld s (keyPage + 0x58) 19 16)
def kdfCtx (s : State) : List Nat := kdfBytes s 0x70 (fld s (keyPage + 0x58) 15 12)

/-- "store" (R495). -/
def storeLabel : List Nat := [0x73, 0x74, 0x6F, 0x72, 0x65]

/-- KEY_CMD.DERIVE (R492, R493); `bad` is whether the source key is read with bad parity, which empties its slot (R498). -/
def keyDerive (s : State) (req : Nat) (bad : Bool) : State :=
  keyGate s req (fun s =>
    let bits := if key256Sel s then 256 else 128
    let fill := fun (source : List Nat) =>
      let blocks := bits / 128 * (1 + ((kdfLabel s).length + (kdfCtx s).length + 4 + 15) / 16)
      cmdStart (keyFill (keyAccept s) (bytesNum (kdf source (kdfLabel s) (kdfCtx s) bits)) 3 blocks) keyCmd 4 []
    if keyBarred s then keyRefuse s 0x2
    else if bit s (keyPage + 0x58) 23 then
      if kdfLabel s = storeLabel then keyRefuse s 0x2
      else match lcRoot s with
        | some r => fill (numBytes 32 r)
        | none => keyRefuse s 0x2
    else match mapGet? s.keys (fld s (keyPage + 0x58) 9 0) with
      | none => keyRefuse s 0x1
      | some k =>
        if k.usage % 2 = 0 then keyRefuse s 0x2
        else if bad then keyRefuse (keyParity s (fld s (keyPage + 0x58) 9 0)) 0x1
        else fill (slotKey k))

/-- KEY_CMD.ERASE (R492). -/
def keyErase (s : State) (req : Nat) : State :=
  keyGate s req (fun s =>
    let i := keySlotSel s
    let s := { s with keys := mapDel s.keys i, keyRecs := mapDel s.keyRecs i, keysSaving := s.keysSaving.filter (fun j => j != i) }
    cmdStart (keyAccept s) keyCmd 1 [])

/-- KEY_CMD.INFO (R492): allowed while SEC_LOCK.KEYS is 1. -/
def keyInfo (s : State) (req : Nat) : State :=
  keyPort s req (fun s =>
    let (info, kcv) : Nat × Nat := match mapGet? s.keys (keySlotSel s) with
      | some k => (0x800000 + k.usage * 0x20000 + b2n k.k256 * 0x10000 + b2n k.persist * 0x8000 + k.origin * 0x1000, k.kcv)
      | none => (0, 0)
    cmdStart (keyAccept s) keyCmd 8
      [{ addr := keyPage + 0x4C, hi := 23, lo := 0, val := info }, { addr := keyPage + 0x50, hi := 23, lo := 0, val := kcv }])

/-- The refusal of a COMMIT on KEY_VALUE beside its lock (R491): USAGE 0, SCRAPPED, PERSIST in BLANK, a retired slot. -/
def keyCommitBarred (s : State) : Bool := keyBarred s || keyUsageSel s == 0

/-- A COMMIT on KEY_VALUE (R491): the key is usable at once; its check value and record follow. -/
def keyCommit (s : State) (v : Nat) : State :=
  let key := if key256Sel s then v % 2 ^ 256 else v % 2 ^ 128
  let i := keySlotSel s
  let k : KeySlot :=
    { key := key, k256 := key256Sel s, persist := keyPersistSel s, origin := 1, usage := keyUsageSel s, kcv := 0 }
  serviceWork (setBit { s with
    keys := mapSet s.keys i k
    keysSaving := i :: s.keysSaving.filter (fun j => j != i) } (keyPage + 0x48) 0) 3 (keyBlocks k)

/-- The check values and records of the committed slots are made, when the lanes have done the work (R462, R491, R495). -/
def keySaved (s : State) : State :=
  if serviceWaits s 3 then s
  else
  let s := forEach s.keysSaving s (fun s i =>
    match mapGet? s.keys i with
    | some k =>
      keyRecord { s with keys := mapSet s.keys i { k with kcv := kcvOf k.key k.k256 } } i k
    | none => s)
  clrBit { s with keysSaving := [] } (keyPage + 0x48) 0

/-- At BOOT the records are unwrapped (R495): `broken` lists the slots whose record fails its integrity check, as each does where
no root is in use (R486); `unread` those whose record the seedbed gives with a failed check (R555), which is one that fails as
well. -/
def keysAtBoot (s : State) (broken unread : List Nat) : State :=
  if lcState s = 4 then s
  else
    let s := if (lcRoot s).isSome && !s.keyRecs.isEmpty then serviceWork s 3 storeBlocks else s
    forEach s.keyRecs s (fun s (i, r) =>
      let s := if unread.contains i then seedFault s 2 else s
      let s := serviceWork s 3 (wrapBlocks r.k256)
      if r.state ≠ lcState s then incSat { s with keyRecs := mapDel s.keyRecs i } (keyPage + 0x84)
      else
        match (if broken.contains i || unread.contains i then none else recordKey s i r) with
        | none =>
          let s := incSat s (keyPage + 0x88)
          let (perm, s) := classFault s keyPage i 0x1E false
          let s := raiseRec s keyPage 0x1E 0 (if perm then 2 else 1) keyPage i
          if perm then retire { s with keysRetired := i :: s.keysRetired } 5 keyPage 0x1E i 0 else s
        | some (key, usage) =>
          if s.keysRetired.contains i then s
          else incSat (keyLoad (serviceWork s 3 1) i key usage r.k256) (keyPage + 0x80))

/-- At BOOT each persistent profile's freshness value is loaded, and a raised one is saved in its turn (R474); none in SCRAPPED
(R489). `unread` lists the profiles whose record the seedbed gives with a failed check (R555): the value loaded is then a free
one. -/
def freshnessAtBoot (s : State) (unread : List Nat) : State :=
  if lcState s = 4 then s
  else
    forEach s.fvSaved s (fun s (k, v) =>
      let (r, s) := if unread.contains k then drawNat (seedFault s 1) else (v, s)
      let v := if unread.contains k then r % 2 ^ 64 else v
      match tLive s secTable 0 k with
      | some e =>
        if twb e 2 4 then
          if twf e 0 23 22 = 1 then saveFv (putFv s k (min (2 ^ fvFull e - 1) (v + 2 ^ twf e 2 8 5)) false false) k
          else if 2 ≤ twf e 0 23 22 then putFv s k v false false
          else s
        else s
      | none => s)

/-! ## Service work (R462, R463) -/

/-- A lane that is in service does the service work at its front, which takes it no time, and goes on. -/
def serviceFront : Nat → State → Nat → State
  | 0, s, _ => s
  | n + 1, s, i =>
    match mapGet [] s.lanes i with
    | it :: rest =>
      if it.kind = 3 && laneServes s i then
        serviceFront n (laneBlocks (handled (laneBusy { s with lanes := mapPut [] s.lanes i rest } i) (lanePage i)) i it.blocks) i
      else s
    | [] => s

/-- Service work goes to the lanes when no traffic waits (R463). -/
def serviceDispatch : Nat → State → State
  | 0, s => s
  | n + 1, s => if (nextItem s).any (fun it => it.kind == 3) then serviceDispatch n (dispatch s) else s

/-- The slot of a key command is filled when the lanes have done the command's work (R492). -/
def keyFilled (s : State) : State :=
  match s.keyWork with
  | some (slot, k) =>
    if serviceWaits s 0 then s
    else keyRecord { s with keys := mapSet s.keys slot k, keyWork := none } slot k
  | none => s

/-- Service work that is waiting reaches the lanes, those in service do it, and what waited for it is done (R462, R463). -/
def serveService (s : State) : State :=
  let s :=
    if s.laneQ.any (fun it => it.kind == 3) || s.lanes.any (fun l => l.2.any (fun it => it.kind == 3)) then
      forEach (List.range 16) (serviceDispatch s.laneQ.length s) (fun s i => serviceFront (mapGet [] s.lanes i).length s i)
    else s
  keyFilled s

/-- In BOOT service work is the only work and takes every lane that is not FALLOW: each piece the one with the fewest blocks so
far (R463). -/
def bootService (s : State) : State :=
  let s' := { s with laneQ := [] }
  forEach s.laneQ s' (fun s it =>
    match ((List.range 16).filter (fun i => kindOf s.fuses (lanePage i) == 0x42 && !(isFallow s (lanePage i)))).foldl
        (fun (b : Option Nat) i => match b with
          | none => some i
          | some j => if rdWide s (lanePage i + 0x4C) < rdWide s (lanePage j + 0x4C) then some i else some j) none with
    | some i => laneBlocks s i it.blocks
    | none => s)

end Sys2Proof.Machine
end

