-- ==== Sys2Proof/Machine/TablePort.lean ====
section
/-! DEFINITION. The table ports: READ, WRITE, INVAL, HASH, pending entries (05_lookup_and_filtering.md, R215 to R220; R208,
R290 to R292, R448, R499, R538 to R540, R565 for what single tables add). -/
namespace Sys2Proof.Machine

/-! ## What a READ finds -/

/-- Words as 24-bit words. -/
def toWords (ws : List Nat) : List Word := ws.map (fun w => BitVec.ofNat 24 w)

/-- The words of an RX layout state (R291). -/
def rxStateWords (r : RxState) : List Nat :=
  [r.lastTick % 2 ^ 24, b2n r.timedOut * 2 ^ 23 + r.e2e % 8 * 2 ^ 20 + r.lastCnt % 256 * 2 ^ 12, r.count % 2 ^ 24]

/-- The words of a TX layout state (R291). -/
def txStateWords (t : TxState) : List Nat :=
  [t.last % 2 ^ 24,
    b2n t.pending * 2 ^ 23 + b2n t.deferred * 2 ^ 22 + t.repLeft % 8 * 2 ^ 19 + b2n t.sent * 2 ^ 18 + t.count % 2 ^ 16]

/-- The words of a keep-awake entry (R448). -/
def kaWords (e : KaEntry) : List Nat :=
  [2 ^ 23 + b2n e.flagged * 2 ^ 22 + b2n e.holding * 2 ^ 21 + e.cluster % 32 * 2 ^ 16 + e.port % 256 * 256 +
      e.source / 2 ^ 24 % 32,
    e.source % 2 ^ 24, e.firstSeen, e.lastSeen, e.count]

/-- The words of a fault ledger entry (R539). -/
def ledgerWords (e : LedgerEntry) : List Nat :=
  [2 ^ 23 + e.times.length % 8 * 2 ^ 20 + e.page % 2 ^ 12 * 256 + e.code % 256, e.row % 2 ^ 16,
    e.times.getD 0 0, e.times.getD 1 0, e.times.getD 2 0]

/-- The words of a roster entry (R540). -/
def rosterWords (e : RosterEntry) : List Nat :=
  [2 ^ 23 + e.kind % 8 * 2 ^ 20 + e.page % 2 ^ 12, e.code % 256 * 2 ^ 16 + e.row % 2 ^ 16, e.spare % 2 ^ 16, e.min]

/-- The entry that a listed entry of words gives. -/
def asEntry {α : Type} (f : α → List Nat) (o : Option α) : TEntry :=
  match o with
  | some x => { words := toWords (f x), valid := true }
  | none => emptyEntry

/-- The entry that a READ finds: of the state tables, the state as it stands; of the others, the copy selected. -/
def portEntry (s : State) (pg t copy i : Nat) : TEntry :=
  if domainOf pg < 4 ∧ blockOf pg = 10 ∧ t = 1 then
    let p := polGet s (domainOf pg) i
    { words := toWords [p.level / 2 ^ 24, p.level % 2 ^ 24], valid := true }
  else if pg = mbTable ∧ t = 7 then { words := toWords (rxStateWords (getRx s i)), valid := true }
  else if pg = mbTable ∧ t = 8 then { words := toWords (txStateWords (getTx s i)), valid := true }
  else if pg = kaTable then
    (match mapGet? s.keepAwake i with
      | some e => asEntry kaWords (mapGet? (refreshHolding s e.cluster).keepAwake i)
      | none => emptyEntry)
  else if pg = hubTable ∧ t = 0 then asEntry rosterWords (mapGet? s.roster i)
  else if pg = hubTable then asEntry ledgerWords (mapGet? s.ledger i)
  else tGet s pg t copy i

/-! ## What a live write does beyond the entry -/

/-- R208 for a policer whose configuration entry is written. -/
def polWritten (s : State) (r i : Nat) (old new : TEntry) : State :=
  let level := tw new 2 * 2 ^ 24
  let mode (e : TEntry) : Nat := if twf e 0 23 22 = 3 then 0 else twf e 0 23 22
  let k := r * 4096 + i
  if new.valid && !old.valid then { s with polState := mapSet s.polState k { level := level, last := s.now } }
  else if new.valid && mode old == 0 && mode new != 0 then
    { s with polState := mapSet s.polState k { polGet s r i with level := level } }
  else s

/-- A route whose device or stream changed: the next items of both streams carry the start mark (R620). -/
def routeWritten (s : State) (old new : TEntry) : State :=
  let key (e : TEntry) : Nat := twf e 4 7 2 * 1024 + twf e 7 13 4
  if old.valid && new.valid && key old == key new then s
  else { s with linkSeq := s.linkSeq.filter (fun e => !((old.valid && e.1 == key old) || (new.valid && e.1 == key new))) }

/-- What follows a change of the live copy of an entry from `old`, by software, at image load or in a turn (R208, R252, R291,
R292, R571, R620). -/
def liveWritten (s : State) (pg t i : Nat) (old : TEntry) (turn : Bool) : State :=
  let new := tGet s pg t 0 i
  if domainOf pg < 4 ∧ blockOf pg = 10 then polWritten s (domainOf pg) i old new
  else if domainOf pg < 4 ∧ blockOf pg = 8 ∧ t = 0 then routeWritten s old new
  else if pg = gateTable then { s with gateFaults := s.gateFaults.filter (fun k => k != i) }
  else if pg = mbTable ∧ t = 0 then (if turn then rxTurned s i old.valid else rxChanged s i)
  else if pg = mbTable ∧ t = 3 then (if new.valid then txWritten s i old.valid turn else txForget s i)
  else s

/-- Clears the quarantine of an entry, in every region for a multicast group (R218). -/
def clearQuar (s : State) (pg t i : Nat) : State :=
  { s with tquar := s.tquar.filter (fun k => !(k % 2 ^ 40 == tKey pg t 0 i)) }

/-- A WRITE or INVAL puts an entry into a copy (R216 to R218). -/
def portPut (s : State) (pg t copy i : Nat) (e : TEntry) (shadow : Bool) : State :=
  let old := tGet s pg t 0 i
  let s := if domainOf pg < 4 ∧ blockOf pg = 8 ∧ t = 1 then putBridge (removeBridge s (domainOf pg) i) (domainOf pg) i e
    else tPut s pg t copy i e
  let s := if shadow then tNotePending s pg t copy i else s
  let s := if copy = 0 then liveWritten (clearQuar s pg t i) pg t i old false else s
  if pg = secTable ∧ e.valid then secWritten s t copy i else s

/-! ## Commands (R215 to R219) -/

/-- The table-port commands, in the order of their bits. -/
inductive PortCmd where
  | read | write | inval | hash
  deriving DecidableEq, Repr

def tpTable (s : State) (pg : Nat) : Nat := fld s (pg + 0x40) 23 20
def tpCopy (s : State) (pg : Nat) : Nat := fld s (pg + 0x40) 19 19
def tpIndex (s : State) (pg : Nat) : Nat := fld s (pg + 0x40) 18 0

/-- A command is refused (R219). -/
def tpRefuse (s : State) (pg code : Nat) : State := setBit (setFld s (pg + 0x48) 18 15 code) (pg + 0x48) 2
/-- A command is accepted. -/
def tpAccept (s : State) (pg : Nat) : State := clrBit (setFld s (pg + 0x48) 18 15 0) (pg + 0x48) 2

/-- An entry index that the variant lacks (R499, R698): in M-tier variants the entries of SecY 0 to 3 and the gate lists of ports
104 to 107. -/
def indexAbsent (f : Fuses) (pg t i : Nat) : Bool :=
  pg == gateTable && !f.xTier && decide (i < 512) ||
  pg == secTable && !f.xTier &&
    ((t == 2 && decide (i < 4)) || (t == 3 && decide (i < 16)) || ((t == 4 || t == 5) && decide (i < 80)))

/-- The ERRCODE of a command, if it is refused (R219, R499). -/
def tpError (s : State) (pg : Nat) (c : PortCmd) : Option Nat :=
  let t := tpTable s pg; let i := tpIndex s pg
  match tableInfo s.fuses pg t with
  | none => some 0x1
  | some ti =>
    if c != .hash && (decide (ti.entries ≤ i) || indexAbsent s.fuses pg t i) then some 0x1
    else if c == .write && pg == secTable && t == 0 && i == 0 then some 0x1
    else if (tpCopy s pg == 1 && !ti.shadow) || (c == .write && !ti.mayWrite) || (c == .inval && !ti.mayInval) ||
        (c == .hash && !ti.mayHash) then some 0x2
    else if (c == .write || c == .inval) && bit s (commonOf pg + 0x24) 1 then some 0x3
    else if inTurn s && (ti.shadow || (ti.mayWrite && pg != secTable)) then some 0x7
    else none

/-- TP_DATA words. -/
def tpData (s : State) (pg n : Nat) : List Nat := (List.range n).map (fun k => rd s (pg + 0x80 + 4 * k))

/-- What an accepted READ or HASH writes when it completes (R215, R216). DESIGN CHOICE: ENT_QUAR of a multicast group is 1 when
the replica of any region is quarantined (R246; notes/assumptions/130.md). -/
def tpPuts (s : State) (pg : Nat) (c : PortCmd) (ti : TableInfo) : List FieldPut :=
  let t := tpTable s pg; let i := tpIndex s pg
  match c with
  | .read =>
    let e := portEntry s pg t (tpCopy s pg) i
    (List.range ti.words).map (fun k => { addr := pg + 0x80 + 4 * k, hi := 23, lo := 0, val := tw e k }) ++
      [{ addr := pg + 0x48, hi := 5, lo := 5, val := b2n e.valid },
        { addr := pg + 0x48, hi := 3, lo := 3, val := b2n (s.tquar.any (fun k => k % 2 ^ 40 == tKey pg t 0 i)) }]
  | .hash =>
    (List.range 4).map (fun w => { addr := pg + 0x54 + 4 * w, hi := 23, lo := 0, val := candidate (t == 1) (tpData s pg 4) w })
  | _ => []

/-- The action of an accepted WRITE or INVAL. -/
def tpAct (s : State) (pg : Nat) (c : PortCmd) (ti : TableInfo) : State :=
  let t := tpTable s pg; let copy := tpCopy s pg; let i := tpIndex s pg
  match c with
  | .read | .hash => s
  | .write => portPut s pg t copy i { words := toWords (tpData s pg ti.words), valid := true } ti.shadow
  | .inval =>
    if pg = kaTable then noteLedger { s with keepAwake := mapDel s.keepAwake i }
    else if pg = hubTable then { s with ledger := mapDel s.ledger i }
    else portPut s pg t copy i emptyEntry ti.shadow

/-- One table-port command of a requester (R215 to R219). -/
def tpCommand (s : State) (req pg : Nat) (c : PortCmd) : State :=
  match tpError s pg c, tableInfo s.fuses pg (tpTable s pg) with
  | none, some ti =>
    let puts := tpPuts s pg c ti
    let s := tpAct (tpAccept s pg) pg c ti
    cmdStart s (pg + 0x44) (match c with | .read => 1 | .write => 2 | .inval => 4 | .hash => 8)
      ({ addr := pg + 0x48, hi := 4, lo := 4, val := b2n (tPending s pg (tpTable s pg) (tpIndex s pg)) } :: puts)
  | some code, _ => if code = 3 then lockViolation (tpRefuse s pg 3) req (pg + 0x44) else tpRefuse s pg code
  | none, none => s

/-- A write of TP_CMD (R219): refused while a command runs, and for more than one command bit. -/
def tpWrite (s : State) (req pg v : Nat) : State :=
  let s := cmdSettle s (pg + 0x44)
  if v % 16 = 0 then s
  else if cmdBusy s (pg + 0x44) then tpRefuse s pg 0x6
  else
    match v % 16 with
    | 1 => tpCommand s req pg .read
    | 2 => tpCommand s req pg .write
    | 4 => tpCommand s req pg .inval
    | 8 => tpCommand s req pg .hash
    | _ => tpRefuse s pg 0x5

/-- TP_PEND_MAX in force (R215). -/
def pendMax (s : State) (pg : Nat) : Nat := msTicks (clamp 1 1000 (fld s (pg + 0x50) 9 0))

/-- An entry has been pending longer than TP_PEND_MAX (R217): one record, the entry stays pending. DESIGN CHOICE: its DETAIL is
the TP_SEL selector of the table (R527; notes/assumptions/130.md). -/
def pendOver (s : State) (pg t i : Nat) : State :=
  match mapGet? s.tpend (tKey pg t 0 i) with
  | some p =>
    if !p.recorded && decide (s.now - p.since > pendMax s pg) then
      let s := { s with tpend := mapSet s.tpend (tKey pg t 0 i) { p with recorded := true } }
      raiseRec s pg 0x05 t 0 pg i
    else s
  | none => s

end Sys2Proof.Machine
end

