-- ==== Sys2Proof/Machine/Mailbox.lean ====
section
/-! DEFINITION. The mailboxes and the wide values they reach (02_register_interface.md, R69 to R77; R84, R412, R415, R491). -/
namespace Sys2Proof.Machine

/-- What kind of wide value an anchor names (R77). -/
inductive WideKind where
  | statistic | time | stamp | cfgRef | cfgCrc | key
  deriving DecidableEq, Repr

/-- The wide value of an anchor address, where the variant has one. -/
def wideAt (f : Fuses) (a : Nat) : Option WideKind :=
  if a % 4 ≠ 0 then none
  else if (fieldsAt f a).any (fun g => g.acc == .mbx) then
    if a = timePage + 0x40 then some .time
    else if a = cfgRef then some .cfgRef
    else if a = cfgCrc then some .cfgCrc
    else if a = keyPage + 0x54 then some .key
    else if kindOf f (pageOf a) = 0x09 ∧ slotOf a = 0x74 then some .stamp
    else some .statistic
  else none

/-- Data words of a wide value (R77). -/
def wideWords : WideKind → Nat
  | .time => 4
  | .stamp => 5
  | .key => 11
  | _ => 2

/-- The mailbox commands, in the order of their bits. -/
inductive MbxCmd where
  | snap | snapClr | commit
  deriving DecidableEq, Repr

/-- A command that a wide value takes (R77). -/
def wideTakes : WideKind → MbxCmd → Bool
  | .statistic, .snap | .statistic, .snapClr | .time, .snap | .time, .commit | .stamp, .snapClr => true
  | .cfgRef, .snap | .cfgRef, .commit | .cfgCrc, .snap | .key, .commit => true
  | _, _ => false

/-- A command that PF1 may give (R77). -/
def widePf1 : WideKind → MbxCmd → Bool
  | .cfgRef, _ | .key, _ | .time, .commit => false
  | _, _ => true

/-- A wide value is locked for a COMMIT (R72, R491). -/
def wideLocked (s : State) (a : Nat) (k : WideKind) : Bool :=
  bit s (pageOf a + 0x24) 0 || (k == .key && bit s (secPage + 0x40) 0)

/-- A COMMIT that its own chapter refuses with 0x2 (R84, R491). -/
def wideBarred (s : State) : WideKind → Bool
  | .cfgRef => !(bit s (cfgPage + 0x44) 0)
  | .key => keyCommitBarred s
  | _ => false

/-- The ERRCODE of a command of one bit, if it is refused (R75). DESIGN CHOICE: where several checks fail, which code stands
is open: 0x6 before all, then 0x5, then the lowest of the others (notes/assumptions/17.md). -/
def mbxError (s : State) (req a : Nat) (c : MbxCmd) : Option Nat :=
  match wideAt s.fuses a with
  | none => some 0x1
  | some k =>
    if !(wideTakes k c) || (c == .commit && wideBarred s k) then some 0x2
    else if c == .commit && wideLocked s a k then some 0x3
    else if reqPf req == 1 && !(widePf1 k c) then some 0x4
    else none

/-- Data word k of a mailbox. -/
def mbxData (n k : Nat) : Nat := mbxPage n + 0x4C + 4 * k

/-- The number in the data words. -/
def mbxNumber (s : State) (n words : Nat) : Nat :=
  (List.range words).foldl (fun a k => a + rd s (mbxData n k) * 2 ^ (24 * k)) 0

/-- The words of a wide value at one instant, and the state after a clear (R71). -/
def wideTake (s : State) (a : Nat) (k : WideKind) (clear : Bool) : List Nat × State :=
  let words (v n : Nat) : List Nat := (List.range n).map (fun i => v / 2 ^ (24 * i) % 2 ^ 24)
  match k with
  | .time => (words (time80Now s) 4, s)
  | .stamp => tsTake s (88 + instanceOf 0x09 (pageOf a))
  | .key => ([], s)
  | .statistic | .cfgRef | .cfgCrc => (words (rdWide s a) 2, if clear then wrWide s a 0 else s)

/-- A COMMIT's write (R72). -/
def widePut (s : State) (a v : Nat) (k : WideKind) : State :=
  match k with
  | .time => timeCommit s v
  | .cfgRef => setBit (wrWide s a (v % 2 ^ 32)) (cfgPage + 0x44) 1
  | .key => keyCommit s v
  | _ => s

/-- A command is accepted: the state fields of MBX_STAT (R69, R73, R75). -/
def mbxAccept (s : State) (n words : Nat) : State :=
  let a := mbxPage n + 0x48
  setFld (setFld (setFld (setFld s a 15 12 words) a 11 8 0) a 2 2 0) a 0 0 0

/-- A command is refused (R75). -/
def mbxRefuse (s : State) (n code : Nat) : State :=
  setBit (setFld s (mbxPage n + 0x48) 11 8 code) (mbxPage n + 0x48) 2

/-- The command register of a mailbox. -/
def mbxCmd (n : Nat) : Nat := mbxPage n + 0x44

/-- What the snapshot of a value writes when its command completes: the words and VALID (R71). -/
def snapPuts (n : Nat) (ws : List Nat) : List FieldPut :=
  { addr := mbxPage n + 0x48, hi := 0, lo := 0, val := 1 } ::
    ws.zipIdx.map (fun (w, i) => { addr := mbxData n i, hi := 23, lo := 0, val := w })

/-- One mailbox command of a requester (R70 to R76). A COMMIT to a locked value counts as a lock violation, whatever code
shows (R72). -/
def mbxCommand (s : State) (req n : Nat) (c : MbxCmd) : State :=
  let a := rd s (mbxPage n + 0x40)
  match mbxError s req a c, wideAt s.fuses a with
  | none, some k =>
    let s := mbxAccept s n (wideWords k)
    if c = .commit then cmdStart (widePut s a (mbxNumber s n (wideWords k)) k) (mbxCmd n) 4 []
    else
      let (ws, s) := wideTake s a k (c == .snapClr)
      cmdStart s (mbxCmd n) (if c = .snap then 1 else 2) (snapPuts n ws)
  | some code, some k =>
    if c = .commit ∧ wideLocked s a k then lockViolation (mbxRefuse s n code) req a else mbxRefuse s n code
  | some code, none => mbxRefuse s n code
  | none, none => s

/-- A write of MBX_CMD: refused while a command runs, and for more than one command bit (R75). -/
def mbxWrite (s : State) (req n v : Nat) : State :=
  let s := cmdSettle s (mbxCmd n)
  if v % 8 = 0 then s
  else if cmdBusy s (mbxCmd n) then mbxRefuse s n 0x6
  else
    match v % 8 with
    | 1 => mbxCommand s req n .snap
    | 2 => mbxCommand s req n .snapClr
    | 4 => mbxCommand s req n .commit
    | _ => mbxRefuse s n 0x5

/-- A read of data word k: the last word of the value clears VALID (R73). -/
def mbxDataRead (s : State) (n k : Nat) : State :=
  if k + 1 = fld s (mbxPage n + 0x48) 15 12 then clrBit s (mbxPage n + 0x48) 0 else s

/-- A mailbox page's restart clears nothing beyond R702; the number of a mailbox from its page. -/
def mbxOf (pg : Nat) : Nat := cellOf pg - 1

end Sys2Proof.Machine
end

