-- ==== Sys2Proof/Machine/Pair.lean ====
section
/-! DEFINITION. Redundant pairing: leases, the states of a pair member, PAIR frames, health, reclaim and mirroring
(17_host_links_and_pairing.md, R622 to R635, R640). -/
namespace Sys2Proof.Machine

def pairCfg : Nat := pairPage + 0x40
def pairStat : Nat := pairPage + 0x4C
def pairEvents : Nat := pairPage + 0x50

/-- The unit is present and enabled, and its page runs. -/
def pairOn (s : State) : Bool := s.fuses.xTier && bit s pairCfg 23 && running s pairPage
/-- The pair link. -/
def pairLink (s : State) : Nat := fld s pairCfg 21 21
/-- LEASE_MS and PEER_LEASE_MS in force (R640). -/
def leaseMs (s : State) : Nat := clamp 1 100 (fld s pairCfg 19 13)
def peerLeaseMs (s : State) : Nat := clamp 1 100 (fld s pairCfg 12 6)
/-- The lease is valid before its end (R622). -/
def leaseValid (s : State) : Bool :=
  match s.pair.leaseEnd with
  | some e => decide (s.now < e)
  | none => false
/-- PAIR_STAT.CONTACT and SYNCED. -/
def inContact (s : State) : Bool := bit s pairStat 20
def inSync (s : State) : Bool := bit s pairStat 19
/-- ACTIVE_OUT is high exactly while STATE is ACTIVE (R622). -/
def activeOut (s : State) : Bool := pairState s == 3

/-- The device is healthy (R629). -/
def healthyNow (s : State) : Bool :=
  !(bit s (hubPage + 0x40) 22) &&
    (match s.pair.stallAt with
      | some t => decide (s.now ≥ t + secTicks 1)
      | none => true) &&
    !((mapGet { inExcursion := false, goodWindows := 0 } s.pace 4).inExcursion) && !(bit s (updPage + 0x40) 21)

/-- A PAIR frame: state, PRIMARY, LEASE_MS, health and SYNCED (R628); `reclaim` marks a RECLAIM (R630). -/
def sendPair (s : State) (reclaim : Bool) : State :=
  let k := pairLink s
  if linkTrained s k then
    offerService { s with pair := { s.pair with sentAt := s.now } } k
      { linkFrame s 6 (peerId s k) with
        info := [pairState s, fld s pairCfg 22 22, leaseMs s, fld s pairStat 18 18, fld s pairStat 19 19, b2n reclaim] }
  else s

/-- The freshness value of every GENERATE profile raised by FV_SKIP, capped (R623). -/
def skipFreshness (s : State) : State :=
  forEach (liveEntries s secTable 0) s (fun s (k, e) =>
    if twf e 0 23 22 = 1 then setFv s k e (min (2 ^ fvFull e - 1) (fvOf s k + fld s pairCfg 5 0)) else s)

/-- The outputs go quiet (R624): a frame in flight on a MAC port 104 to 123 ends as a failed transmission. -/
def quietOutputs (s : State) : State := forEach ((List.range 20).map (· + 104)) s (fun s p => ethFails s p)

/-- The bus channel ports and the MAC ports whose transceivers or outputs follow the pair state. -/
def pairOutputs (s : State) : State := refreshAll s

/-- Entry into a state of R623, with what entry does; a PAIR frame reports it at once (R627). -/
def pairEnter (s : State) (st : Nat) : State :=
  let old := pairState s
  if old = st then s
  else
    let held := old == 4 && st == 1
    let s := if held then
        forEach ((List.range 124).filter (fun o => outState s o = 1)) s (fun s o =>
          flushOutput (setFld s (egrPort o) 13 12 2) o)
      else s
    let s := setFld s pairStat 23 21 st
    let s := { s with pair := { s.pair with guardAt := if st = 2 then s.pair.grantAt else none, holdFrom := none } }
    let s :=
      if st = 3 then
        let s := skipFreshness (incSat (setBit s pairEvents 3) (pairPage + 0x58))
        if inSync s then s else raisePlain s pairPage 0x3C 5
      else if st = 4 then setBit s pairEvents 2
      else s
    let s := if st = 1 ∨ st = 2 ∨ st = 4 then quietOutputs s else s
    sendPair (pairOutputs s) false

/-- An ACTIVE device leaves for QUIET with a cause of class "Lease lost" (R623, R641). -/
def pairQuit (s : State) (cause : Nat) : State :=
  if pairState s = 3 then raisePlain (pairEnter s 4) pairPage 0x3C cause else s

/-- The rows of R623 that follow from the lease, contact and the peer's state alone. From QUIET with contact it is a grant that
returns the device to ACTIVE: until then the peer, to which control went, counts as entering ACTIVE (R627). -/
def pairEval (s : State) : State :=
  if !(pairOn s) then s
  else
    let peer := decide (s.pair.peerState = 3)
    match pairState s with
    | 1 =>
      if !(leaseValid s) then s
      else if !(inContact s) then pairEnter s 2
      else if peer then s else pairEnter s 3
    | 4 =>
      if inContact s && peer then pairEnter s 1
      else if leaseValid s && !(inContact s) then pairEnter s 2
      else s
    | 2 => if (inContact s && peer) || !(leaseValid s) then pairEnter s 1 else s
    | _ => s

/-- The conditions of RECLAIM (R630): PAIR_RECLAIM.MS is not 0. -/
def reclaimReady (s : State) : Bool :=
  pairOn s && bit s pairCfg 22 && fld s (pairPage + 0x44) 15 0 != 0 && pairState s == 1 && inContact s && inSync s &&
    bit s pairStat 18 && leaseValid s && decide (s.pair.peerState = 3)

/-- The time since which the conditions of RECLAIM hold without a break. -/
def noteReclaim (s : State) : State :=
  if reclaimReady s then
    if s.pair.holdFrom.isSome then s else { s with pair := { s.pair with holdFrom := some s.now } }
  else { s with pair := { s.pair with holdFrom := none } }

/-- HEALTHY follows its conditions, and what follows from health (R629). -/
def refreshHealth (s : State) : State :=
  let h := healthyNow s
  let s := if s.fuses.xTier then putBit s pairStat 18 h else s
  let s := if !h && pairOn s && bit s pairCfg 20 then pairQuit s 2 else s
  noteReclaim s

/-- After any happening of the unit. -/
def pairAfter (s : State) : State := noteReclaim (pairEval s)

/-- PAIR_CFG.EN follows a write (R623): EN 1 enters STANDBY, EN 0 is OFF. -/
def pairEnable (s : State) : State :=
  if !(s.fuses.xTier) then s
  else if bit s pairCfg 23 then (if pairState s = 0 then pairAfter (pairEnter s 1) else s)
  else if pairState s = 0 then s else pairEnter s 0

/-! ## Leases (R622, R623) -/

/-- A grant (R622): the lease end set, never earlier; in GUARD the first one since the loss of contact starts the guard
(R625). In QUIET with contact it returns the device to ACTIVE, unless the peer is ACTIVE or SELF_QUIET holds an unhealthy device
back (R623, R629). -/
def leaseGrant (s : State) : State :=
  if !(pairOn s) then s
  else
    let e := s.now + msTicks (leaseMs s)
    let e := match s.pair.leaseEnd with
      | some old => max old e
      | none => e
    let first := !(inContact s) && s.pair.grantAt.isNone
    let p := { s.pair with leaseEnd := some e }
    let p := if first then { p with grantAt := some s.now } else p
    let p := if first && pairState s == 2 then { p with guardAt := some s.now } else p
    let s := setBit { s with pair := p } pairStat 17
    let unfit := bit s pairCfg 20 && !(bit s pairStat 18)
    if pairState s = 4 ∧ inContact s ∧ s.pair.peerState ≠ 3 ∧ !unfit then noteReclaim (pairEnter s 3) else pairAfter s

/-- The lease ends (R623). -/
def leaseExpire (s : State) : State :=
  match s.pair.leaseEnd with
  | some e =>
    if s.now < e then s
    else
      let s := incSat (clrBit { s with pair := { s.pair with leaseEnd := none } } pairStat 17) (pairPage + 0x5C)
      pairAfter (pairQuit s 1)
  | none => s

/-- G of R625 in ticks: P + 20 µs + P / 4,000. -/
def guardTime (s : State) : Nat :=
  let p := msTicks (max (peerLeaseMs s) (clamp 1 100 (fld s pairStat 6 0)))
  p + usTicks 20 + p / 4000

/-- The guard elapses with a valid lease and without contact (R623, R625). -/
def guardEnd (s : State) : State :=
  match s.pair.guardAt with
  | some g =>
    if pairOn s && pairState s == 2 && decide (s.now ≥ g + guardTime s) && leaseValid s && !(inContact s) then
      noteReclaim (pairEnter s 3)
    else s
  | none => s

/-- HANDOVER (R627) or a RECLAIM of the peer (R630), by cause. -/
def handover (s : State) (cause : Nat) : State := if pairOn s then pairAfter (pairQuit s cause) else s

/-! ## PAIR frames and contact (R628, R633) -/

/-- The conflict that two devices in contact are in (R633): 1 both ACTIVE, 2 PRIMARY equal, 3 equal IDs; 0 none. -/
def conflictOf (s : State) : Nat :=
  if !(inContact s) then 0
  else if pairState s = 3 ∧ s.pair.peerState = 3 then 1
  else if s.pair.peerPrimary = bit s pairCfg 22 then 2
  else if s.pair.peerId = s.fuses.devId then 3
  else 0

/-- CONFLICT and its record, and which of two ACTIVE devices gives way (R633). -/
def noteConflict (s : State) : State :=
  let c := conflictOf s
  if c = 0 then clrBit s pairStat 15
  else
    let s := if bit s pairStat 15 then s else raisePlain (setBit (setBit s pairStat 15) pairEvents 5) pairPage 0x3D c
    let own := bit s pairCfg 22
    let yields := if own = s.pair.peerPrimary then decide (s.pair.peerId < s.fuses.devId) else !own
    if c = 1 && yields then pairEnter s 4 else s

/-- A PAIR frame arrives (R628): contact, the peer's state, and what follows. -/
def pairHeard (s : State) (state : Nat) (primary : Bool) (lease peer : Nat) : State :=
  if !(pairOn s) || !(linkTrained s (pairLink s)) then s
  else
    let p := { s.pair with heardAt := some s.now, peerState := state, peerPrimary := primary, peerId := peer, grantAt := none, guardAt := none }
    let s := putBit (setFld (setBit { s with pair := p } pairStat 20) pairStat 6 0 lease) pairStat 16 (state == 3)
    pairAfter (noteConflict s)

/-- Contact is lost (R628): no PAIR frame for 1 ms, or the pair link is no longer trained. -/
def contactLost (s : State) : State :=
  if inContact s then
    let p := { s.pair with heardAt := none, lostAt := s.now, grantAt := none, guardAt := none }
    pairAfter (noteConflict (setBit (clrBit { s with pair := p } pairStat 20) pairEvents 1))
  else s

/-- No PAIR frame for 1 ms (R628). -/
def contactTimeout (s : State) : State :=
  match s.pair.heardAt with
  | some t => if s.now ≥ t + msTicks 1 then contactLost s else s
  | none => s

/-- A PAIR frame falls due (R628). -/
def pairBeat (s : State) : State :=
  if pairOn s && decide (s.now ≥ s.pair.sentAt + usTicks 100) then sendPair s false else s

/-- A primary that met the conditions of RECLAIM for PAIR_RECLAIM.MS sends it (R630). -/
def reclaimHold (s : State) : State :=
  match s.pair.holdFrom with
  | some t =>
    if reclaimReady s && decide (s.now ≥ t + msTicks (fld s (pairPage + 0x44) 15 0)) then
      sendPair (setBit { s with pair := { s.pair with holdFrom := none } } pairEvents 4) true
    else s
  | none => s

/-- LEASE_OUT falls due to toggle (R629). -/
def leaseToggle (s : State) : State :=
  if pairOn s && bit s pairStat 18 && decide (s.now ≥ s.pair.toggledAt + msTicks (leaseMs s) / 4) then
    let p := { s.pair with leaseOut := !s.pair.leaseOut, toggledAt := s.now }
    send { s with pair := p } 127 .pin [b2n p.leaseOut] []
  else s

/-! ## Mirroring (R631, R632) -/

/-- What the ACTIVE device mirrors when the pair link has trained (R632): the slots of mirrored unpack entries, the
freshness values, the cluster states and the tick count; then the end of them. -/
def mirrorAll (s : State) : State :=
  let slotOf (e : TEntry) : Nat := twf e 1 23 6
  let s := forEach (liveEntries s mbTable 1) s (fun s (_, e) =>
    if twb e 0 3 then
      forEach (List.range (sigSlots (sigLen e))) s (fun s m =>
        let v := getSlot s (slotOf e + m)
        mirrorOut s [0, slotOf e + m, v.value, b2n v.inv])
    else s)
  let s := forEach (liveEntries s secTable 0) s (fun s (k, _) => mirrorOut s [1, k, fvOf s k])
  let s := forEach (List.range 32) s mirrorCluster
  mirrorOut (mirrorOut s [3, s.tick]) [4]

/-- An item of the peer's mirror (R631, R632): 0 a slot, 1 a freshness value, 2 a cluster state, 3 the tick count, 4 the end
of the items sent after training. -/
def mirrorIn (s : State) (what i v flag : Nat) : State :=
  if !(pairOn s) then s
  else
    match what with
    | 0 => writeSlot s i v (flag == 1)
    | 1 => saveFv (putFv s i v false (fvExhausted s i)) i
    | 2 => clusterMirrored s i v flag
    | 3 => { s with tick := v, tickAt := s.now }
    | _ => noteReclaim (setBit (setBit s pairStat 19) pairEvents 0)

/-- A RESTART of the pairing page: the lease, contact and states begin again (R702, R623). -/
def pairRestart (s : State) : State :=
  let p : PairSt := { s.pair with leaseEnd := none, heardAt := none, grantAt := none, guardAt := none, holdFrom := none, peerState := 0 }
  let s := wr { s with pair := p } pairStat 0
  let s := refreshHealth (pairOutputs s)
  pairEnable s

end Sys2Proof.Machine
end

