-- ==== Sys2Proof/Machine/Links.lean ====
section
/-! DEFINITION. The Ebder links: training, sequenced frames, acknowledgement, replay, credits, relay, retraining, and the
received form of an item (17_host_links_and_pairing.md, R601, R606 to R616, R621; R301). -/
namespace Sys2Proof.Machine

/-! ## The received form (R301, R601) -/

/-- The bytes of a copy in its received form: a frame whole, unless a lane has put its secured form elsewhere (R325). -/
def receivedForm (s : State) (c : Copy) : List Byte :=
  let f := getFrame s c.frame
  if c.form.src = 8 then canPseudo (canOfHdr c.form.hdr) c.form.len ++ pduOf c.form f.bytes
  else if c.form.src = 7 ∧ c.form.itemOff = 0 then f.bytes
  else sliceBytes f.bytes c.form.itemOff (c.form.off - c.form.itemOff + c.form.len)

/-- KIND with which an item entered the device that first took it (R174, R301): 0 for a packed layout. -/
def firstKind (src : Nat) : Nat :=
  match src with
  | 1 => 1
  | 2 => 2
  | 3 => 3
  | 4 | 6 => 4
  | 5 => 5
  | 8 => 0
  | _ => 7

/-! ## Training (R606, R607, R612) -/

def lnkCtrl (k : Nat) : Nat := linkPage k + 0x40
def lnkStat (k : Nat) : Nat := linkPage k + 0x44

/-- The link cell may train: present, enabled, running and not FALLOW. -/
def linkMay (s : State) (k : Nat) : Bool :=
  s.fuses.xTier && decide (k < 2) && bit s (lnkCtrl k) 23 && running s (linkPage k) && !(isFallow s (linkPage k))

/-- The link leaves the trained state (R612): both replay buffers emptied and counted, every stream toward the links to start
anew (R620), the port down, contact over the pair link lost; frames in either direction end. -/
def linkLose (s : State) (k : Nat) : State :=
  if !(bit s (lnkStat k) 23) then s
  else
    let l := getLnk s k
    let s := addSat s (linkPage k + 0x60) l.replay.length
    let s := putLnk (clrBit s (lnkStat k) 23) k { noLink with service := l.service, relay := l.relay }
    let s := noteReplay (rewindOpen { s with linkSeq := [] } (124 + k)) k
    let s := refreshOutput (flightOver s (124 + k)) (124 + k)
    if pairLink s = k then contactLost s else s

/-- The lanes are locked and the peer's ID has come (R606, R607): the link trains, unless the peer reports this device's
own ID. -/
def linkTrain (s : State) (k peer : Nat) : State :=
  if !(linkMay s k) || bit s (lnkStat k) 23 then s
  else
    let s := setFld s (lnkStat k) 5 0 peer
    if peer = s.fuses.devId then
      if bit s (lnkStat k) 21 then s
      else raisePlain (setBit s (lnkStat k) 21) (linkPage k) 0x38 (k + 2)
    else
      let l := getLnk s k
      let s := putLnk (setBit (clrBit s (lnkStat k) 21) (lnkStat k) 23) k
        { noLink with service := l.service, relay := l.relay, limits := [(16, 16)] }
      let s := linkGo (refreshOutput (creditServe (creditsDrawn s k) k) (124 + k)) k
      if pairLink s = k ∧ pairOn s then
        if pairState s = 3 then mirrorAll s else clrBit s pairStat 19
      else s

/-- A link with an ID clash tries again (R607). -/
def clashRetry (s : State) (k peer : Nat) : State := if bit s (lnkStat k) 21 then linkTrain s k peer else s

/-- The link cell enters FALLOW (R612, R537). -/
def linkToFallow (s : State) (k code : Nat) : State :=
  let pg := linkPage k
  if isFallow s pg then s
  else
    let s := setBit { s with fallow := pg :: s.fallow } (lnkStat k) 22
    refreshOutput (retire s 1 pg code 0 0) (124 + k)

/-- The link retrains (R612): counted and recorded; a failed loopback test of its lanes makes the cell FALLOW. -/
def linkRetrain (s : State) (k : Nat) (lanesGood : Bool) : State :=
  let s := linkLose s k
  let s := raisePlain (incSat s (linkPage k + 0x5C)) (linkPage k) 0x38 k
  if lanesGood then s else linkToFallow (permanentRec s (linkPage k) 0 0x39 k) k 0x39

/-- The oldest frame has not been acknowledged within 2 ms of its first transmission (R612). -/
def retrainDue (s : State) (k : Nat) : Bool :=
  match (getLnk s k).replay with
  | r :: _ => decide (s.now ≥ r.sentAt + msTicks 2)
  | [] => false

/-! ## Acknowledgement and credits (R610, R614) -/

/-- The replay buffer from a number on. -/
def replayFrom (rs : List Replay) (n : Nat) : List Replay := rs.dropWhile (fun r => r.num != n)

/-- An ACK or NAK covers every frame before a number: none where the number is neither in the buffer nor the next to
send. -/
def linkCover (s : State) (k n : Nat) : State :=
  let l := getLnk s k
  if l.replay.any (fun r => r.num == n) || n == l.txNum then
    noteReplay (putLnk s k { l with replay := replayFrom l.replay n, quietFrom := s.now }) k
  else s

/-- Frames are sent again, oldest first (R610): counted in LNK_REPLAYS. -/
def resend (s : State) (k : Nat) : State :=
  let l := getLnk s k
  if l.replay.isEmpty then s
  else
    let s := putLnk (incSat s (linkPage k + 0x58)) k { l with quietFrom := s.now }
    forEach l.replay s (fun s r => sendSequenced s k r.num r.frame)

/-- An ACK arrives. -/
def linkAck (s : State) (k n : Nat) : State := if linkTrained s k then linkGo (linkCover s k n) k else s

/-- A NAK arrives: the frames before its number are covered, the rest sent again. -/
def linkNak (s : State) (k n : Nat) : State :=
  if linkTrained s k then linkGo (resend (linkCover (incSat s (linkPage k + 0x54)) k n) k) k else s

/-- 20 µs pass without an ACK or NAK that covers the oldest frame. -/
def replayTimeout (s : State) (k : Nat) : State :=
  let l := getLnk s k
  if linkTrained s k && !(l.replay.isEmpty) && decide (s.now ≥ l.quietFrom + usTicks 20) then resend s k else s

/-- A CREDIT frame sets the limit of a pool and class (R614). -/
def linkCreditIn (s : State) (k pool cls limit : Nat) : State :=
  if linkTrained s k then
    let l := getLnk s k
    let key := pool % 3 * 8 + (if pool = 2 then 0 else cls % 8)
    noteStuck (linkGo (putLnk s k { l with limits := mapPut 0 l.limits key (limit % 2 ^ 24) }) k) (124 + k)
  else s

/-- A service frame has been handled (R614): its credit is returned. -/
def serviceDone (s : State) (k : Nat) : State :=
  let l := getLnk s k
  let n := (l.handled + 1) % 2 ^ 24
  sendControlFrame (putLnk s k { l with handled := n }) k 10 2 0 (n + 16)

/-! ## Sending items (R301, R608, R620) -/

/-- The frame that a copy becomes on link k: ROUTED toward another device, else BRIDGED to the neighbour. -/
def itemFrame (s : State) (k : Nat) (c : Copy) : LinkFrame :=
  let f := getFrame s c.frame
  if c.form.remote then
    { linkFrame s 2 c.form.dev with
      cls := c.cls
      start := c.form.start && c.form.numbered
      numbered := c.form.numbered
      src := f.srcDev
      tag := c.form.tag
      orig := firstKind c.form.src
      rsq := if c.form.numbered then c.form.num else 0
      stream := c.form.stream
      payload := receivedForm s c }
  else { linkFrame s 1 (peerId s k) with cls := c.cls, payload := receivedForm s c }

/-- The copy in flight at a link's port is sent once its frame is committed; a poisoned one is ended as an aborted frame
(R106, R613). -/
def linkData (s : State) (k : Nat) : State :=
  match mapGet? s.inFlight (124 + k) with
  | some c =>
    let f := getFrame s c.frame
    if f.poison then stompFlight s (124 + k)
    else if f.committed && linkTrained s k then flightOver (linkSend s k (itemFrame s k c)) (124 + k)
    else s
  | none => s

/-- A link ends the frame that it sends as an aborted one (R22, R613). -/
def linkAborts (s : State) (k : Nat) : State :=
  if (mapGet? s.inFlight (124 + k)).isSome then flightOver (send s (124 + k) .linkAbort [] []) (124 + k) else s

/-- Both links send the copies that have become whole, and grant the credits that admission leaves them (R614). -/
def serveLinks (s : State) : State :=
  let s := linkData (linkData s 0) 1
  creditServe (creditServe s 0) 1

/-! ## Relay (R607, R616) -/

/-- A frame for another device goes on over link k (R607, R616); one of this device's own has passed round the ring: it is
discarded, and its credits return (R614). Data waits in the relay furrow, in front of a full one (R111). -/
def relayOn (s : State) (k : Nat) (f : LinkFrame) : State :=
  if isService f then (if f.src = s.fuses.devId then incSat s (linkPage k + 0x64) else offerService s k f)
  else
    let l := getLnk s k
    if f.src = s.fuses.devId then relayLeft (incSat s (linkPage k + 0x64)) k f
    else linkGo (furPush (putLnk s k { l with relay := l.relay ++ [(f, s.now)] }) (linkPage k) (relayItem f)) k

/-- A relayed data frame has waited RT_RELAY.MAX_US (R616). -/
def relayExpiry (s : State) (k : Nat) : State :=
  let l := getLnk s k
  match l.relay with
  | (f, t) :: _ =>
    if s.now ≥ t + usTicks (clamp 10 10000 (fld s (routePage + 0x44) 13 0)) then
      linkGo (relayLeft (incSat (relayTake s k) (linkPage k + 0x64)) k f) k
    else s
  | [] => s

/-! ## Receiving (R608 to R611) -/

/-- The header that the first 12 bytes of a sequenced frame spell (R608). -/
def linkHeaderIn (bs : List Byte) : LinkFrame :=
  { type := byteAt bs 0 / 16
    cls := byteAt bs 0 / 2 % 8
    start := byteAt bs 0 % 2 == 1
    dst := byteAt bs 1 / 4
    numbered := byteAt bs 1 / 2 % 2 == 1
    src := byteAt bs 2 / 4
    pf := byteAt bs 2 / 2 % 2
    tag := beAt bs 3 2 % 8192
    orig := byteAt bs 5 / 16
    rsq := beAt bs 6 2
    stream := beAt bs 10 2 % 1024
    payload := []
    info := [] }

/-- The frame that link bytes spell, without its CRC: none where the length disagrees. -/
def linkParse (bs : List Byte) : Option LinkFrame :=
  let len := beAt bs 8 2 % 16384
  if bs.length ≠ 12 + len + 4 then none else some { linkHeaderIn bs with payload := sliceBytes bs 12 len }

/-- The frame passes its check against the number expected next (R609). -/
def linkPasses (s : State) (k : Nat) (bs : List Byte) : Bool :=
  decide (linkCrc (getLnk s k).rxNum (bs.take (bs.length - 4)) = beAt bs (bs.length - 4) 4)

/-- The frame in arrival has left the link's receive crossing (R21). -/
def linkCrossed (s : State) (k : Nat) : State := putFur s (linkCrossing k) emptyFurrow

/-- A frame fails its check (R610): a NAK unless one stands, counted, and what of it had entered memory rewound. -/
def linkFails (s : State) (k : Nat) : State :=
  let s := rewindOpen (linkCrossed { s with dropping := s.dropping.filter (fun q => q != 124 + k) } k) (124 + k)
  let l := { getLnk s k with arriving := none, learnWait := none }
  let s := putLnk s k l
  if l.naked then s
  else
    let s := incSat (incSat (putLnk s k { l with naked := true }) (linkPage k + 0x4C)) (linkPage k + 0x50)
    sendControlFrame s k 9 0 0 l.rxNum

/-- A frame that passed: the next number, its ACK, and the count. -/
def linkGood (s : State) (k : Nat) : State :=
  let l := getLnk s k
  let n := (l.rxNum + 1) % 2 ^ 24
  let s := handled (addStat (putLnk (linkCrossed s k) k { l with rxNum := n, naked := false, arriving := none }) (linkPage k + 0x74) 1) (linkPage k)
  sendControlFrame s k 8 0 0 n

/-- The head of a data frame in packet memory (R175, R608): of a ROUTED one its tag and ORIG_KIND. -/
def linkHead (p id : Nat) (f : LinkFrame) (fr : Frame) : Head :=
  { port := p
    frame := some id
    kind := if f.type = 2 then .pdu else .eth
    bytes := fr.bytes
    poison := fr.poison
    ownAddr := false
    link := if f.type = 2 then some (f.tag, f.orig) else none
    tag := 0
    srcDev := f.src
    ingressNs := 0
    cameAt := fr.commitAt
    seqNo := if f.numbered then some (f.stream, f.rsq, f.start) else none }

/-- Bytes of a frame in arrival pass the link's receive crossing on their way into the core (R21), which takes them as they come. -/
def linkCross (s : State) (k : Nat) (bytes : List Byte) : State :=
  let f := getFur s (linkCrossing k)
  let ws := f.openWords ++ (packWords bytes).map (furWord false 0)
  putFur s (linkCrossing k) { f with openWords := ws, openTaken := ws.length }

/-- Bytes of a frame arrive over link k ahead of its check (R126, R157): the first begin with its header. Those of a data frame
for this device go into plots, and a BRIDGED one is announced once its head suffices. DESIGN CHOICE: a ROUTED one is announced at
its end, as nothing of it could leave before (notes/assumptions/62.md). -/
def linkPlot (s : State) (k : Nat) (first : Bool) (bytes : List Byte) : State :=
  if !(linkTrained s k) then s
  else
    let p := 124 + k
    let hd := linkHeaderIn bytes
    let own := hd.type == 1 || (hd.type == 2 && hd.dst == s.fuses.devId)
    let s := if first then putLnk (linkCrossed s k) k { getLnk s k with arriving := if own then some hd else none, learnWait := none } else s
    let s := linkCross s k bytes
    match (getLnk s k).arriving with
    | none => s
    | some f =>
      let s := plotArrives s p first (if first then bytes.drop 12 else bytes)
      match mapGet? s.openFrame p with
      | some id =>
        let fr := { getFrame s id with cls := f.cls, srcDev := f.src, kind := if f.type = 2 then .pdu else .eth }
        let s := putFrame s id fr
        if f.type = 1 then announceHead s p id (linkHead p id f fr) else s
      | none => s

/-- A data frame enters packet memory as an item of its port, is announced where its head was not, and returns its credits (R126,
R608, R614): what PLOT_CHARGE has placed already stays. -/
def linkEnter (s : State) (k : Nat) (f : LinkFrame) : State :=
  let p := 124 + k
  let s := creditBack s k (f.cls % 8) (linkPlots f.payload.length)
  let placed := match mapGet? s.openFrame p with
    | some id => (getFrame s id).bytes.length
    | none => 0
  let first := (mapGet? s.openFrame p).isNone && !(s.dropping.contains p)
  let s := putLnk s k { getLnk s k with arriving := some f }
  let pieces := plotPieces (f.payload.length + 1) (f.payload.drop placed)
  let s := forEach pieces.zipIdx s (fun s (b, i) => plotArrives s p (first && i == 0) b)
  match mapGet? s.openFrame p with
  | none =>
    let l := getLnk s k
    let s := putLnk { s with dropping := s.dropping.filter (fun q => q != p) } k { l with learnWait := none }
    (match l.learnWait with
      | some q => learnBus s q
      | none => s)
  | some id =>
    let fr := getFrame s id
    let s := putFrame { s with openFrame := mapDel s.openFrame p } id
      { fr with
        kind := if f.type = 2 then .pdu else .eth
        cls := f.cls
        committed := true
        ended := true
        announced := true
        commitAt := s.now
        learn := none
        srcDev := f.src }
    if fr.announced then
      let s := headWhole s id
      freeIfDone (match fr.learn with | some q => learnBus s q | none => s) id
    else
      let (ok, s) := announce s p (linkHead p id f fr)
      if ok then s else dropFrame s id

/-! ## Interrupt frames (R621) -/

/-- An INT frame of a device sets its bit of REMOTE_PEND, and issues the remote vector when the bit was 0. -/
def intFrame (s : State) (src : Nat) : State :=
  let a := pciePage + 0x4C + 4 * (src / 24)
  if bit s a (src % 24) then s
  else
    let s := setBit s a (src % 24)
    if bit s (pciePage + 0x40) 23 then { s with msix := (0, fld s (pciePage + 0x48) 4 0) :: s.msix } else s

/-! ## A RESTART of a link cell (R42, R702) -/

/-- The link begins again: frames in either direction end, the relay furrow is cleared, training starts anew. -/
def linkRestart (s : State) (k : Nat) : State :=
  let s := linkLose s k
  let s := clearHeads s (linkPage k)
  putLnk { s with dropping := s.dropping.filter (fun q => q != 124 + k) } k noLink

end Sys2Proof.Machine
end

