-- ==== Sys2Proof/Machine/Pages.lean ====
section
/-! DEFINITION. Running, stopping and restarting a page (02_register_interface.md, R39 to R44, R702; what each chapter adds to
a RESTART of its own pages). The waiting triggers of PAGE_CTRL are in Boundary.lean. -/
namespace Sys2Proof.Machine

/-- The output port that a cell page serves (R161). -/
def portOfPage (f : Fuses) (pg : Nat) : Option Nat :=
  match kindOf f pg with
  | 0x03 => some (instanceOf 0x03 pg)
  | 0x06 => some (64 + instanceOf 0x06 pg)
  | 0x09 => some (88 + instanceOf 0x09 pg)
  | 0x56 => some (124 + instanceOf 0x56 pg)
  | _ => none

/-- The output of a page follows its condition. -/
def refreshPage (s : State) (pg : Nat) : State :=
  match portOfPage s.fuses pg with
  | some o => refreshOutput s o
  | none => s

/-- What the end of running means for one cell: a CAN channel leaves the bus, a MAC's link condition lapses (R392), an Ebder
link is no longer trained, the entropy source gives no output (R483). -/
def stopCell (s : State) (pg : Nat) : State :=
  match kindOf s.fuses pg with
  | 0x03 => refreshPage (canLeave s (instanceOf 0x03 pg)) pg
  | 0x09 => refreshPage (linkDown s (88 + instanceOf 0x09 pg)) pg
  | 0x56 => refreshPage (linkLose s (instanceOf 0x56 pg)) pg
  | 0x47 => entropyStops s
  | _ => refreshPage s pg

/-- What the start of running means for one cell (R82, R330, R333, R378, R392, R483). -/
def startCell (s : State) (pg : Nat) : State :=
  match kindOf s.fuses pg with
  | 0x03 => canRun s (instanceOf 0x03 pg)
  | 0x06 => linRun s (instanceOf 0x06 pg)
  | 0x42 => refreshPage (maskSeed s (instanceOf 0x42 pg)) pg
  | 0x47 => setBit s (entPage + 0x40) 22
  | 0x2B => cfgStart s
  | 0x09 => macRun s (88 + instanceOf 0x09 pg)
  | _ => refreshPage s pg

/-- A page starts (R40, R43): each page that runs now and did not before begins. A FALLOW cell ignores RUN (R44). -/
def runPage (s : State) (pg : Nat) : State :=
  if isFallow s pg then s
  else
    let idle := (pagesUnder s.fuses pg).filter (fun p => !(running s p))
    let s := setBit s (pg + 0xC) 0
    noteHeld (forEach (idle.filter (running s)) s startCell)

/-- A page stops (R40, R43); cells of its block that stopped ahead of it are stopped by it from now on. -/
def stopPage (s : State) (pg : Nat) : State :=
  let busy := (pagesUnder s.fuses pg).filter (running s)
  let s := clrBit s (pg + 0xC) 0
  let s := forEach (busy.filter (fun p => !(running s p))) s stopCell
  noteHeld { s with drained := s.drained.filter (fun c => c != pg && !(cellOf pg == 0 && commonOf c == pg)) }

/-- The egress page's RESTART (R139, R702): every queued and held copy discarded and counted in EGRESS_DOWN, every output's
state judged afresh, no gate list under way. -/
def egrRestart (s : State) : State :=
  let s := forEach inputs s (fun s o => discardCopies s o (egrDown o) (fun _ => true))
  let s := { s with gateRun := [], stuckSince := [], deficit := [], rrInput := [], rrClass := [] }
  forEach inputs s (fun s o => refreshOutput { s with downSince := mapDel s.downSince o } o)

/-- The resequencers' RESTART: the streams begin anew, what they held is discarded. -/
def rsqRestart (s : State) : State :=
  let held := s.streams.flatMap (fun e => e.2.held.flatMap (fun h => h.2.copies)) ++ s.relWait.flatMap (fun it => it.copies)
  forEach held { s with streams := [], relWait := [] } (fun s c => freeIfDone s c.2.frame)

/-- A lane's RESTART: the items in its furrow are discarded; service work is given to a lane anew. A known-answer test goes on
(R460). -/
def laneRestart (s : State) (i : Nat) : State :=
  let lost := mapGet [] s.lanes i
  forEach lost { s with lanes := mapDel s.lanes i } (fun s it =>
    if it.kind = 3 then { s with laneQ := s.laneQ ++ [it] }
    else match it.frame with
    | some id => if it.kind = 2 then flightOver s it.port else freeIfDone s id
    | none => s)

/-- The clusters' RESTART: every cluster in BUS_SLEEP, no timer running. -/
def clustersRestart (s : State) : State :=
  refreshAll (forEach (busPorts s.fuses) { s with clusters := [] } refreshTrx)

/-- What chapters add to the restart clearing of their own pages (R42, R702). -/
def restartExtras (s : State) (pg : Nat) : State :=
  match kindOf s.fuses pg with
  | 0x03 => canRestart s (instanceOf 0x03 pg)
  | 0x06 => linRestart s (instanceOf 0x06 pg)
  | 0x09 => macRestart s (88 + instanceOf 0x09 pg)
  | 0x0F => wakeRestart s (domainOf pg)
  | 0x0D => { s with learnQ := mapDel s.learnQ (domainOf pg) }
  | 0x25 => egrRestart s
  | 0x26 => rsqRestart s
  | 0x27 => mbRestart s
  | 0x2D => clustersRestart s
  | 0x40 => secRestart s
  | 0x42 => laneRestart s (instanceOf 0x42 pg)
  | 0x43 => keyRestart s
  | 0x46 => cvRestart s pg
  | 0x47 =>
    let s := setFld s (entPage + 0x4C) 23 22 2
    if ownRunning s pg then setBit s (entPage + 0x40) 22 else s
  | 0x52 => clearHeads s pg
  | 0x56 => linkRestart s (instanceOf 0x56 pg)
  | 0x57 => pairRestart s
  | _ => s

/-- The rotations of a block's arbiter, and of a region's, begin at an open point again (R17, R18). -/
def rotationRestart (s : State) (pg : Nat) : State :=
  if cellOf pg = 0 then
    let s := { s with rrCell := mapDel s.rrCell (pg / 0x10000) }
    let s := if pg = 0xC10000 then { s with rrCell := mapDel s.rrCell 65536 } else s
    if blockOf pg = 0 then { s with rrBlock := mapDel s.rrBlock (domainOf pg) } else s
  else s

/-- The clearing of a RESTART (R42): furrows, state fields, a command that runs, and what the page's chapter adds. Fuses that are
being programmed are no volatile state, so a transition goes on (R488). -/
def clearPage (s : State) (pg : Nat) : State :=
  let s := settlePage s pg
  let s := { s with cmds := s.cmds.filter (fun c => pageOf c.1 != pg || pg == lcPage) }
  refreshPage (restartExtras (restartRegs (restartFurrow (rotationRestart s pg) pg) pg) pg) pg

/-- A page at its boundary stops, what stands between is done, and it is cleared and runs again if it ran (R40, R42, R570). -/
def restartWith (s : State) (pg : Nat) (ran : Bool) (f : State → State) : State :=
  let s := clearPage (f (stopPage s pg)) pg
  if ran then runPage s pg else s

/-- A RESTART of a page at its boundary (R40, R42). A FALLOW cell ignores it (R44). -/
def restartPage (s : State) (pg : Nat) : State := if isFallow s pg then s else restartWith s pg (ownRunning s pg) id

end Sys2Proof.Machine
end

