-- ==== Sys2Proof/Machine/Hooks.lean ====
section
/-! DEFINITION. What follows at once from a new value of a register, whoever wrote it: outputs, transceivers, back-pressure,
parked regions, pairing, monitors (R85, R132, R161, R429, R449, R453, R550, R620, R623). -/
namespace Sys2Proof.Machine

/-- The registers of a page took new values at an item boundary or by a write: outputs and transceivers follow. -/
def pageTaken (s : State) (pg : Nat) : State :=
  match kindOf s.fuses pg with
  | 0x03 => fwStart (refreshTrx (refreshPage s pg) (instanceOf 0x03 pg)) (instanceOf 0x03 pg)
  | 0x06 => refreshPage s pg
  | 0x09 => evalXoff (refreshPage s pg) (88 + instanceOf 0x09 pg)
  | 0x23 => evalAll s
  | 0x52 => s
  | 0x54 => forEach [cellOf pg - 1, cellOf pg + 7] s (fun s n => noteStuck (refreshOutput s (128 + n)) (128 + n))
  | _ => s

/-- The bus channels of a cluster, enabled or not. -/
def channelsOf (s : State) (c : Nat) : List Nat :=
  (busPorts s.fuses).filter (fun p => bit s (wkCh p) 23 && fld s (wkCh p) 22 18 == c)

/-- A register of the egress page took a new value: a new HOLD_MS of a HELD output may have passed already (R162); a GATE_CTRL
that goes to EN 1 opens every gate until the first cycle start, at the cycle and offset in force now, and one at EN 0 ends
the running list (R154). -/
def egrWritten (s : State) (slot : Nat) : State :=
  if 0x340 ≤ slot ∧ slot < 0x580 then holdOver s ((slot - 0x340) / 4)
  else if 0xE80 ≤ slot ∧ slot < 0xED0 then
    let i := (slot - 0xE80) / 4
    if !(bit s (gateCtrl i) 0) then { s with gateRun := mapDel s.gateRun i }
    else if (mapGet? s.gateRun i).isSome then s
    else { s with gateRun := mapSet s.gateRun i (gateIdle s i) }
  else s

/-- What follows from a new value at a register address; `old` is the word before. -/
def regWritten (s : State) (a old : Nat) : State :=
  let pg := pageOf a; let slot := slotOf a
  if rd s a = old then s
  else
    match kindOf s.fuses pg with
    | 0x0F =>
      if slot = 0x40 then (if bit s a 23 then s else unpark s (domainOf pg))
      else if 0x100 ≤ slot ∧ slot < 0x200 then
        let p := wakePort (domainOf pg) ((slot - 0x100) % 0x80 / 4)
        noteHeld (forEach (List.range 32) (refreshTrx (refreshOutput s p) p) comfailJudge)
      else s
    | 0x11 => if slot = 0x40 ∨ slot = 0x44 then { s with monLive := mapDel s.monLive pg, sampledAt := mapSet s.sampledAt pg s.now } else s
    | 0x25 => egrWritten s slot
    | 0x2B => if slot = 0x48 then windowRejudge s else s
    | 0x2D =>
      if 0x100 ≤ slot ∧ slot < 0x180 then
        noteHeld (comfailJudge (forEach (channelsOf s ((slot - 0x100) / 4)) s (fun s p => refreshTrx (refreshOutput s p) p))
          ((slot - 0x100) / 4))
      else s
    | 0x57 => if slot = 0x40 then refreshHealth (pairEnable s) else noteReclaim s
    | 0x58 =>
      if 0x100 ≤ slot ∧ slot < 0x200 ∧ bitsOf old 21 20 ≠ fld s a 21 20 then
        { s with linkSeq := s.linkSeq.filter (fun e => e.1 / 1024 != (slot - 0x100) / 4) }
      else s
    | _ => pageTaken s pg

end Sys2Proof.Machine
end

