-- ==== Sys2Proof/Machine/Image.lean ====
section
/-! DEFINITION. The Koldar image as data: header, directory, sections, cost list, register values, table runs, static bridge
entries, and the checks of a well-formed image (16_configuration_update.md, R556 to R560, R564, R582). -/
namespace Sys2Proof.Machine

/-! ## Banks and headers (R554, R556, R557) -/

/-- The bytes of a bank, its blocks in order. -/
def bankBytes (s : State) (b : Nat) : List Byte := (mapGet [] s.banks b).flatMap (·.2)
/-- Block 0 of a bank. -/
def bankHeader (s : State) (b : Nat) : List Byte := (mapGet? (mapGet [] s.banks b) 0).getD []

def imgVersion (h : List Byte) : Nat := beAt h 4 3
def imgMajor (h : List Byte) : Nat := byteAt h 4
def imgLength (h : List Byte) : Nat := beAt h 10 3
def imgKeySlot (h : List Byte) : Nat := beAt h 13 2
def imgSettings (h : List Byte) : Nat := beAt h 16 2
/-- TRIAL_MIN as it acts: 0 as 10, larger values as 1,440. -/
def imgTrialMin (h : List Byte) : Nat := if beAt h 18 2 = 0 then 10 else min 1440 (beAt h 18 2)
def imgSections (h : List Byte) : Nat := beAt h 20 2
def imgCostCount (h : List Byte) : Nat := beAt h 22 2
/-- Blocks of an image. -/
def imgBlocks (h : List Byte) : Nat := (imgLength h + 4095) / 4096
/-- Pages that the header declares, as A[23:12]. -/
def imgDeclared (h : List Byte) : List Nat := (List.range (imgCostCount h)).map (fun i => beAt h (552 + 2 * i) 2 % 4096)

/-- The bit of VARIANT_MASK that names this variant (R557). -/
def variantBit (f : Fuses) : Nat :=
  (if f.canCount = 64 then 0 else if f.canCount = 48 then 4 else 8) + (if f.xTier then 0 else 2) + (if f.sec then 0 else 1)

/-- A section: TYPE, OFFSET and SIZE of its directory entry. -/
structure Section where
  type : Nat
  offset : Nat
  size : Nat
  deriving DecidableEq, Repr

/-- The directory of a header. -/
def imgDirectory (h : List Byte) : List Section :=
  (List.range (imgSections h)).map (fun i =>
    { type := byteAt h (40 + 8 * i), offset := beAt h (42 + 8 * i) 3, size := beAt h (45 + 8 * i) 3 })

/-- No two sections of a list overlap. -/
def sectionsApart : List Section → Bool
  | [] => true
  | x :: xs =>
    xs.all (fun y => decide (x.offset + x.size ≤ y.offset) || decide (y.offset + y.size ≤ x.offset)) && sectionsApart xs

/-- The directory obeys R558, LENGTH and the counts their ranges. -/
def directoryGood (h : List Byte) : Bool :=
  decide (4096 ≤ imgLength h) && decide (imgLength h ≤ 12582912) && decide (imgCostCount h ≤ 512) &&
    decide (1 ≤ imgSections h) && decide (imgSections h ≤ 64) &&
    (imgDirectory h).all (fun x => decide (1 ≤ x.type) && decide (x.type ≤ 6) && decide (4096 ≤ x.offset) &&
      decide (x.offset + x.size ≤ imgLength h)) && sectionsApart (imgDirectory h)

/-- A tag over bytes with the key of a slot. -/
def tagOf (k : KeySlot) (bs : List Byte) : List Nat := aesCmac (slotKey k) (bs.map (·.toNat))

/-- HEADER_TAG is correct; in BLANK no tag is checked (R586). -/
def headerTagGood (s : State) (h : List Byte) : Bool :=
  lcState s == 0 || (match keyFor s (imgKeySlot h) 1 with
    | some k => tagOf k (h.take 4080) == (sliceBytes h 4080 16).map (·.toNat)
    | none => false)

/-- IMAGE_TAG is correct; in BLANK no tag is checked. -/
def imageTagGood (s : State) (bs : List Byte) : Bool :=
  lcState s == 0 || (match keyFor s (imgKeySlot bs) 1 with
    | some k => tagOf k (sliceBytes bs 4096 (imgLength bs - 4096)) == (sliceBytes bs 24 16).map (·.toNat)
    | none => false)

/-- The image may be loaded or turned into (R577). -/
def versionGood (s : State) (h : List Byte) : Bool :=
  decide (rd s (updPage + 0x54) ≤ imgVersion h) && decide (fld s (lcPage + 0x50) 5 0 ≤ imgMajor h)

/-- The check of a header or an image meets its key's word with bad parity (R498): the key is there and a tag is checked. -/
def tagKeyBad (s : State) (h : List Byte) : Bool := lcState s != 0 && (keyFor s (imgKeySlot h) 1).isSome

/-- The check of R560 that a header fails first, from the second entry of its list on. -/
def headerError (s : State) (h : List Byte) : Option Nat :=
  if beAt h 0 3 ≠ 0x4B4C44 then some 0x01
  else if byteAt h 3 ≠ 1 then some 0x02
  else if (keyFor s (imgKeySlot h) 1).isNone then some 0x07
  else if !(headerTagGood s h) then some 0x08
  else if beAt h 8 2 / 2 ^ variantBit s.fuses % 2 = 0 then some 0x03
  else if !(directoryGood h) then some 0x04
  else if imgVersion h ≤ rd s (updPage + 0x54) then some 0x05
  else if imgMajor h < fld s (lcPage + 0x50) 5 0 then some 0x06
  else none

/-! ## Sections (R558) -/

/-- The bytes of the sections of a type, in directory order. -/
def sectionsOf (bs : List Byte) (type : Nat) : List (List Byte) :=
  ((imgDirectory bs).filter (fun x => x.type == type)).map (fun x => sliceBytes bs x.offset x.size)

/-- Records of a fixed size, as offsets. -/
def recordsAt (sec : List Byte) (n : Nat) : List Nat := (List.range (sec.length / n)).map (· * n)

/-- Register records of an image: address and value. -/
def imgRegs (bs : List Byte) : List (Nat × Nat) :=
  (sectionsOf bs 1).flatMap (fun sec => (recordsAt sec 6).map (fun i => (beAt sec i 3, beAt sec (i + 3) 3)))

/-- The runs of a TABLE section: table-port page, table, first entry, and the words of each entry; none when a run is cut
short or names a table that the variant lacks. -/
def tableRuns (f : Fuses) : Nat → List Byte → Option (List (Nat × Nat × Nat × List (List Nat)))
  | 0, _ => none
  | n + 1, sec =>
    if sec.isEmpty then some []
    else
      let pg := beAt sec 0 2 * 0x1000; let t := byteAt sec 2; let start := beAt sec 3 3; let count := beAt sec 6 3
      match tableInfo f pg t with
      | none => none
      | some ti =>
        let size := 9 + count * ti.words * 3
        if sec.length < size ∨ kindOf f pg ≠ 0x1F ∨ pg % 0x1000 ≠ 0 then none
        else
          let entries := (List.range count).map (fun j => (List.range ti.words).map (fun w => beAt sec (9 + (j * ti.words + w) * 3) 3))
          match tableRuns f n (sec.drop size) with
          | some rs => some ((pg, t, start, entries) :: rs)
          | none => none

/-- Every table entry that the image gives: page, table, index, words. -/
def imgEntries (f : Fuses) (bs : List Byte) : List (Nat × Nat × Nat × List Nat) :=
  (sectionsOf bs 2).flatMap (fun sec =>
    ((tableRuns f (sec.length + 1) sec).getD []).flatMap (fun r => r.2.2.2.zipIdx.map (fun (ws, j) => (r.1, r.2.1, r.2.2.1 + j, ws))))

/-- The runs of a SIGNALS section: first slot and values; none when a run is cut short. -/
def signalRuns : Nat → List Byte → Option (List (Nat × List Nat))
  | 0, _ => none
  | n + 1, sec =>
    if sec.isEmpty then some []
    else
      let start := beAt sec 0 3; let count := beAt sec 3 3
      if sec.length < 6 + 3 * count then none
      else
        match signalRuns n (sec.drop (6 + 3 * count)) with
        | some rs => some ((start, (List.range count).map (fun j => beAt sec (6 + 3 * j) 3)) :: rs)
        | none => none

/-- Initial values of the signal store: slot and value. -/
def imgSignals (bs : List Byte) : List (Nat × Nat) :=
  (sectionsOf bs 3).flatMap (fun sec =>
    ((signalRuns (sec.length + 1) sec).getD []).flatMap (fun r => r.2.zipIdx.map (fun (v, j) => (r.1 + j, v))))

/-- Static bridge entries: region and words. -/
def imgBridge (bs : List Byte) : List (Nat × List Nat) :=
  (sectionsOf bs 5).flatMap (fun sec =>
    (recordsAt sec 13).map (fun i => (byteAt sec i, (List.range 4).map (fun w => beAt sec (i + 1 + 3 * w) 3))))

/-- Pages that run after image load at boot. -/
def imgRun (bs : List Byte) : List Nat :=
  (sectionsOf bs 6).flatMap (fun sec => (recordsAt sec 2).map (fun i => beAt sec i 2 * 0x1000))

/-- A migration entry (R582). -/
structure Migration where
  src : Nat
  dst : Nat
  back : Bool
  op : Nat
  signed : Bool
  frac : Nat
  a : Nat
  b : Nat
  deriving DecidableEq, Repr

/-- The migration entries of an image. -/
def imgMap (bs : List Byte) : List Migration :=
  (sectionsOf bs 4).flatMap (fun sec => (recordsAt sec 12).map (fun i =>
    { src := beAt sec i 2
      dst := beAt sec (i + 2) 2
      back := byteAt sec (i + 4) / 128 == 1
      op := byteAt sec (i + 4) / 16 % 8
      signed := byteAt sec (i + 4) / 8 % 2 == 1
      frac := byteAt sec (i + 5)
      a := beAt sec (i + 6) 3
      b := beAt sec (i + 9) 3 }))

/-! ## A well-formed image (R558, R564) -/

/-- An address names a virtual slot of an object (R79). -/
def isVirtual (f : Fuses) (a : Nat) : Bool :=
  kindOf f (pageOf a) == 0x03 && decide (0x800 ≤ slotOf a) && decide (slotOf a < 0xC80)

/-- A slot outside the covered ones that holds fields with reset "image" (R78, R558): CAN_MODE, the object window,
LIN_SCHED_SEL. -/
def imageOnly (kind slot : Nat) : Bool :=
  (kind == 0x03 && (slot == 0x44 || (decide (0x200 ≤ slot) && decide (slot ≤ 0x210)) ||
    (decide (0x21C ≤ slot) && decide (slot ≤ 0x270)))) || (kind == 0x06 && slot == 0x48)

/-- A slot that a REGISTERS section may name. -/
def imageSlot (f : Fuses) (a : Nat) : Bool :=
  let k := kindOf f (pageOf a)
  a % 4 == 0 && k != 0 && (isVirtual f a || imageOnly k (slotOf a) || (!(uncovered k (slotOf a)) && coveredMask f a != 0))

/-- Numbers rise strictly. -/
def rising : List Nat → Bool
  | a :: b :: xs => decide (a < b) && rising (b :: xs)
  | _ => true

/-- A table that a TABLE run may name: with a shadow, or the gate control lists. -/
def imageTable (ti : TableInfo) (pg : Nat) : Bool := ti.shadow || pg == gateTable

/-- Every section is well formed and names what the variant has. -/
def imageGood (f : Fuses) (bs : List Byte) : Bool :=
  (sectionsOf bs 1).all (fun sec => sec.length % 6 == 0 &&
    rising ((recordsAt sec 6).map (fun i => beAt sec i 3)) &&
    (recordsAt sec 6).all (fun i => imageSlot f (beAt sec i 3))) &&
  (sectionsOf bs 2).all (fun sec => match tableRuns f (sec.length + 1) sec with
    | some rs => rs.all (fun r => match tableInfo f r.1 r.2.1 with
      | some ti => imageTable ti r.1 && decide (r.2.2.1 + r.2.2.2.length ≤ ti.entries) &&
        !((List.range r.2.2.2.length).any (fun j => indexAbsent f r.1 r.2.1 (r.2.2.1 + j)))
      | none => false)
    | none => false) &&
  (sectionsOf bs 3).all (fun sec => match signalRuns (sec.length + 1) sec with
    | some rs => rs.all (fun r => decide (r.1 + r.2.length ≤ 262144))
    | none => false) &&
  (sectionsOf bs 4).all (fun sec => sec.length % 12 == 0) &&
  (sectionsOf bs 5).all (fun sec => sec.length % 13 == 0 && (recordsAt sec 13).all (fun i => decide (byteAt sec i < 4))) &&
  (sectionsOf bs 6).all (fun sec => sec.length % 2 == 0 &&
    (recordsAt sec 2).all (fun i => decide (beAt sec i 2 < 4096) && kindOf f (beAt sec i 2 * 0x1000) != 0))

/-! ## Image values, cost and reference (R80, R564, R569) -/

/-- The mask of a covered slot, virtual or not. -/
def slotMask (f : Fuses) (a : Nat) : Nat := if isVirtual f a then virtualMask ((slotOf a - 0x800) / 4 % 3) else coveredMask f a

/-- The reset word of a covered slot. -/
def slotReset (f : Fuses) (a : Nat) : Nat := if isVirtual f a then 0 else resetWord f a

/-- The image's value of a covered slot, masked: its record, or the reset value where the image has none. -/
def imageValue (f : Fuses) (regs : List (Nat × Nat)) (a : Nat) : Nat :=
  match regs.find? (fun r => r.1 == a) with
  | some r => r.2 &&& slotMask f a
  | none => slotReset f a &&& slotMask f a

/-- The WL bits of a slot that stand at 1: only a reset clears a lock (R569). -/
def lockBits (s : State) (a : Nat) : Nat :=
  if isVirtual s.fuses a then 0
  else (fieldsAt s.fuses a).foldl (fun m g => if g.acc = .wl then m ||| (rd s a &&& (2 ^ (g.hi + 1) - 2 ^ g.lo)) else m) 0

/-- The Q-class bits of a covered slot; of an object's virtual slots OBJ_CFG is Q-class (R340). -/
def qBits (f : Fuses) (a : Nat) : Nat :=
  if isVirtual f a then (if (slotOf a - 0x800) / 4 % 3 = 0 then virtualMask 0 else 0)
  else (fieldsAt f a).foldl (fun m g => if g.acc = .rw ∧ g.eff = .q then m ||| (2 ^ (g.hi + 1) - 2 ^ g.lo) else m) 0

/-- The actual turn cost: pages that hold a Q-class field whose image value differs from its current value (R564). -/
def actualCost (s : State) (regs : List (Nat × Nat)) : List Nat :=
  allPages.filter (fun pg => (coveredOf s pg).any (fun (a, v) =>
    (imageValue s.fuses regs a &&& qBits s.fuses a) != (v &&& qBits s.fuses a)))

/-- The image's configuration reference (R80, R564), with the locks that stand (R569). -/
def imageCrc (s : State) (regs : List (Nat × Nat)) : Nat :=
  crcOut crc32p4 (allPages.foldl (fun crc pg =>
    (coveredOf s pg).foldl (fun crc (a, _) =>
      crcFeed crc32p4 crc (coveredBytes (a, imageValue s.fuses regs a ||| lockBits s a))) crc) crc32p4.init)

end Sys2Proof.Machine
end

