-- ==== Sys2Proof/Machine/Update.lean ====
section
/-! DEFINITION. Receiving, verifying and activating an image, trial and fall-back, the fuse epoch, persistent settings and the
image load at boot (16_configuration_update.md, R559 to R586, R588). -/
namespace Sys2Proof.Machine

def updStat : Nat := updPage + 0x40
def updBank (b : Nat) : Nat := updPage + 0x44 + 4 * b
def updVer (b : Nat) : Nat := updPage + 0x4C + 4 * b
/-- UPD_BANK.STATE: 0 EMPTY, 1 STAGING, 2 COMPLETE, 3 VERIFIED, 4 RUNNING, 5 TRIAL, 6 FALLBACK, 7 REJECTED. -/
def bankState (s : State) (b : Nat) : Nat := fld s (updBank b) 23 21
def setBank (s : State) (b st : Nat) : State := setFld s (updBank b) 23 21 st
/-- UPD_STAT.RUN_BANK, TRIAL. -/
def runBank (s : State) : Nat := fld s updStat 23 23
def inTrial (s : State) : Bool := bit s updStat 22
/-- The inactive bank (R559): none while TRIAL holds the other one. -/
def inactiveBank (s : State) : Option Nat := if inTrial s then none else some (1 - runBank s)

/-- The command registers of the update page: updates, settings. -/
def updCmd : Nat := updPage + 0x5C
def setCmd : Nat := updPage + 0x84
/-- UPD_STAT.BUSY: a command or a turn runs (R588). -/
def updBusy (s : State) : Bool := inTurn s || cmdBusy s updCmd

/-- A command or block is refused with a code (R563). -/
def updRefuse (s : State) (code : Nat) : State := setBit (setFld s updStat 16 11 code) updStat 17
/-- A command or block is accepted. -/
def updAccept (s : State) : State := clrBit (setFld s updStat 16 11 0) updStat 17

/-! ## Blocks (R559 to R563) -/

/-- UPD_RX and the bank's state follow the blocks received. -/
def noteBlocks (s : State) (b : Nat) : State :=
  let need := imgBlocks (bankHeader s b); let have' := (mapGet [] s.banks b).length
  let s := setFld (setFld s (updPage + 0x58) 23 12 need) (updPage + 0x58) 11 0 have'
  if need ≤ have' then setBank s b 2 else s

/-- A fall-back of the TRIAL bank is in its turn (R575). -/
def fallingBack (s : State) : Bool :=
  match s.turn with
  | some t => t.back.isSome
  | none => false

/-- The trial's end: no timer, no activations counted, one settings slot. -/
def trialOver (s : State) : State :=
  { wr (clrBit s updStat 22) (updPage + 0x64) 0 with settingsOld := [] }

/-- The bookkeeping of a fall-back from the TRIAL bank `b` (R575): banks, the trial's settings slot, record. -/
def fallBackMarks (s : State) (b cause : Nat) : State :=
  let s := setBank s b 7
  let s := if bankState s (1 - b) = 6 then setBank s (1 - b) 4 else s
  raisePlain (setFld (trialOver s) updStat 23 23 (1 - b)) updPage 0x34 cause

/-- After a fall-back, once its turn is over, its bookkeeping follows (R575). -/
def turnEnd (s : State) : State :=
  match s.turn with
  | some t =>
    match t.back with
    | some cause =>
      if t.until_ ≤ s.now then fallBackMarks { s with turn := some { t with back := none } } (1 - runBank s) cause else s
    | none => s
  | none => s

/-- A header is refused (R560): nothing changes but the code and the record. -/
def headerRefused (s : State) (code : Nat) : State := raisePlain (updRefuse s code) updPage 0x30 code

/-- A body block is refused (R561). -/
def blockRefused (s : State) (offset code : Nat) : State :=
  raisePlain (incSat (wr (updRefuse s code) (updPage + 0x6C) offset) (updPage + 0x70)) updPage 0x31 code

/-- A header block of data `h` (R560): true when accepted. `bad` says what is wrong with the block beside its content: 1 it is
poisoned, which is judged before its content, 2 its seedbed read-back fails (R555), 3 the key word that its tag needs has bad
parity (R498). -/
def headerBlock (s : State) (h : List Byte) (bad : Nat) : Bool × State :=
  if lcState s = 4 then (false, headerRefused s 0x1B)
  else
    match inactiveBank s with
    | none => (false, headerRefused s 0x09)
    | some b =>
      if bad = 1 then (false, headerRefused s 0x0C)
      else if h.length ≠ 4096 then (false, headerRefused s 0x0B)
      else if bad = 3 ∧ beAt h 0 3 = 0x4B4C44 ∧ byteAt h 3 = 1 ∧ tagKeyBad s h then
        (false, headerRefused (keyParity s (imgKeySlot h)) 0x07)
      else
        match headerError s h with
        | some code => (false, headerRefused s code)
        | none =>
          if bad = 2 then (false, headerRefused (seedFault s 0) 0x0C)
          else
          let s := setBank (updAccept { s with banks := mapSet s.banks b [(0, h)] }) b 1
          (true, noteBlocks (wr s (updVer b) (imgVersion h)) b)

/-- A body block (R561): true when accepted. `bad` is 1 for a poisoned block, 2 for a failed seedbed read-back (R555). -/
def bodyBlock (s : State) (offset : Nat) (data : List Byte) (bad : Nat) : Bool × State :=
  if lcState s = 4 then (false, blockRefused s offset 0x1B)
  else
    match inactiveBank s with
    | none => (false, blockRefused s offset 0x09)
    | some b =>
      if bankState s b ≠ 1 ∧ bankState s b ≠ 2 then (false, blockRefused s offset 0x0A)
      else
        let len := imgLength (bankHeader s b)
        if offset % 4096 ≠ 0 ∨ len ≤ offset ∨ data.length ≠ min 4096 (len - offset) then (false, blockRefused s offset 0x0B)
        else if bad = 1 then (false, blockRefused s offset 0x0C)
        else if bad = 2 then (false, blockRefused (seedFault s 0) offset 0x0C)
        else
          let blocks := mapSet (mapGet [] s.banks b) (offset / 4096) data
          (true, noteBlocks (updAccept { s with banks := mapSet s.banks b blocks }) b)

/-- A block of an offset (R559): a header at offset 0, else a body block. -/
def blockAt (s : State) (offset : Nat) (data : List Byte) (bad : Nat) : Bool × State :=
  let s := turnEnd s
  if offset = 0 then headerBlock s data bad else bodyBlock s offset data bad

/-- An update block, the 3-byte offset and its data (R559). -/
def updateBlock (s : State) (block : List Byte) (bad : Nat) : Bool × State := blockAt s (beAt block 0 3) (block.drop 3) bad

/-! ## VERIFY (R564, R565) -/

/-- The turn cost table: the union of the declared and actual pages in ascending order. -/
def costEntries (declared actual : List Nat) : List (Nat × Nat × Nat) :=
  ((List.range 4096).filter (fun p => declared.contains p || actual.contains p)).take 1024 |>.map
    (fun p => (p, b2n (declared.contains p), b2n (actual.contains p)))

/-- The cost table written, with UPD_COST and COST_OVER. -/
def noteCost (s : State) (declared actual : List Nat) : State :=
  let s := { s with tables := s.tables.filter (fun e => !(tKeyPage e.1 == costTable)) }
  let s := forEach (costEntries declared actual).zipIdx s (fun s (e, i) =>
    tPut s costTable 0 0 i
      { words := [BitVec.ofNat 24 (2 ^ 23 + e.2.1 * 2 ^ 22 + e.2.2 * 2 ^ 21 + e.1)], valid := true })
  let s := setFld (setFld s (updPage + 0x68) 23 12 declared.length) (updPage + 0x68) 11 0 actual.length
  putBit s updStat 19 (actual.any (fun p => !(declared.contains p)))

/-- The pages of the actual cost that VERIFY found. -/
def verifiedCost (s : State) : List Nat :=
  (s.tables.filter (fun e => tKeyPage e.1 == costTable && twb e.2 0 21)).map (fun e => twf e.2 0 11 0 * 0x1000)

/-- The pages that the turn of ACTIVATE stops (R570): the cost that VERIFY found; where a reset has emptied the cost table, and the
bank is still VERIFIED, the cost as it is now (notes/assumptions/145.md). -/
def turnCost (s : State) (bs : List Byte) : List Nat :=
  if s.tables.any (fun e => tKeyPage e.1 == costTable) then verifiedCost s else actualCost s (imgRegs bs)

/-- VERIFY of a bank fails (R564). -/
def verifyFails (s : State) (code : Nat) : State := raisePlain (updRefuse s code) updPage 0x32 code

/-- UPD_CMD.VERIFY (R564): `keyBad` when the key word of its tag has bad parity (R498). -/
def updVerify (s : State) (keyBad : Bool) : State :=
  match inactiveBank s with
  | none => updRefuse s 0x09
  | some b =>
    if bankState s b ≠ 2 ∧ bankState s b ≠ 3 then verifyFails s 0x10
    else
      let bs := bankBytes s b
      if keyBad && tagKeyBad s bs then verifyFails (keyParity s (imgKeySlot bs)) 0x11
      else if !(imageTagGood s bs) then verifyFails s 0x11
      else if !(imageGood s.fuses bs) then verifyFails s 0x12
      else
        cmdStart (noteCost (setBank (updAccept s) b 3) (imgDeclared bs) ((actualCost s (imgRegs bs)).map (· / 0x1000))) updCmd 1 []

/-! ## Writing an image (R569, R585) -/

/-- One covered slot of a page at its image value, masked (R569): WL bits that stand stay, B-class fields wait for their
boundaries. -/
def slotWrite (s : State) (a v : Nat) : State :=
  if isVirtual s.fuses a then
    let j := (slotOf a - 0x800) / 4
    let o := objAddr (instanceOf 0x03 (pageOf a)) (j / 3) (if j % 3 = 0 then 0 else j % 3 + 2)
    let m := virtualMask (j % 3)
    let pg := pageOf a
    let s := if j % 3 ≠ 0 ∧ inItem s pg ∧ !(s.bOld.any (fun b => b.cell == pg && b.addr == o)) then
        { s with bOld := { cell := pg, addr := o, old := BitVec.ofNat 24 (rd s o) } :: s.bOld }
      else s
    wr s o ((rd s o &&& (0xFFFFFF - m)) ||| v)
  else
    let old := rd s a
    let m := coveredMask s.fuses a
    let new := (old &&& (0xFFFFFF - m)) ||| v ||| lockBits s a
    let b := (fieldsAt s.fuses a).any (fun g => g.acc == .rw && g.eff == .b && bitsOf old g.hi g.lo != bitsOf new g.hi g.lo)
    regWritten (wr (if b then pendB s a else s) a new) a old

/-- The covered slots of a page that differ from the image. -/
def pageWrite (s : State) (regs : List (Nat × Nat)) (pg : Nat) : State :=
  forEach (coveredOf s pg) s (fun s (a, v) =>
    let w := imageValue s.fuses regs a
    if w = v then s else slotWrite s a w)

/-- A table is written by an image: it has a shadow, or holds the gate control lists. -/
def inImage (f : Fuses) (pg t : Nat) : Bool :=
  match tableInfo f pg t with
  | some ti => imageTable ti pg
  | none => false

/-- One entry of a table becomes the image's, or invalid (R558), with what follows from a change of its live copy (R571). -/
def entryWrite (s : State) (pg t i : Nat) (e : TEntry) (boot : Bool) : State :=
  let old := tGet s pg t 0 i
  let s := tPutBoth s pg t i e
  if old = e then s
  else
    let s := liveWritten s pg t i old (!boot)
    if pg = secTable ∧ e.valid ∧ boot then secWritten s t 0 i else s

/-- The live entries of a security table in one state that differ in another. -/
def secChanged (was s : State) (t : Nat) : List Nat :=
  ((was.tables ++ s.tables).filterMap (fun e =>
    let i := tKeyIndex e.1
    if tKeyPage e.1 == secTable && tKeyTable e.1 == t && tGet was secTable t 0 i != tGet s secTable t 0 i then some i else none)).eraseDups

/-- A turn sets the start mark on every stream whose SecOC profile or SecY entry has changed (R571, R464), as the entries, routes
and layouts named it before the turn and as they name it after. -/
def turnMarks (s was : State) : State :=
  let s := forEach (secChanged was s 0) s (fun s i =>
    forEach (profileStreams was i ++ profileStreams s i) s (fun s k => markStart s k))
  forEach (secChanged was s 2) s (fun s i =>
    forEach (secyStreams (tGet was secTable 2 0 i) ++ secyStreams (tGet s secTable 2 0 i)) s (fun s k => markStart s k))

/-- Every shadow copy is rewritten from its live copy (R570). -/
def shadowsFromLive (s : State) : State :=
  let keys := (s.tables.map (fun e => (tKeyPage e.1, tKeyTable e.1, tKeyIndex e.1))).eraseDups
  forEach (keys.filter (fun k => match tableInfo s.fuses k.1 k.2.1 with
    | some ti => ti.shadow
    | none => false)) { s with tpend := [] } (fun s k => tPut s k.1 k.2.1 1 k.2.2 (tGet s k.1 k.2.1 0 k.2.2))

/-- Every table of the image (R567 steps 2, 3 and 7, R585): entries that no run covers are invalid; nothing stays pending
or quarantined. -/
def tablesWrite (s : State) (es : List (Nat × Nat × Nat × List Nat)) (boot : Bool) : State :=
  let gone := s.tables.filter (fun k => inImage s.fuses (tKeyPage k.1) (tKeyTable k.1) &&
    !(es.any (fun e => e.1 == tKeyPage k.1 && e.2.1 == tKeyTable k.1 && e.2.2.1 == tKeyIndex k.1)))
  let s := forEach gone s (fun s k => entryWrite s (tKeyPage k.1) (tKeyTable k.1) (tKeyIndex k.1) emptyEntry boot)
  let s := forEach es s (fun s e => entryWrite s e.1 e.2.1 e.2.2.1 { words := toWords e.2.2.2, valid := true } boot)
  { s with tpend := [], tquar := [] }

/-- One static bridge entry of an image (R569). -/
def staticWrite (s : State) (r : Nat) (ws : List Nat) : State :=
  let cs := ((List.range 4).map (candidate true ws)).filter (fun i => !(rowRemoved s (lkpTable r) i))
  let pick :=
    match cs.find? (fun i => (bridgeAt s r i).valid && keyMatches true (bridgeAt s r i) ws) with
    | some i => some i
    | none =>
      match cs.find? (fun i => !((bridgeAt s r i).valid)) with
      | some i => some i
      | none => cs.find? (fun i => !(beStatic (bridgeAt s r i)))
  match pick with
  | some i => putBridge (removeBridge s r i) r i { words := toWords ws, valid := true }
  | none => raisePlain s updPage 0x37 r

/-- The static bridge entries of an image in every region, and no other static entry left (R569, R585). -/
def staticsWrite (s : State) (es : List (Nat × List Nat)) : State :=
  let es := es.map (fun e => (e.1, e.2.set 3 (setBits (e.2.getD 3 0) 23 23 1)))
  let s := forEach es s (fun s e => staticWrite s e.1 e.2)
  forEach (List.range 4) s (fun s r =>
    let stale := (s.tables.filter (fun k => tKeyPage k.1 == lkpTable r && tKeyTable k.1 == 1 && k.2.valid && beStatic k.2 &&
      !(es.any (fun e => e.1 == r && keyMatches true k.2 e.2)))).map (fun k => tKeyIndex k.1)
    forEach stale s (fun s i => removeBridge s r i))

/-! ## Settings (R580 to R584) -/

/-- A record's words converted by a migration entry (R582); none when the record is dropped. -/
def migrate (m : Migration) (ws : List Word) : Option (List Word) :=
  match m.op with
  | 1 => none
  | 2 => some [BitVec.ofNat 24 m.b]
  | 3 => some (ws.map (fun w => BitVec.ofInt 24 (scaleOf m.signed m.frac m.a m.b w.toNat)))
  | _ => some ws

/-- A record of one slot converted for the other (R582): the records that it becomes. -/
def convert (ms : List Migration) (same back : Bool) (id : Nat) (ws : List Word) : List (Nat × List Word) :=
  let mine := ms.filter (fun m => m.back == back && m.src == id)
  if same || mine.isEmpty then [(id, ws)]
  else mine.filterMap (fun m => (migrate m ws).map (fun v => (m.dst, v)))

/-- A slot built from another (R583). -/
def convertAll (ms : List Migration) (same back : Bool) (slot : NMap (List Word)) : NMap (List Word) :=
  slot.foldl (fun acc r => (convert ms same back r.1 r.2).foldl (fun acc x => mapSet acc x.1 x.2) acc) []

/-- Two images carry the same SETTINGS_FORMAT. -/
def sameFormat (s : State) (a b : Nat) : Bool := imgSettings (bankHeader s a) == imgSettings (bankHeader s b)

/-- During TRIAL a write or deletion goes to the other slot as well, converted (R584); once a fall-back has made the old slot the
running one, the trial slot is about to be released and takes none. -/
def mirrorSetting (s : State) (id : Nat) (ws : Option (List Word)) : State :=
  if inTrial s && !(fallingBack s) then
    let ms := imgMap (bankBytes s (runBank s)); let same := sameFormat s 0 1
    match ws with
    | some v =>
      { s with settingsOld := (convert ms same true id v).foldl (fun m x => mapSet m x.1 x.2) s.settingsOld }
    | none =>
      let gone := (convert ms same true id [0]).map (·.1)
      { s with settingsOld := gone.foldl (fun m i => mapDel m i) s.settingsOld }
  else s

/-! ## The turn (R566 to R571, R573, R575) -/

/-- A page of the actual cost is written and restarted (R570). -/
def turnPage (s : State) (pg : Nat) : State :=
  match s.turn with
  | none => s
  | some t =>
    if !(t.pages.contains pg) then s
    else
      let write := fun (s : State) => pageWrite s (imgRegs (bankBytes s (runBank s))) pg
      let s := if isFallow s pg then write s else restartWith s pg (t.ran.contains pg) write
      { s with turn := some { t with pages := t.pages.filter (fun p => p != pg) } }

/-- The harrows resume at entry 0 of every table with a shadow (R253, R567 step 7). -/
def harrowsResume (s : State) : State :=
  let pos := s.harrowPos.map (fun e =>
    let (pg, tb) := harrowTable e.1 (e.2 / 2 ^ 20)
    match tableInfo s.fuses pg tb with
    | some ti => if ti.shadow then (e.1, e.2 / 2 ^ 20 * 2 ^ 20) else e
    | none => e)
  { s with harrowPos := pos }

/-- The swap and the writes of a turn into a bank (R567 steps 3 to 6), all at the moment of the swap: the reference is committed
and the window closed whether or not a page of the cost still waits for its item boundary, which step 6 does not await
(notes/assumptions/145.md). A page that an earlier turn left waiting waits on. How long step 7 takes within its 35 ms a free value
says. `back` is the cause of a fall-back. -/
def turnSwap (s : State) (b bits : Nat) (cost : List Nat) (back : Option Nat) : State :=
  let bs := bankBytes s b; let regs := imgRegs bs
  let s := cfgOpen (setFld s updStat 23 23 b)
  let was := s
  let s := turnMarks (tablesWrite s (imgEntries s.fuses bs) false) was
  let ref := imageCrc s regs
  let (r, s) := drawNat s
  let late := match s.turn with
    | some t => t.pages.filter (fun pg => !(cost.contains pg))
    | none => []
  let ranLate := match s.turn with
    | some t => late.filter (fun pg => t.ran.contains pg)
    | none => []
  let t : Turn :=
    { bits := bits, pages := cost ++ late
      ran := cost.filter (ownRunning s) ++ ranLate
      until_ := s.now + r % (msTicks 35 + 1), back := back }
  let s := { s with turn := some t }
  let s := forEach (allPages.filter (fun pg => !(cost.contains pg))) s (fun s pg => pageWrite s regs pg)
  let s := staticsWrite s (imgBridge bs)
  let s := forEach cost s (fun s pg =>
    let q := mapGet [] s.trigQ pg
    if q.contains .turn then s
    else if running s pg then { s with trigQ := mapSet s.trigQ pg (q ++ [.turn]) } else turnPage s pg)
  refreshAll (cfgAdopt (harrowsResume s) ref)

/-- A seedbed fault at step 2 aborts a turn into a bank before the swap (R570): `detail` is 1 when the settings cannot be read. -/
def turnAbort (s : State) (b detail : Nat) : State :=
  raisePlain (updRefuse (setBank (shadowsFromLive (seedFault s detail)) b 7) 0x19) updPage 0x33 b

/-- UPD_CMD.ACTIVATE (R566): `fault` is 1 or 2 for a seedbed fault of a setting or of the image at step 2, 7 for one at step 7 of
the turn (R555, R570), where the shadow entries are rewritten from the live copies. -/
def updActivate (s : State) (force : Bool) (fault : Nat) : State :=
  match inactiveBank s with
  | none => updRefuse s 0x13
  | some b =>
    let h := bankHeader s b
    if bankState s b ≠ 3 ∨ !(versionGood s h) then updRefuse s 0x13
    else if bit s updStat 19 ∧ !force then updRefuse s 0x14
    else if fault = 1 ∨ fault = 2 then turnAbort s b (2 - fault)
    else
      let old := runBank s
      let s := updAccept s
      let slot := convertAll (imgMap (bankBytes s b)) (sameFormat s 0 1) false s.settings
      let s := { s with settingsOld := s.settings, settings := slot }
      let s := setBank (if bankState s old = 4 then setBank s old 6 else s) b 5
      let s := { s with power := { s.power with trialMinutes := minutesPassed s } }
      let s := setFld (setFld (setBit s updStat 22) (updPage + 0x64) 23 13 (imgTrialMin h)) (updPage + 0x64) 1 0 1
      let s := if fault = 7 then seedFault s 0 else s
      turnSwap (clrBit s updStat 21) b (2 + b2n force * 64) (turnCost s (bankBytes s b)) none

/-- UPD_CMD.CONFIRM (R574). -/
def updConfirm (s : State) : State :=
  if !(inTrial s) then updRefuse s 0x15
  else
    let b := runBank s
    let s := wr (updAccept s) (updPage + 0x54) (max (rd s (updPage + 0x54)) (imgVersion (bankHeader s b)))
    let s := trialOver (setBank (setBank s b 4) (1 - b) 0)
    cmdStart (wr { s with banks := mapDel s.banks (1 - b) } (updVer (1 - b)) 0) updCmd 4 []

/-- A fall-back that the TRIAL bank `b` runs into (R575): a turn into the FALLBACK bank, whose settings slot becomes the running
one at the swap; the marks of R575 follow when it is over. `fault` is as at ACTIVATE; no slot is built. Without a FALLBACK bank
that may be turned into only the marks change. -/
def fallBack (s : State) (cause fault : Nat) : State :=
  let b := runBank s; let old := 1 - b
  let swapped : State := { s with settings := s.settingsOld, settingsOld := s.settings }
  if !(bankState s old == 6 && versionGood s (bankHeader s old)) then fallBackMarks swapped b cause
  else if fault = 2 then turnAbort s old 0
  else
    turnSwap (if fault = 7 then seedFault swapped 0 else swapped) old (if cause = 1 then 8 else 0)
      (actualCost s (imgRegs (bankBytes s old))) (some cause)

/-- UPD_CMD.REJECT (R575). -/
def updReject (s : State) (fault : Nat) : State := if inTrial s then fallBack (updAccept s) 1 fault else updRefuse s 0x15

/-- The trial timer is at 0 (R575); a fall-back under way goes on. -/
def trialExpiry (s : State) (fault : Nat) : State :=
  let s := turnEnd s
  if inTrial s && fld s (updPage + 0x64) 23 13 == 0 && !(inTurn s) then fallBack s 2 fault else s

/-- A minute of operating time during TRIAL (R573): the timer counts every minute that HUB_OPER_MIN counts. -/
def trialMinute (s : State) : State :=
  let s := turnEnd s
  if inTrial s && decide (s.power.trialMinutes < minutesPassed s) then
    setFld { s with power := { s.power with trialMinutes := s.power.trialMinutes + 1 } } (updPage + 0x64) 23 13
      (fld s (updPage + 0x64) 23 13 - 1)
  else s

/-- UPD_CMD.ABANDON (R562). -/
def updAbandon (s : State) : State :=
  match inactiveBank s with
  | none => updRefuse s 0x09
  | some b =>
    let s := setBank (updAccept { s with banks := mapDel s.banks b }) b 0
    cmdStart (wr (wr s (updPage + 0x58) 0) (updVer b) 0) updCmd 16 []

/-- UPD_CMD.EPOCH (R579): `code` and the moment are those of UPD_ARM before the command. -/
def updEpoch (s : State) (code armedAt : Nat) : State :=
  let steps := fld s (lcPage + 0x50) 5 0
  let low (b : Nat) : Bool := decide (imgMajor (bankHeader s b) < steps + 1)
  let spare : Bool := match inactiveBank s with
    | some b => bankState s b == 3 && low b
    | none => false
  if code ≠ 0xE9C ∨ s.now > armedAt + msTicks 10 ∨ steps = 32 ∨ inTrial s ∨ low (runBank s) ∨ spare then updRefuse s 0x18
  else
    cmdStart (setFld { updAccept s with fuseEpoch := max s.fuseEpoch (steps + 1) } (lcPage + 0x50) 5 0 (steps + 1)) updCmd 32 []

/-- The update commands, in the order of their bits. -/
inductive UpdCmd where
  | verify | activate | confirm | reject | abandon | epoch
  deriving DecidableEq, Repr

/-- UPD_ARM.CODE is cleared at every command (R588). -/
def disarm (s : State) : State := setFld s (updPage + 0x60) 23 12 0

/-- The action of an update command that nothing refuses beforehand: `fault` is a seedbed fault of a turn, or 3 for a key word
with bad parity at VERIFY. -/
def updAct (s : State) (c : UpdCmd) (force : Bool) (fault : Nat) : State :=
  let code := fld s (updPage + 0x60) 23 12
  let s := disarm s
  match c with
  | .verify => updVerify s (fault == 3)
  | .activate => updActivate s force fault
  | .confirm => updConfirm s
  | .reject => updReject s fault
  | .abandon => updAbandon s
  | .epoch => updEpoch s code s.updArmedAt

/-- An update command of a requester (R563, R588): PF1 is refused and counts as a lock violation; then SCRAPPED, then a turn
under way. -/
def updCommand (s : State) (req : Nat) (c : UpdCmd) (force : Bool) (fault : Nat) : State :=
  let s := turnEnd s
  if reqPf req = 1 then lockViolation (updRefuse s 0x16) req (updPage + 0x5C)
  else if lcState s = 4 then updRefuse (disarm s) 0x1B
  else if updBusy s then updRefuse (disarm s) 0x17
  else updAct s c force fault

/-- A write of UPD_CMD (R563): more than one command bit is refused; FORCE is no command and acts beside ACTIVATE alone. -/
def updWrite (s : State) (req v : Nat) : State :=
  let force := v / 64 % 2 == 1
  match v % 64 with
  | 0 => if force && reqPf req == 1 then lockViolation s req (updPage + 0x5C) else s
  | 1 => updCommand s req .verify false 0
  | 2 => updCommand s req .activate force 0
  | 4 => updCommand s req .confirm false 0
  | 8 => updCommand s req .reject false 0
  | 16 => updCommand s req .abandon false 0
  | 32 => updCommand s req .epoch false 0
  | _ =>
    if reqPf req = 1 then lockViolation (updRefuse s 0x16) req (updPage + 0x5C)
    else updRefuse (disarm s) (if lcState s = 4 then 0x1B else if updBusy s then 0x17 else 0x1A)

/-- A write of UPD_ARM (R579, R588). -/
def updArm (s : State) (req v : Nat) : State :=
  if reqPf req = 1 then lockViolation s req (updPage + 0x60)
  else { softWord s req (updPage + 0x60) v with updArmedAt := s.now }

/-! ## The settings port (R581) -/

/-- The settings commands, in the order of their bits. -/
inductive SetCmd where
  | read | write | delete
  deriving DecidableEq, Repr

def setId (s : State) : Nat := fld s (updPage + 0x80) 23 8
/-- LEN as it acts: 1 to 8. -/
def setLen (s : State) : Nat := clamp 1 8 (fld s (updPage + 0x80) 3 0)
/-- A settings command is refused with a code. -/
def setRefuse (s : State) (code : Nat) : State := setBit (setFld s (updPage + 0x88) 23 20 code) (updPage + 0x88) 2
/-- A settings command is accepted. -/
def setAccept (s : State) : State := clrBit (setFld s (updPage + 0x88) 23 20 0) (updPage + 0x88) 2

/-- The record of an ID in the running slot (R580): software's, or a profile's freshness value as three words, the low word
first. -/
def setRecord (s : State) (id : Nat) : Option (List Word) :=
  if 0xFC00 ≤ id then
    (mapGet? s.fvSaved (id - 0xFC00)).map (fun v => [BitVec.ofNat 24 v, BitVec.ofNat 24 (v / 2 ^ 24), BitVec.ofNat 24 (v / 2 ^ 48)])
  else mapGet? s.settings id

/-- What a READ of a record, empty where there is none, writes when it completes. -/
def setPuts (ws : List Word) : List FieldPut :=
  { addr := updPage + 0x88, hi := 7, lo := 4, val := ws.length } ::
    { addr := updPage + 0x88, hi := 3, lo := 3, val := b2n (!ws.isEmpty) } ::
      ws.zipIdx.map (fun (w, k) => { addr := updPage + 0xA0 + 4 * k, hi := 23, lo := 0, val := w.toNat })

/-- A settings command (R581): `flag` is whether a WRITE finds the slot full, or whether the seedbed read of a READ fails (R555);
what SET_DATA then holds R581 does not say, so free values. -/
def setAct (s : State) (c : SetCmd) (flag : Bool) : State :=
  let id := setId s
  match c with
  | .read =>
    let ws := (setRecord s id).getD []
    if flag then
      let (vs, s) := drawWords (seedFault s 1) ws.length
      cmdStart (setAccept s) setCmd 1 (setPuts vs)
    else cmdStart (setAccept s) setCmd 1 (setPuts ws)
  | .write =>
    if id = 0 ∨ 0xFBFF < id then setRefuse s 0x1
    else if flag then setRefuse s 0x2
    else
      let ws := (List.range (setLen s)).map (fun k => BitVec.ofNat 24 (rd s (updPage + 0xA0 + 4 * k)))
      cmdStart (mirrorSetting (setAccept { s with settings := mapSet s.settings id ws }) id (some ws)) setCmd 2 []
  | .delete =>
    if id = 0 ∨ 0xFBFF < id then setRefuse s 0x1
    else cmdStart (mirrorSetting (setAccept { s with settings := mapDel s.settings id }) id none) setCmd 4 []

/-- A settings command while SCRAPPED (R586). -/
def setScrapped (s : State) : State := setBit (updRefuse s 0x1B) (updPage + 0x88) 2

/-- A settings command of a requester (R581, R586, R588): one that arrives while another runs is refused (R75). -/
def setPort (s : State) (req : Nat) (act : State → State) : State :=
  let s := cmdSettle s setCmd
  if reqPf req = 1 then lockViolation s req setCmd
  else if lcState s = 4 then setScrapped s
  else if cmdBusy s setCmd then setRefuse s 0x6
  else act s
/-- One settings command of a requester. -/
def setCommand (s : State) (req : Nat) (c : SetCmd) (flag : Bool) : State := setPort (turnEnd s) req (fun s => setAct s c flag)

/-- A write of SET_CMD: more than one command bit is refused. -/
def setWrite (s : State) (req v : Nat) : State :=
  match v % 8 with
  | 0 => s
  | 1 => setCommand s req .read false
  | 2 => setCommand s req .write false
  | 4 => setCommand s req .delete false
  | _ => setPort s req (fun s => setRefuse s 0x5)

/-! ## Image load at boot (R576, R585, R586) -/

/-- The checks of a bank before its load (R585): `unreadable` lists the banks that fail their seedbed check. -/
def loadable (s : State) (unreadable : List Nat) (b : Nat) : Bool :=
  let h := bankHeader s b
  !(unreadable.contains b) && decide (h.length = 4096) && decide (imgBlocks h ≤ (mapGet [] s.banks b).length) &&
    headerTagGood s h && imageTagGood s (bankBytes s b) && beAt h 8 2 / 2 ^ variantBit s.fuses % 2 == 1 && versionGood s h &&
    imageGood s.fuses (bankBytes s b)

/-- A register record written at boot, RWH fields included (R585); a record of the object window goes to the object that the
window shows. -/
def bootWrite (s : State) (a v : Nat) : State :=
  let k := kindOf s.fuses (pageOf a); let slot := slotOf a
  if isVirtual s.fuses a then slotWrite s a (v &&& slotMask s.fuses a)
  else if k = 0x03 ∧ slot = 0x44 ∧ isFallow s (pageOf a) then s
  else if k = 0x03 ∧ 0x200 ≤ slot ∧ slot ≤ 0x270 then
    let n := instanceOf 0x03 (pageOf a); let w := (slot - 0x200) / 4
    match objSel s n with
    | some i => if w = 5 ∨ w = 6 then s else wr s (objAddr n i w) (v &&& objMask w)
    | none => s
  else
    wr s a ((fieldsAt s.fuses a).foldl (fun w g =>
      if g.acc = .rw ∨ g.acc = .wl ∨ g.acc = .rwh then setBits w g.hi g.lo (bitsOf v g.hi g.lo) else w) (rd s a))

/-- The signal store as an image gives it (R259, R585): a slot held invalid for want of a spare row keeps VALUE 0 and INV 1
(R262). -/
def imageSlots (s : State) (bs : List Byte) : NMap Slot :=
  let z : Slot := { value := 0, inv := false, gen := 0 }
  (imgSignals bs).foldl (fun m x => if s.deadSlots.contains x.1 then m else mapPut z m x.1 { value := x.2, inv := false, gen := 0 })
    (s.slots.filter (fun e => s.deadSlots.contains e.1))

/-- A bank's image becomes the configuration (R585), but for its RUN pages. -/
def loadBank (s : State) (b : Nat) : State :=
  let bs := bankBytes s b; let regs := imgRegs bs
  let s := forEach regs (setFld s updStat 23 23 b) (fun s r => bootWrite s r.1 r.2)
  let s := staticsWrite (tablesWrite s (imgEntries s.fuses bs) true) (imgBridge bs)
  let s := cfgAdopt { s with slots := imageSlots s bs } (imageCrc s regs)
  putBit s updStat 20 (lcState s == 0)

/-- The pages that run when no image loads: chip block 7 and domain 6 (R585). -/
def noImagePages (f : Fuses) : List Nat :=
  allPages.filter (fun pg => kindOf f pg != 0 && ((domainOf pg == 4 && blockOf pg == 7) || domainOf pg == 6))

/-- The checks of a bank meet the seedbed and the key store (R555, R498): banks that cannot be read, and banks whose key word has
bad parity. True when a check has failed for it. -/
def bankLook (s : State) (unreadable keyBad : List Nat) (b : Nat) : Bool × State :=
  let bad := keyBad.contains b && tagKeyBad s (bankHeader s b)
  let s := if unreadable.contains b then seedFault s 0 else s
  (bad, if bad then keyParity s (imgKeySlot (bankHeader s b)) else s)

/-- The image load of a boot (R576, R585, R586). -/
def imageLoad (s : State) (unreadable keyBad : List Nat) : State :=
  let none' := fun (s : State) => forEach (noImagePages s.fuses) (setBit s updStat 21) runPage
  if lcState s = 4 then none' s
  else
    let acts := fld s (updPage + 0x64) 1 0
    let back := fun (s : State) (cause : Nat) => fallBackMarks { s with settings := s.settingsOld } (runBank s) cause
    let s := if inTrial s then (if acts = 3 then back s 3 else setFld s (updPage + 0x64) 1 0 (acts + 1)) else s
    let b := runBank s
    let load := fun (s : State) (b : Nat) => forEach (imgRun (bankBytes s b)) (loadBank s b) runPage
    if bankState s b ≠ 4 ∧ bankState s b ≠ 5 then none' s
    else
    let (bad, s) := bankLook s unreadable keyBad b
    if !bad && loadable s unreadable b then load s b
    else
      let other := 1 - b
      let spare := bankState s other == 4 || bankState s other == 6
      let s := raisePlain s updPage 0x35 b
      if spare then
        let (bad, s) := bankLook s unreadable keyBad other
        if !bad && loadable s unreadable other then load (if inTrial s then back s 4 else s) other else none' s
      else none' s

end Sys2Proof.Machine
end

