-- ==== Sys2Proof/Machine/Boundary.lean ====
section
/-! DEFINITION. The triggers of PAGE_CTRL and the item boundary at which they act (02_register_interface.md, R40 to R44, R53,
R55; R453, R570; notes/assumptions/5.md). -/
namespace Sys2Proof.Machine

/-- The triggers that wait for a page's boundary, in the order of arrival. -/
def trigsOf (s : State) (pg : Nat) : List PageTrig := mapGet [] s.trigQ pg

/-- PAGE_CTRL and PAGE_STAT.STOPPING follow the waiting triggers of a page; RUN reads 1 until the page runs, its block common
page included (R40, R43). -/
def noteTrig (s : State) (pg : Nat) : State :=
  let q := trigsOf s pg
  let waits := bit s (pg + 8) 0 && ownRunning s pg && !(running s pg)
  let s := putBit s (pg + 8) 0 (q.contains .run || waits)
  let s := putBit s (pg + 8) 1 (q.contains .stop)
  let s := putBit s (pg + 8) 2 (q.contains .restart)
  putBit s (pg + 0xC) 3 (q.contains .stop || q.contains .restart || q.contains .turn)

/-- The B-class writes that wait for a cell take effect (R55); a change of admission limits re-evaluates back-pressure (R132). -/
def takeB (s : State) (cell : Nat) : State :=
  let adm := s.bOld.any (fun b => b.cell == cell && pageOf b.addr == admPage)
  let s := pageTaken (bTake s cell) cell
  if adm then evalAll s else s

/-- One trigger acts. -/
def doTrig (s : State) (pg : Nat) : PageTrig → State
  | .run => runPage s pg
  | .stop => forEach (pagesUnder s.fuses pg) (stopPage s pg) takeB
  | .restart => restartPage s pg
  | .turn => turnPage s pg

/-- Every waiting trigger of one page acts, in the order of arrival (R41). -/
def pumpOne (s : State) (pg : Nat) : State :=
  let q := trigsOf s pg
  let s := q.foldl (fun s t => doTrig s pg t) { s with trigQ := mapDel s.trigQ pg }
  forEach (pagesUnder s.fuses pg) s noteTrig

/-- Every waiting trigger of a page acts, and those of the cells that it has stopped with it (R40, R43). -/
def pumpAll (s : State) (pg : Nat) : State :=
  forEach (pagesUnder s.fuses pg) (pumpOne s pg) (fun s p => if (trigsOf s p).isEmpty || inItem s p then s else pumpOne s p)

/-- A cell of a block whose common page is to stop has no item in flight: it stops ahead of the others and takes up no item
(R40, R53, R55). -/
def drainCell (s : State) (pg : Nat) : State :=
  if running s pg && !(cellBusy s pg) then
    let s := takeB (stopCell { s with drained := pg :: s.drained } pg) pg
    if (trigsOf s pg).isEmpty then s else pumpOne s pg
  else s

/-- The cells of a block stop one by one, each at its own boundary. -/
def drainBlock (s : State) (pg : Nat) : State := forEach (blockCells s.fuses pg) s drainCell

/-- The waiting triggers of a page act as far as they may: all of them at a boundary, which a RESTART of a check-value unit
makes for itself (R516); else a RUN that nothing waits ahead of, which finds the page running. -/
def pump (s : State) (pg : Nat) : State :=
  match trigsOf s pg with
  | [] => s
  | t :: q =>
    if !(inItem s pg) || (kindOf s.fuses pg == 0x46 && (t :: q).contains .restart) then pumpAll s pg
    else if t = .run then noteTrig { (runPage s pg) with trigQ := mapPut [] s.trigQ pg q } pg
    else drainBlock s pg

/-- The triggers that one write of PAGE_CTRL sets (R41): STOP and RESTART stand over RUN, and both together restart the page
and leave it stopped. -/
def trigsWritten (runs stops restarts : Bool) : List PageTrig :=
  if stops && restarts then [.stop, .restart]
  else if restarts then [.restart]
  else if stops then [.stop]
  else if runs then [.run]
  else []

/-- A write of PAGE_CTRL (R40, R41, R44, R453). -/
def pageCtrl (s : State) (pg : Nat) (runs stops restarts : Bool) : State :=
  let s := if (runs || restarts) && decide (domainOf pg < 4) then unpark s (domainOf pg) else s
  let fallow := isFallow s pg
  let new := trigsWritten (runs && !fallow) stops (restarts && !fallow)
  if new.isEmpty then s
  else
    let s := if stops || restarts then lookAll s pg else s
    let s := { s with trigQ := mapSet s.trigQ pg (trigsOf s pg ++ new) }
    pump (noteTrig (if new.contains .run then setBit s (pg + 8) 0 else s) pg) pg

/-- An access to a page finds its command settled, a fall-back that is over booked, and what waited for the end of a table-port
command done (R53, R60, R575). -/
def atAccess (s : State) (pg : Nat) : State :=
  let s := if pg = updPage then turnEnd (settlePage s pg) else settlePage s pg
  if kindOf s.fuses pg = 0x1F ∧ !(inItem s pg) then pump (if s.bOld.any (fun b => b.cell == pg) then takeB s pg else s) pg else s

/-- Cells that have reached a boundary, by the end of an item or for want of one (R53): B-class writes and triggers that wait for
it act, those of a block common page once its last cell is there. -/
def takeBoundaries (s : State) : State :=
  let cells := (s.bOld.map (fun b => b.cell)).eraseDups
  let s := forEach cells s (fun s c => if running s c && cellBusy s c then s else takeB s c)
  forEach (s.trigQ.map (fun q => q.1)) s pump

/-- A cell reaches an item boundary (R53, R55): the pending B-class writes take effect together, and the waiting triggers
act. -/
def boundary (s : State) (pg : Nat) : State :=
  let s := takeB s pg
  if (trigsOf s pg).isEmpty then s else pumpAll s pg

/-- A cell may be at an item boundary (R53): a CAN bus is idle, if the channel sends nothing; a cell whose item is not over is at
none. -/
def itemBoundary (s : State) (pg : Nat) : State :=
  let s := if kindOf s.fuses pg = 0x03 then canQuiet s (instanceOf 0x03 pg) else s
  if inItem s pg then s else boundary s pg

/-- The boundary that the end of a computation is for a check-value unit (R508). -/
def cvBoundary (s : State) (u : Nat) : State :=
  if bit s (cvPage u + 0x54) 1 then s else boundary s (cvPage u)

/-- A drill tick's start is the drill's boundary (R53): a drill that stops there has no work in it. -/
def drillBoundary (s : State) (bad : List (Nat × Nat)) (slots : List (Nat × Bool)) : State :=
  drillTick (boundary s drillPage) bad slots

end Sys2Proof.Machine
end

