-- ==== Sys2Proof/Machine/Faults.lean ====
section
/-! DEFINITION. Counted faults, their remedies and their reclaim; stalls; what transceivers report (15_errors_and_monitors.md,
R523 to R543; R13, R22, R23, R169 to R171, R356 to R359, R381, R382, R421). -/
namespace Sys2Proof.Machine

/-! ## Remedies (R537) -/

/-- The remedy of a cipher lane with a permanent fault (R460, R537). -/
def laneToFallow (s : State) (i code : Nat) : State :=
  let pg := lanePage i
  if isFallow s pg then s
  else
    let lost := mapGet [] s.lanes i
    let s := setBit { s with fallow := pg :: s.fallow, lanes := mapDel s.lanes i } (pg + 0x40) 23
    retire (forEach lost (laneBusy s i) laneVoid) 1 pg code 0 0

/-- The remedy of a check-value unit with a permanent fault (R518, R537). -/
def cvToFallow (s : State) (u code : Nat) : State :=
  let pg := cvPage u
  if isFallow s pg then s
  else retire (setBit { cvAbort s u with fallow := pg :: s.fallow } (pg + 0x54) 4) 1 pg code 0 0

/-- The remedy of the spare CAN cell (R359): the channel that it serves enters FALLOW; a free one is FALLOW itself. -/
def spareToFallow (s : State) (pg code : Nat) : State :=
  let blockFirst := instanceOf 0x04 pg * 8
  if bit s (pg + 0x40) 23 then canToFallow s (blockFirst + fld s (pg + 0x40) 3 0 - 1) code
  else if isFallow s pg then s
  else retire { s with fallow := pg :: s.fallow } 1 pg code 0 0

/-- The remedy that the table of R537 gives a permanent location by its page: the spare cell for a CAN cell's controller
logic, FALLOW for other cells and for transceivers and their lanes (classes 0x16 and 0x1A), a retired key slot, and "No
spare" for shared logic. -/
def remedy (s : State) (pg row code : Nat) : State :=
  match kindOf s.fuses pg with
  | 0x03 =>
    let n := instanceOf 0x03 pg
    if code = 0x16 ∨ code = 0x1A then canToFallow s n code else canTakeover s n code
  | 0x04 => spareToFallow s pg code
  | 0x06 => linToFallow s (instanceOf 0x06 pg) code
  | 0x09 => macToFallow s (88 + instanceOf 0x09 pg) code
  | 0x42 => laneToFallow s (instanceOf 0x42 pg) code
  | 0x46 => cvToFallow s (instanceOf 0x46 pg) code
  | 0x56 => linkToFallow s (instanceOf 0x56 pg) code
  | 0x43 => if code = 0x1E then retire { s with keysRetired := row :: s.keysRetired } 5 pg code row 0 else noSpare s pg row 0
  | _ => noSpare s pg row 0

/-- A counted fault classed when it occurs: its record with FCLASS 1 or 2 at page `at_` with ADDR `addr`, and the remedy
when it is permanent (R526, R537). -/
def countAt (s : State) (at_ addr pg row code detail : Nat) (failed : Bool) : State :=
  let (perm, s) := classFault s pg row code failed
  let s := raiseRec s at_ code detail (if perm then 2 else 1) addr row
  if perm then remedy s pg row code else s

/-- A counted fault of a page (R526, R537). -/
def countFault (s : State) (pg row code detail : Nat) (failed : Bool) : State := countAt s pg pg pg row code detail failed

/-! ## Single classes -/

/-- The registers of the running image; none where no image runs. -/
def activeRegs (s : State) : List (Nat × Nat) :=
  if bit s updStat 21 then [] else imgRegs (bankBytes s (runBank s))

/-- MODE of a channel as the active image gives it (R329, R563). -/
def imageMode (s : State) (n : Nat) : Nat :=
  let a := canPage n + 0x44
  let m := match (activeRegs s).find? (fun r => r.1 == a) with
    | some r => r.2 % 8
    | none => resetWord s.fuses a % 8
  if m < 4 then m else 0

/-- CAN_MODE is read with bad parity while it is copied into the cell that takes a channel's digital side: it is the image's
(R357, step 3). -/
def modeParity (s : State) (a : Nat) : State :=
  let n := instanceOf 0x03 (pageOf a)
  if kindOf s.fuses (pageOf a) = 0x03 ∧ slotOf a = 0x44 ∧ (mapGet? s.movedAt n).any (fun t => decide (s.now ≤ t + usTicks 31)) then
    setCanMode s n (imageMode s n)
  else s

/-- A register is read with bad parity (R524, R525): a record register reads 0 until the next capture, and the record is
raised one level up; any other slot takes its RW and WL fields from the active image. -/
def registerParity (s : State) (pg slot : Nat) (failed : Bool) : State :=
  let a := pg + slot
  if 0x10 ≤ slot ∧ slot < 0x24 then
    countAt (wr { s with recFaulty := a :: s.recFaulty } a 0) (if pg = hubPage then hubPage else upperPage pg) a pg 0 0x10 0 failed
  else
    let old := rd s a
    let m := slotMask s.fuses a
    let s := modeParity (wr s a ((old &&& (0xFFFFFF - m)) ||| imageValue s.fuses (activeRegs s) a)) a
    let s := countAt s pg a pg 0 0x10 0 failed
    regWritten s a old

/-- The item that a word of a cell's furrow belongs to is poisoned from then on (R105): the frame that a MAC writes into memory,
the item at the head of a lane. -/
def poisonItem (s : State) (pg : Nat) : State :=
  let mark : Nat → State := fun id => putFrame s id { getFrame s id with poison := true }
  match kindOf s.fuses pg with
  | 0x09 => (match mapGet? s.openFrame (88 + instanceOf 0x09 pg) with | some id => mark id | none => s)
  | 0x42 => (match mapGet [] s.lanes (instanceOf 0x42 pg) with
    | it :: rest => { s with lanes := mapPut [] s.lanes (instanceOf 0x42 pg) ({ it with poison := true } :: rest) }
    | [] => s)
  | _ => s

/-- A word of a furrow fails parity (R102, R103, R107): counted and recorded once for its item, and remedied as its owner. Where a
pop stalls on an empty furrow, the item that it takes is the one that fails. -/
def furrowParity (s : State) (pg : Nat) : State :=
  let f := getFur s (furKey s pg)
  if f.failed then s
  else
    let held := !f.items.isEmpty || !f.openWords.isEmpty || s.stalled.any (fun p => p.page == pg)
    let s := poisonItem (if held then putFur s (furKey s pg) { f with failed := true } else s) pg
    let s := match furGroup (kindOf s.fuses pg) with
      | some b => incSat (setBit s (pg + b + 0x10) 4) (pg + b + 0x18)
      | none => s
    countFault s pg 0 0x11 0 false

/-- A word of a plot is read with bad parity (R169, R170): its frame is poisoned, and the row waits for its test. -/
def plotParity (s : State) (b row : Nat) : State :=
  let pg := bankPage b
  let s := wr (incSat s (pg + 0x4C)) (pg + 0x48) (row % 0x4000)
  let s := { s with
    frames := s.frames.map (fun e =>
      if e.2.plots.any (fun p => p.bank == b && p.row == row) then (e.1, { e.2 with poison := true }) else e)
    awaitTest := if s.awaitTest.contains (pg, row) then s.awaitTest else (pg, row) :: s.awaitTest }
  raiseRec s pg 0x12 b 3 pg row

/-- A harrow judges the tables of a table-port page: the hub's and the keep-awake table have none (R242, R290, R500). -/
def harrowed (pg : Nat) : Bool := pg != hubTable && pg != kaTable

/-- The harrow that judges an entry of a table-port page: a gate list by its port's region (R252), and a group entry, when the
fault does not name a replica, by region 0's (notes/assumptions/78.md). -/
def harrowOf (pg i : Nat) : Nat :=
  if pg = mbTable then 4
  else if pg = secTable then 5
  else if domainOf pg < 4 then domainOf pg
  else if pg = gateTable then regionOfPort (104 + i / 128)
  else 0

/-- One entry judged by its harrow (R244, R252, R291, R500), given the copies that have a word with bad parity, and whether a
repair reads back, or the row passes its test. -/
def harrowJudge (s : State) (h code i : Nat) (liveBad shadowBad readBack : Bool) : State :=
  if h < 4 then
    match code with
    | 5 => if liveBad then bridgeParity s h i readBack else s
    | 6 => if liveBad then gateParity s h i else s
    | 7 => if liveBad then polParity s h i readBack else s
    | _ => judge s h code i liveBad shadowBad readBack
  else if h = 4 then
    match code with
    | 7 => if liveBad then stateParity s 7 i else s
    | 8 => if liveBad then stateParity s 8 i else s
    | _ => judge s h code i liveBad shadowBad readBack
  else
    match code with
    | 1 => if liveBad then putFv s i (fvOf s i) true (fvExhausted s i) else s
    | 5 => if liveBad then putPn s i (nextPn s i) true else s
    | _ => judge s h code i liveBad shadowBad readBack

/-- A parity fault of a lane (R460), with or without an item in it. -/
def laneParity (s : State) (i : Nat) : State :=
  match laneTake s i 1 with
  | some (it, s) => laneFault s i it
  | none =>
    let pg := lanePage i
    let s := setBit (incSat s (pg + 0x44)) (pg + 0x40) 22
    raiseRec { s with awaitTest := (pg, 0) :: s.awaitTest } pg 0x1B i 3 pg 0

/-- A CAN cell's memory is read with bad parity (R357): the object that the row names is marked, and the cell counted. -/
def canMemory (s : State) (pg row detail : Nat) : State :=
  let n := instanceOf 0x03 pg
  countFault (if row < 96 then objParity s n row else s) pg 0 0x20 detail false

/-- Classes that are counted against the gateway (R527 and the tables of chapters 16 and 17). -/
def counted (code : Nat) : Bool :=
  [0x10, 0x11, 0x12, 0x13, 0x14, 0x15, 0x16, 0x17, 0x18, 0x19, 0x1A, 0x1B, 0x1C, 0x1D, 0x1E, 0x1F, 0x20, 0x36, 0x39].contains code

/-! ## Stalls (R23, R542, R543) -/

/-- A cell's handshake stalls (R543): a hardware RESTART is the retry, and a second stall before the cell has completed an
item is permanent. -/
def cellStall (s : State) (pg : Nat) : State :=
  let again := s.stallRetry.contains pg
  let (perm, s) := classFault s pg 0 0x18 again
  let s := raiseRec s pg 0x18 0 (if perm then 2 else 1) pg 0
  let s := { s with stallRetry := s.stallRetry.filter (fun p => p != pg) }
  if perm then remedy s pg 0 0x18 else { (restartPage s pg) with stallRetry := pg :: s.stallRetry }

/-- A handshake stays pending for more than 1 ms (R23, R542, R543). A stall of the hub's own logic is also a fault of its own
(R535); one of shared logic is a health input of the pair (R629). -/
def stalled1ms (s : State) (pg : Nat) : State :=
  if levelOf pg = 0 then cellStall s pg
  else
    let s := if pg = hubPage then setBit s (hubPage + 0x40) 22 else s
    let s := countFault s pg 0 0x18 (levelOf pg) false
    refreshHealth { s with pair := { s.pair with stallAt := some s.now } }

/-- An island crossing fails (R22): an overrun rewinds the item received, an underrun ends the item sent as a failed
transmission of its protocol; the cell counts it. -/
def crossing (s : State) (pg detail : Nat) : State :=
  let s := match kindOf s.fuses pg with
    | 0x03 =>
      let n := instanceOf 0x03 pg
      if detail = 0 then canTxError s n 0 false false false 0 none
      else if effBit s pg (canCtrl n) 19 then furRewind s pg
      else s
    | 0x06 => linCross s (instanceOf 0x06 pg) (detail == 0)
    | 0x09 =>
      let p := 88 + instanceOf 0x09 pg
      if detail = 0 then ethFails s p
      else
        match mapGet? s.openFrame p with
        | some id => rewindFrame (macRewind s p) p id
        | none => if macsecOn s p && !(getFur s pg).openWords.isEmpty then macsecOver s p else s
    | 0x52 => if detail = 0 then s else putFur s (furKey s pg) emptyFurrow
    | 0x54 =>
      (match [instanceOf 0x54 pg, instanceOf 0x54 pg + 8].find? (fun n => (mapGet? s.inFlight (128 + n)).isSome) with
        | some n => if detail = 0 then flightOver s (128 + n) else s
        | none => s)
    | 0x56 => if detail = 0 then linkAborts s (instanceOf 0x56 pg) else linkFails s (instanceOf 0x56 pg)
    | _ => s
  countFault s pg 0 0x17 detail false

/-- Crossings that failed within the command are counted. -/
def takeCrossings (s : State) : State :=
  forEach s.crossings { s with crossings := [] } (fun s c => countFault s c.1 0 0x17 c.2 false)

/-- A counted fault by its class (R537), one of the hub's own logic shown by HUB_FAULT (R535): what the rule that owns the class
does, or the general treatment. `row` is the row of the location, for class 0x10 the slot, with the slot within it in `detail` for
a row of the signal store; `failed` is whether the retry or the scrub fails. -/
def takeFault (s : State) (pg row code detail : Nat) (failed : Bool) : State :=
  let kind := kindOf s.fuses pg
  let s := if pg = hubPage ∧ code ≠ 0x11 then setBit s (hubPage + 0x40) 22 else s
  match code with
  | 0x10 => registerParity s pg row failed
  | 0x11 => furrowParity s pg
  | 0x12 => if kind = 0x24 then plotParity s (instanceOf 0x24 pg) row else countFault s pg row code detail failed
  | 0x13 =>
    if kind = 0x1F && harrowed pg then harrowJudge s (harrowOf pg row) detail row true false (!failed)
    else countFault s pg row code detail failed
  | 0x14 =>
    if kind = 0x1F && harrowed pg then
      (if isQuar s (harrowOf pg row) detail row then s else quarantine s (harrowOf pg row) detail row)
    else countFault s pg row code detail failed
  | 0x15 => if kind = 0x29 then slotParity s (row * 64 + detail % 64) (!failed) else countFault s pg row code detail failed
  | 0x17 => crossing s pg detail
  | 0x18 => stalled1ms s pg
  | 0x1B => if kind = 0x42 then laneParity s (instanceOf 0x42 pg) else countFault s pg row code detail failed
  | 0x1C => if kind = 0x46 then cvFault s (instanceOf 0x46 pg) else countFault s pg row code detail failed
  | 0x1D => if kind = 0x47 then entropyFail s (detail == 2) else countFault s pg row code detail failed
  | 0x1E => if kind = 0x43 then keyParity s row else countFault s pg row code detail failed
  | 0x20 => if kind = 0x03 then canMemory s pg row detail else countFault s pg row code detail failed
  | _ => countFault s pg row code detail failed

/-- A frame holds a plot of a row: its test waits until the row is freed (R170, R171). -/
def rowHeld (s : State) (b row : Nat) : Bool := (allPlots s).any (fun e => e.2.bank == b && e.2.row == row)

/-- The deferred test of a location ends (R170, R460, R483, R537). -/
def testEnd (s : State) (pg row : Nat) (pass : Bool) : State :=
  if !(s.awaitTest.contains (pg, row)) then s
  else
    match kindOf s.fuses pg with
    | 0x24 => if rowHeld s (instanceOf 0x24 pg) row then s else rowTested s (instanceOf 0x24 pg) row pass
    | 0x42 => laneTested s (instanceOf 0x42 pg) pass
    | 0x47 => if pass then entropyStarted s else entropyFail s (bit s (entPage + 0x40) 20 && !(bit s (entPage + 0x40) 21))
    | _ => s

/-! ## Transceivers (R13, R356, R381) -/

/-- A status word of a transceiver (R356, R381): the conditions that hold; those that begin act. The T1S PHYs report
none. -/
def trxReport (s : State) (p : Nat) (txdDom busDom overtemp vccLow : Bool) : State :=
  if p < 64 then
    let a := canPage p + 0x6C
    let old := rd s a
    let s := setFld s a 5 2 (b2n overtemp * 8 + b2n vccLow * 4 + b2n txdDom * 2 + b2n busDom)
    let s := putBit (putBit s (canStatus p) 20 busDom) (canStatus p) 19 txdDom
    let newTxd := txdDom && !(old.testBit 3)
    let s := if newTxd || (busDom && !(old.testBit 2)) then setBit s (canEvents p) 3 else s
    let s := if vccLow && !(old.testBit 4) then raisePlain s (canPage p) 0x09 (dieOf p) else s
    let s := if newTxd then countFault s (canPage p) 0 0x19 0 false else s
    if overtemp && !(old.testBit 5) then countFault s (canPage p) 0 0x1A 0 false else s
  else if p < 88 then
    let m := p - 64
    let old := rd s (linStatus m)
    let s := putBit (putBit s (linStatus m) 20 busDom) (linStatus m) 19 txdDom
    let newTxd := txdDom && !(old.testBit 19)
    let s := if newTxd || (busDom && !(old.testBit 20)) then setBit s (linEvents m) 2 else s
    if newTxd then countFault s (linPage m) 0 0x19 0 false else s
  else s

/-- A mode command word leaves for a transceiver (R13): resent once when it is received with bad parity; a second failure
makes the lane permanent. -/
def modeCommand (s : State) (p : Nat) (bad bad2 : Bool) : State :=
  let w := mapGet 0 s.trxMode p
  let s := send s p .modeWord [w] []
  if bad then countFault (send s p .modeWord [w] []) (portPage p) 0 0x16 (dieOf p) bad2 else s

/-! ## Reclaim (R541) -/

/-- A RECLAIM is refused. -/
def reclaimRefuse (s : State) (code : Nat) : State := setFld (setBit s (hubPage + 0x5C) 2) (hubPage + 0x5C) 11 8 code

/-- The FALLOW indication of a cell's page ends; a CAN channel's MODE, which FALLOW had taken, is the image's again. -/
def fallowOff (s : State) (pg : Nat) : State :=
  match kindOf s.fuses pg with
  | 0x03 =>
    setFld s (pg + 0x44) 2 0 (imageMode s (instanceOf 0x03 pg))
  | 0x06 => clrBit s (linStatus (instanceOf 0x06 pg)) 15
  | 0x09 => clrBit s (ethLink (88 + instanceOf 0x09 pg)) 18
  | 0x42 => clrBit s (pg + 0x40) 23
  | 0x46 => clrBit s (pg + 0x54) 4
  | 0x56 => clrBit s (lnkStat (instanceOf 0x56 pg)) 22
  | _ => s

/-- A roster entry's location returns to service, by KIND (R541). -/
def reclaimDo (s : State) (e : RosterEntry) : State :=
  let pg := e.page * 0x1000
  match e.kind with
  | 1 =>
    let s := restartPage (fallowOff { s with fallow := s.fallow.filter (fun p => p != pg) } pg) pg
    match portOfPage s.fuses pg with
    | some p => if (busPorts s.fuses).contains p then refreshTrx s p else s
    | none => s
  | 2 =>
    let n := instanceOf 0x03 pg
    canMoved (wr s (sparePage n + 0x40) 0) n
  | _ => { s with keysRetired := s.keysRetired.filter (fun k => k != e.row), keys := mapDel s.keys e.row }

/-- A reclaimed location in the ledger: one fault short of permanent (R541); what the ledger held of it goes. -/
def ledgerReclaim (s : State) (e : RosterEntry) : State :=
  let l : LedgerEntry := { page := e.page, code := e.code, row := e.row, times := List.replicate (permCount s - 1) (operMin s) }
  let s := ledgerClear s (e.page * 0x1000) e.row
  let (r, s) := drawNat s
  let i := match freeIndex s.ledger 256 r with
    | some i => i
    | none => oldestEntry s
  let s := if s.ledger.length < 256 then s else setBit (incSat s (hubPage + 0x64)) (hubPage + 0x40) 19
  { s with ledger := mapSet s.ledger i l }

/-- HUB_CMD.RECLAIM of a requester (R541). -/
def reclaim (s : State) (req : Nat) : State :=
  let i := fld s (hubPage + 0x54) 8 0
  if cmdBusy s (hubPage + 0x58) then reclaimRefuse s 0x6
  else match mapGet? s.roster i with
  | none => reclaimRefuse s 0x1
  | some e =>
    if e.kind = 3 ∨ e.kind = 4 then reclaimRefuse s 0x2
    else if reqPf req = 1 then reclaimRefuse s 0x4
    else
      let s := setFld (clrBit s (hubPage + 0x5C) 2) (hubPage + 0x5C) 11 8 0
      let s := noteRoster { s with roster := mapDel s.roster i }
      cmdStart (ledgerReclaim (reclaimDo s e) e) (hubPage + 0x58) 1 []

end Sys2Proof.Machine
end

