-- ==== Sys2Proof/Machine/Furrows.lean ====
section
/-! DEFINITION. The producer's and the consumer's side of a furrow, and its registers (03_furrows.md, R88 to R119). Bulk
furrows whose contents the model holds elsewhere (head furrows, packet memory, lanes) are not touched here. -/
namespace Sys2Proof.Machine

/-- The words that a producer has written of an open item enter: an island that finds no room for one rewinds the item as an
overrun (R22, R95, R111); a stage inside the core has written only those for which there was space. -/
def furWrote (s : State) (pg : Nat) (wrote : List Nat) : State :=
  if wrote.isEmpty then s
  else if islandIn (kindOf s.fuses pg) && decide (furRoom s pg < wrote.length) then furFull s pg wrote
  else furWrite s pg wrote

/-- The furrows that feed cut-through egress: the receive furrows of MAC cells, early-visible from 64 words on (R98). -/
def earlyVisible (kind : Nat) : Bool := kind == 0x09

/-- The first failed word of an item is counted and recorded (R103); later ones are delivered poisoned alone. -/
def noteFailed (s : State) (pg : Nat) (bad : Bool) : State := if bad then furrowParity s pg else s

/-- A word as it is delivered (R103, R105): poisoned when it, or an earlier word of its item, failed. -/
def deliverWord (s : State) (pg : Nat) (w : BitVec 28) : State :=
  let p := furPoison w || (getFur s pg).failed
  { s with delivered := mapSet s.delivered pg (furWord p (w.toNat / 2 ^ 24 % 4) (furData w)) }

/-- A consumer takes the next word (R91, R98 to R103): the marker first, then the head item, then an open item that is
visible early. `wrote` is what the producer of an open item has written since, `bad` whether the word fails parity. An empty
furrow keeps the consumer waiting (R110). -/
def furWordRead (s : State) (pg : Nat) (wrote : List Nat) (bad : Bool) : State :=
  let s := furWrote s pg wrote
  let f := getFur s pg
  if f.marker then { putFur s pg { f with marker := false, failed := false } with delivered := mapSet s.delivered pg rewindMarker }
  else
    match f.items with
    | it :: rest =>
      let s := deliverWord (noteFailed s pg bad) pg (it.getD f.taken 0)
      let f' := getFur s pg
      furSettle (putFur s pg
        (if f.taken + 1 < it.length then { f' with taken := f.taken + 1 }
         else { f' with items := rest, taken := 0, failed := false })) pg
    | [] =>
      if earlyVisible (kindOf s.fuses pg) && decide (64 ≤ f.openWords.length) && decide (f.openTaken < f.openWords.length) then
        let s := deliverWord (noteFailed s pg bad) pg (f.openWords.getD f.openTaken 0)
        furSettle (putFur s pg { getFur s pg with openTaken := f.openTaken + 1 }) pg
      else s

/-- A write of FUR_HWM (R108, R109); a mark that hardware has raised at this very moment stands (R50). -/
def hwmWrite (s : State) (pg v : Nat) : State :=
  match furGroup (kindOf s.fuses pg) with
  | some b =>
    let a := pg + b + 0xC
    let w := max (v % 2 ^ 24) (furWords (getFur s pg))
    if hwMoved s a 23 0 then s else syncWord (wr s a w) a (rd s a) w
  | none => s

/-- The stall guard in ticks (R117). -/
def popGuard (s : State) : Nat := usTicks (clamp 1 1000 (fld s (chipPage + 0x60) 9 0))

/-- A read of FUR_POP (R112 to R114): the head item, or a stall. -/
def furPop (s : State) (req pg : Nat) : State :=
  if (getFur s pg).items.isEmpty then
    { s with stalled := s.stalled ++ [{ page := pg, requester := req, guardEnd := s.now + popGuard s }] }
  else
    let (v, s) := popHead s pg
    completeRead (furSettle s pg) req v

/-- The stall guard of a pop expires (R114): the read returns the empty sentinel. -/
def popExpiry (s : State) (req pg : Nat) : State :=
  match s.stalled.find? (fun p => p.page == pg && p.requester == req) with
  | some p => if p.guardEnd ≤ s.now then completeRead { s with stalled := s.stalled.erase p } req 0 else s
  | none => s

end Sys2Proof.Machine
end

