-- ==== Sys2Proof/Machine/Host.lean ====
section
/-! DEFINITION. The DMA rings of the host: TAIL writes, TX descriptors, stalls, RX delivery and MSI-X vectors
(17_host_links_and_pairing.md, R592 to R605, R637). -/
namespace Sys2Proof.Machine

/-- Descriptors of a ring: SIZE_LOG from 6 to 16. -/
def ringSize (s : State) (a : Nat) : Nat := 2 ^ clamp 6 16 (fld s a 20 16)
def ringHead (s : State) (a : Nat) : Nat := fld s (a + 0x10) 15 0
def ringTail (s : State) (a : Nat) : Nat := fld s (a + 0xC) 15 0
/-- The host address of a descriptor. -/
def descAddr (s : State) (a i : Nat) : Nat := rd s (a + 8) * 2 ^ 36 + rd s (a + 4) * 2 ^ 12 + 32 * i
/-- The PCIe link is up. -/
def pcieUp (s : State) : Bool := bit s (pciePage + 0x40) 23
/-- HEAD advances by one descriptor. -/
def advanceHead (s : State) (a : Nat) : State := setFld s (a + 0x10) 15 0 ((ringHead s a + 1) % ringSize s a)
/-- A PF1 vector leaves. -/
def issueVector (s : State) (vec : Nat) : State := { s with msix := (1, vec) :: s.msix }
/-- Little-endian bytes, as host memory holds them. -/
def leBytes (n v : Nat) : List Byte := (beBytes n v).reverse

/-! ## TAIL (R593) -/

/-- A TAIL index is refused: beyond the ring, or past what software owns. -/
def tailBad (s : State) (a idx : Nat) : Bool :=
  let size := ringSize s a; let old := ringTail s a
  decide (size ≤ idx) || decide ((ringHead s a + 0x20000 - old - 1) % size < (idx + 0x20000 - old) % size)

/-- A software write of TAIL of a TX or RX ring. -/
def tailWrite (s : State) (req : Nat) (tx : Bool) (n v : Nat) : State :=
  let a := if tx then txRing n else rxRing n
  let idx := v % 65536
  if bit s (pageOf a + 0x24) 0 ∧ idx ≠ ringTail s a then softWord s req (a + 0xC) v
  else if tailBad s a idx then
    raisePlain (setBit s (a + 0x14) (if tx then 3 else 2)) (pageOf a) 0x3B (if tx then n else 16 + n)
  else
    let was := ringTail s a
    let s := softWord s req (a + 0xC) v
    if !tx then noteStuck s (128 + n)
    else if was = ringHead s a then { s with heldFrom := mapSet s.heldFrom (16 + n) s.now }
    else s

/-! ## TX (R594 to R599) -/

/-- The outcome of a TX packet (R596, R598): STATUS written back, HEAD advanced, the vector issued. -/
def txStatus (s : State) (n code : Nat) : State :=
  let a := txRing n
  let s := send s (128 + n) .dmaWrite [descAddr s a (ringHead s a) + 16] (BitVec.ofNat 8 (0x80 + code) :: [0, 0, 0])
  let s := if code = 0 then addStat s (a + 0x1C) 1 else incSat s (a + 0x18)
  let s := if code = 1 ∨ code = 2 then raisePlain s (htxPage n) 0x3B n else s
  issueVector (advanceHead { s with heldFrom := mapSet s.heldFrom (16 + n) s.now } a) (fld s a 4 0)

/-- The ring may handle a descriptor (R596, R597, R605). -/
def txMay (s : State) (n : Nat) : Bool :=
  let a := txRing n
  pcieUp s && running s (htxPage n) && effBit s (htxPage n) a 23 && ringHead s a != ringTail s a

/-- A buffer read of the ring has begun: words of its packet lie in the ring's furrow (R596). -/
def txBegun (s : State) (n : Nat) : Bool := !(getFur s (txRing n)).openWords.isEmpty

/-- The rings that ask for a grant: under XOFF a ring fetches no descriptor, but a read that has begun completes (R597). -/
def txAsking (s : State) : List Nat :=
  (List.range 16).filter (fun n => txMay s n && (txBegun s n || !(bit s (admUsed (128 + n)) 23)))

/-- The ring is granted next by the rotation over the rings that hold descriptors (R596); one whose read has begun has its grant. -/
def txGranted (s : State) (n : Nat) : Bool :=
  (txAsking s).contains n && (txBegun s n || rotates (mapGet? s.rrCell 65536) (txAsking s) n)

/-- LEN lies in the range of its FORM (R594). -/
def txLenGood (form len : Nat) : Bool :=
  match form with
  | 0 => decide (14 ≤ len) && decide (len ≤ 9212)
  | 1 => decide (8 ≤ len) && decide (len ≤ 72)
  | 2 => decide (4 ≤ len) && decide (len ≤ 4099)
  | _ => false

/-- Bytes of a buffer read arrive in the furrow of a TX ring that may read (R596): `first` begins a packet. -/
def txRead (s : State) (n : Nat) (first : Bool) (bytes : List Byte) : State :=
  if !(txMay s n) then s
  else furWrite (if first then putFur s (txRing n) emptyFurrow else s) (txRing n) (packWords bytes)

/-- The ring's packet, or what has come of it, leaves the ring's furrow: taken, or rewound (R93, R596). -/
def txTaken (s : State) (n : Nat) : State := putFur s (txRing n) emptyFurrow

/-- A FRAME or BUS packet, committed in the ring's furrow, enters packet memory as an item of input 128 + n and is announced
(R126, R595, R596): true unless it was rewound. -/
def txEnter (s : State) (n form : Nat) (tsReq : Bool) (tag : Nat) (bytes : List Byte) : Bool × State :=
  let p := 128 + n
  let kind : ItemKind := if form = 1 then .can else .eth
  let bad := (getFur s (txRing n)).failed
  let pieces := plotPieces (bytes.length + 1) bytes
  let s := forEach pieces.zipIdx (txTaken s n) (fun s (b, i) => plotArrives s p (i == 0) b)
  match mapGet? s.openFrame p with
  | none => (false, { s with dropping := s.dropping.filter (fun q => q != p) })
  | some id =>
    let fr := getFrame s id
    let s := putFrame { s with openFrame := mapDel s.openFrame p } id
      { fr with
        kind := kind
        committed := true
        ended := true
        announced := true
        commitAt := s.now
        wantsTs := tsReq
        tag := tag
        poison := fr.poison || bad
        srcDev := s.fuses.devId }
    let (ok, s) := announce s p
      { port := p
        frame := some id
        kind := kind
        bytes := fr.bytes
        poison := fr.poison || bad
        ownAddr := false
        link := none
        tag := tag
        srcDev := s.fuses.devId
        ingressNs := 0
        cameAt := s.now
        seqNo := none }
    let s := handled s (htxPage n)
    if ok then (true, s) else (false, dropFrame s id)

/-- A TX ring handles a descriptor (R596, R598): its FORM, TS_REQ and TAG, the bytes of its buffer, whether a completion
returned an error, and what is wrong with an update block, as for a header. -/
def txDescriptor (s : State) (n form : Nat) (tsReq : Bool) (tag : Nat) (bytes : List Byte) (cplErr : Bool) (bad : Nat) : State :=
  let a := txRing n
  if !(txGranted s n) then s
  else
  let s := { s with rrCell := mapSet s.rrCell 65536 n }
  if !(txLenGood form bytes.length) then txStatus (txTaken s n) n 3
  else if form = 2 ∧ !(effBit s (htxPage n) a 22) then txStatus (txTaken s n) n 6
  else if cplErr then
    txStatus (incSat (setBit (txTaken s n) (a + 0x14) 1) (pciePage + 0x60)) n 2
  else if form = 2 then
    let (ok, s) := updateBlock (txTaken s n) bytes (if (getFur s (txRing n)).failed then 1 else bad)
    txStatus s n (if ok then 0 else 5)
  else
    let (ok, s) := txEnter s n form tsReq tag bytes
    txStatus s n (if ok then 0 else 4)

/-- HOSTQ_STALL.MS in force, in ticks (R636). -/
def stallTime (s : State) : Nat := msTicks (clamp 1 1000 (fld s (pciePage + 0x44) 9 0))

/-- The stall guard reaches HOSTQ_STALL.MS (R599): the partial packet is rewound. When its read began is the environment's, but no
earlier than the ring could fetch the descriptor. -/
def txStall (s : State) (n : Nat) : State :=
  if !(txMay s n) || decide (s.now < mapGet 0 s.heldFrom (16 + n) + stallTime s) then s
  else
    let s := setBit (txTaken s n) (txRing n + 0x14) 0
    txStatus { s with htxStalled := if s.htxStalled.contains n then s.htxStalled else s.htxStalled ++ [n] } n 1

/-- A completion of a stalled packet arrives late (R599). -/
def lateCompletion (s : State) (n : Nat) : State := if s.htxStalled.contains n then incSat s (pciePage + 0x64) else s

/-! ## RX (R600 to R605) -/

/-- KIND of a copy in an RX descriptor (R600): 6 for a routed item of a link. -/
def copyKind (s : State) (c : Copy) : Nat :=
  let f := getFrame s c.frame
  if (f.input = 124 ∨ f.input = 125) ∧ f.kind = .pdu then 6 else firstKind c.form.src

/-- FLAGS of a copy that RX ring n delivers (R600). -/
def copyFlags (s : State) (n : Nat) (c : Copy) (trunc : Bool) : Nat :=
  let f := getFrame s c.frame
  1 + b2n (f.poison || (getFur s (rxRing n)).failed) * 2 + f.badFlags + b2n trunc * 32 + b2n (c.form.why == 1) * 64 + b2n (c.form.why == 2) * 128 +
    b2n (decide (88 ≤ f.input) && decide (f.input < 124)) * 256 + b2n (c.form.why == 4) * 512

/-- Bytes 16 to 31 of the descriptor of a copy of which `len` bytes were written (R600). -/
def copyDesc (s : State) (n : Nat) (c : Copy) (len : Nat) (trunc : Bool) : List Byte :=
  let f := getFrame s c.frame
  let ts := if 88 ≤ f.input ∧ f.input < 124 then f.ingressNs else 0
  leBytes 2 len ++ leBytes 1 (copyKind s c * 16 + c.cls % 8) ++ leBytes 1 f.input ++ leBytes 2 (copyFlags s n c trunc) ++
    leBytes 1 f.srcDev ++ [0] ++ leBytes 4 (ts / 1000000000 % 2 ^ 32) ++ leBytes 4 (ts % 1000000000)

/-- HOLDOFF_US in ticks. -/
def holdoff (s : State) (n : Nat) : Nat := usTicks (fld s (rxRing n) 15 5)

/-- A completion of RX ring n is signalled, at once or when the hold-off ends (R604). -/
def rxSignal (s : State) (n : Nat) : State :=
  let due := match mapGet? s.hrxSignal n with
    | some v => decide (s.now ≥ v / 2 + holdoff s n)
    | none => true
  if due then issueVector { s with hrxSignal := mapSet s.hrxSignal n (s.now * 2) } (fld s (rxRing n) 4 0)
  else { s with hrxSignal := mapSet s.hrxSignal n (mapGet 0 s.hrxSignal n / 2 * 2 + 1) }

/-- The hold-off of an RX ring ends (R604): a completion that waits is signalled. -/
def holdoffEnd (s : State) (n : Nat) : State :=
  match mapGet? s.hrxSignal n with
  | some v => if v % 2 = 1 ∧ s.now ≥ v / 2 + holdoff s n then rxSignal s n else s
  | none => s

/-- An RX ring delivers the copy in flight into a buffer at an address (R600 to R602). -/
def rxDeliver (s : State) (n addr bufLen : Nat) : State :=
  let a := rxRing n
  match mapGet? s.inFlight (128 + n) with
  | some c =>
    if !(pcieUp s) || !(running s (hrxPage n)) || ringHead s a == ringTail s a || !((getFrame s c.frame).committed) then s
    else
      let bs := receivedForm s c
      let trunc := decide (bufLen < bs.length)
      let desc := copyDesc s n c (min bufLen bs.length) trunc
      let s := send s (128 + n) .dmaWrite [addr] (bs.take bufLen)
      let s := send s (128 + n) .dmaWrite [descAddr s a (ringHead s a) + 16] desc
      let s := if trunc then incSat (setBit s (a + 0x14) 1) (a + 0x18) else s
      let s := latency (handled (addStat (advanceHead s a) (a + 0x1C) 1) (hrxPage n)) (128 + n) c.cls (readyAt s c)
      let s := if (getFrame s c.frame).poison || (getFur s (rxRing n)).failed then
          { s with hrxErrs := mapPut 0 s.hrxErrs n (mapGet 0 s.hrxErrs n + 1) }
        else s
      noteStuck (flightOver (rxSignal s n) (128 + n)) (128 + n)
  | none => s

end Sys2Proof.Machine
end

