-- ==== Sys2Proof/Machine/HarrowPass.lean ====
section
/-! DEFINITION. The harrows' passes and their quick judgements (06_learning_and_table_integrity.md, R242 to R253; R290, R291,
R500). -/
namespace Sys2Proof.Machine

/-- A harrow's tables that the variant has, in the order of its pass. -/
def harrowTables (s : State) (h : Nat) : List Nat :=
  (passOrder h).filter (fun c => (tableInfo s.fuses (harrowTable h c).1 (harrowTable h c).2).isSome)

/-- Entries of a harrow's table. -/
def harrowSize (s : State) (h code : Nat) : Nat :=
  match tableInfo s.fuses (harrowTable h code).1 (harrowTable h code).2 with
  | some ti => ti.entries
  | none => 0

/-- The table code and the index of the next entry of a harrow's pass. -/
def harrowAt (s : State) (h : Nat) : Nat × Nat :=
  match mapGet? s.harrowPos h with
  | some p => (p / 2 ^ 20, p % 2 ^ 20)
  | none => ((harrowTables s h).headD 0, 0)

/-- The pass moves on to the next entry; a pass that ends is counted (R243). -/
def harrowStep (s : State) (h : Nat) : State :=
  let (code, i) := harrowAt s h
  if i + 1 < harrowSize s h code then { s with harrowPos := mapSet s.harrowPos h (code * 2 ^ 20 + i + 1) }
  else
    match ((harrowTables s h).dropWhile (fun c => c != code)).drop 1 with
    | c :: _ => { s with harrowPos := mapSet s.harrowPos h (c * 2 ^ 20) }
    | [] =>
      let a := (harrowRegs h).pg + (harrowRegs h).passes
      let s := { s with harrowPos := mapDel s.harrowPos h }
      if (harrowRegs h).passes = 0 then s else wr s a ((rd s a + 1) % 2 ^ 24)

/-- A harrow compares nothing in a parked region, and no table that a turn writes (R253, R452). -/
def harrowRests (s : State) (h code : Nat) : Bool :=
  (decide (h < 4) && parked s h) ||
    (inTurn s &&
      (match tableInfo s.fuses (harrowTable h code).1 (harrowTable h code).2 with
       | some ti => ti.shadow
       | none => false))

/-- HARROW_COMPARE: the next entry of a pass (R243, R244, R252); one that is flagged too is judged once (R247). -/
def harrowCompare (s : State) (h : Nat) (liveBad shadowBad readBack : Bool) : State :=
  let (code, i) := harrowAt s h
  if harrowRests s h code then s
  else harrowStep (harrowJudge { s with harrowFlags := s.harrowFlags.erase (h, code, i) } h code i liveBad shadowBad readBack) h

/-- HARROW_FLAG_JUDGE: the entry flagged first (R247); a pass that stands at the entry goes on behind it, which is so judged once. -/
def harrowFlag (s : State) (h : Nat) (liveBad shadowBad readBack : Bool) : State :=
  match s.harrowFlags.find? (fun f => f.1 == h) with
  | some f =>
    if harrowRests s h f.2.1 then s
    else
      let here := harrowAt s h == f.2
      let s := harrowJudge { s with harrowFlags := s.harrowFlags.erase f } h f.2.1 f.2.2 liveBad shadowBad readBack
      if here then harrowStep s h else s
  | none => s

end Sys2Proof.Machine
end

