-- ==== Sys2Proof/Machine/Monitors.lean ====
section
/-! DEFINITION. Pace and monitors (15_errors_and_monitors.md, R544 to R551; R25, R27, R629). -/
namespace Sys2Proof.Machine

/-! ## Pace (R544 to R546) -/

/-- The page that reports the pace of a region 0 to 3 or of the chip, 4 (R25). -/
def pacePageOf (i : Nat) : Nat := if i < 4 then regionBase i else pacePage

/-- Windows at 1,024 or more that end an excursion: 2 ms of 10 µs windows (R546). -/
def paceGood : Nat := 200

/-- PACE_WARN.LEVEL in force (R545). -/
def paceWarn (s : State) : Nat := max 1024 (fld s (pacePage + 0x40) 11 0)

/-- HEALTH of a pace (R544). -/
def paceHealth (s : State) (v : Nat) : Nat := if v < 1024 then 2 else if v < paceWarn s then 1 else 0

/-- A period that began at the last end of one, or at 0, is over. -/
def periodOver (s : State) (pg ticks : Nat) : Bool := decide (mapGet 0 s.sampledAt pg + ticks ≤ s.now)

/-- The last period that is over has ended: the next begins at its end. -/
def periodNext (s : State) (pg ticks : Nat) : State :=
  let from_ := mapGet 0 s.sampledAt pg
  { s with sampledAt := mapSet s.sampledAt pg (from_ + (s.now - from_) / ticks * ticks) }

/-- A pace window of 10 µs ends with a reading (R544 to R546). A parked region measures none. -/
def paceWindow (s : State) (i v : Nat) : State :=
  if (i < 4 ∧ parked s i) ∨ !(periodOver s (pacePageOf i) (usTicks 10)) then s
  else
    let s := periodNext s (pacePageOf i) (usTicks 10)
    let v := min v 0xFFF
    let s := wr s (pacePageOf i + 0x30) (paceHealth s v * 2 ^ 22 + v)
    let a := pacePage + 0x44 + 4 * i
    let s := if v < fld s a 11 0 then setFld s a 11 0 v else s
    let st : PaceState := mapGet { inExcursion := false, goodWindows := 0 } s.pace i
    if v < 1024 then
      let s := { s with pace := mapSet s.pace i { inExcursion := true, goodWindows := 0 } }
      if st.inExcursion then s
      else
        let s := raisePlain (setBit s (pacePage + 0x58) i) (pacePageOf i) 0x08 i
        if i = 4 then refreshHealth s else s
    else if st.inExcursion then
      if st.goodWindows + 1 ≥ paceGood then
        let s := { s with pace := mapDel s.pace i }
        if i = 4 then refreshHealth s else s
      else { s with pace := mapSet s.pace i { inExcursion := true, goodWindows := st.goodWindows + 1 } }
    else s

/-! ## Monitors (R547 to R551) -/

/-- MON_CTRL.PERIOD in force, in ticks: µs for QUEUE and INPUT, ms for BUS_LOAD (R548, R551), and the 10 µs window of PACE;
LATENCY samples each copy. -/
def monPeriod (s : State) (pg : Nat) : Nat :=
  let n := clamp 1 10000 (fld s (pg + 0x44) 13 0)
  match monKind s pg with
  | 2 | 3 => usTicks n
  | 4 => msTicks n
  | 5 => usTicks 10
  | _ => 0

/-- MONITOR_SAMPLE (R548, R549): a kind that samples by periods does so when one is over, of what the gateway holds or has
measured. LATENCY samples with each copy, as its first bit leaves. -/
def monSample (s : State) (pg : Nat) : State :=
  let port := fld s (pg + 0x40) 20 13
  let from_ := mapGet 0 s.sampledAt pg
  if edgeErr s pg || !(periodOver s pg (monPeriod s pg)) then s
  else
    let s := if monPeriod s pg = 0 then s else periodNext s pg (monPeriod s pg)
    match monKind s pg with
    | 2 => monTake s pg (queuedPlots s port)
    | 3 => monTake s pg (areaUse s port .res + areaUse s port .sh + areaUse s port .hr)
    | 4 => monTake s pg (min (busyLoad s port from_ (mapGet 0 s.sampledAt pg)) 1000)
    | 5 => if port < 4 ∧ parked s port then s else monTake s pg (fld s (pacePageOf port + 0x30) 11 0)
    | _ => s

/-- MON_CMD.SNAP, with or without CLEAR (R550). -/
def monSnap (s : State) (pg : Nat) (clear : Bool) : State :=
  let l := mapGet emptyLive s.monLive pg
  let s := wr (wr (wr s (pg + 0x90) l.min) (pg + 0x94) l.max) (pg + 0x98) l.count
  let s := forEach (List.range 16) s (fun s k => wr s (pg + 0xA0 + 4 * k) (mapGet 0 l.bins k))
  if clear then { s with monLive := mapDel s.monLive pg } else s

/-- A write of MON_SRC or MON_CTRL (R550): the register takes its value, and the live set is cleared in the same step. -/
def monConfig (s : State) (req pg : Nat) (ctrl : Bool) (v : Nat) : State :=
  softWord { s with monLive := mapDel s.monLive pg, sampledAt := mapSet s.sampledAt pg s.now } req (if ctrl then pg + 0x44 else pg + 0x40) v

end Sys2Proof.Machine
end

