-- ==== Sys2Proof/Machine/Power.lean ====
section
/-! DEFINITION. Power states, supervisors, boot and resets (18_startup_and_power_states.md, R642 to R660; R13, R435 to R438,
R444, R450, R677). -/
namespace Sys2Proof.Machine

/-! ## States and votes (R642 to R646) -/

/-- PWR_STAT.STATE: 0 OFF, 1 STANDBY, 2 BOOT, 3 ACTIVE, 4 PARTIAL. -/
def powerState (s : State) : Nat := fld s (pwrPage + 0x40) 23 21
/-- The core runs outside BOOT. -/
def coreUp (s : State) : Bool := decide (3 ≤ powerState s)

/-- A supervisor with no vote. -/
def noSup : SupSt :=
  { por := false, wake := false, alive := false, waitFrom := none, silentTo := none, stopped := false, tries := 0, lapsedAt := none }
def getSup (s : State) (d : Nat) : SupSt := mapGet noSup s.sup d
def putSup (s : State) (d : Nat) (u : SupSt) : State := { s with sup := mapSet s.sup d u }

/-- At least one vote of a supervisor holds, and is not withheld after a failure (R646, R647). -/
def votes (u : SupSt) : Bool := (u.por || u.wake || u.alive) && u.silentTo.isNone && !u.stopped
/-- POWER_REQ is asserted (R645). -/
def powerReq (s : State) : Bool := votes (getSup s 0) || votes (getSup s 1)

/-- PGOOD_FAILS of a supervisor (R647, R659). -/
def pgoodFails (s : State) (d : Nat) : Nat := fld s (supPage d + 0x40) 16 15

/-- A wake event latched by a supervisor (R646, R647): kept for the next ACTIVE, with the WAKE vote. A supervisor that had
stopped voting votes afresh, with a new series of attempts; PGOOD_FAILS stands until a boot reaches ACTIVE. -/
def latchWake (s : State) (d cause who : Nat) : State :=
  let u := getSup s d
  let asks := if votes u || coreUp s then u.waitFrom else some s.now
  let s := putSup s d { u with wake := true, stopped := false, tries := if u.stopped then 0 else u.tries, waitFrom := asks }
  if s.latched.contains (cause, who) then s else { s with latched := s.latched ++ [(cause, who)] }

/-! ## Resets (R652) -/

/-- Registers that a core reset keeps: what they show lies in the seedbed or in a supervisor (R444, R652, R659). -/
def keptRegs (s : State) : NMap Word :=
  s.regs.filter (fun e =>
    [updPage + 0x44, updPage + 0x48, updPage + 0x4C, updPage + 0x50, updPage + 0x54, updPage + 0x58,
      updPage + 0x64].contains e.1)

/-- A reset cuts a fall-back short whose swap the journal holds (R572): its bookkeeping stands, so that the next boot loads the
image that was running. -/
def cutTurn (s : State) : State :=
  match s.turn with
  | some t => turnEnd { s with turn := some { t with until_ := s.now } }
  | none => s

/-- A core reset (R652): everything takes its reset value but the seedbed, the fuses and the supervisors' state; the
commands that wait and what has left the device stay. -/
def coreReset (s : State) (st : Nat) : State :=
  let s := cutTurn (lcCut s)
  let r : State := { State.reset with
    pending := s.pending, fuses := s.fuses, now := s.now, tbFrom := s.now, outbox := s.outbox, msix := s.msix, hostRead := s.hostRead
    freeCtr := s.freeCtr, trxMode := s.trxMode, armed := s.armed, failsafe := s.failsafe, heartbeatAt := s.heartbeatAt
    fallowKnown := if s.fallow.isEmpty then s.fallowKnown else s.fallow
    latched := s.latched, keyRecs := s.keyRecs, fvSaved := s.fvSaved, roots := s.roots, fuseLc := s.fuseLc
    fuseEpoch := s.fuseEpoch, ledger := s.ledger, roster := s.roster, unrostered := s.unrostered, banks := s.banks
    settings := s.settings, settingsOld := s.settingsOld, sup := s.sup, power := s.power, winKept := s.winKept
    regs := keptRegs s }
  let r := wr (setFld r updStat 23 22 (fld s updStat 23 22)) (hubPage + 0x48) s.power.operStored
  let r := forEach [0, 1] r (fun r d => setFld r (supPage d + 0x40) 16 15 (pgoodFails s d))
  let r := forEach (busPorts s.fuses) r (fun r p =>
    setFld (putBit r (wkChst p) 23 (muted s p)) (wkChst p) 15 8 (fld s (wkChst p) 15 8))
  setFld (noteRoster r) (pwrPage + 0x40) 23 21 st

/-- A brown-out (R654, R677): the core die is reset; the supply that failed first is recorded at the next boot. -/
def brownOut (s : State) (supply : Nat) : State :=
  let first := match s.power.brownSupply with
    | some d => d
    | none => supply
  coreReset { s with power := { s.power with brownSupply := some first, nextCause := 4, goodbyeAt := none, ranBefore := [] } } 2

/-! ## The boot sequence (R648 to R651) -/

/-- Fuse data read at step 2 (R486, R487, R579, R649): a root that fails its check counts as absent; what fails is permanent and
has no spare (R526, R537). -/
def bootFuses (s : State) (m : BootMeets) : State :=
  let a := lcPage + 0x40
  let s := setFld (setFld s a 23 21 s.fuseLc) a 20 18 s.fuseLc
  let s := setFld s (lcPage + 0x50) 5 0 s.fuseEpoch
  forEach s.roots s (fun s r =>
    if m.roots.contains r.1 || decide (rootBroken ≤ r.2) then countFault s lcPage 0 0x1F r.1 true else setBit s a (9 + r.1))

/-- The identity of the transceiver dice comes over their status lanes (R552): a word with bad parity reads 0, and the chip
control page raises the record. `bad` numbers the words of T0 and T1, four each. -/
def bootIdentity (s : State) (bad : List Nat) : State :=
  forEach bad s (fun s w => countFault (wr s (chipPage + 0x90 + 4 * w) 0) chipPage 0 0x16 (w / 4) false)

/-- What a record raised before the next has reached its levels when the next is raised: the steps of a boot do not fall into one
moment (R530). -/
def bootStep (f : State → State) (s : State) : State := escServe (f s)

/-- One spare row of a page taken, as the roster says (R172, R255, R262, R294, R501, R650). -/
def bootSpare (s : State) (pg row : Nat) : State :=
  match kindOf s.fuses pg with
  | 0x24 => setFld s (pg + 0x40) 22 16 (fld s (pg + 0x40) 22 16 - 1)
  | 0x29 => setFld s (pg + 0x68) 20 16 (fld s (pg + 0x68) 20 16 - 1)
  | 0x1F =>
    let (h, code) :=
      if 16 ≤ row / 2 ^ 24 then (row / 2 ^ 24 - 16, 4)
      else
        let h := harrowOf pg (row % 2 ^ 24)
        (h, ((passOrder h).find? (fun c => harrowTable h c == (pg, row / 2 ^ 24))).getD 0)
    if sparesLeft s h code = 0 then s
    else setFld s (spareAddr h code) (if h = 5 then 3 else 5) 0 (sparesLeft s h code - 1)
  | _ => s

/-- One roster entry reapplied (R650). -/
def bootRoster (s : State) (e : RosterEntry) : State :=
  let pg := e.page * 0x1000
  match e.kind with
  | 0 => s
  | 1 =>
    let s := { s with fallow := if s.fallow.contains pg then s.fallow else pg :: s.fallow }
    match kindOf s.fuses pg with
    | 0x03 => setFld s (pg + 0x44) 2 0 6
    | 0x06 => setBit s (linStatus (instanceOf 0x06 pg)) 15
    | 0x09 => setBit s (ethLink (88 + instanceOf 0x09 pg)) 18
    | 0x42 => setBit s (pg + 0x40) 23
    | 0x46 => setBit s (pg + 0x54) 4
    | 0x56 => setBit s (lnkStat (instanceOf 0x56 pg)) 22
    | _ => s
  | 2 => wr s (sparePage (instanceOf 0x03 pg) + 0x40) (0x800000 + (instanceOf 0x03 pg % 8 + 1))
  | 3 => bootSpare s pg e.row
  | 4 =>
    if kindOf s.fuses pg = 0x24 then
      setFld { s with rowsOut := (instanceOf 0x24 pg, e.row) :: s.rowsOut } (pg + 0x40) 14 0 (fld s (pg + 0x40) 14 0 + 1)
    else s
  | _ => { s with keysRetired := e.row :: s.keysRetired }

/-- A location that fails its boot test is permanent at once (R649); `detail` is the table's code, or the slot within a row of the
signal store. -/
def bootTest (s : State) (pg row detail : Nat) : State :=
  match kindOf s.fuses pg with
  | 0x24 => remedyRow (permanentRec s pg row 0x12 (instanceOf 0x24 pg)) (instanceOf 0x24 pg) row
  | 0x1F =>
    if pg = grpTable then repaired s (row / 4096 % 4) 4 (row % 4096) false
    else if harrowed pg then repaired s (harrowOf pg row) detail row false
    else s
  | 0x29 => slotParity s (row * 64 + detail % 64) false
  | 0x42 => laneToFallow (permanentRec s pg 0 0x1B (instanceOf 0x42 pg)) (instanceOf 0x42 pg) 0x1B
  | 0x46 => cvToFallow (permanentRec s pg 0 0x1C (instanceOf 0x46 pg)) (instanceOf 0x46 pg) 0x1C
  | _ => s

/-- The wakes latched before this ACTIVE, shown by each supervisor's page (R659). -/
def showLatched (s : State) : State :=
  forEach s.latched s (fun s w =>
    if w.1 = 2 then setBit s (supPage (w.2 / 2) + 0x4C) (18 + w.2 % 2)
    else
      let a := supPage (dieOf w.2)
      if w.2 < 64 then
        let i := w.2 % 32
        if i < 24 then setBit s (a + 0x44) i else setBit s (a + 0x48) (16 + (i - 24))
      else if w.2 < 88 then setBit s (a + 0x48) (4 + (w.2 - 64) % 12)
      else
        let i := (w.2 - 88) % 8
        if i < 4 then setBit s (a + 0x48) i else setBit s (a + 0x4C) (20 + (i - 4)))

/-- The wake settings that the supervisors keep (R438, R644): EDGE and FILT_US of each pin. -/
def keepWakeSettings (s : State) : State :=
  { s with winKept := (List.range 4).map (fun k =>
      let a := clusterPage + 0x60 + 4 * k
      (k, fld s a 23 22 * 1024 + clamp 10 1000 (fld s a 21 12))) }

/-- Step 7 (R435, R449, R643, R647, R654): ACTIVE; the latched wakes delivered, transceiver modes commanded, and the records
of what preceded the boot raised. -/
def enterActive (s : State) (us : Nat) : State :=
  let s := { s with now := s.now + usTicks us }
  let s := wr (setFld s (pwrPage + 0x40) 23 21 3) (pwrPage + 0x58) (min us 0xFFFFFF)
  let s := { showLatched s with
    activeAt := s.now, tickAt := s.now, tick := 0, failsafe := [], fallowKnown := [], power := { s.power with minutes := 0, trialMinutes := 0 } }
  let s := refreshAll (evalAll (clustersAtActive s))
  let s := keepWakeSettings s
  let s := forEach [0, 1] s (fun s d =>
    if pgoodFails s d = 0 then s else setFld (raisePlain s pwrPage 0x3E d) (supPage d + 0x40) 16 15 0)
  let s := match s.power.brownSupply with
    | some d => raisePlain { s with power := { s.power with brownSupply := none } } pwrPage 0x3F d
    | none => s
  let s := noteHeld (refreshHealth s)
  if running s drillPage then drillWork s [] else s

/-- RST_CAUSE.CAUSE of a boot (R658): the cause that waits, else the vote that asked for power. -/
def bootCause (s : State) : Nat :=
  if s.power.nextCause ≠ 0 then s.power.nextCause
  else if !s.failsafe.isEmpty && ((getSup s 0).wake || (getSup s 1).wake) then 5
  else if (getSup s 0).por || (getSup s 1).por then 1
  else 2

/-- The first heartbeat word of a boot reaches a supervisor (R646, R647). -/
def firstHeartbeat (s : State) (d : Nat) : State :=
  putSup { s with heartbeatAt := mapSet s.heartbeatAt d s.now } d
    { getSup s d with alive := true, waitFrom := none, tries := 0, lapsedAt := none }

/-- What the rest of the system area gives with a failed check at boot (R554, R555): each is a seedbed fault, and its content a
free value: 0 the update journal, 1 HUB_OPER_MIN, 2 VERSION_FLOOR; entry i of the fault ledger, number 3 + i, is there or not. -/
def storeAtBoot (s : State) (bad : List Nat) : State :=
  forEach bad s (fun s i =>
    let (r, s) := drawNat (bootStep (fun s => seedFault s 2) s)
    match i with
    | 0 =>
      let s := setBank (setBank (setFld s updStat 23 22 (r % 4)) 0 (r / 4 % 8)) 1 (r / 32 % 8)
      setFld (setFld s (updPage + 0x64) 23 13 (r / 256 % 2 ^ 11)) (updPage + 0x64) 1 0 (r / 2 ^ 19 % 4)
    | 1 => wr { s with power := { s.power with operStored := r % 2 ^ 24 } } (hubPage + 0x48) (r % 2 ^ 24)
    | 2 => wr s (updPage + 0x54) (r % 2 ^ 24)
    | n + 3 => if r % 2 = 0 then { s with ledger := mapDel s.ledger n } else s)

/-- The boot sequence of R648, from core supply good to ACTIVE. -/
def boot (s : State) (m : BootMeets) : State :=
  let cause := bootCause s
  let s := coreReset { s with power := { s.power with nextCause := 0, goodbyeAt := none, ranBefore := [] } } 2
  let s := setFld s (pwrPage + 0x54) 23 21 cause
  let s := forEach [0, 1] (bootIdentity (bootFuses s m) m.identity) firstHeartbeat
  let s := storeAtBoot s m.store
  let s := forEach s.roster s (fun s e =>
    if m.roster.contains e.1 then bootStep (fun s => seedFault s 2) s else bootRoster s e.2)
  let s := s.unrostered.foldl bootRoster s
  let s := forEach m.tests s (fun s t => if isFallow s t.1 then s else bootStep (fun s => bootTest s t.1 t.2.1 t.2.2) s)
  let s := drbgReady (setBit s (entPage + 0x40) 23)
  let s := bootService (freshnessAtBoot (imageLoad (keysAtBoot s m.keys m.keyReads) m.banks m.keyWords) m.settings)
  enterActive s m.us

/-- Every core supply becomes good (R643, R648, R677): the core boots while a supervisor votes and REFCLK runs. -/
def supplyGood (s : State) (m : BootMeets) : State :=
  let s := { s with power := { s.power with supplyGood := true } }
  if (powerState s = 1 ∨ powerState s = 2) ∧ powerReq s ∧ !s.power.refLost then boot s m else s

/-! ## Supervisors (R13, R438, R444, R450, R644 to R647) -/

/-- VBAT rises above VBAT_POR (R644). -/
def vbatOn (s : State) : State :=
  if powerState s = 0 then
    let s := { s with
      trxMode := (busPorts s.fuses).map (fun p => (p, 2))
      armed := (busPorts s.fuses).map (fun p => (p, if p < 64 then 10 else if p < 88 then 80 else 2))
      winKept := [], latched := [], failsafe := [] }
    let s := forEach [0, 1] s (fun s d => putSup s d { noSup with por := true, waitFrom := some s.now })
    setFld s (pwrPage + 0x40) 23 21 1
  else s

/-- VBAT falls below VBAT_POR (R643, R652): OFF; the supervisors' settings are lost. -/
def vbatOff (s : State) : State :=
  let s := forEach (busPorts s.fuses) s (fun s p => setFld (clrBit s (wkChst p) 23) (wkChst p) 15 8 0)
  let s := forEach [0, 1] s (fun s d => putSup (setFld s (supPage d + 0x40) 16 15 0) d noSup)
  let s := { s with
    armed := [], winKept := [], latched := [], failsafe := [], heartbeatAt := [], unrostered := []
    trxMode := (busPorts s.fuses).map (fun p => (p, 2))
    power := { State.reset.power with
      supplyGood := s.power.supplyGood, refLost := s.power.refLost, perst := s.power.perst, operStored := s.power.operStored } }
  { coreReset s 0 with fallowKnown := [] }

/-- No heartbeat came within 100 ms of POWER_REQ (R647). -/
def pgoodTimeout (s : State) (d : Nat) : State :=
  let u := getSup s d
  match u.waitFrom with
  | some t =>
    if votes u && decide (t + msTicks 100 ≤ s.now) then
      let n := u.tries + 1
      let s := setFld s (supPage d + 0x40) 16 15 (min 3 (pgoodFails s d + 1))
      putSup s d { u with
        waitFrom := none, tries := n, stopped := decide (3 ≤ n)
        silentTo := if 3 ≤ n then none else some (s.now + secTicks 1) }
    else s
  | none => s

/-- The second without votes ends (R647). -/
def voteRetry (s : State) (d : Nat) : State :=
  let u := getSup s d
  match u.silentTo with
  | some t => if t ≤ s.now then putSup s d { u with silentTo := none, waitFrom := some s.now } else s
  | none => s

/-- 100 µs have passed since the last heartbeat word (R13). -/
def beatDue (s : State) : Bool := s.heartbeatAt.all (fun e => decide (e.2 + usTicks 100 ≤ s.now))

/-- A heartbeat word leaves for both supervisors (R13, R450, R646): the first of a boot sets ALIVE; a die that stood in
FAILSAFE has its modes commanded again. -/
def heartbeat (s : State) : State :=
  if coreUp s && s.power.goodbyeAt.isNone && beatDue s then
    forEach [0, 1] s (fun s d =>
      let s := firstHeartbeat (send s d .heartbeat [] []) d
      if s.failsafe.contains d then
        let s := { s with failsafe := s.failsafe.filter (fun e => e != d) }
        forEach ((busPorts s.fuses).filter (fun p => dieOf p == d)) s refreshTrx
      else s)
  else s

/-- The channels of a die enter FAILSAFE (R449, R450). -/
def failsafeDie (s : State) (d : Nat) : State :=
  if s.failsafe.contains d then s
  else
    let s := { s with failsafe := d :: s.failsafe }
    forEach ((busPorts s.fuses).filter (fun p => dieOf p == d)) s refreshTrx

/-- The heartbeat has lapsed for 4 ms (R450). -/
def heartbeatLapse (s : State) (d : Nat) : State :=
  match mapGet? s.heartbeatAt d with
  | some t =>
    if t + msTicks 4 ≤ s.now ∧ powerState s ≠ 0 ∧ s.power.goodbyeAt.isNone ∧ !(s.failsafe.contains d) then
      let s := failsafeDie s d
      putSup s d { getSup s d with lapsedAt := some s.now }
    else s
  | none => s

/-- One second after the lapse the ALIVE vote is withdrawn (R450, R646). -/
def voteWithdraw (s : State) (d : Nat) : State :=
  match (getSup s d).lapsedAt with
  | some t => if t + secTicks 1 ≤ s.now then putSup s d { getSup s d with alive := false, lapsedAt := none } else s
  | none => s

/-! ## Orderly entry into STANDBY (R655, R656) -/

/-- Steps 1 and 2 begin: every page that runs is asked to stop. `bits` is what PWR_CMD reads meanwhile. -/
def entryBegin (s : State) (bits : Nat) : State :=
  let ran := allPages.filter (ownRunning s)
  let s := setBit { s with power := { s.power with ranBefore := ran, standbyBits := bits } } (pwrPage + 0x40) 20
  forEach ran s (fun s pg => pageCtrl s pg false true false)

/-- A wake granted before the goodbye word aborts the entry (R656). -/
def entryAbort (s : State) : State :=
  if bit s (pwrPage + 0x40) 20 then
    let ran := s.power.ranBefore
    let s := setBit (clrBit { s with power := { s.power with ranBefore := [] } } (pwrPage + 0x40) 20) (pwrPage + 0x50) 1
    forEach ran s (fun s pg => pump { s with trigQ := mapSet s.trigQ pg (trigsOf s pg ++ [.run]) } pg)
  else s

/-- Every page has stopped (R655 steps 2 to 5): copies discarded, the wake settings sent, detectors armed, transceivers asleep,
and the goodbye word sent. -/
def entryEnd (s : State) : State :=
  if !(bit s (pwrPage + 0x40) 20) then s
  else
    let s := forEach (s.trigQ.map (fun q => q.1)) s pumpAll
    let s := forEach inputs s (fun s o => discardCopies s o (egrDown o) (fun _ => true))
    let s := keepWakeSettings s
    let s := forEach (busPorts s.fuses) s (fun s p =>
      let arm := bit s (wkCh p) 17 && !(muted s p) && !(chanFallow s p) && (clusterOf s p).isSome
      if arm then (if (mapGet? s.armed p).isSome then s else { s with armed := mapSet s.armed p (filtOf s p) })
      else { s with armed := mapDel s.armed p })
    let s := forEach (busPorts s.fuses) s (fun s p =>
      if mapGet 0 s.trxMode p = 2 then s else send { s with trxMode := mapSet s.trxMode p 2 } p .modeWord [2] [])
    let s := forEach [0, 1] s (fun s d =>
      putSup (send s d .goodbye [] []) d { getSup s d with por := false, wake := false, alive := false, waitFrom := none, lapsedAt := none })
    clrBit { s with heartbeatAt := [], power := { s.power with goodbyeAt := some s.now, operStored := operMin s } } (pwrPage + 0x40) 20

/-- PWR_CMD.STANDBY (R655). -/
def standbyCommand (s : State) (force : Bool) : State :=
  if coreUp s && (force || clustersAsleep s) then
    (if bit s (pwrPage + 0x40) 20 || s.power.goodbyeAt.isSome then s else entryBegin s (1 + b2n force * 4))
  else setBit s (pwrPage + 0x50) 0

/-- An automatic entry (R655): its conditions have held for STBY_DELAY_MS. -/
def autoStandby (s : State) : State :=
  if coreUp s && bit s (pwrPage + 0x44) 23 && clustersAsleep s && [0, 1, 2, 3].all (parked s) &&
      heldFor s 4 (msTicks (max 10 (fld s (pwrPage + 0x44) 11 0))) &&
      !(bit s (pwrPage + 0x40) 20) && s.power.goodbyeAt.isNone then entryBegin s 0
  else s

/-- The core supply is still good 50 ms after the goodbye word while a vote holds (R656). -/
def standbyHold (s : State) (m : BootMeets) : State :=
  match s.power.goodbyeAt with
  | some t =>
    if t + msTicks 50 ≤ s.now ∧ s.power.supplyGood ∧ powerReq s then
      boot { s with power := { s.power with nextCause := 6 } } m
    else s
  | none => s

/-- The core supply is removed (R643, R655): after an orderly entry STANDBY, otherwise a brown-out of VDD_CORE. -/
def supplyRemoved (s : State) : State :=
  let s := { s with power := { s.power with supplyGood := false } }
  if s.power.goodbyeAt.isSome then
    coreReset { s with unrostered := [], power := { s.power with goodbyeAt := none, ranBefore := [] } } 1
  else if coreUp s then brownOut s 0
  else s

/-- A core supply leaves its range (R654). -/
def supplyFails (s : State) (supply : Nat) : State :=
  let s := { s with power := { s.power with supplyGood := false } }
  if 2 ≤ powerState s then brownOut s supply else s

/-- REFCLK stops or departs (R677), and returns. -/
def refclkLost (s : State) : State :=
  let s := { s with power := { s.power with refLost := true } }
  if 2 ≤ powerState s then brownOut s 2 else s
def refclkBack (s : State) (m : BootMeets) : State :=
  let was := s.power.refLost
  let s := { s with power := { s.power with refLost := false } }
  if was && decide (powerState s = 2) && s.power.supplyGood && powerReq s then boot s m else s

/-! ## Commands (R653, R655, R658) -/

/-- The core resets itself for a warm reset (R653): every channel in FAILSAFE without a lapse, votes kept. -/
def warmReset (s : State) : State :=
  let s := forEach [0, 1] s (fun s d => failsafeDie (send s d .heartbeat [1] []) d)
  coreReset { s with power := { s.power with nextCause := 3, goodbyeAt := none, ranBefore := [] } } 2

/-- PWR_CMD by a requester (R653, R655, R658, R660): the state after the write, and whether the core is to boot. -/
def pwrCommand (s : State) (req : Nat) (force warm standby : Bool) : State × Bool :=
  let a := pwrPage + 0x4C
  if reqPf req = 1 then (lockViolation s req a, false)
  else
    let code := fld s (pwrPage + 0x48) 23 12
    let s := wr s (pwrPage + 0x48) 0
    if warm && standby then (setBit s (pwrPage + 0x50) 2, false)
    else if warm then (if code = 0x3C3 then (warmReset s, true) else (setBit s (pwrPage + 0x50) 2, false))
    else if standby then (standbyCommand s force, false)
    else (s, false)

/-- PWR_CMD.WARM with what the boot meets. -/
def warmBoot (s : State) (req : Nat) (m : BootMeets) : State :=
  let (s, goes) := pwrCommand s req false true false
  if goes then boot s m else s

/-! ## Wake events (R436 to R438, R450, R651, R656) -/

/-- A wake of a supervisor reaches the core, or is latched (R450, R646, R651, R656); `report` is what the core does with it. -/
def wakeGranted (s : State) (d cause who : Nat) (report : State → State) : State :=
  if coreUp s && !(s.failsafe.contains d) then
    if s.power.goodbyeAt.isSome then latchWake s d cause who else report (entryAbort s)
  else if powerState s = 0 then s
  else latchWake s d cause who

/-- An armed detector reports activity on its channel (R436, R437). -/
def wakeEvent (s : State) (p : Nat) : State :=
  if (mapGet? s.armed p).isNone then s else wakeGranted s (dieOf p) 1 p (fun s => wakeReport s p false)

/-- The supervisor's selection of an edge (R438, R644). -/
def keptSelects (s : State) (k : Nat) (rising : Bool) (heldUs : Nat) : Bool :=
  let w := mapGet (3 * 1024 + 100) s.winKept k
  let e := w / 1024
  (e == 3 || (e == 1 && rising) || (e == 2 && !rising)) && decide (w % 1024 ≤ heldUs)

/-- An edge of a WAKE_IN pin (R438). -/
def winEdge (s : State) (k : Nat) (rising : Bool) (heldUs : Nat) : State :=
  let chosen := if coreUp s then winSelected s k rising heldUs else keptSelects s k rising heldUs
  if chosen then wakeGranted s (k / 2) 2 k (fun s => winReport s k false) else s

/-! ## PCIe (R621, R652, R654) -/

/-- PERST_N low (R652, R654): domain 6 blocks 0 to 2 are reset, the rotations of block 1 among them (R17, R596;
notes/assumptions/127.md). -/
def perstAssert (s : State) : State :=
  let gone := fun (pg : Nat) => domainOf pg == 6 && decide (blockOf pg ≤ 2)
  let s := forEach ((List.range 16).map (fun n => 128 + n)) s (flightOver)
  let s := forEach ((List.range 8).map htxPage) s clearHeads
  let s := { s with
    regs := s.regs.filter (fun e => !(gone (pageOf e.1)))
    wide := s.wide.filter (fun e => !(gone (pageOf e.1)))
    bOld := s.bOld.filter (fun b => !(gone b.cell))
    furrows := s.furrows.filter (fun e => !(gone e.1))
    trigQ := s.trigQ.filter (fun e => !(gone e.1))
    capSeq := s.capSeq.filter (fun e => !(gone e.1))
    htxStalled := [], hrxSignal := [], hrxErrs := [], rrCell := mapDel (mapDel s.rrCell 65536) 0xC1
    power := { s.power with perst := true } }
  forEach ((List.range 16).map (fun n => 128 + n)) s refreshOutput

def perstRelease (s : State) : State := { s with power := { s.power with perst := false } }

/-- PCIE_STAT.WIDTH and SPEED after training (R590, R607): what the partner allows is not the gateway's, so both are free values
in their ranges. -/
def pcieTrained (s : State) : State :=
  let (w, s) := drawNat s
  let (v, s) := drawNat s
  setFld (setFld s (pciePage + 0x40) 22 20 (2 ^ (w % 3))) (pciePage + 0x40) 19 18 (1 + v % 3)

/-- The PCIe link trains, or goes down (R590, R621). -/
def pcieLink (s : State) (up : Bool) : State :=
  if up && (s.power.perst || decide (powerState s < 2)) then s
  else noteHeld (if up then pcieTrained (setBit s (pciePage + 0x40) 23) else setFld s (pciePage + 0x40) 23 18 0)

end Sys2Proof.Machine
end

