-- ==== Sys2Proof/Machine/Reads.lean ====
section
/-! DEFINITION. What a read of a register returns and does (02_register_interface.md, R9, R34 to R36, R58, R651): the cells
that State holds as registers, and those that show what State holds elsewhere. -/
namespace Sys2Proof.Machine

/-! ## Registers that show other state -/

/-- A slot of a furrow's counter group (R108). -/
def furSlot (s : State) (kind pg off : Nat) : Option Nat :=
  let f := getFur s pg
  let n := furWords f
  match off with
  | 0 => some f.items.length
  | 4 => some n
  | 8 => some (furCap kind pg)
  | 0x10 =>
    some (setBits (rd s (pg + (furGroup kind).getD 0 + 0x10)) 2 0
      (b2n (!f.openWords.isEmpty) * 4 + b2n (n == furCap kind pg) * 2 + b2n f.items.isEmpty))
  | _ => none

/-- ADM_USED.USED of an input (R138). -/
def usedNow (s : State) (p : Nat) : Nat := areaUse s p .res + areaUse s p .sh + areaUse s p .hr

/-- CAN_STATUS.ACT: 3 off the bus, 2 transmitting, 1 receiving, else idle (R360). -/
def canAct (s : State) (n : Nat) : Nat :=
  if !(canOnBus s n) then 3 else if (getCan s n).current.isSome then 2 else if (getCan s n).rxOpen then 1 else 0

/-- SUP_STAT.MODE and VOTE, HB_OK, VCC5_LOW, OVERTEMP (R659); VBAT_LOW is a measurement, drawn by the reader. -/
def supStat (s : State) (d low : Nat) : Nat :=
  let mode := if s.failsafe.contains d then 3 else if coreUp s then 2 else if powerState s = 2 then 1 else 0
  let trx := (List.range 32).map (fun i => rd s (canPage (32 * d + i) + 0x6C))
  let hb := coreUp s && !(s.failsafe.contains d) && s.power.goodbyeAt.isNone
  mode * 2 ^ 22 + b2n (votes (getSup s d)) * 2 ^ 21 + b2n hb * 2 ^ 20 + low % 2 * 2 ^ 19 +
    b2n (trx.any (fun w => w.testBit 4)) * 2 ^ 18 + b2n (trx.any (fun w => w.testBit 5)) * 2 ^ 17 + pgoodFails s d * 2 ^ 15

/-- The command bits that a command slot reads while its action runs, and the BUSY bit of a status slot (R9, R70, R215, R236,
R260, R488, R492, R508, R541, R566, R581, R655); none for other slots. -/
def commandSlot (s : State) (kind pg slot : Nat) : Option Nat :=
  let busy (st cmd i : Nat) : Option Nat :=
    if slot = cmd then some (cmdBits s (pg + cmd))
    else if slot = st then some (setBits (rd s (pg + st)) i i (b2n (cmdBusy s (pg + cmd))))
    else none
  match kind with
  | 0x21 | 0x29 | 0x43 => busy 0x48 0x44 1
  | 0x2A =>
    if slot = 0x5C then some (match inTurn s, s.turn with | true, some t => t.bits | _, _ => cmdBits s updCmd)
    else if slot = 0x40 then some (setBits (rd s (pg + 0x40)) 18 18 (b2n (updBusy s)))
    else busy 0x88 0x84 1
  | 0x2E => busy 0x5C 0x58 1
  | 0x0D => if slot = 0x5C then some (cmdBits s (pg + 0x5C)) else none
  | 0x44 => busy 0x40 0x48 17
  | 0x2F => if slot = 0x4C then some (if bit s (pg + 0x40) 20 then s.power.standbyBits else 0) else none
  | 0x46 => if slot = 0x50 then some (b2n (bit s (pg + 0x54) 1)) else none
  | _ => none

/-- The slots of a page kind that show other state; `x` is a free value for what is measured. None where the register cell itself
is read. DESIGN CHOICE: TP_STAT.WORDS shows the words of the table that TP_SEL selects from reset on, and 0 where it selects none
(R215; notes/assumptions/130.md). -/
def derivedSlot (s : State) (kind pg slot x : Nat) : Option Nat :=
  match kind with
  | 0x03 =>
    let n := instanceOf 0x03 pg
    if slot = 0x5C then some (setBits (rd s (pg + 0x5C)) 3 2 (canAct s n))
    else if slot = 0x6C then some (setBits (rd s (pg + 0x6C)) 1 0 (mapGet 0 s.trxMode n))
    else if slot = 0x74 then some (objInfo s n)
    else if 0x80 ≤ slot ∧ slot < 0x90 then some (objMap s n ((slot - 0x80) / 4) 23)
    else if 0x90 ≤ slot ∧ slot < 0xA0 then some (objMap s n ((slot - 0x90) / 4) 21)
    else if 0x204 ≤ slot ∧ slot ≤ 0x274 then some (objRead s n ((slot - 0x204) / 4 + 1))
    else if slot = 0x200 then some (objRead s n 0)
    else none
  | 0x06 =>
    if slot = 0x5C then some (setBits (rd s (pg + 0x5C)) 18 17 (mapGet 0 s.trxMode (64 + instanceOf 0x06 pg))) else none
  | 0x0D =>
    let r := domainOf pg
    if slot = 0x60 then some (learnedNow s r)
    else if slot = 0x64 then some (trackNow s r)
    else if slot = 0xB8 then some (quarNow s r)
    else none
  | 0x11 => if slot = 0x4C then some (b2n (edgeErr s pg)) else none
  | 0x1F =>
    if slot = 0x44 then some (cmdBits s (pg + 0x44))
    else if slot = 0x48 then
      let words := match tableInfo s.fuses pg (tpTable s pg) with
        | some ti => ti.words
        | none => 0
      some (setBits (setBits (rd s (pg + 0x48)) 23 19 words) 1 1 (b2n (cmdBusy s (pg + 0x44))))
    else if slot = 0x4C then some (setBits (rd s (pg + 0x4C)) 18 0 (pendCount s pg))
    else none
  | 0x23 =>
    if slot = 0x44 then
      some (setBits (setBits (rd s (pg + 0x44)) 3 3 (b2n (overcommit s))) 0 0
        (b2n (inputs.any (fun p => bit s (admUsed p) 23))))
    else if slot = 0x48 then some (poolSize s)
    else if slot = 0x4C then some (poolFree s)
    else if slot = 0x50 then some (usable s)
    else if slot = 0x54 then some (entriesFree s)
    else if 0x580 ≤ slot ∧ slot < 0x7C0 then some (setBits (rd s (pg + slot)) 16 0 (usedNow s ((slot - 0x580) / 4)))
    else none
  | 0x24 => if slot = 0x44 then some (bankFree s (instanceOf 0x24 pg)) else none
  | 0x25 =>
    if 0x7C0 ≤ slot ∧ slot < 0xA00 then some (queuedPlots s ((slot - 0x7C0) / 4) % 2 ^ 17)
    else if 0xE80 ≤ slot ∧ slot < 0xED0 then
      some (setBits (rd s (pg + slot)) 3 3
        (match mapGet? s.gateRun ((slot - 0xE80) / 4) with
          | some g => g.list
          | none => 0))
    else none
  | 0x26 =>
    let st := getStream s (fld s (rsqPage + 0x44) 9 0)
    if slot = 0x4C then some (st.held.length % 256 * 0x10000 + st.next % 0x10000)
    else if slot = 0x50 then some (s.streams.foldl (fun n e => n + e.2.held.length) 0 % 2 ^ 18)
    else none
  | 0x27 =>
    if slot = 0x4C then some (setBits (rd s (pg + 0x4C)) 4 4 (b2n (postponing s)))
    else if slot = 0x198 then some (quarNow s 4 % 2 ^ 17)
    else none
  | 0x28 => if slot = 0x40 then some (s.tick % 2 ^ 24) else none
  | 0x2C => if slot = 0x5C then some ((s.now - s.tbFrom) % 2 ^ 24) else none
  | 0x30 =>
    let d := instanceOf 0x30 pg
    if slot = 0x40 then some (supStat s d x)
    else if slot = 0x50 then some (x % 2 ^ 16)
    else if slot = 0x54 then some (x % 2 ^ 9)
    else none
  | 0x40 => if slot = 0x74 then some (quarNow s 5 % 2 ^ 11) else none
  | 0x52 =>
    if slot = 0x54 ∨ slot = 0x94 then
      some (setBits (rd s (pg + slot)) 2 2 (b2n (bit s (admUsed (128 + (cellOf pg - 1) + (if slot = 0x94 then 8 else 0))) 23)))
    else none
  | 0x54 =>
    if slot = 0x54 ∨ slot = 0x94 then
      let a := pg + slot - 0x14
      some (setBits (rd s (pg + slot)) 0 0 (b2n (fld s (a + 0x10) 15 0 == fld s (a + 0xC) 15 0)))
    else none
  | 0x57 =>
    if slot = 0x4C then some (setBits (rd s (pg + 0x4C)) 17 17 (b2n (leaseValid s)))
    else if slot = 0x54 then
      some (match s.pair.leaseEnd with
        | some e => min 0xFFFFFF ((e - s.now) / 200)
        | none => 0)
    else none
  | _ => none

/-- LOAD of a page (R544): what it handled per mille of its guaranteed item rate, over 10 µs, or 1 ms for a MAC cell; of a CAN,
LIN or T1S cell the bus busy time of the last 100 ms. The rate is open (notes/assumptions/128.md). -/
def loadOf (s : State) (kind pg : Nat) : Nat :=
  if !(running s pg) || (decide (domainOf pg < 4) && parked s (domainOf pg)) then 0
  else if kind = 0x03 ∨ kind = 0x06 ∨ (kind = 0x09 ∧ blockOf pg = 4) then
    busyLoad s ((portOfPage s.fuses pg).getD 0) (s.now - msTicks 100) (max s.now (msTicks 100))
  else
    let w := if kind = 0x09 then 200000 else 2000
    let n := ((mapGet [] s.handledAt pg).filter (fun t => decide (s.now < t + w))).length
    min 1023 (n * 1000 * 200000 / (Config.itemRate kind * w))

/-- The header slots that show other state (R40, R43, R45, R544): PAGE_STAT, and LOAD of pages that are not pace pages. -/
def derivedHeader (s : State) (kind pg slot : Nat) : Option Nat :=
  if slot = 0xC then
    some (setBits (setBits (rd s (pg + 0xC)) 0 0 (b2n (running s pg))) 2 2 (b2n (rd s (pg + 0x20) != 0)))
  else if slot = 0x30 ∧ !(pacePageIs pg) then some (loadOf s kind pg)
  else none

/-- A slot's value as a read returns it, `x` being a free value for what is measured. -/
def readSlot (s : State) (a x : Nat) : Nat :=
  let pg := pageOf a; let slot := slotOf a
  let kind := kindOf s.fuses pg
  match derivedHeader s kind pg slot with
  | some v => v
  | none =>
    let fur := match furGroup kind with
      | some b => if b ≤ slot ∧ slot < b + 0x1C then furSlot s kind pg (slot - b) else none
      | none => none
    match fur with
    | some v => v
    | none =>
      match commandSlot s kind pg slot with
      | some v => v
      | none =>
        match derivedSlot s kind pg slot x with
        | some v => v
        | none => rd s a

/-- What a read does before it takes the value: a mailbox data word stalls until the command that runs has completed (R74), a
command that has completed shows its results, and CAN_STATUS looks at the bus. -/
def readPrep (s : State) (pg slot : Nat) : State :=
  let kind := kindOf s.fuses pg
  if kind = 0x21 ∧ 0x4C ≤ slot then cmdAwait s (pg + 0x44)
  else if kind = 0x03 ∧ slot = 0x5C then canLook s pg
  else atAccess s pg

/-- A word of a CAN object of a parked region, whose message memory admits no access (R452). -/
def objRetained (s : State) (a : Nat) : Bool :=
  let pg := pageOf a
  kindOf s.fuses pg == 0x03 && parked s (domainOf pg) && decide (0x200 ≤ slotOf a) && decide (slotOf a ≤ 0x270)

/-- A slot whose value is a free value: what the supervisors measure, and a word that cannot be read (notes/assumptions/143.md). -/
def measured (s : State) (a : Nat) : Bool := kindOf s.fuses (pageOf a) == 0x30 || objRetained s a

/-! ## The read itself -/

/-- A register read that does not stall (R34, R58, R651): the value and the state after it. A slot that nothing answers for
reads 0. RC fields clear in the same step (R50); the last mailbox data word ends the snapshot (R73), a DRBG_OUT read takes
fresh bits (R485). An address within a slot reads the slot (R35). -/
def readReg (s : State) (a : Nat) : Nat × State :=
  let a := a / 4 * 4
  if !(bootReach s a) || (fieldsAt s.fuses a).isEmpty then (0, s)
  else
    let pg := pageOf a; let slot := slotOf a
    let kind := kindOf s.fuses pg
    if kind = 0x47 ∧ slot = 0x50 then drbgOut s
    else
      let s := readPrep s pg slot
      let (x, s) := if measured s a then drawNat s else (0, s)
      let v := if objRetained s a then x % 2 ^ 24 else readSlot s a x
      let s := clearRC s a
      (v, if kind = 0x21 ∧ 0x4C ≤ slot then mbxDataRead s (cellOf pg - 1) ((slot - 0x4C) / 4) else s)

/-- A pop register of a page (R112). -/
def isPop (s : State) (a : Nat) : Bool :=
  match popGroup (kindOf s.fuses (pageOf a)) with
  | some p => slotOf a == p
  | none => false

/-- A pop of a requester stalls here: every later access of the requester waits behind it (R51, R114). -/
def holdsUp (s : State) (req : Nat) : Bool := s.stalled.any (fun p => p.requester == req)

/-- An access that waits behind a stalled pop of its requester. -/
def holdAccess (s : State) (h : HeldAcc) : State := { s with held := s.held ++ [h] }

/-- A read by a requester whose turn has come: a pop may stall, any other read completes at once (R35, R114). -/
def readNow (s : State) (req a : Nat) : State :=
  if bootReach s a && isPop s a then furPop s req (pageOf a)
  else
    let (v, s) := readReg s a
    completeRead s req v

/-- A read by a requester, in the order of issue (R51). -/
def readFor (s : State) (req a : Nat) : State :=
  if holdsUp s req then
    holdAccess s { requester := req, write := false, addr := a, value := 0, whole := true, tag := none }
  else readNow s req a

end Sys2Proof.Machine
end

