-- ==== Sys2Proof/Machine/Writes.lean ====
section
/-! DEFINITION. What a software write of a register does (02_register_interface.md, R35, R48, R54 to R58, R64 to R66, R651):
the slots whose write is a command, the fields that PF1 may not write, and every other slot by access code and effect class. A
command whose outcome the environment decides takes the good outcome here; its own row carries the outcome
(notes/assumptions/14.md). -/
namespace Sys2Proof.Machine

/-! ## What PF1 may not write (R497, R588, R591, R658) -/

/-- The bits of a slot that PF1 may not write: RW, WL and WT fields of the pages that the rules name, whole slots of update
and power control, and HTX_CFG.UPDATE. -/
def pf1Bars (f : Fuses) (a : Nat) (g : RegField) : Bool :=
  let pg := pageOf a; let slot := slotOf a; let kind := kindOf f pg
  let codes := g.acc == .rw || g.acc == .wl || g.acc == .wt
  if kind = 0x50 ∨ kind = 0x55 ∨ kind = 0x56 ∨ kind = 0x57 ∨ kind = 0x58 then codes
  else if kind = 0x43 ∨ kind = 0x44 then codes
  else if kind = 0x52 then g.name == "HTX_CFG.UPDATE"
  else if kind = 0x2A then decide (slot = 0x5C ∨ slot = 0x60 ∨ slot = 0x84 ∨ (0xA0 ≤ slot ∧ slot < 0xC0))
  else if kind = 0x2F then decide (slot = 0x44 ∨ slot = 0x48 ∨ slot = 0x4C)
  else false

/-- A write by PF1 changes, or triggers, a field that it may not write. -/
def pf1Touches (s : State) (a v : Nat) : Bool :=
  (fieldsAt s.fuses a).any (fun g =>
    pf1Bars s.fuses a g &&
      (if g.acc = .wt then bitsOf v g.hi g.lo != 0 else bitsOf v g.hi g.lo != fld s a g.hi g.lo))

/-- The value with the barred fields as they stand; a barred trigger is not written. -/
def pf1Value (s : State) (a v : Nat) : Nat :=
  (fieldsAt s.fuses a).foldl (fun w g =>
    if pf1Bars s.fuses a g then setBits w g.hi g.lo (if g.acc = .wt then 0 else fld s a g.hi g.lo) else w) v

/-! ## The write itself -/

/-- A slot without a command of its own: its fields by access code and effect class, and what follows from the new value. -/
def plainWrite (s : State) (req a v : Nat) : State := regWritten (softWord s req a v) a (rd s a)

/-- A write of KEY_CMD (R492): more than one command bit is refused. -/
def keyWrite (s : State) (req v : Nat) : State :=
  match v % 16 with
  | 0 => s
  | 1 => keyErase s req
  | 2 => keyGenerate s req
  | 4 => keyDerive s req false
  | 8 => keyInfo s req
  | _ => keyPort s req (fun s => keyRefuse s 0x5)

/-- A write of CL_CMD (R433): RELEASE stands. -/
def clWrite (s : State) (c v : Nat) : State :=
  if v % 2 = 1 then clRelease s c else if v / 2 % 2 = 1 then clRequest s c else s

/-- A write of SS_CMD (R260, R261). -/
def ssCommand (s : State) (req v : Nat) : State :=
  match v % 4 with
  | 1 => ssRead s []
  | 2 => ssWrite s req
  | 3 => ssPort s (fun s => ssRefuse s 0x5)
  | _ => s

/-- A write of LRN_CMD (R231, R236). -/
def lrnWrite (s : State) (r v : Nat) : State :=
  let s := if v / 2 % 2 = 1 then unpinAll s r else s
  if v % 2 = 1 then cmdStart (flushSel s r) (learnPage r + 0x5C) 1 [] else s

/-- A write of CFG_CTRL (R83): OPEN and CLOSE together have no effect. -/
def cfgWrite (s : State) (v : Nat) : State :=
  match v % 4 with
  | 1 => cfgOpen s
  | 2 => cfgClose s
  | _ => s

/-- A write of PAIR_CMD (R622, R627). -/
def pairWrite (s : State) (v : Nat) : State :=
  let s := if v / 2 % 2 = 1 then leaseGrant s else s
  if v % 2 = 1 then handover s 3 else s

/-- Words of a LIN buffer are ignored while READY is 1; the last byte of the third word is reserved (R374, R387). -/
def linBufWrite (s : State) (req m slot v : Nat) : State :=
  let i := (slot - 0x200) / 16
  let a := linPage m + slot
  if slot % 16 = 12 then softWord (if v % 2 = 1 then linReadyAgain s m i else s) req a v
  else if bit s (linBufStat m i) 0 then s
  else softWord s req a (if slot % 16 = 8 then v / 256 * 256 else v)

/-- A write by its slot: the commands, then every other slot. -/
def dispatchWrite (s : State) (req a v : Nat) : State :=
  let pg := pageOf a; let slot := slotOf a
  let kind := kindOf s.fuses pg
  if slot = 8 then pageCtrl s pg (v.testBit 0) (v.testBit 1) (v.testBit 2)
  else if (match furGroup kind with | some b => decide (slot = b + 0xC) | none => false) then hwmWrite s pg v
  else
    match kind with
    | 0x03 =>
      if slot = 0x44 then canModeWrite s req (instanceOf 0x03 pg) v
      else if 0x200 ≤ slot ∧ slot ≤ 0x270 then objWrite s req (instanceOf 0x03 pg) ((slot - 0x200) / 4) v
      else plainWrite s req a v
    | 0x06 =>
      let m := instanceOf 0x06 pg
      if slot = 0x4C then (if v % 2 = 1 then linSwitch s m else s)
      else if 0x200 ≤ slot ∧ slot < 0x600 then linBufWrite s req m slot v
      else plainWrite s req a v
    | 0x0D => if slot = 0x5C then lrnWrite s (domainOf pg) v else plainWrite s req a v
    | 0x11 =>
      if slot = 0x48 then (if v % 2 = 1 then monSnap s pg (v / 2 % 2 == 1) else s)
      else if slot = 0x40 ∨ slot = 0x44 then monConfig s req pg (slot == 0x44) v
      else plainWrite s req a v
    | 0x1F => if slot = 0x44 then tpWrite s req pg v else plainWrite s req a v
    | 0x21 =>
      if slot = 0x44 then mbxWrite s req (cellOf pg - 1) v
      else if 0x4C ≤ slot ∧ cmdBusy s (pg + 0x44) then s
      else plainWrite s req a v
    | 0x22 => if slot = 0x4C then (if v % 2 = 1 then timeStep s else s) else plainWrite s req a v
    | 0x26 => if slot = 0x48 then (if v % 2 = 1 then serveMac (reseqReset s (fld s (rsqPage + 0x44) 9 0)) else s) else plainWrite s req a v
    | 0x27 => if slot = 0x48 then (if v % 2 = 1 then mbSend s else s) else plainWrite s req a v
    | 0x29 => if slot = 0x44 then ssCommand s req v else plainWrite s req a v
    | 0x2A =>
      if slot = 0x5C then updWrite s req v
      else if slot = 0x60 then updArm s req v
      else if slot = 0x84 then setWrite s req v
      else plainWrite s req a v
    | 0x2B => if slot = 0x40 then cfgWrite s v else plainWrite s req a v
    | 0x2D => if 0x600 ≤ slot ∧ slot < 0x680 then clWrite s ((slot - 0x600) / 4) v else plainWrite s req a v
    | 0x2E => if slot = 0x58 then (if v % 2 = 1 then reclaim s req else s) else plainWrite s req a v
    | 0x2F => if slot = 0x4C then (pwrCommand s req (v.testBit 2) (v.testBit 1) (v.testBit 0)).1 else plainWrite s req a v
    | 0x43 => if slot = 0x44 then keyWrite s req v else plainWrite s req a v
    | 0x44 => if slot = 0x48 then (if v % 2 = 1 then lcGo s req true else s) else plainWrite s req a v
    | 0x46 =>
      let u := cellOf pg - 1
      if slot = 0x50 then cvBoundary (cvCommand s u v) u
      else if slot = 0x4C then cvBoundary (cvData s req u v) u
      else plainWrite s req a v
    | 0x47 => if slot = 0x48 then (if v % 2 = 1 then drbgReseed s else s) else plainWrite s req a v
    | 0x52 =>
      if slot = 0x4C ∨ slot = 0x8C then tailWrite s req true (cellOf pg - 1 + (if slot = 0x8C then 8 else 0)) v
      else plainWrite s req a v
    | 0x54 =>
      if slot = 0x4C ∨ slot = 0x8C then tailWrite s req false (cellOf pg - 1 + (if slot = 0x8C then 8 else 0)) v
      else plainWrite s req a v
    | 0x57 => if slot = 0x48 then pairWrite s v else plainWrite s req a v
    | _ => plainWrite s req a v

/-- Command slots that answer PF1 themselves (R488, R492, R563, R588, R658). -/
def ownRefusal (kind slot : Nat) : Bool :=
  (kind == 0x43 && slot == 0x44) || (kind == 0x44 && slot == 0x48) ||
    (kind == 0x2A && (slot == 0x5C || slot == 0x60 || slot == 0x84)) || (kind == 0x2F && slot == 0x4C)

/-- A write that needs the memory of a parked region (R62, R452): a table-port command, unless one waits already, or a word of a
CAN object. It takes effect when the region next runs. DEDUCED (notes/assumptions/143.md). -/
def waitsParked (s : State) (a v : Nat) : Bool :=
  let pg := pageOf a
  decide (domainOf pg < 4) && parked s (domainOf pg) &&
    ((kindOf s.fuses pg == 0x1F && slotOf a == 0x44 && v % 16 != 0 && !(cmdBusy s a)) || objRetained s a)

/-- A software write of a slot by a requester whose turn has come. One whose byte enables are not all set, or that is not aligned
to a slot, is ignored (R35); one to a slot that nothing answers for does nothing (R58, R651). -/
def writeNow (s : State) (req a v : Nat) (whole : Bool) : State :=
  let v := v % 2 ^ 24
  let whole := whole && a % 4 == 0
  let a := a / 4 * 4
  if !(bootReach s a) || (fieldsAt s.fuses a).isEmpty then s
  else if !whole then partialWrite s a
  else if waitsParked s a v then
    { s with retained := s.retained ++ [{ requester := req, addr := a, value := v, sel := rd s (pageOf a + 0x70) }] }
  else
  let s := atAccess s (pageOf a)
  if reqPf req = 1 ∧ !(ownRefusal (kindOf s.fuses (pageOf a)) (slotOf a)) then
    dispatchWrite (if pf1Touches s a v then lockViolation s req a else s) req a (pf1Value s a v)
  else dispatchWrite s req a v

/-- A write that waited for its region acts: of a CAN object, the one that the window showed. -/
def retainedActs (s : State) (w : RetWrite) : State :=
  let sel := pageOf w.addr + 0x70
  if kindOf s.fuses (pageOf w.addr) = 0x03 then
    let now := rd s sel
    wr (writeNow (wr s sel w.sel) w.requester w.addr w.value true) sel now
  else writeNow s w.requester w.addr w.value true

/-- The writes whose region runs again act, in the order of issue (R62). -/
def serveRetained (s : State) : State :=
  let due := fun (w : RetWrite) => !(parked s (domainOf w.addr))
  forEach (s.retained.filter due) { s with retained := s.retained.filter (fun w => !(due w)) } retainedActs

/-- A software write of a slot by a requester, in the order of issue (R51). -/
def writeReg (s : State) (req a v : Nat) (whole : Bool) : State :=
  if holdsUp s req then
    holdAccess s { requester := req, write := true, addr := a, value := v, whole := whole, tag := none }
  else writeNow s req a v whole

end Sys2Proof.Machine
end

