-- ==== Sys2Proof/Machine/Remote.lean ====
section
/-! DEFINITION. Accesses between devices, and the sequenced frames of an Ebder link (17_host_links_and_pairing.md, R608 to R621;
R36, R51, R114). -/
namespace Sys2Proof.Machine

/-! ## The host's side (R36, R608, R619) -/

/-- A remote access fails (R619): counted, captured, recorded; a failed read completes with Unsupported Request. -/
def remoteFail (s : State) (req dev : Nat) (write : Bool) (reason : Nat) : State :=
  let s := incSat s (pciePage + 0x5C)
  let a := pciePage + 0x58
  let s := if bit s a 23 then s
    else wr s a (2 ^ 23 + b2n write * 2 ^ 22 + reqPf req * 2 ^ 21 + reason * 2 ^ 18 + dev % 64)
  let s := raisePlain s pciePage 0x3A dev
  if write then s else { s with hostRead := mapSet s.hostRead req { value := 0, ur := true } }

/-- The payload of a REG_REQ (R608). -/
def reqPayload (tag : Nat) (write : Bool) (addr data : Nat) : List Byte :=
  beBytes 1 tag ++ beBytes 1 (b2n write) ++ beBytes 3 addr ++ beBytes 3 data

/-- A host access to a device's window (R36, R619): this device's own registers, or a REG_REQ toward another. A write whose
byte enables are not all set is ignored where it enters, since a REG_REQ carries none, and recorded there where the slot exists
(R35, R608; notes/assumptions/129.md). -/
def remoteAccess (s : State) (pf dev : Nat) (write : Bool) (addr data : Nat) (whole : Bool) : State :=
  let req := reqNo s.fuses.devId pf
  if dev = s.fuses.devId then (if write then writeReg s req addr data whole else readFor s req addr)
  else if write && !(whole && addr % 4 == 0) then partialWrite s (addr / 4 * 4)
  else if !s.fuses.xTier then remoteFail s req dev write 4
  else
    let k := regPath s dev
    if !(linkTrained s k) || isFallow s (linkPage k) then remoteFail s req dev write 2
    else
      let tag := s.remoteTag % 256
      let acc : RemoteAcc :=
        { requester := req, dev := dev, write := write, addr := addr % 2 ^ 24, tag := tag, since := s.now }
      let f := { linkFrame s 3 dev with pf := pf % 2, payload := reqPayload tag write addr data }
      offerService { s with remoteAcc := s.remoteAcc ++ [acc], remoteTag := (tag + 1) % 256 } k f

/-- A REG_RSP completes its access (R608, R619); one that no access waits for is discarded. -/
def regResponse (s : State) (src tag status data : Nat) : State :=
  match s.remoteAcc.find? (fun a => a.tag == tag && a.dev == src) with
  | none => s
  | some a =>
    let s := { s with remoteAcc := s.remoteAcc.erase a }
    if status ≠ 0 then remoteFail s a.requester a.dev a.write 5
    else if a.write then s
    else { s with hostRead := mapSet s.hostRead a.requester { value := BitVec.ofNat 24 data, ur := false } }

/-- No response within POP_GUARD.US + 150 µs (R619). -/
def remoteTimeout (s : State) (tag : Nat) : State :=
  match s.remoteAcc.find? (fun a => a.tag == tag) with
  | none => s
  | some a =>
    if a.since + popGuard s + usTicks 150 ≤ s.now then
      remoteFail { s with remoteAcc := s.remoteAcc.erase a } a.requester a.dev a.write 3
    else s

/-! ## The target's side (R114, R608) -/

/-- A REG_REQ addressed to this device whose turn has come (R608): the access, and its REG_RSP; a pop that stalls answers when it
completes. -/
def regServe (s : State) (req tag : Nat) (write : Bool) (addr data : Nat) : State :=
  if write then sendResponse (writeNow s req addr data true) (reqDev req) tag 0 0
  else if bootReach s addr && isPop s addr then
    furPop { s with remoteIn := s.remoteIn ++ [(req, tag)] } req (pageOf addr)
  else
    let (v, s) := readReg s addr
    sendResponse s (reqDev req) tag 0 v

/-- A REG_REQ addressed to this device, in the order of issue of its requester (R51, R608). -/
def regRequest (s : State) (src pf tag : Nat) (write : Bool) (addr data : Nat) : State :=
  let req := reqNo src pf
  if holdsUp s req then
    holdAccess s { requester := req, write := write, addr := addr, value := data, whole := true, tag := some tag }
  else regServe s req tag write addr data

/-- An access that waited behind a stalled pop takes its turn, or waits on. -/
def heldTurn (s : State) (h : HeldAcc) : State :=
  if holdsUp s h.requester || s.held.any (fun g => g.requester == h.requester) then holdAccess s h
  else
    match h.tag with
    | some tag => regServe s h.requester tag h.write h.addr h.value
    | none => if h.write then writeNow s h.requester h.addr h.value h.whole else readNow s h.requester h.addr

/-- The accesses whose stalled pop has completed act, each requester's in the order of issue (R51). -/
def releaseHeld : Nat → State → State
  | 0, s => s
  | n + 1, s =>
    if s.held.all (fun h => holdsUp s h.requester) then s
    else releaseHeld n (forEach s.held { s with held := [] } heldTurn)

/-! ## Sequenced frames (R608 to R611, R616) -/

/-- A service frame for this device is handled, and its credit returned (R614). MIRROR and PAIR contents are the events of
their own rows. -/
def serviceIn (s : State) (k : Nat) (f : LinkFrame) : State :=
  let s := match f.type with
    | 3 => regRequest s f.src f.pf (byteAt f.payload 0) (byteAt f.payload 1 == 1) (beAt f.payload 2 3) (beAt f.payload 5 3)
    | 4 => regResponse s f.src (byteAt f.payload 0) (byteAt f.payload 1) (beAt f.payload 2 3)
    | 7 => intFrame s f.src
    | _ => s
  serviceDone s k

/-- A frame that passed its check goes on: into packet memory, to the other link, or to the unit that it is for. -/
def linkDeliver (s : State) (k : Nat) (f : LinkFrame) : State :=
  let own := f.dst == s.fuses.devId
  match f.type with
  | 1 => linkEnter s k f
  | 2 => if own then linkEnter s k f else relayOn s (1 - k) f
  | 3 | 4 | 7 => if own then serviceIn s k f else serviceDone (relayOn s (1 - k) f) k
  | 5 | 6 => serviceIn s k f
  | _ => s

/-- Bytes of a frame arrive on a trained link (R609 to R611). -/
def linkReceive (s : State) (k : Nat) (bs : List Byte) : State :=
  if !(linkTrained s k) then s
  else
    let type := byteAt bs 0 / 16
    if 11 ≤ type then incSat s (linkPage k + 0x68)
    else if 8 ≤ type then s
    else
      match linkParse bs with
      | none => linkFails s k
      | some f => if linkPasses s k bs then linkDeliver (linkGood s k) k f else linkFails s k

end Sys2Proof.Machine
end

