-- ==== Sys2Proof/Machine/Ties.lean ====
section
/-! DEFINITION. Happenings of one moment of which a rule says which goes first (R115, R124, R147, R173, R220, R234, R254, R298,
R362, R417, R425, R456, R506, R635, R660): a command whose moment has come while one that goes before it still waits in the queue
with a moment no later acts behind that one (notes/assumptions/126.md). -/
namespace Sys2Proof.Machine

/-! ## Expiries of the resequencers and visits of the sweep -/

/-- RSQ_GAP.US in force, in ticks (R149). -/
def gapTime (s : State) : Nat := usTicks (clamp 1 1000 (fld s (rsqPage + 0x40) 9 0))

/-- The gap timer of a stream has run for RSQ_GAP.US (R146). -/
def gapExpiry (s : State) (n : Nat) : State :=
  if (getStream s n).gapFrom + gapTime s ≤ s.now then reseqGap s n else s

/-- The harrow of a region makes its next ageing visit (R232). -/
def visitNext (s : State) (r : Nat) : State := if running s (learnPage r) then ageVisit s r else s

/-- A plot's bytes arrive: at a MAC, over a link, or of a host packet in its ring's furrow. -/
def arrives (s : State) (p : Nat) (first : Bool) (bytes : List Byte) : State :=
  if p < 124 then ethPlot s p first bytes else if p < 126 then linkPlot s (p - 124) first bytes else txRead s (p - 128) first bytes

/-! ## The moment of a command -/

/-- The moment of a command: its first operand. -/
def momentOf : Instr → Nat
  | .registerWrite t .. | .pageRun t .. | .pageStop t .. | .pageRestart t .. | .itemBoundary t .. | .mbxSnap t ..
  | .mbxSnapclr t .. | .mbxCommit t .. | .mbxDataRead t .. | .cfgOpen t .. | .cfgClose t .. | .cfgPassEnd t ..
  | .cfgWindowTimeout t .. | .furrowCommit t .. | .furrowRewind t .. | .furrowWordRead t .. | .furHwmWrite t .. | .furPop t ..
  | .popGuardExpiry t .. | .pipelineItem t .. | .admission t .. | .plotCharge t .. | .plotFree t .. | .heldAccountMove t ..
  | .egressSelect t .. | .copyAgeExpiry t .. | .cutThroughStart t .. | .gateCycleStart t .. | .gateEntryEnd t ..
  | .reseqItemArrival t .. | .reseqVoid t .. | .rsqGapExpiry t .. | .rsqReset t .. | .outputDown t .. | .holdExpiry t ..
  | .outputUp t .. | .stuckExpiry t .. | .tpRead t .. | .tpWrite t .. | .tpInval t .. | .tpHash t ..
  | .tablePendingTimeout t .. | .learnApply t .. | .pinEnd t .. | .unpinAll t .. | .lrnFlush t .. | .ageingVisit t ..
  | .harrowCompare t .. | .harrowFlagJudge t .. | .ssRead t .. | .ssWrite t .. | .mbUnpack t .. | .mbPack t .. | .mbSend t ..
  | .drillTick t .. | .deadlineTimeout t .. | .mdtDeferralEnd t .. | .repetitionDue t .. | .periodicSend t .. | .linPull t ..
  | .canModeWrite t .. | .busIntegration t .. | .canFrameReceived t .. | .canRxError t .. | .objReq t .. | .objCancel t ..
  | .objNewReturn t .. | .canRouterFill t .. | .canTxSelection t .. | .canArbLoss t .. | .canTxError t .. | .canTxDone t ..
  | .busOffRecovered t .. | .trxStatusReport t .. | .transceiverModeCommand t .. | .heartbeatWord t .. | .linSlotStart t ..
  | .linHeaderReceived t .. | .linResponseReceived t .. | .linResponseTimeout t .. | .linRoutedFill t .. | .linBufReadySet t ..
  | .linSchedSwitch t .. | .linWakePulse t .. | .linWakeWaitExpiry t .. | .linIdle t .. | .linkDown t .. | .linkUp t ..
  | .ethFrameReceived t .. | .macControlFrame t .. | .pauseTimerExpiry t .. | .ethFrameSent t .. | .pauseRefresh t ..
  | .collision t .. | .backoffExpiry t .. | .t1sForcedJam t .. | .plcaTransmitOpportunity t .. | .timeStep t ..
  | .wakeEvent t .. | .wakeInEdge t .. | .clRequest t .. | .clRelease t .. | .repeatExpiry t .. | .nmTimerExpiry t ..
  | .nmCycle t .. | .waitExpiry t .. | .sleepCommit t .. | .falseWakeWindowExpiry t .. | .fwHourPeriod t ..
  | .keepawakeFlag t .. | .heartbeatLapse t .. | .powerVoteWithdraw t .. | .regionPark t .. | .regionUnpark t ..
  | .laneDispatch t .. | .secocGenerate t .. | .secocVerify t .. | .macsecProtect t .. | .macsecReceive t ..
  | .laneSelftestDone t .. | .entropyHealthFail t .. | .entropyStartupDone ⟨t, _⟩ | .drbgReseed t .. | .drbgOutRead t ..
  | .lcGo t .. | .keyGenerate t .. | .keyDerive t .. | .keyErase t .. | .keyInfo t .. | .cvStart t .. | .cvAbort t ..
  | .cvDataWrite t .. | .countedFault t .. | .rowTestEnd t .. | .hubReclaim t .. | .operMinute t .. | .handshakeStall t ..
  | .paceWindow t .. | .monitorSample t .. | .monSnap t .. | .monConfigWrite t .. | .updateHeaderBlock t ..
  | .updateBodyBlock t .. | .updVerify t .. | .updActivate t .. | .updConfirm t .. | .updReject t .. | .trialTimerExpiry ⟨t, _⟩
  | .trialMinute t .. | .updAbandon t .. | .updEpoch t .. | .setRead t .. | .setWrite t .. | .setDelete t .. | .tailWrite t ..
  | .htxDescriptor t .. | .hostqStallExpiry t .. | .lateCompletion t .. | .hrxDeliver t .. | .msixHoldoffEnd t ..
  | .ebderLinkTrained t .. | .idClashRetry t .. | .ebderFrameReceived t .. | .ebderAck t .. | .ebderNak t ..
  | .ebderCredit t .. | .replayTimeout t .. | .linkRetrain t .. | .relayWaitExpiry t .. | .remoteAccess t ..
  | .regReqReceived t .. | .regRspReceived t .. | .remoteAccessTimeout t .. | .intFrameReceived t .. | .leaseGrant t ..
  | .leaseExpiry t .. | .guardExpiry t .. | .pairHandover t .. | .pairFrameSend t .. | .pairFrameReceived t ..
  | .contactTimeout t .. | .reclaimHoldExpiry t .. | .reclaimReceived t .. | .mirrorReceived t .. | .leaseOutToggle t ..
  | .vbatPowerOn t .. | .vbatPowerOff t .. | .coreSupplyGood t .. | .pgoodTimeout t .. | .voteRetry t .. | .pwrWarm t ..
  | .pwrStandby t .. | .autoStandbyExpiry t .. | .standbyPagesStopped t .. | .standbyHoldExpiry t .. | .brownOut t ..
  | .refclkLoss t .. | .perstAssert t .. | .coreSupplyRemoved t .. | .perstRelease t .. | .pcieLinkUp t .. | .pcieLinkDown t ..
  | .refclkRestored t .. | .keySaveDone t .. | .healthyRestored t .. | .nmSourceHolding t .. | .speedDuplexChange t .. => t

/-- A command that waits in the queue has its moment come. -/
def dueNow (s : State) (i : Instr) : Bool := decide (momentOf i ≤ s.now)

/-! ## What stands behind what -/

/-- How far a command stands behind others of its moment where a rule says that everything of the moment goes before it: 2 behind
whatever it may meet (HOLD_MS, a gap timer, STUCK_MS, a false-wake window, a jam or refresh that an XOFF release forestalls: R147,
R173, R425, R456); 3 behind those too (a refresh, a jam); 4 behind all (a pop guard whose furrow any of them may commit to, a
region that parks, AUTO_STBY: R115, R456, R660). 1 marks commands that wait only for the ones that `waitsFor` names. -/
def tieRank : Instr → Nat
  | .holdExpiry .. | .rsqGapExpiry .. | .stuckExpiry .. | .falseWakeWindowExpiry .. => 2
  | .pauseRefresh .. | .t1sForcedJam .. => 3
  | .popGuardExpiry .. | .regionPark .. | .autoStandbyExpiry .. => 4
  | _ => 1

/-- A command that may free plots: it goes before one that takes a plot at the same moment (R124, R173). -/
def freesPlots : Instr → Bool
  | .plotFree .. | .egressSelect .. | .cutThroughStart .. | .copyAgeExpiry .. | .ethFrameSent .. | .hrxDeliver .. | .canRouterFill ..
  | .canTxDone .. | .canTxError .. | .linRoutedFill .. | .linResponseReceived .. | .linkDown .. | .outputDown .. | .outputUp ..
  | .holdExpiry .. | .collision .. | .rsqGapExpiry .. | .reseqVoid .. | .secocGenerate .. | .secocVerify .. | .macsecReceive ..
  | .macsecProtect .. | .heldAccountMove .. => true
  | _ => false

/-- A write that gives a channel's receive object back: OBJ_CMD.NEW = 1 (R339, R362). -/
def clearsNew (n : Nat) : Instr → Bool
  | .objNewReturn _ m _ => m == n
  | .registerWrite _ _ a v w => w && a / 4 * 4 == canPage n + 0x214 && v.testBit 21
  | _ => false

/-- A SNAPCLR of a port's egress time-stamp queue (R417). -/
def snapsTs (s : State) (p : Nat) : Instr → Bool
  | .mbxSnapclr _ _ n => decide (n < 4) && rd s (mbxPage n + 0x40) == macPage p + 0x74
  | .registerWrite _ _ a v w =>
    w && v % 8 == 2 && (List.range 4).any (fun n => a / 4 * 4 == mbxPage n + 0x44 && rd s (mbxPage n + 0x40) == macPage p + 0x74)
  | _ => false

/-- A SNAPCLR of a full egress time-stamp queue (R417). -/
def snapsFull (s : State) (j : Instr) : Bool :=
  ((List.range 36).map (88 + ·)).any (fun p => decide (64 ≤ (getMac s p).tsq.length) && snapsTs s p j)

/-- The table-port page and command bits of a command that writes a TP_CMD (R215). -/
def tpCommandOf (s : State) : Instr → Option Nat
  | .tpRead _ _ pg | .tpWrite _ _ pg | .tpInval _ _ pg => some pg
  | .registerWrite _ _ a v w =>
    if w && slotOf a == 0x44 && kindOf s.fuses (pageOf a) == 0x1F && v % 8 != 0 then some (pageOf a) else none
  | _ => none

/-- A region applies a learn request one of whose candidate slots a table-port page has selected (R226, R254). -/
def appliesOn (s : State) (pg : Nat) : Instr → Bool
  | .learnApply _ r =>
    decide (r < 4) && pg == lkpTable r && tpTable s pg == 1 &&
      ((mapGet [] s.learnQ r).take 1).any (fun q =>
        ((List.range 4).map (candidate true (bridgeKey q.mac q.vid))).contains (tpIndex s pg))
  | _ => false

/-- A lookup or a learn application of a region (R234). -/
def looksUp (r : Nat) : Instr → Bool
  | .pipelineItem _ p _ => regionOfPort p == r
  | .learnApply _ q => q == r
  | _ => false

/-- A frame becomes valid at a bus port that a test names (R456). -/
def frameAt (f : Nat → Bool) : Instr → Bool
  | .canFrameReceived _ n .. => f n
  | .linResponseReceived _ m .. => f (64 + m)
  | .ethFrameReceived _ p .. => f p
  | _ => false

/-- A heartbeat word, or the reboot word of a warm reset, leaves (R456, R660). -/
def beats : Instr → Bool
  | .heartbeatWord .. | .pwrWarm .. => true
  | _ => false

/-- The first heartbeat word of a boot leaves (R660). -/
def bootsNow : Instr → Bool
  | .heartbeatWord .. | .coreSupplyGood .. | .refclkRestored .. | .standbyHoldExpiry .. => true
  | _ => false

/-- The link condition of a port lapses at this moment: an UP_MS that expires with it does not bring the link up (R425). -/
def lapsesNow (s : State) (p : Nat) : Bool :=
  s.pending.any (fun j => dueNow s j && (match j with | .linkDown _ q => q == p | _ => false))

/-- What a command waits for at its moment, of the commands that are due. -/
def waitsFor (s : State) (i j : Instr) : Bool :=
  match i with
  | .plotCharge .. | .admission .. | .ethFrameReceived .. | .ebderFrameReceived .. | .htxDescriptor .. => freesPlots j
  | .canFrameReceived _ n .. => clearsNew n j
  | .egressSelect .. | .cutThroughStart .. | .backoffExpiry .. | .plcaTransmitOpportunity .. | .macsecProtect .. | .reseqVoid .. =>
    snapsFull s j
  | .tpRead .. | .tpWrite .. | .tpInval .. | .registerWrite .. =>
    (match tpCommandOf s i with
      | some pg => appliesOn s pg j
      | none => false)
  | .ageingVisit _ r => looksUp r j
  | .nmTimerExpiry _ c => frameAt (fun q => clusterOf s q == some c) j
  | .heartbeatLapse .. => beats j
  | .pgoodTimeout .. => bootsNow j
  | .leaseExpiry _ =>
    (match j with
      | .leaseGrant .. => true
      | .registerWrite _ _ a v w => w && a / 4 * 4 == pairPage + 0x48 && v.testBit 1
      | _ => false)
  | .guardExpiry _ => (match j with | .pairFrameReceived .. => true | _ => false)
  | _ => decide (2 ≤ tieRank i) && decide (tieRank j < tieRank i)

/-- A command that waits, its moment come, goes before this one. -/
def mustYield (s : State) (i : Instr) : Bool := s.pending.any (fun j => dueNow s j && waitsFor s i j)

/-- The egress scheduler waits for its boundary to stop or restart: it takes up no further frame (R40, R53). -/
def egrStops (s : State) : Bool := (trigsOf s egrPage).any (fun t => t != .run)

/-- The copy that an RX ring takes passes the ring's furrow, which holds it whole (R602). -/
def ringTakes (s : State) (n : Nat) (c : Copy) : State :=
  putFur s (rxRing n) { emptyFurrow with items := [furItem (getFrame s c.frame).poison (packWords (receivedForm s c))] }

/-- A selection at an output (R150 to R152), and what the output does with the copy at once: the mouldboard's furrow takes it
whole (R263), a host ring's furrow too (R602), a MACsec port sends it to a lane (R419), an Ebder port to its link (R608). -/
def egressSelect (s : State) (o : Nat) : State :=
  if (mapGet? s.inFlight o).isSome || !(running s egrPage) || egrStops s then s
  else
    let s := selectAt s o
    match mapGet? s.inFlight o with
    | none => s
    | some c =>
      let s := handled s egrPage
      let s := if 124 ≤ o ∧ o < 127 then latency s o c.cls (readyAt s c) else s
      let s := if 128 ≤ o then ringTakes s (o - 128) c else s
      if o = 126 then freeIfDone (endFlight (furPush s mbPage (mbItem s c)) o) c.frame
      else if 124 ≤ o ∧ o < 126 then linkData s (o - 124)
      else if 88 ≤ o ∧ o < 124 then protectNext s o
      else s

/-- The start of a cut-through copy (R157): a selection that takes a copy whose frame is not whole yet. -/
def cutStart (s : State) (o : Nat) : State :=
  let s' := egressSelect s o
  match mapGet? s'.inFlight o with
  | some c => if c.cut then s' else s
  | none => s

/-- What a command does when its turn comes. -/
def yieldAct (s : State) (i : Instr) : State :=
  match i with
  | .plotCharge _ p first bytes => arrives s p first bytes
  | .admission _ r => admission s r
  | .ethFrameReceived _ p first rest len since abort code fcs => ethReceived s p first rest len since abort code fcs
  | .ebderFrameReceived _ k bs => linkReceive s k bs
  | .htxDescriptor _ n form ts tag bs cpl bad => txDescriptor s n form ts tag bs cpl bad
  | .canFrameReceived _ n ide fdf brs rtr esi ident data =>
    if canOnBus s n && canActs s n != 3 then
      canReceived s n { ide := ide, fdf := fdf, brs := brs, rtr := rtr, esi := esi, id := ident } data
    else s
  | .egressSelect _ o => egressSelect s o
  | .cutThroughStart _ o => cutStart s o
  | .backoffExpiry _ p => backoffEnd s p
  | .plcaTransmitOpportunity _ p begins => plcaTurn s p begins
  | .macsecProtect _ i ev => laneProtect s i ev
  | .reseqVoid _ stream num start => reseqVoid s stream num start
  | .tpRead _ req pg => writeReg s req (pg + 0x44) 1 true
  | .tpWrite _ req pg => writeReg s req (pg + 0x44) 2 true
  | .tpInval _ req pg => writeReg s req (pg + 0x44) 4 true
  | .registerWrite _ req a v whole => writeReg s req a v whole
  | .popGuardExpiry _ req pg => popExpiry s req pg
  | .holdExpiry _ o => holdOver s o
  | .rsqGapExpiry _ n => gapExpiry s n
  | .stuckExpiry _ o => stuckOver s o
  | .ageingVisit _ r => visitNext s r
  | .pauseRefresh _ p => pauseRefresh s p
  | .t1sForcedJam _ p => forcedJam s p
  | .falseWakeWindowExpiry _ p => fwExpiry s p
  | .nmTimerExpiry _ c => nmTimerExpiry s c
  | .regionPark _ r => regionPark s r
  | .heartbeatLapse _ d => heartbeatLapse s d
  | .pgoodTimeout _ d => pgoodTimeout s d
  | .leaseExpiry _ => leaseExpire s
  | .guardExpiry _ => guardEnd s
  | .autoStandbyExpiry _ => autoStandby s
  | _ => s

/-- A command takes its turn, or waits behind those that go before it. -/
def yielding (s : State) (i : Instr) : State :=
  if mustYield s i then { s with yields := s.yields ++ [i] } else yieldAct s i

/-- The commands that had to wait act as soon as nothing that is due goes before them, those that stand furthest behind last. -/
def takeYields (s : State) : State :=
  forEach [1, 2, 3, 4] { s with yields := [] } (fun u r => forEach (s.yields.filter (fun i => tieRank i == r)) u yielding)

end Sys2Proof.Machine
end

