-- ==== Sys2Proof/Machine/Commands.lean ====
section
/-! DEFINITION. What every command's meaning shares: how its moment, its element and the power state rule it, and the steps
that rows of the table make of the operations before. -/
namespace Sys2Proof.Machine

/-- What a command answers. -/
abbrev Answer := Host.Outcome State Fault Refusal

/-- What follows at once from a command: writes that waited for a parked region act (R452), service work reaches the lanes (R463),
frames that they have released go on (R462), MACs begin what they may send (R400), links send what is whole and grant credits
(R614), released items find queue entries (R137), a class without an eligible queue loses its deficit (R151), outputs paused for
every queued copy are noted (R161), failed crossings counted (R22), and cells that are at a boundary take what waited for it
(R53), copies that are held may wake their cluster (R433), and what must hold for a time is noted (R451, R655); error records
reach their levels (R530). -/
def settleItems (s : State) : State :=
  let s := if s.retained.isEmpty then s else serveRetained s
  let s := serveReleases s.relWait.length (serveLinks (macsBegin (serveMac (serveService s))))
  let s := forEach ((s.outQ.map (·.1) ++ s.stuckSince.map (·.1)).dedup) (idleDeficits s) noteStuck
  escServe (noteHeld (serveHints (takeBoundaries (takeCrossings s))))

/-- The same, and then what had to wait behind this command (R115 and its like), and the accesses that waited behind a pop which
has completed (R51). -/
def settled (s : State) : State :=
  let s := settleItems s
  let s := if s.yields.isEmpty then s else settleItems (takeYields s)
  if s.held.isEmpty then s else settleItems (releaseHeld s.held.length s)

/-- A command that acts in every power state, as far as its own rules let it, at its moment, with what follows from it; one that
names an element which does not exist has no effect (R3). -/
def always (ok : Bool) (s : State) (t : Nat) (f : State → State) : Answer :=
  .next (if ok then settled (f (advance s t)) else advance s t)

/-- An event of the core die: outside ACTIVE and PARTIAL no cell works, and nothing happens (R643, R648). -/
def event (ok : Bool) (s : State) (t : Nat) (f : State → State) : Answer := always (ok && coreUp s) s t f

/-- A slot answers: it exists, and the power state lets it answer (R58, R651). -/
def answers (s : State) (a : Nat) : Bool := bootReach s (a / 4 * 4) && !(fieldsAt s.fuses (a / 4 * 4)).isEmpty

/-- A software write of a whole register that is a command. One to a slot that does not answer has no effect. -/
def software (ok : Bool) (s : State) (t req a v : Nat) : Answer :=
  always (ok && answers s a) s t (fun s => writeReg s req a v true)

/-- The same where the command may meet an outcome that the written value does not hold, such as a seedbed fault: then it acts by
`act`. Behind a stalled pop the write waits, and meets none (R51). -/
def commanded (s : State) (t req a v : Nat) (met : Bool) (act : State → State) : Answer :=
  always (answers s a) s t (fun s => if met && !(holdsUp s req) then act s else writeReg s req a v true)

/-- The page has a furrow with the counters of R108. -/
def hasFurrow (s : State) (pg : Nat) : Bool := (furGroup (kindOf s.fuses pg)).isSome
/-- The page has a pop group (R112). -/
def hasPop (s : State) (pg : Nat) : Bool := (popGroup (kindOf s.fuses pg)).isSome
/-- A bus channel's port that the variant has. -/
def busPort (s : State) (p : Nat) : Bool := decide (p < 104) && portPresent s.fuses p
/-- An input that writes plots as they arrive (R126). -/
def plotInput (s : State) (p : Nat) : Bool :=
  ((decide (88 ≤ p) && decide (p < 126)) || decide (128 ≤ p)) && portPresent s.fuses p
/-- An Ebder link that the variant has. -/
def linkPresent (s : State) (k : Nat) : Bool := decide (k < 2) && s.fuses.xTier

/-- A numbered frame of memory with copies for outputs arrives at a stream (R144). -/
def numberedArrival (s : State) (stream num : Nat) (start : Bool) (frame : Nat) (outs : List Nat) : State :=
  if hasFrame s frame then
    let f := getFrame s frame
    let c : Copy := { frame := frame, input := f.input, cls := f.cls, visibleAt := s.now, cut := false, form := plainForm }
    let it : ReseqItem := { copies := outs.map (fun o => (o, c)), plain := none, void := false }
    reseqArrive s stream num start it
  else s

/-- The pin of tracker entry k of a region has lasted its time (R231). -/
def pinEnd (s : State) (r k : Nat) : State :=
  match mapGet? s.trackers (r * 256 + k) with
  | some t => if t.pinEnd ≤ s.now then endPin s r (r * 256 + k) else s
  | none => s

/-- A grant (R622): a pulse of LEASE_IN of at least 1 µs after at least 1 µs low, or a write of PAIR_CMD.GRANT. -/
def grantGiven (s : State) (pin : Bool) (lowNs highNs req : Nat) : State :=
  if pin then (if 1000 ≤ lowNs ∧ 1000 ≤ highNs ∧ coreUp s then leaseGrant s else s)
  else writeReg s req (pairPage + 0x48) 2 true

end Sys2Proof.Machine
end

