-- ==== Sys2Proof/Machine/AccessCmds.lean ====
section
/-! DEFINITION. The meaning of each command of register access, mailboxes, configuration check and furrows (02, 03). -/
namespace Sys2Proof.Machine

/-- A software write of a register slot by the requesting function `req` (R48): each field by its access code and effect
class; `whole` is whether every byte enable is set (R35). -/
def execRegisterWrite (t req addr value : Nat) (whole : Bool) (s : State) : Answer :=
  always (answers s addr) s t (fun s => yielding s (.registerWrite t req addr value whole))

/-- A write of PAGE_CTRL.RUN (R40, R41). -/
def execPageRun (t req page : Nat) (s : State) : Answer := software true s t req (page + 8) 1

/-- A write of PAGE_CTRL.STOP (R40, R41). -/
def execPageStop (t req page : Nat) (s : State) : Answer := software true s t req (page + 8) 2

/-- A write of PAGE_CTRL.RESTART (R41, R42). -/
def execPageRestart (t req page : Nat) (s : State) : Answer := software true s t req (page + 8) 4

/-- The cell of a page, or the cells that a block common page stops, reach an item boundary (R53, R55). A check-value unit
has none before its computation ends (R508). -/
def execItemBoundary (t page : Nat) (s : State) : Answer :=
  event (present s page) s t (fun s => if kindOf s.fuses page = 0x46 then cvBoundary s (instanceOf 0x46 page)
    else itemBoundary s page)

/-- MBX_CMD.SNAP of mailbox `n` (R71, R75). -/
def execMbxSnap (t req n : Nat) (s : State) : Answer := software (decide (n < 4)) s t req (mbxPage n + 0x44) 1

/-- MBX_CMD.SNAPCLR of mailbox `n` (R71, R75). -/
def execMbxSnapclr (t req n : Nat) (s : State) : Answer := software (decide (n < 4)) s t req (mbxPage n + 0x44) 2

/-- MBX_CMD.COMMIT of mailbox `n` (R72, R75). -/
def execMbxCommit (t req n : Nat) (s : State) : Answer := software (decide (n < 4)) s t req (mbxPage n + 0x44) 4

/-- A read of data word `k` of mailbox `n` (R73): one that meets BUSY stalls until the command has completed (R74). -/
def execMbxDataRead (t req n k : Nat) (s : State) : Answer :=
  always (decide (n < 4) && decide (k < 11)) s t (fun s => readFor s req (mbxData n k))

/-- CFG_CTRL.OPEN (R83). -/
def execCfgOpen (t req : Nat) (s : State) : Answer := software true s t req (cfgPage + 0x40) 1

/-- CFG_CTRL.CLOSE (R83). -/
def execCfgClose (t req : Nat) (s : State) : Answer := software true s t req (cfgPage + 0x40) 2

/-- A pass of the configuration checker completes (R81, R82). -/
def execCfgPassEnd (t : Nat) (s : State) : Answer :=
  event true s t (fun s => if running s cfgPage then cfgPassEnd s else s)

/-- The open configuration window has passed CFG_WINDOW_MAX (R85). -/
def execCfgWindowTimeout (t : Nat) (s : State) : Answer := event true s t (fun s => windowRejudge s)

/-- The producer of a page's furrow commits an item: the words `data` after those it has written already (R92). -/
def execFurrowCommit (t page : Nat) (data : List Nat) (poison : Bool) (s : State) : Answer :=
  event (hasFurrow s page) s t (fun s => furCommit s page data poison)

/-- The producer of a page's furrow rewinds its uncommitted words; `wrote` are the words it has written of the item (R93,
R100). -/
def execFurrowRewind (t page : Nat) (wrote : List Nat) (s : State) : Answer :=
  event (hasFurrow s page) s t (fun s => furRewound s page wrote)

/-- The consumer of a page's furrow takes a word (R98 to R103); `wrote` are the words that the producer of an open item
has written, `bad` is a parity failure of the word. -/
def execFurrowWordRead (t page : Nat) (wrote : List Nat) (bad : Bool) (s : State) : Answer :=
  event (hasFurrow s page) s t (fun s => furWordRead s page wrote bad)

/-- A write of FUR_HWM of a page (R108, R109). -/
def execFurHwmWrite (t req page v : Nat) (s : State) : Answer :=
  software (hasFurrow s page) s t req (page + (furGroup (kindOf s.fuses page)).getD 0 + 0xC) v

/-- A read of FUR_POP of a page (R112 to R114). -/
def execFurPop (t req page : Nat) (s : State) : Answer :=
  always (hasPop s page) s t (fun s => readFor s req (page + (popGroup (kindOf s.fuses page)).getD 0))

/-- The stall guard of a pop expires (R114, R117). -/
def execPopGuardExpiry (t req page : Nat) (s : State) : Answer :=
  event (hasPop s page) s t (fun s => yielding s (.popGuardExpiry t req page))

end Sys2Proof.Machine
end

