-- ==== Sys2Proof/Machine/CanCmds.lean ====
section
/-! DEFINITION. The meaning of each command of CAN channels and transceivers (09, 01). -/
namespace Sys2Proof.Machine

/-- A software write of CAN_MODE (R329). -/
def execCanModeWrite (t req n v : Nat) (s : State) : Answer := software (decide (n < 64)) s t req (canPage n + 0x44) v

/-- A channel sees 11 consecutive recessive bits (R330, R351). -/
def execBusIntegration (t n : Nat) (s : State) : Answer := event (canPresent s.fuses n) s t (fun s => canIntegrate s n)

/-- A frame of another node becomes valid on a channel (R337): its header bits, identifier and data. -/
def execCanFrameReceived (t n : Nat) (ide fdf brs rtr esi : Bool) (ident : Nat) (data : List Byte) (s : State) : Answer :=
  event (canPresent s.fuses n) s t (fun s => yielding s (.canFrameReceived t n ide fdf brs rtr esi ident data))

/-- An error is detected while receiving (R331, R360): `code` is that of LEC, `ones` and `eights` say what the rules of
ISO 11898-1 add to REC. -/
def execCanRxError (t n code : Nat) (dataPhase : Bool) (ones eights : Nat) (s : State) : Answer :=
  event (canPresent s.fuses n) s t (fun s => if canOnBus s n && canActs s n != 3 then
    canRxError s n code dataPhase ones eights else s)

/-- OBJ_CMD.REQ on object `i` of a channel (R341). -/
def execObjReq (t n i : Nat) (s : State) : Answer :=
  always (decide (n < 64) && decide (i < 96)) s t (fun s => if bootReach s (canPage n) && canPresent s.fuses n then
    objCommand s n i (2 ^ 23) else s)

/-- OBJ_CMD.CANCEL on object `i` of a channel (R348). -/
def execObjCancel (t n i : Nat) (s : State) : Answer :=
  always (decide (n < 64) && decide (i < 96)) s t (fun s => if bootReach s (canPage n) && canPresent s.fuses n then
    objCommand s n i (2 ^ 22) else s)

/-- A write of 1 to OBJ_CMD.NEW of object `i` (R339). -/
def execObjNewReturn (t n i : Nat) (s : State) : Answer :=
  always (decide (n < 64) && decide (i < 96)) s t (fun s => if bootReach s (canPage n) && canPresent s.fuses n then
    objCommand s n i (2 ^ 21) else s)

/-- The copy selected for a channel is written into its lowest free router-fed object (R344). -/
def execCanRouterFill (t n : Nat) (s : State) : Answer := event (canPresent s.fuses n) s t (fun s => canFill s n)

/-- A selection instant of a channel (R345). -/
def execCanTxSelection (t n : Nat) (s : State) : Answer :=
  event (canPresent s.fuses n) s t (fun s => if canMaySend s n then canSelect 97 s n else s)

/-- The object on the bus loses arbitration (R346). -/
def execCanArbLoss (t n : Nat) (s : State) : Answer := event (canPresent s.fuses n) s t (fun s => canArbLoss s n)

/-- The attempt of the object on the bus ends in an error (R331, R347): `exempt` where ISO 11898-1 adds nothing, `domSeen`
for a dominant bit after an ACK error, `eights` further additions of 8; `delay` is the loop delay measured (R335). -/
def execCanTxError (t n code : Nat) (dataPhase exempt domSeen : Bool) (eights : Nat) (delay : Option Nat) (s : State) : Answer :=
  event (canPresent s.fuses n) s t (fun s => canTxError s n code dataPhase exempt domSeen eights delay)

/-- The frame of the object on the bus is sent (R341); `delay` is the loop delay measured (R335). -/
def execCanTxDone (t n : Nat) (delay : Option Nat) (s : State) : Answer :=
  event (canPresent s.fuses n) s t (fun s => canTxDone s n delay)

/-- The 128th occurrence of 11 recessive bits ends the recovery of a channel (R351). -/
def execBusOffRecovered (t n : Nat) (s : State) : Answer :=
  event (canPresent s.fuses n) s t (fun s => if fld s (canStatus n) 16 10 ≥ 127 && (getCan s n).recovering then canIntegrate s n else s)

/-- A transceiver's status word reports the conditions that hold (R356, R381). -/
def execTrxStatusReport (t p : Nat) (txdDom busDom overtemp vccLow : Bool) (s : State) : Answer :=
  event (busPort s p) s t (fun s => trxReport s p txdDom busDom overtemp vccLow)

/-- A mode command word leaves for a transceiver (R13); `bad` and `bad2` are parity failures of the word and of its
resend. -/
def execTransceiverModeCommand (t p : Nat) (bad bad2 : Bool) (s : State) : Answer :=
  event (busPort s p) s t (fun s => modeCommand s p bad bad2)

/-- A heartbeat word leaves for both transceiver dies (R13, R646). -/
def execHeartbeatWord (t : Nat) (s : State) : Answer := always true s t (fun s => heartbeat s)

end Sys2Proof.Machine
end

