-- ==== Sys2Proof/Machine/EthernetCmds.lean ====
section
/-! DEFINITION. The meaning of each command of Ethernet, T1S and time (11). -/
namespace Sys2Proof.Machine

/-- The link condition of a MAC port lapses (R392). -/
def execLinkDown (t p : Nat) (s : State) : Answer := event (macPresent s.fuses p) s t (fun s => linkLapses s p)

/-- The link condition of a MAC port has held for `held` ticks, with the speed code and duplex reported in-band (R391,
R392); where it lapses at the same moment the port stays down (R425). -/
def execLinkUp (t p speed : Nat) (half : Bool) (held : Nat) (s : State) : Answer :=
  event (macPresent s.fuses p) s t (fun s => if lapsesNow s p then s else linkUp s p speed half held)

/-- A received frame ends (R397): its bytes not yet in plots, without the FCS, `first` when they begin it; its length with
the FCS; how many cycles of 5 ns ago its first bit came; whether it ended in an abort, a code error or a bad FCS. -/
def execEthFrameReceived (t p : Nat) (first : Bool) (rest : List Byte) (len since : Nat) (abort code fcs : Bool) (s : State) : Answer :=
  event (macPresent s.fuses p) s t (fun s => yielding s (.ethFrameReceived t p first rest len since abort code fcs))

/-- A MAC control frame is received (R396, R406). -/
def execMacControlFrame (t p : Nat) (bytes : List Byte) (s : State) : Answer :=
  event (macPresent s.fuses p) s t (fun s => macControl s p bytes)

/-- The pause time of a class ends (R406). -/
def execPauseTimerExpiry (t p c : Nat) (s : State) : Answer := event (macPresent s.fuses p) s t (fun s => pauseEnd s p c)

/-- A transmit MAC ends a frame (R400, R402); `failed` for an underrun, when `left` bytes of it have left. -/
def execEthFrameSent (t p left : Nat) (failed : Bool) (s : State) : Answer :=
  event (macPresent s.fuses p) s t (fun s => ethSent s p left failed)

/-- QUANTA × 256 bit times have passed while XOFF holds (R404). -/
def execPauseRefresh (t p : Nat) (s : State) : Answer := event (macPresent s.fuses p) s t (fun s => yielding s (.pauseRefresh t p))

/-- A half-duplex frame meets a collision (R408); `late` after its first 512 bits. -/
def execCollision (t p : Nat) (late : Bool) (s : State) : Answer :=
  event (macPresent s.fuses p) s t (fun s => collision s p late)

/-- A back-off ends (R408). -/
def execBackoffExpiry (t p : Nat) (s : State) : Answer := event (macPresent s.fuses p) s t (fun s => yielding s (.backoffExpiry t p))

/-- A carrier starts on a CSMA/CD T1S segment (R410). -/
def execT1sForcedJam (t p : Nat) (s : State) : Answer := event (macPresent s.fuses p) s t (fun s => yielding s (.t1sForcedJam t p))

/-- A PLCA transmit opportunity of the node begins, or its timer ends (R409). -/
def execPlcaTransmitOpportunity (t p : Nat) (begins : Bool) (s : State) : Answer :=
  event (macPresent s.fuses p) s t (fun s => yielding s (.plcaTransmitOpportunity t p begins))

/-- TIME_CMD.STEP (R412). -/
def execTimeStep (t req : Nat) (s : State) : Answer := software true s t req (timePage + 0x4C) 1

/-- A change of speed or duplex is reported in-band (R393). -/
def execSpeedDuplexChange (t p speed : Nat) (half : Bool) (s : State) : Answer :=
  event (macPresent s.fuses p) s t (fun s => speedChange s p speed half)

end Sys2Proof.Machine
end

