-- ==== Sys2Proof/Machine/FaultCmds.lean ====
section
/-! DEFINITION. The meaning of each command of faults and monitors (15). -/
namespace Sys2Proof.Machine

/-- A counted fault of class `code` at a page and row (R537); `failed` is whether its retry, scrub or test failed. -/
def execCountedFault (t page row code detail : Nat) (failed : Bool) (s : State) : Answer :=
  event (present s page) s t (fun s => if counted code then takeFault s page row code detail failed else s)

/-- The deferred test of a faulted location ends (R537). -/
def execRowTestEnd (t page row : Nat) (pass : Bool) (s : State) : Answer :=
  event (present s page) s t (fun s => testEnd s page row pass)

/-- HUB_CMD.RECLAIM (R541). -/
def execHubReclaim (t req : Nat) (s : State) : Answer := software true s t req (hubPage + 0x58) 1

/-- Sixty seconds have passed in ACTIVE or PARTIAL (R538). -/
def execOperMinute (t : Nat) (s : State) : Answer :=
  event true s t (fun s => operMinute s)

/-- A handshake of a page has been pending for more than 1 ms (R542, R543). -/
def execHandshakeStall (t page : Nat) (s : State) : Answer := event (present s page) s t (fun s => stalled1ms s page)

/-- A 10 µs pace window of a region, or 4 for the chip, ends with a reading (R546). -/
def execPaceWindow (t i v : Nat) (s : State) : Answer := event (decide (i < 5)) s t (fun s => paceWindow s i v)

/-- A monitor whose source is sampled by periods takes its sample (R548, R549). -/
def execMonitorSample (t dom blk pg : Nat) (s : State) : Answer :=
  let page := pageAt dom blk pg
  event (decide (kindOf s.fuses page = 0x11)) s t (fun s => if running s page then monSample s page else s)

/-- MON_CMD.SNAP, with CLEAR (R550). -/
def execMonSnap (t req page : Nat) (clear : Bool) (s : State) : Answer :=
  software (decide (kindOf s.fuses page = 0x11)) s t req (page + 0x48) (if clear then 3 else 1)

/-- A write of MON_SRC or MON_CTRL (R550). -/
def execMonConfigWrite (t req page : Nat) (ctrl : Bool) (v : Nat) (s : State) : Answer :=
  software (decide (kindOf s.fuses page = 0x11)) s t req (if ctrl then page + 0x44 else page + 0x40) v

end Sys2Proof.Machine
end

