-- ==== Sys2Proof/Machine/HostCmds.lean ====
section
/-! DEFINITION. The meaning of each command of host rings and device links (17). -/
namespace Sys2Proof.Machine

/-- A software write of TAIL of a TX or RX ring (R593). -/
def execTailWrite (t req : Nat) (tx : Bool) (n v : Nat) (s : State) : Answer :=
  always (decide (n < 16)) s t (fun s => writeReg s req ((if tx then txRing n else rxRing n) + 0xC) v true)

/-- TX ring `n` handles a descriptor (R596): its FORM, TS_REQ and TAG, the bytes of its buffer, a completion error, and what
is wrong with an update block, as for a header. -/
def execHtxDescriptor (t n form : Nat) (tsReq : Bool) (tag : Nat) (bytes : List Byte) (cplErr : Bool) (bad : Nat) (s : State) : Answer :=
  event (decide (n < 16)) s t (fun s => yielding s (.htxDescriptor t n form tsReq tag bytes cplErr bad))

/-- A packet's buffer read of TX ring `n` outlasts HOSTQ_STALL (R599). -/
def execHostqStallExpiry (t n : Nat) (s : State) : Answer := event (decide (n < 16)) s t (fun s => txStall s n)

/-- A completion of a stalled packet of TX ring `n` arrives (R599). -/
def execLateCompletion (t n : Nat) (s : State) : Answer := event (decide (n < 16)) s t (fun s => lateCompletion s n)

/-- RX ring `n` delivers the copy in flight into a buffer of `bufLen` bytes at host address `addr` (R600 to R602). -/
def execHrxDeliver (t n addr bufLen : Nat) (s : State) : Answer :=
  event (decide (n < 16)) s t (fun s => rxDeliver s n addr bufLen)

/-- The hold-off of RX ring `n` ends (R604). -/
def execMsixHoldoffEnd (t n : Nat) (s : State) : Answer := event (decide (n < 16)) s t (fun s => holdoffEnd s n)

/-- The lanes of link `k` have locked and the peer's ID has come (R606, R607). -/
def execEbderLinkTrained (t k peer : Nat) (s : State) : Answer :=
  event (linkPresent s k) s t (fun s => linkTrain s k peer)

/-- A link with an ID clash tries training again (R607). -/
def execIdClashRetry (t k peer : Nat) (s : State) : Answer := event (linkPresent s k) s t (fun s => clashRetry s k peer)

/-- The bytes of a frame arrive over link `k` (R609). -/
def execEbderFrameReceived (t k : Nat) (bytes : List Byte) (s : State) : Answer :=
  event (linkPresent s k) s t (fun s => yielding s (.ebderFrameReceived t k bytes))

/-- An ACK arrives (R610): every frame before `num` is covered. -/
def execEbderAck (t k num : Nat) (s : State) : Answer := event (linkPresent s k) s t (fun s => linkAck s k num)

/-- A NAK arrives (R610): resend from `num` on. -/
def execEbderNak (t k num : Nat) (s : State) : Answer := event (linkPresent s k) s t (fun s => linkNak s k num)

/-- A CREDIT frame arrives (R614): pool 0 LOCAL, 1 RELAY, 2 SERVICE. -/
def execEbderCredit (t k pool cls limit : Nat) (s : State) : Answer :=
  event (linkPresent s k) s t (fun s => linkCreditIn s k pool cls limit)

/-- 20 µs have passed without an ACK or NAK (R610). -/
def execReplayTimeout (t k : Nat) (s : State) : Answer := event (linkPresent s k) s t (fun s => replayTimeout s k)

/-- A frame has not been acknowledged for 2 ms (R612); `lanesGood` is the outcome of the loopback test. -/
def execLinkRetrain (t k : Nat) (lanesGood : Bool) (s : State) : Answer :=
  event (linkPresent s k) s t (fun s => if retrainDue s k then linkRetrain s k lanesGood else s)

/-- The oldest relayed data frame of link `k` has waited RT_RELAY.MAX_US (R616). -/
def execRelayWaitExpiry (t k : Nat) (s : State) : Answer := event (linkPresent s k) s t (fun s => relayExpiry s k)

/-- A function of this device's host accesses a register of device `dev` (R36, R608). -/
def execRemoteAccess (t pf dev : Nat) (write : Bool) (addr data : Nat) (whole : Bool) (s : State) : Answer :=
  always true s t (fun s => if 2 ≤ powerState s then remoteAccess s pf dev write addr data whole else s)

/-- A REG_REQ of device `src` arrives (R608). -/
def execRegReqReceived (t src pf tag : Nat) (write : Bool) (addr data : Nat) (s : State) : Answer :=
  event (s.fuses.xTier) s t (fun s => regRequest s src pf tag write addr data)

/-- A REG_RSP of device `src` arrives (R608). -/
def execRegRspReceived (t src tag status data : Nat) (s : State) : Answer :=
  event (s.fuses.xTier) s t (fun s => regResponse s src tag status data)

/-- No response has come within POP_GUARD.US + 150 µs (R619). -/
def execRemoteAccessTimeout (t tag : Nat) (s : State) : Answer := event (s.fuses.xTier) s t (fun s => remoteTimeout s tag)

/-- An INT frame of device `src` arrives (R621). -/
def execIntFrameReceived (t src : Nat) (s : State) : Answer := event (s.fuses.xTier) s t (fun s => intFrame s src)

end Sys2Proof.Machine
end

