-- ==== Sys2Proof/Machine/LinCmds.lean ====
section
/-! DEFINITION. The meaning of each command of LIN channels (10). -/
namespace Sys2Proof.Machine

/-- The next schedule slot of a commander starts, or waits (R376 to R379). -/
def execLinSlotStart (t m : Nat) (s : State) : Answer := event (linPresent s.fuses m) s t (fun s => slotStart s m)

/-- A responder receives a header (R366, R369): the bit time measured in its sync, in units of 25 ns, and the
PID, none where a stop bit reads dominant (R380). -/
def execLinHeaderReceived (t m measured : Nat) (pid : Option Nat) (s : State) : Answer :=
  event (linPresent s.fuses m) s t (fun s => linHeaderIn s m measured pid)

/-- The response of the frame in flight ends (R370): its bytes, and 1 for a bit error, 2 for a framing error, else 0. -/
def execLinResponseReceived (t m : Nat) (bytes : List Byte) (err : Nat) (s : State) : Answer :=
  event (linPresent s.fuses m) s t (fun s => linResponse s m bytes err)

/-- A frame is not complete by 1.4 times its nominal length (R380); `someByte` is whether a response byte came. -/
def execLinResponseTimeout (t m : Nat) (someByte : Bool) (s : State) : Answer :=
  event (linPresent s.fuses m) s t (fun s => linTimeout s m someByte)

/-- The copy selected for a LIN channel is written into its buffer, or discarded (R373). -/
def execLinRoutedFill (t m : Nat) (s : State) : Answer := event (linPresent s.fuses m) s t (fun s => linFill s m)

/-- Software writes READY = 1 of buffer `i` (R374). -/
def execLinBufReadySet (t req m i : Nat) (s : State) : Answer :=
  software (decide (m < 24) && decide (i < 64)) s t req (linBufStat m i) 1

/-- LIN_SCHED_CMD.SWITCH (R378). -/
def execLinSchedSwitch (t req m : Nat) (s : State) : Answer := software (decide (m < 24)) s t req (linPage m + 0x4C) 1

/-- A channel commanded to wake its bus sends a wake pulse (R384). -/
def execLinWakePulse (t m : Nat) (s : State) : Answer := event (linPresent s.fuses m) s t (fun s => linWakePulse s m)

/-- A wake wait of a channel ends (R384). -/
def execLinWakeWaitExpiry (t m : Nat) (s : State) : Answer := event (linPresent s.fuses m) s t (fun s => linWaitEnd s m)

/-- A channel has seen no bus edge for LIN_IDLE.MS (R385). -/
def execLinIdle (t m : Nat) (s : State) : Answer := event (linPresent s.fuses m) s t (fun s => linIdle s m)

end Sys2Proof.Machine
end

