-- ==== Sys2Proof/Machine/PairCmds.lean ====
section
/-! DEFINITION. The meaning of each command of pairing (17). -/
namespace Sys2Proof.Machine

/-- A grant (R622): a pulse of LEASE_IN with the times it was low before and stayed high, or a write of PAIR_CMD.GRANT. -/
def execLeaseGrant (t : Nat) (pin : Bool) (lowNs highNs req : Nat) (s : State) : Answer :=
  always true s t (fun s => grantGiven s pin lowNs highNs req)

/-- The lease ends (R623). -/
def execLeaseExpiry (t : Nat) (s : State) : Answer := event (s.fuses.xTier) s t (fun s => yielding s (.leaseExpiry t))

/-- The guard time has elapsed (R625). -/
def execGuardExpiry (t : Nat) (s : State) : Answer := event (s.fuses.xTier) s t (fun s => yielding s (.guardExpiry t))

/-- PAIR_CMD.HANDOVER (R627). -/
def execPairHandover (t req : Nat) (s : State) : Answer := software true s t req (pairPage + 0x48) 1

/-- A PAIR frame falls due (R628). -/
def execPairFrameSend (t : Nat) (s : State) : Answer := event (s.fuses.xTier) s t (fun s => pairBeat s)

/-- A PAIR frame of the peer arrives (R628): its STATE, PRIMARY, LEASE_MS and ID. -/
def execPairFrameReceived (t state : Nat) (primary : Bool) (lease peer : Nat) (s : State) : Answer :=
  event (s.fuses.xTier) s t (fun s => pairHeard s state primary lease peer)

/-- No PAIR frame has come for 1 ms (R628). -/
def execContactTimeout (t : Nat) (s : State) : Answer := event (s.fuses.xTier) s t (fun s => contactTimeout s)

/-- A primary has met the conditions of RECLAIM for PAIR_RECLAIM.MS (R630). -/
def execReclaimHoldExpiry (t : Nat) (s : State) : Answer := event (s.fuses.xTier) s t (fun s => reclaimHold s)

/-- A RECLAIM of the peer arrives (R630). -/
def execReclaimReceived (t : Nat) (s : State) : Answer := event (s.fuses.xTier) s t (fun s => handover s 4)

/-- A mirrored item arrives (R631): 0 a slot, 1 a freshness value, 2 a cluster state, 3 the tick count, 4 the end of the
items sent after training. -/
def execMirrorReceived (t what i v flag : Nat) (s : State) : Answer :=
  event (s.fuses.xTier) s t (fun s => mirrorIn s what i v flag)

/-- LEASE_OUT falls due to toggle (R629). -/
def execLeaseOutToggle (t : Nat) (s : State) : Answer := event (s.fuses.xTier) s t (fun s => leaseToggle s)

/-- One second has passed since the last chip-level stall record (R629). -/
def execHealthyRestored (t : Nat) (s : State) : Answer := event (s.fuses.xTier) s t (fun s => refreshHealth s)

end Sys2Proof.Machine
end

