-- ==== Sys2Proof/Machine/PowerCmds.lean ====
section
/-! DEFINITION. The meaning of each command of power states (18). -/
namespace Sys2Proof.Machine

/-- VBAT rises above VBAT_POR (R644). -/
def execVbatPowerOn (t : Nat) (s : State) : Answer := always true s t (fun s => vbatOn s)

/-- VBAT falls below VBAT_POR (R643). -/
def execVbatPowerOff (t : Nat) (s : State) : Answer := always true s t (fun s => vbatOff s)

/-- Every core supply becomes good (R648); `boot` is what the boot sequence meets. -/
def execCoreSupplyGood (t : Nat) (boot : BootMeets) (s : State) : Answer := always true s t (fun s => supplyGood s boot)

/-- No heartbeat has come 100 ms after POWER_REQ (R647). -/
def execPgoodTimeout (t d : Nat) (s : State) : Answer := always (decide (d < 2)) s t (fun s => yielding s (.pgoodTimeout t d))

/-- One second has passed since a PGOOD failure (R647). -/
def execVoteRetry (t d : Nat) (s : State) : Answer := always (decide (d < 2)) s t (fun s => voteRetry s d)

/-- PWR_CMD.WARM (R653). -/
def execPwrWarm (t req : Nat) (boot : BootMeets) (s : State) : Answer :=
  always true s t (fun s =>
    if holdsUp s req then writeReg s req (pwrPage + 0x4C) 2 true
    else if bootReach s (pwrPage + 0x4C) then warmBoot s req boot else s)

/-- PWR_CMD.STANDBY, with FORCE (R655). -/
def execPwrStandby (t req : Nat) (force : Bool) (s : State) : Answer :=
  software true s t req (pwrPage + 0x4C) (if force then 5 else 1)

/-- The conditions of an automatic entry have held for STBY_DELAY_MS (R655). -/
def execAutoStandbyExpiry (t : Nat) (s : State) : Answer := always true s t (fun s => yielding s (.autoStandbyExpiry t))

/-- Every page has stopped at its boundary (R655). -/
def execStandbyPagesStopped (t : Nat) (s : State) : Answer := event true s t (fun s => entryEnd s)

/-- 50 ms have passed since the goodbye word (R656). -/
def execStandbyHoldExpiry (t : Nat) (boot : BootMeets) (s : State) : Answer :=
  always true s t (fun s => standbyHold s boot)

/-- Core supply `supply` leaves its range (R654). -/
def execBrownOut (t supply : Nat) (s : State) : Answer := always true s t (fun s => supplyFails s supply)

/-- REFCLK stops, or departs by more than 1,000 ppm (R677). -/
def execRefclkLoss (t : Nat) (s : State) : Answer := always true s t (fun s => refclkLost s)

/-- PERST_N goes low (R654). -/
def execPerstAssert (t : Nat) (s : State) : Answer := always true s t (fun s => perstAssert s)

/-- The regulator removes the core supply (R655). -/
def execCoreSupplyRemoved (t : Nat) (s : State) : Answer := always true s t (fun s => supplyRemoved s)

/-- PERST_N returns high (R654). -/
def execPerstRelease (t : Nat) (s : State) : Answer := always true s t (fun s => perstRelease s)

/-- The PCIe link trains (R590). -/
def execPcieLinkUp (t : Nat) (s : State) : Answer := always true s t (fun s => pcieLink s true)

/-- The PCIe link goes down (R621). -/
def execPcieLinkDown (t : Nat) (s : State) : Answer := always true s t (fun s => pcieLink s false)

/-- REFCLK returns within tolerance (R677). -/
def execRefclkRestored (t : Nat) (boot : BootMeets) (s : State) : Answer := always true s t (fun s => refclkBack s boot)

end Sys2Proof.Machine
end

