-- ==== Sys2Proof/Machine/RouterCmds.lean ====
section
/-! DEFINITION. The meaning of each command of the signal router (07). -/
namespace Sys2Proof.Machine

/-- SS_CMD.READ (R260, R261); `slots` are the slots read with bad parity, each with whether it passes its test (R262). -/
def execSsRead (t : Nat) (slots : List (Nat × Bool)) (s : State) : Answer :=
  always true s t (fun s => if bootReach s (ssPage + 0x44) then ssRead s slots else s)

/-- SS_CMD.WRITE (R260, R261). -/
def execSsWrite (t req : Nat) (s : State) : Answer := software true s t req (ssPage + 0x44) 2

/-- The mouldboard unpacks the item at the head of its furrow (R266); `bad` entries and `slots` are read with bad parity. -/
def execMbUnpack (t : Nat) (bad : List (Nat × Nat)) (slots : List (Nat × Bool)) (s : State) : Answer :=
  event true s t (fun s => mbUnpack s bad slots)

/-- The mouldboard packs the layout at the head of the send queue and admits it from port 126 (R280). -/
def execMbPack (t : Nat) (bad : List (Nat × Nat)) (slots : List (Nat × Bool)) (s : State) : Answer :=
  event true s t (fun s => mbPack s bad slots)

/-- MB_CMD.SEND (R274). -/
def execMbSend (t req : Nat) (s : State) : Answer := software true s t req (mbPage + 0x48) 1

/-- The next drill tick starts (R283, R284); it may meet entries and slots that read with bad
parity. -/
def execDrillTick (t : Nat) (meets : DrillMeets) (s : State) : Answer :=
  event true s t (fun s => drillBoundary s meets.entries meets.slots)

/-- The deadline of RX layout `l` passes (R286). -/
def execDeadlineTimeout (t l : Nat) (bad : List (Nat × Nat)) (s : State) : Answer :=
  event true s t (fun s => deadlineTimeout s l bad)

/-- The tick comes to which TX layout `l` was deferred (R275). -/
def execMdtDeferralEnd (t l : Nat) (s : State) : Answer := event true s t (fun s => deferralEnd s l)

/-- A repetition of a triggered send of TX layout `l` falls due (R276). -/
def execRepetitionDue (t l : Nat) (s : State) : Answer := event true s t (fun s => repetitionDue s l)

/-- The phase of periodic TX layout `l` comes due (R284). -/
def execPeriodicSend (t l : Nat) (s : State) : Answer := event true s t (fun s => periodicSend s l)

/-- The mouldboard packs the layout that a slot of LIN channel `m` pulls, or refuses (R277, R372). -/
def execLinPull (t m : Nat) (bad : List (Nat × Nat)) (slots : List (Nat × Bool)) (s : State) : Answer :=
  event (linPresent s.fuses m) s t (fun s => linPull s m bad slots)

end Sys2Proof.Machine
end

