-- ==== Sys2Proof/Machine/SecurityCmds.lean ====
section
/-! DEFINITION. The meaning of each command of security and check values (13, 14). -/
namespace Sys2Proof.Machine

/-- The dispatcher gives the next waiting item to a lane (R463). -/
def execLaneDispatch (t : Nat) (s : State) : Answer := event true s t (fun s => dispatch s)

/-- Lane `i` secures the PDU at its front (R470); `ev` is a fault met: 1 lane parity, 2 key parity, 3 freshness state, 4
profile entry, else 0. -/
def execSecocGenerate (t i ev : Nat) (s : State) : Answer :=
  event (decide (kindOf s.fuses (lanePage i) = 0x42)) s t (fun s => laneSecoc s i true ev)

/-- Lane `i` verifies the PDU at its front (R471); `ev` as for SECOC_GENERATE. -/
def execSecocVerify (t i ev : Nat) (s : State) : Answer :=
  event (decide (kindOf s.fuses (lanePage i) = 0x42)) s t (fun s => laneSecoc s i false ev)

/-- Lane `i` protects the frame at its front (R477); `ev` is a fault met: 1 lane parity, 2 key parity, 4 the SecY's entry,
5 the association's, else 0. -/
def execMacsecProtect (t i ev : Nat) (s : State) : Answer :=
  event (decide (kindOf s.fuses (lanePage i) = 0x42)) s t (fun s => yielding s (.macsecProtect t i ev))

/-- Lane `i` handles the received frame at its front (R478); `ev` as for MACSEC_PROTECT, and 6 the channel's entry. -/
def execMacsecReceive (t i ev : Nat) (s : State) : Answer :=
  event (decide (kindOf s.fuses (lanePage i) = 0x42)) s t (fun s => laneReceive s i ev)

/-- The known-answer test of a lane ends (R460). -/
def execLaneSelftestDone (t i : Nat) (pass : Bool) (s : State) : Answer :=
  event (decide (kindOf s.fuses (lanePage i) = 0x42)) s t (fun s => laneTested s i pass)

/-- A health test of the entropy source fails (R483) on the 1,024 raw bits `bits`, the first of them bit 0. -/
def execEntropyHealthFail (t bits : Nat) (s : State) : Answer := event true s t (fun s => entropyBits s bits)

/-- The startup test of the entropy source completes (R483), having seen the 1,024 raw bits that it meets. -/
def execEntropyStartupDone (w : Moment) (s : State) : Answer := event true s w.time (fun s => entropyTested s w.met)

/-- DRBG_CMD.RESEED (R484). -/
def execDrbgReseed (t req : Nat) (s : State) : Answer := software true s t req (entPage + 0x48) 1

/-- A read of DRBG_OUT (R485). -/
def execDrbgOutRead (t req : Nat) (s : State) : Answer := always true s t (fun s => readFor s req (entPage + 0x50))

/-- LC_CMD.GO (R488); `burnOk` is whether the fuse programming reads back. -/
def execLcGo (t req : Nat) (burnOk : Bool) (s : State) : Answer :=
  always true s t (fun s =>
    if holdsUp s req then writeReg s req (lcPage + 0x48) 1 true
    else if bootReach s (lcPage + 0x48) then lcGo s req burnOk else s)

/-- KEY_CMD.GENERATE (R492). -/
def execKeyGenerate (t req : Nat) (s : State) : Answer := software true s t req (keyPage + 0x44) 2

/-- KEY_CMD.DERIVE (R492, R493); it may meet a source key with bad parity (R498). -/
def execKeyDerive (t : Nat) (w : Asked) (s : State) : Answer :=
  commanded s t w.req (keyPage + 0x44) 4 (w.met != 0) (fun s => keyDerive s w.req true)

/-- KEY_CMD.ERASE (R492). -/
def execKeyErase (t req : Nat) (s : State) : Answer := software true s t req (keyPage + 0x44) 1

/-- KEY_CMD.INFO (R492). -/
def execKeyInfo (t req : Nat) (s : State) : Answer := software true s t req (keyPage + 0x44) 8

/-- CV_CMD.START of check-value unit `u` (R511 to R513). -/
def execCvStart (t req u : Nat) (s : State) : Answer := software (decide (u < 4)) s t req (cvPage u + 0x50) 1

/-- CV_CMD.ABORT of check-value unit `u` (R516). -/
def execCvAbort (t req u : Nat) (s : State) : Answer := software (decide (u < 4)) s t req (cvPage u + 0x50) 2

/-- A write of CV_DATA of check-value unit `u` (R514, R515). -/
def execCvDataWrite (t req u v : Nat) (s : State) : Answer := software (decide (u < 4)) s t req (cvPage u + 0x4C) v

/-- The check value and record of each committed key are made (R491). -/
def execKeySaveDone (t : Nat) (s : State) : Answer := event true s t (fun s => keySaved s)

end Sys2Proof.Machine
end

