-- ==== Sys2Proof/Machine/SwitchCmds.lean ====
section
/-! DEFINITION. The meaning of each command of the switch core (04). -/
namespace Sys2Proof.Machine

/-- The verdict at the head of a region's queue is admitted (R126); `r` is 0 to 3, or 4 for port 126. -/
def execAdmission (t r : Nat) (s : State) : Answer := event true s t (fun s => yielding s (.admission t r))

/-- A plot arrives at an input that writes plots as they arrive: MAC ports, Ebder ports and host TX rings (R126, R127);
`first` begins an item, over a link with its 12-byte header. Plots freed at the same moment are free first (R124, R173). -/
def execPlotCharge (t p : Nat) (first : Bool) (bytes : List Byte) (s : State) : Answer :=
  event (plotInput s p) s t (fun s => yielding s (.plotCharge t p first bytes))

/-- The last copy of a frame has been read or discarded: its plots are freed (R142). A row that faulted stays out until
its test ends (R170). -/
def execPlotFree (t id : Nat) (s : State) : Answer := event true s t (fun s => freeIfDone s id)

/-- A frame whose copies are all held moves its plots to the held account as the shared pool allows (R142, R166). -/
def execHeldAccountMove (t id : Nat) (s : State) : Answer := event true s t (fun s => heldMove s id)

/-- The scheduler of an output selects (R150 to R152). -/
def execEgressSelect (t o : Nat) (s : State) : Answer := event (portPresent s.fuses o) s t (fun s => yielding s (.egressSelect t o))

/-- A head copy of an UP output reaches the age limit of its class (R152). -/
def execCopyAgeExpiry (t o : Nat) (s : State) : Answer :=
  event (portPresent s.fuses o) s t (fun s => if outState s o = 0 then ageHeads ((outQueue s o).length + 1) s o else s)

/-- A copy that meets the cut-through conditions starts to leave (R157). -/
def execCutThroughStart (t o : Nat) (s : State) : Answer := event (portPresent s.fuses o) s t (fun s => yielding s (.cutThroughStart t o))

/-- A gate cycle starts on MAC port 104 + `i` (R154). -/
def execGateCycleStart (t i : Nat) (s : State) : Answer :=
  event (decide (i < 20) && macPresent s.fuses (104 + i)) s t (fun s => gateStart s i)

/-- The interval of the running gate list entry ends (R154). -/
def execGateEntryEnd (t i : Nat) (s : State) : Answer :=
  event (decide (i < 20) && macPresent s.fuses (104 + i)) s t (fun s => gateNext s i)

/-- An item with a number reaches its resequencer stream (R144, R148): a frame of memory with copies for the outputs
`outs`. -/
def execReseqItemArrival (t stream num : Nat) (start : Bool) (frame : Nat) (outs : List Nat) (s : State) : Answer :=
  event true s t (fun s => numberedArrival s stream num start frame outs)

/-- A void reaches its stream (R145). -/
def execReseqVoid (t stream num : Nat) (start : Bool) (s : State) : Answer :=
  event true s t (fun s => yielding s (.reseqVoid t stream num start))

/-- The gap timer of a stream expires (R146). -/
def execRsqGapExpiry (t stream : Nat) (s : State) : Answer := event true s t (fun s => yielding s (.rsqGapExpiry t stream))

/-- RSQ_CMD.RESET on the selected stream (R149). -/
def execRsqReset (t req : Nat) (s : State) : Answer := software true s t req (rsqPage + 0x48) 1

/-- An output goes down under a condition of R161 (R162). -/
def execOutputDown (t o : Nat) (s : State) : Answer :=
  event (portPresent s.fuses o) s t (fun s => if downCond s o then refreshOutput s o else s)

/-- HOLD_MS has passed since an output went down (R162). -/
def execHoldExpiry (t o : Nat) (s : State) : Answer := event (portPresent s.fuses o) s t (fun s => yielding s (.holdExpiry t o))

/-- A down output comes back up (R163). -/
def execOutputUp (t o : Nat) (s : State) : Answer :=
  event (portPresent s.fuses o) s t (fun s => if downCond s o then s else refreshOutput s o)

/-- An output has been paused for every queued class for longer than STUCK_MS (R161). -/
def execStuckExpiry (t o : Nat) (s : State) : Answer := event (portPresent s.fuses o) s t (fun s => yielding s (.stuckExpiry t o))

end Sys2Proof.Machine
end

