-- ==== Sys2Proof/Machine/TableCmds.lean ====
section
/-! DEFINITION. The meaning of each command of lookup, table ports, learning and harrows (05, 06). -/
namespace Sys2Proof.Machine

/-- The head at the front of an input's head furrow passes its region's pipeline (R28); `bad` lists the entries, by table
code and index, that the lookup reads with bad parity (R247). -/
def execPipelineItem (t p : Nat) (bad : List (Nat × Nat)) (s : State) : Answer :=
  event (portPresent s.fuses p && p != 126) s t (fun s => pipelineItem s p bad)

/-- TP_CMD.READ of a table port (R216, R219). -/
def execTpRead (t req page : Nat) (s : State) : Answer :=
  always (decide (kindOf s.fuses page = 0x1F) && answers s (page + 0x44)) s t (fun s => yielding s (.tpRead t req page))

/-- TP_CMD.WRITE of a table port (R216, R217, R219). -/
def execTpWrite (t req page : Nat) (s : State) : Answer :=
  always (decide (kindOf s.fuses page = 0x1F) && answers s (page + 0x44)) s t (fun s => yielding s (.tpWrite t req page))

/-- TP_CMD.INVAL of a table port (R216, R217, R219). -/
def execTpInval (t req page : Nat) (s : State) : Answer :=
  always (decide (kindOf s.fuses page = 0x1F) && answers s (page + 0x44)) s t (fun s => yielding s (.tpInval t req page))

/-- TP_CMD.HASH of a table port (R193, R219). -/
def execTpHash (t req page : Nat) (s : State) : Answer :=
  software (decide (kindOf s.fuses page = 0x1F)) s t req (page + 0x44) 8

/-- An entry has been pending for longer than TP_PEND_MAX (R217). -/
def execTablePendingTimeout (t page table i : Nat) (s : State) : Answer :=
  event (decide (kindOf s.fuses page = 0x1F)) s t (fun s => pendOver s page table i)

/-- A region applies the request at the head of its learn input furrow (R223, R224). -/
def execLearnApply (t r : Nat) (s : State) : Answer :=
  event (decide (r < 4)) s t (fun s => if running s (learnPage r) && !(parked s r) then learnHead s r else s)

/-- The time of the pin in tracker entry `k` of a region ends (R231). -/
def execPinEnd (t r k : Nat) (s : State) : Answer :=
  event (decide (r < 4) && decide (k < 256)) s t (fun s => pinEnd s r k)

/-- LRN_CMD.UNPIN_ALL of a region (R231). -/
def execUnpinAll (t req r : Nat) (s : State) : Answer := software (decide (r < 4)) s t req (learnPage r + 0x5C) 2

/-- LRN_CMD.FLUSH of a region (R236). -/
def execLrnFlush (t req r : Nat) (s : State) : Answer := software (decide (r < 4)) s t req (learnPage r + 0x5C) 1

/-- The harrow of a region makes its next ageing visit (R232 to R235). -/
def execAgeingVisit (t r : Nat) (s : State) : Answer :=
  event (decide (r < 4)) s t (fun s => yielding s (.ageingVisit t r))

/-- Harrow `h` (0 to 3 a region, 4 signal router, 5 security) compares the next entry of its pass (R243 to R246): which
copies have a word with bad parity, and whether a repair reads back. -/
def execHarrowCompare (t h : Nat) (liveBad shadowBad readBack : Bool) (s : State) : Answer :=
  event (decide (h < 6)) s t (fun s => harrowCompare s h liveBad shadowBad readBack)

/-- Harrow `h` judges the entry that a lookup flagged first (R247). -/
def execHarrowFlagJudge (t h : Nat) (liveBad shadowBad readBack : Bool) (s : State) : Answer :=
  event (decide (h < 6)) s t (fun s => harrowFlag s h liveBad shadowBad readBack)

end Sys2Proof.Machine
end

