-- ==== Sys2Proof/Machine/UpdateCmds.lean ====
section
/-! DEFINITION. The meaning of each command of update and settings (16). -/
namespace Sys2Proof.Machine

/-- An update block at offset 0 arrives (R560); `bad` is 1 when it is poisoned, 2 when its seedbed read-back fails (R555), 3 when
the key word that its check needs has bad parity (R498). -/
def execUpdateHeaderBlock (t : Nat) (data : List Byte) (bad : Nat) (s : State) : Answer :=
  event true s t (fun s => (blockAt s 0 data bad).2)

/-- An update body block arrives (R561); at offset 0 it is a header (R560). -/
def execUpdateBodyBlock (t offset : Nat) (data : List Byte) (bad : Nat) (s : State) : Answer :=
  event true s t (fun s => (blockAt s offset data bad).2)

/-- UPD_CMD.VERIFY (R564). -/
def execUpdVerify (t : Nat) (w : Asked) (s : State) : Answer :=
  commanded s t w.req updCmd 1 (w.met != 0) (fun s => updCommand s w.req .verify false 3)

/-- UPD_CMD.ACTIVATE (R566, R567); `fault` is 1 or 2 for a seedbed fault at step 2 of the turn, 7 for one at step 7. -/
def execUpdActivate (t req : Nat) (force : Bool) (fault : Nat) (s : State) : Answer :=
  commanded s t req updCmd (if force then 66 else 2) (fault != 0) (fun s => updCommand s req .activate force fault)

/-- UPD_CMD.CONFIRM (R574). -/
def execUpdConfirm (t req : Nat) (s : State) : Answer := software true s t req (updPage + 0x5C) 4

/-- UPD_CMD.REJECT (R575). -/
def execUpdReject (t : Nat) (w : Asked) (s : State) : Answer :=
  commanded s t w.req updCmd 8 (w.met != 0) (fun s => updCommand s w.req .reject false w.met)

/-- The trial timer is at 0 (R575). -/
def execTrialTimerExpiry (w : Moment) (s : State) : Answer := event true s w.time (fun s => trialExpiry s w.met)

/-- A minute of operating time passes during TRIAL (R573). -/
def execTrialMinute (t : Nat) (s : State) : Answer := event true s t (fun s => trialMinute s)

/-- UPD_CMD.ABANDON (R562). -/
def execUpdAbandon (t req : Nat) (s : State) : Answer := software true s t req (updPage + 0x5C) 16

/-- UPD_CMD.EPOCH (R579). -/
def execUpdEpoch (t req : Nat) (s : State) : Answer := software true s t req (updPage + 0x5C) 32

/-- SET_CMD.READ (R581); it may meet a seedbed read that fails (R555). -/
def execSetRead (t : Nat) (w : Asked) (s : State) : Answer :=
  commanded s t w.req setCmd 1 (w.met != 0) (fun s => setCommand s w.req .read true)

/-- SET_CMD.WRITE (R581); `full` is whether the slot has no room for the record. -/
def execSetWrite (t req : Nat) (full : Bool) (s : State) : Answer :=
  commanded s t req setCmd 2 full (fun s => setCommand s req .write true)

/-- SET_CMD.DELETE (R581). -/
def execSetDelete (t req : Nat) (s : State) : Answer := software true s t req (updPage + 0x84) 4

end Sys2Proof.Machine
end

