-- ==== Sys2Proof/Machine/WakeCmds.lean ====
section
/-! DEFINITION. The meaning of each command of network wake and sleep (12). -/
namespace Sys2Proof.Machine

/-- An armed detector reports bus activity on its channel (R437). -/
def execWakeEvent (t p : Nat) (s : State) : Answer := always (busPort s p) s t (fun s => wakeEvent s p)

/-- An edge of WAKE_IN pin `k`, and for how long the new level held (R438). -/
def execWakeInEdge (t k : Nat) (rising : Bool) (heldUs : Nat) (s : State) : Answer :=
  always (decide (k < 4)) s t (fun s => winEdge s k rising heldUs)

/-- CL_CMD.REQUEST of a cluster (R433). -/
def execClRequest (t req c : Nat) (s : State) : Answer :=
  always (decide (c < 32)) s t (fun s => writeReg s req (clusterPage + 0x600 + 4 * c) 2 true)

/-- CL_CMD.RELEASE of a cluster (R433). -/
def execClRelease (t req c : Nat) (s : State) : Answer :=
  software (decide (c < 32)) s t req (clusterPage + 0x600 + 4 * c) 1

/-- REPEAT has elapsed in REPEAT_MESSAGE (R430). -/
def execRepeatExpiry (t c : Nat) (s : State) : Answer := event (decide (c < 32)) s t (fun s => repeatExpiry s c)

/-- The NM timer of a cluster expires (R430). -/
def execNmTimerExpiry (t c : Nat) (s : State) : Answer := event (decide (c < 32)) s t (fun s => yielding s (.nmTimerExpiry t c))

/-- CYCLE has elapsed (R432). -/
def execNmCycle (t c : Nat) (s : State) : Answer := event (decide (c < 32)) s t (fun s => nmCycle s c)

/-- WAIT has elapsed in PREPARE_SLEEP (R441). -/
def execWaitExpiry (t c : Nat) (s : State) : Answer := event (decide (c < 32)) s t (fun s => waitExpiry s c)

/-- Every detector of a cluster has confirmed that it is armed (R441). -/
def execSleepCommit (t c : Nat) (s : State) : Answer := event (decide (c < 32)) s t (fun s => sleepCommit s c)

/-- The false-wake window of a channel ends (R443, R444). -/
def execFalseWakeWindowExpiry (t p : Nat) (s : State) : Answer := event (busPort s p) s t (fun s => yielding s (.falseWakeWindowExpiry t p))

/-- A 3,600 s period of the false-wake counts ends (R444). -/
def execFwHourPeriod (t : Nat) (s : State) : Answer := always true s t (fun s => fwHour s)

/-- The source of ledger entry `i` has held its cluster for KA_LIMIT seconds (R447). -/
def execKeepawakeFlag (t i : Nat) (s : State) : Answer := event (decide (i < 256)) s t (fun s => kaFlag s i)

/-- Supervisor `d` has missed the heartbeat for 4 ms (R450). -/
def execHeartbeatLapse (t d : Nat) (s : State) : Answer := always (decide (d < 2)) s t (fun s => yielding s (.heartbeatLapse t d))

/-- One second has passed since a heartbeat lapse (R450). -/
def execPowerVoteWithdraw (t d : Nat) (s : State) : Answer := always (decide (d < 2)) s t (fun s => voteWithdraw s d)

/-- The park conditions of a region have held for 10 ms (R451). -/
def execRegionPark (t r : Nat) (s : State) : Answer := event (decide (r < 4)) s t (fun s => yielding s (.regionPark t r))

/-- A region unparks as long as something asks it to run (R453). -/
def execRegionUnpark (t r : Nat) (s : State) : Answer := event (decide (r < 4)) s t (fun s => if unparkAsked s r then unpark s r else s)

/-- The NM PDUs of the other sources of a cluster have grown older than NM_TIMEOUT (R447). -/
def execNmSourceHolding (t c : Nat) (s : State) : Answer := event (decide (c < 32)) s t (fun s => refreshHolding s c)

end Sys2Proof.Machine
end

