-- ==== Sys2Proof/Machine/Dispatch.lean ====
section
/-! DEFINITION. One arm per command: its meaning. -/
namespace Sys2Proof.Machine

/-- The effect of a command on everything but the queue. -/
def exec (i : Instr) (s : State) : Host.Outcome State Fault Refusal :=
  match i with
  | .registerWrite t req addr value whole => Sys2Proof.Machine.execRegisterWrite t req addr value whole s
  | .pageRun t req page => Sys2Proof.Machine.execPageRun t req page s
  | .pageStop t req page => Sys2Proof.Machine.execPageStop t req page s
  | .pageRestart t req page => Sys2Proof.Machine.execPageRestart t req page s
  | .itemBoundary t page => Sys2Proof.Machine.execItemBoundary t page s
  | .mbxSnap t req n => Sys2Proof.Machine.execMbxSnap t req n s
  | .mbxSnapclr t req n => Sys2Proof.Machine.execMbxSnapclr t req n s
  | .mbxCommit t req n => Sys2Proof.Machine.execMbxCommit t req n s
  | .mbxDataRead t req n k => Sys2Proof.Machine.execMbxDataRead t req n k s
  | .cfgOpen t req => Sys2Proof.Machine.execCfgOpen t req s
  | .cfgClose t req => Sys2Proof.Machine.execCfgClose t req s
  | .cfgPassEnd t => Sys2Proof.Machine.execCfgPassEnd t s
  | .cfgWindowTimeout t => Sys2Proof.Machine.execCfgWindowTimeout t s
  | .furrowCommit t page data poison => Sys2Proof.Machine.execFurrowCommit t page data poison s
  | .furrowRewind t page wrote => Sys2Proof.Machine.execFurrowRewind t page wrote s
  | .furrowWordRead t page wrote bad => Sys2Proof.Machine.execFurrowWordRead t page wrote bad s
  | .furHwmWrite t req page v => Sys2Proof.Machine.execFurHwmWrite t req page v s
  | .furPop t req page => Sys2Proof.Machine.execFurPop t req page s
  | .popGuardExpiry t req page => Sys2Proof.Machine.execPopGuardExpiry t req page s
  | .pipelineItem t p bad => Sys2Proof.Machine.execPipelineItem t p bad s
  | .admission t r => Sys2Proof.Machine.execAdmission t r s
  | .plotCharge t p first bytes => Sys2Proof.Machine.execPlotCharge t p first bytes s
  | .plotFree t id => Sys2Proof.Machine.execPlotFree t id s
  | .heldAccountMove t id => Sys2Proof.Machine.execHeldAccountMove t id s
  | .egressSelect t o => Sys2Proof.Machine.execEgressSelect t o s
  | .copyAgeExpiry t o => Sys2Proof.Machine.execCopyAgeExpiry t o s
  | .cutThroughStart t o => Sys2Proof.Machine.execCutThroughStart t o s
  | .gateCycleStart t j => Sys2Proof.Machine.execGateCycleStart t j s
  | .gateEntryEnd t j => Sys2Proof.Machine.execGateEntryEnd t j s
  | .reseqItemArrival t stream num start frame outs => Sys2Proof.Machine.execReseqItemArrival t stream num start frame outs s
  | .reseqVoid t stream num start => Sys2Proof.Machine.execReseqVoid t stream num start s
  | .rsqGapExpiry t stream => Sys2Proof.Machine.execRsqGapExpiry t stream s
  | .rsqReset t req => Sys2Proof.Machine.execRsqReset t req s
  | .outputDown t o => Sys2Proof.Machine.execOutputDown t o s
  | .holdExpiry t o => Sys2Proof.Machine.execHoldExpiry t o s
  | .outputUp t o => Sys2Proof.Machine.execOutputUp t o s
  | .stuckExpiry t o => Sys2Proof.Machine.execStuckExpiry t o s
  | .tpRead t req page => Sys2Proof.Machine.execTpRead t req page s
  | .tpWrite t req page => Sys2Proof.Machine.execTpWrite t req page s
  | .tpInval t req page => Sys2Proof.Machine.execTpInval t req page s
  | .tpHash t req page => Sys2Proof.Machine.execTpHash t req page s
  | .tablePendingTimeout t page table j => Sys2Proof.Machine.execTablePendingTimeout t page table j s
  | .learnApply t r => Sys2Proof.Machine.execLearnApply t r s
  | .pinEnd t r k => Sys2Proof.Machine.execPinEnd t r k s
  | .unpinAll t req r => Sys2Proof.Machine.execUnpinAll t req r s
  | .lrnFlush t req r => Sys2Proof.Machine.execLrnFlush t req r s
  | .ageingVisit t r => Sys2Proof.Machine.execAgeingVisit t r s
  | .harrowCompare t h liveBad shadowBad readBack => Sys2Proof.Machine.execHarrowCompare t h liveBad shadowBad readBack s
  | .harrowFlagJudge t h liveBad shadowBad readBack => Sys2Proof.Machine.execHarrowFlagJudge t h liveBad shadowBad readBack s
  | .ssRead t slots => Sys2Proof.Machine.execSsRead t slots s
  | .ssWrite t req => Sys2Proof.Machine.execSsWrite t req s
  | .mbUnpack t bad slots => Sys2Proof.Machine.execMbUnpack t bad slots s
  | .mbPack t bad slots => Sys2Proof.Machine.execMbPack t bad slots s
  | .mbSend t req => Sys2Proof.Machine.execMbSend t req s
  | .drillTick t meets => Sys2Proof.Machine.execDrillTick t meets s
  | .deadlineTimeout t l bad => Sys2Proof.Machine.execDeadlineTimeout t l bad s
  | .mdtDeferralEnd t l => Sys2Proof.Machine.execMdtDeferralEnd t l s
  | .repetitionDue t l => Sys2Proof.Machine.execRepetitionDue t l s
  | .periodicSend t l => Sys2Proof.Machine.execPeriodicSend t l s
  | .linPull t m bad slots => Sys2Proof.Machine.execLinPull t m bad slots s
  | .canModeWrite t req n v => Sys2Proof.Machine.execCanModeWrite t req n v s
  | .busIntegration t n => Sys2Proof.Machine.execBusIntegration t n s
  | .canFrameReceived t n ide fdf brs rtr esi ident data => Sys2Proof.Machine.execCanFrameReceived t n ide fdf brs rtr esi ident data s
  | .canRxError t n code dataPhase ones eights => Sys2Proof.Machine.execCanRxError t n code dataPhase ones eights s
  | .objReq t n j => Sys2Proof.Machine.execObjReq t n j s
  | .objCancel t n j => Sys2Proof.Machine.execObjCancel t n j s
  | .objNewReturn t n j => Sys2Proof.Machine.execObjNewReturn t n j s
  | .canRouterFill t n => Sys2Proof.Machine.execCanRouterFill t n s
  | .canTxSelection t n => Sys2Proof.Machine.execCanTxSelection t n s
  | .canArbLoss t n => Sys2Proof.Machine.execCanArbLoss t n s
  | .canTxError t n code dataPhase exempt domSeen eights delay => Sys2Proof.Machine.execCanTxError t n code dataPhase exempt domSeen eights delay s
  | .canTxDone t n delay => Sys2Proof.Machine.execCanTxDone t n delay s
  | .busOffRecovered t n => Sys2Proof.Machine.execBusOffRecovered t n s
  | .trxStatusReport t p txdDom busDom overtemp vccLow => Sys2Proof.Machine.execTrxStatusReport t p txdDom busDom overtemp vccLow s
  | .transceiverModeCommand t p bad bad2 => Sys2Proof.Machine.execTransceiverModeCommand t p bad bad2 s
  | .heartbeatWord t => Sys2Proof.Machine.execHeartbeatWord t s
  | .linSlotStart t m => Sys2Proof.Machine.execLinSlotStart t m s
  | .linHeaderReceived t m measured pid => Sys2Proof.Machine.execLinHeaderReceived t m measured pid s
  | .linResponseReceived t m bytes err => Sys2Proof.Machine.execLinResponseReceived t m bytes err s
  | .linResponseTimeout t m someByte => Sys2Proof.Machine.execLinResponseTimeout t m someByte s
  | .linRoutedFill t m => Sys2Proof.Machine.execLinRoutedFill t m s
  | .linBufReadySet t req m j => Sys2Proof.Machine.execLinBufReadySet t req m j s
  | .linSchedSwitch t req m => Sys2Proof.Machine.execLinSchedSwitch t req m s
  | .linWakePulse t m => Sys2Proof.Machine.execLinWakePulse t m s
  | .linWakeWaitExpiry t m => Sys2Proof.Machine.execLinWakeWaitExpiry t m s
  | .linIdle t m => Sys2Proof.Machine.execLinIdle t m s
  | .linkDown t p => Sys2Proof.Machine.execLinkDown t p s
  | .linkUp t p speed half held => Sys2Proof.Machine.execLinkUp t p speed half held s
  | .ethFrameReceived t p first rest len since abort code fcs => Sys2Proof.Machine.execEthFrameReceived t p first rest len since abort code fcs s
  | .macControlFrame t p bytes => Sys2Proof.Machine.execMacControlFrame t p bytes s
  | .pauseTimerExpiry t p c => Sys2Proof.Machine.execPauseTimerExpiry t p c s
  | .ethFrameSent t p left failed => Sys2Proof.Machine.execEthFrameSent t p left failed s
  | .pauseRefresh t p => Sys2Proof.Machine.execPauseRefresh t p s
  | .collision t p late => Sys2Proof.Machine.execCollision t p late s
  | .backoffExpiry t p => Sys2Proof.Machine.execBackoffExpiry t p s
  | .t1sForcedJam t p => Sys2Proof.Machine.execT1sForcedJam t p s
  | .plcaTransmitOpportunity t p begins => Sys2Proof.Machine.execPlcaTransmitOpportunity t p begins s
  | .timeStep t req => Sys2Proof.Machine.execTimeStep t req s
  | .wakeEvent t p => Sys2Proof.Machine.execWakeEvent t p s
  | .wakeInEdge t k rising heldUs => Sys2Proof.Machine.execWakeInEdge t k rising heldUs s
  | .clRequest t req c => Sys2Proof.Machine.execClRequest t req c s
  | .clRelease t req c => Sys2Proof.Machine.execClRelease t req c s
  | .repeatExpiry t c => Sys2Proof.Machine.execRepeatExpiry t c s
  | .nmTimerExpiry t c => Sys2Proof.Machine.execNmTimerExpiry t c s
  | .nmCycle t c => Sys2Proof.Machine.execNmCycle t c s
  | .waitExpiry t c => Sys2Proof.Machine.execWaitExpiry t c s
  | .sleepCommit t c => Sys2Proof.Machine.execSleepCommit t c s
  | .falseWakeWindowExpiry t p => Sys2Proof.Machine.execFalseWakeWindowExpiry t p s
  | .fwHourPeriod t => Sys2Proof.Machine.execFwHourPeriod t s
  | .keepawakeFlag t j => Sys2Proof.Machine.execKeepawakeFlag t j s
  | .heartbeatLapse t d => Sys2Proof.Machine.execHeartbeatLapse t d s
  | .powerVoteWithdraw t d => Sys2Proof.Machine.execPowerVoteWithdraw t d s
  | .regionPark t r => Sys2Proof.Machine.execRegionPark t r s
  | .regionUnpark t r => Sys2Proof.Machine.execRegionUnpark t r s
  | .laneDispatch t => Sys2Proof.Machine.execLaneDispatch t s
  | .secocGenerate t j ev => Sys2Proof.Machine.execSecocGenerate t j ev s
  | .secocVerify t j ev => Sys2Proof.Machine.execSecocVerify t j ev s
  | .macsecProtect t j ev => Sys2Proof.Machine.execMacsecProtect t j ev s
  | .macsecReceive t j ev => Sys2Proof.Machine.execMacsecReceive t j ev s
  | .laneSelftestDone t j pass => Sys2Proof.Machine.execLaneSelftestDone t j pass s
  | .entropyHealthFail t bits => Sys2Proof.Machine.execEntropyHealthFail t bits s
  | .entropyStartupDone w => Sys2Proof.Machine.execEntropyStartupDone w s
  | .drbgReseed t req => Sys2Proof.Machine.execDrbgReseed t req s
  | .drbgOutRead t req => Sys2Proof.Machine.execDrbgOutRead t req s
  | .lcGo t req burnOk => Sys2Proof.Machine.execLcGo t req burnOk s
  | .keyGenerate t req => Sys2Proof.Machine.execKeyGenerate t req s
  | .keyDerive t w => Sys2Proof.Machine.execKeyDerive t w s
  | .keyErase t req => Sys2Proof.Machine.execKeyErase t req s
  | .keyInfo t req => Sys2Proof.Machine.execKeyInfo t req s
  | .cvStart t req u => Sys2Proof.Machine.execCvStart t req u s
  | .cvAbort t req u => Sys2Proof.Machine.execCvAbort t req u s
  | .cvDataWrite t req u v => Sys2Proof.Machine.execCvDataWrite t req u v s
  | .countedFault t page row code detail failed => Sys2Proof.Machine.execCountedFault t page row code detail failed s
  | .rowTestEnd t page row pass => Sys2Proof.Machine.execRowTestEnd t page row pass s
  | .hubReclaim t req => Sys2Proof.Machine.execHubReclaim t req s
  | .operMinute t => Sys2Proof.Machine.execOperMinute t s
  | .handshakeStall t page => Sys2Proof.Machine.execHandshakeStall t page s
  | .paceWindow t j v => Sys2Proof.Machine.execPaceWindow t j v s
  | .monitorSample t dom blk pg => Sys2Proof.Machine.execMonitorSample t dom blk pg s
  | .monSnap t req page clear => Sys2Proof.Machine.execMonSnap t req page clear s
  | .monConfigWrite t req page ctrl v => Sys2Proof.Machine.execMonConfigWrite t req page ctrl v s
  | .updateHeaderBlock t data bad => Sys2Proof.Machine.execUpdateHeaderBlock t data bad s
  | .updateBodyBlock t offset data bad => Sys2Proof.Machine.execUpdateBodyBlock t offset data bad s
  | .updVerify t w => Sys2Proof.Machine.execUpdVerify t w s
  | .updActivate t req force fault => Sys2Proof.Machine.execUpdActivate t req force fault s
  | .updConfirm t req => Sys2Proof.Machine.execUpdConfirm t req s
  | .updReject t w => Sys2Proof.Machine.execUpdReject t w s
  | .trialTimerExpiry w => Sys2Proof.Machine.execTrialTimerExpiry w s
  | .trialMinute t => Sys2Proof.Machine.execTrialMinute t s
  | .updAbandon t req => Sys2Proof.Machine.execUpdAbandon t req s
  | .updEpoch t req => Sys2Proof.Machine.execUpdEpoch t req s
  | .setRead t w => Sys2Proof.Machine.execSetRead t w s
  | .setWrite t req full => Sys2Proof.Machine.execSetWrite t req full s
  | .setDelete t req => Sys2Proof.Machine.execSetDelete t req s
  | .tailWrite t req tx n v => Sys2Proof.Machine.execTailWrite t req tx n v s
  | .htxDescriptor t n form tsReq tag bytes cplErr bad => Sys2Proof.Machine.execHtxDescriptor t n form tsReq tag bytes cplErr bad s
  | .hostqStallExpiry t n => Sys2Proof.Machine.execHostqStallExpiry t n s
  | .lateCompletion t n => Sys2Proof.Machine.execLateCompletion t n s
  | .hrxDeliver t n addr bufLen => Sys2Proof.Machine.execHrxDeliver t n addr bufLen s
  | .msixHoldoffEnd t n => Sys2Proof.Machine.execMsixHoldoffEnd t n s
  | .ebderLinkTrained t k peer => Sys2Proof.Machine.execEbderLinkTrained t k peer s
  | .idClashRetry t k peer => Sys2Proof.Machine.execIdClashRetry t k peer s
  | .ebderFrameReceived t k bytes => Sys2Proof.Machine.execEbderFrameReceived t k bytes s
  | .ebderAck t k num => Sys2Proof.Machine.execEbderAck t k num s
  | .ebderNak t k num => Sys2Proof.Machine.execEbderNak t k num s
  | .ebderCredit t k pool cls limit => Sys2Proof.Machine.execEbderCredit t k pool cls limit s
  | .replayTimeout t k => Sys2Proof.Machine.execReplayTimeout t k s
  | .linkRetrain t k lanesGood => Sys2Proof.Machine.execLinkRetrain t k lanesGood s
  | .relayWaitExpiry t k => Sys2Proof.Machine.execRelayWaitExpiry t k s
  | .remoteAccess t pf dev write addr data whole => Sys2Proof.Machine.execRemoteAccess t pf dev write addr data whole s
  | .regReqReceived t src pf tag write addr data => Sys2Proof.Machine.execRegReqReceived t src pf tag write addr data s
  | .regRspReceived t src tag status data => Sys2Proof.Machine.execRegRspReceived t src tag status data s
  | .remoteAccessTimeout t tag => Sys2Proof.Machine.execRemoteAccessTimeout t tag s
  | .intFrameReceived t src => Sys2Proof.Machine.execIntFrameReceived t src s
  | .leaseGrant t pin lowNs highNs req => Sys2Proof.Machine.execLeaseGrant t pin lowNs highNs req s
  | .leaseExpiry t => Sys2Proof.Machine.execLeaseExpiry t s
  | .guardExpiry t => Sys2Proof.Machine.execGuardExpiry t s
  | .pairHandover t req => Sys2Proof.Machine.execPairHandover t req s
  | .pairFrameSend t => Sys2Proof.Machine.execPairFrameSend t s
  | .pairFrameReceived t state primary lease peer => Sys2Proof.Machine.execPairFrameReceived t state primary lease peer s
  | .contactTimeout t => Sys2Proof.Machine.execContactTimeout t s
  | .reclaimHoldExpiry t => Sys2Proof.Machine.execReclaimHoldExpiry t s
  | .reclaimReceived t => Sys2Proof.Machine.execReclaimReceived t s
  | .mirrorReceived t what j v flag => Sys2Proof.Machine.execMirrorReceived t what j v flag s
  | .leaseOutToggle t => Sys2Proof.Machine.execLeaseOutToggle t s
  | .vbatPowerOn t => Sys2Proof.Machine.execVbatPowerOn t s
  | .vbatPowerOff t => Sys2Proof.Machine.execVbatPowerOff t s
  | .coreSupplyGood t boot => Sys2Proof.Machine.execCoreSupplyGood t boot s
  | .pgoodTimeout t d => Sys2Proof.Machine.execPgoodTimeout t d s
  | .voteRetry t d => Sys2Proof.Machine.execVoteRetry t d s
  | .pwrWarm t req boot => Sys2Proof.Machine.execPwrWarm t req boot s
  | .pwrStandby t req force => Sys2Proof.Machine.execPwrStandby t req force s
  | .autoStandbyExpiry t => Sys2Proof.Machine.execAutoStandbyExpiry t s
  | .standbyPagesStopped t => Sys2Proof.Machine.execStandbyPagesStopped t s
  | .standbyHoldExpiry t boot => Sys2Proof.Machine.execStandbyHoldExpiry t boot s
  | .brownOut t supply => Sys2Proof.Machine.execBrownOut t supply s
  | .refclkLoss t => Sys2Proof.Machine.execRefclkLoss t s
  | .perstAssert t => Sys2Proof.Machine.execPerstAssert t s
  | .coreSupplyRemoved t => Sys2Proof.Machine.execCoreSupplyRemoved t s
  | .perstRelease t => Sys2Proof.Machine.execPerstRelease t s
  | .pcieLinkUp t => Sys2Proof.Machine.execPcieLinkUp t s
  | .pcieLinkDown t => Sys2Proof.Machine.execPcieLinkDown t s
  | .refclkRestored t boot => Sys2Proof.Machine.execRefclkRestored t boot s
  | .keySaveDone t => Sys2Proof.Machine.execKeySaveDone t s
  | .healthyRestored t => Sys2Proof.Machine.execHealthyRestored t s
  | .nmSourceHolding t c => Sys2Proof.Machine.execNmSourceHolding t c s
  | .speedDuplexChange t p speed half => Sys2Proof.Machine.execSpeedDuplexChange t p speed half s

end Sys2Proof.Machine
end

