-- ==== Sys2Proof/Safety.lean ====
section
/-! DEFINITION. What claims about runs are stated in: the elements a command names, the commands that are events of the core
die or software writes, and runs of several steps. -/
namespace Sys2Proof.Machine

/-- The element that a command names (a channel, port, region, ring, link, page) exists in the variant; a command that names
none asks nothing. -/
def namesPresent (f : Fuses) : Instr → Bool
  | .registerWrite _ _ _ _ _ => true
  | .pageRun _ _ _ => true
  | .pageStop _ _ _ => true
  | .pageRestart _ _ _ => true
  | .itemBoundary _ page => kindOf f page != 0
  | .mbxSnap _ _ n => decide (n < 4)
  | .mbxSnapclr _ _ n => decide (n < 4)
  | .mbxCommit _ _ n => decide (n < 4)
  | .mbxDataRead _ _ n k => decide (n < 4) && decide (k < 11)
  | .cfgOpen _ _ => true
  | .cfgClose _ _ => true
  | .cfgPassEnd _ => true
  | .cfgWindowTimeout _ => true
  | .furrowCommit _ page _ _ => (furGroup (kindOf f page)).isSome
  | .furrowRewind _ page _ => (furGroup (kindOf f page)).isSome
  | .furrowWordRead _ page _ _ => (furGroup (kindOf f page)).isSome
  | .furHwmWrite _ _ page _ => (furGroup (kindOf f page)).isSome
  | .furPop _ _ page => (popGroup (kindOf f page)).isSome
  | .popGuardExpiry _ _ page => (popGroup (kindOf f page)).isSome
  | .pipelineItem _ p _ => portPresent f p && p != 126
  | .admission _ _ => true
  | .plotCharge _ p _ _ => ((decide (88 ≤ p) && decide (p < 126)) || decide (128 ≤ p)) && portPresent f p
  | .plotFree _ _ => true
  | .heldAccountMove _ _ => true
  | .egressSelect _ o => portPresent f o
  | .copyAgeExpiry _ o => portPresent f o
  | .cutThroughStart _ o => portPresent f o
  | .gateCycleStart _ i => decide (i < 20) && macPresent f (104 + i)
  | .gateEntryEnd _ i => decide (i < 20) && macPresent f (104 + i)
  | .reseqItemArrival _ _ _ _ _ _ => true
  | .reseqVoid _ _ _ _ => true
  | .rsqGapExpiry _ _ => true
  | .rsqReset _ _ => true
  | .outputDown _ o => portPresent f o
  | .holdExpiry _ o => portPresent f o
  | .outputUp _ o => portPresent f o
  | .stuckExpiry _ o => portPresent f o
  | .tpRead _ _ page => decide (kindOf f page = 0x1F)
  | .tpWrite _ _ page => decide (kindOf f page = 0x1F)
  | .tpInval _ _ page => decide (kindOf f page = 0x1F)
  | .tpHash _ _ page => decide (kindOf f page = 0x1F)
  | .tablePendingTimeout _ page _ _ => decide (kindOf f page = 0x1F)
  | .learnApply _ r => decide (r < 4)
  | .pinEnd _ r k => decide (r < 4) && decide (k < 256)
  | .unpinAll _ _ r => decide (r < 4)
  | .lrnFlush _ _ r => decide (r < 4)
  | .ageingVisit _ r => decide (r < 4)
  | .harrowCompare _ h _ _ _ => decide (h < 6)
  | .harrowFlagJudge _ h _ _ _ => decide (h < 6)
  | .ssRead _ _ => true
  | .ssWrite _ _ => true
  | .mbUnpack _ _ _ => true
  | .mbPack _ _ _ => true
  | .mbSend _ _ => true
  | .drillTick _ _ => true
  | .deadlineTimeout _ _ _ => true
  | .mdtDeferralEnd _ _ => true
  | .repetitionDue _ _ => true
  | .periodicSend _ _ => true
  | .linPull _ m _ _ => linPresent f m
  | .canModeWrite _ _ n _ => decide (n < 64)
  | .busIntegration _ n => canPresent f n
  | .canFrameReceived _ n _ _ _ _ _ _ _ => canPresent f n
  | .canRxError _ n _ _ _ _ => canPresent f n
  | .objReq _ n i => decide (n < 64) && decide (i < 96)
  | .objCancel _ n i => decide (n < 64) && decide (i < 96)
  | .objNewReturn _ n i => decide (n < 64) && decide (i < 96)
  | .canRouterFill _ n => canPresent f n
  | .canTxSelection _ n => canPresent f n
  | .canArbLoss _ n => canPresent f n
  | .canTxError _ n _ _ _ _ _ _ => canPresent f n
  | .canTxDone _ n _ => canPresent f n
  | .busOffRecovered _ n => canPresent f n
  | .trxStatusReport _ p _ _ _ _ => decide (p < 104) && portPresent f p
  | .transceiverModeCommand _ p _ _ => decide (p < 104) && portPresent f p
  | .heartbeatWord _ => true
  | .linSlotStart _ m => linPresent f m
  | .linHeaderReceived _ m _ _ => linPresent f m
  | .linResponseReceived _ m _ _ => linPresent f m
  | .linResponseTimeout _ m _ => linPresent f m
  | .linRoutedFill _ m => linPresent f m
  | .linBufReadySet _ _ m i => decide (m < 24) && decide (i < 64)
  | .linSchedSwitch _ _ m => decide (m < 24)
  | .linWakePulse _ m => linPresent f m
  | .linWakeWaitExpiry _ m => linPresent f m
  | .linIdle _ m => linPresent f m
  | .linkDown _ p => macPresent f p
  | .linkUp _ p _ _ _ => macPresent f p
  | .ethFrameReceived _ p _ _ _ _ _ _ _ => macPresent f p
  | .macControlFrame _ p _ => macPresent f p
  | .pauseTimerExpiry _ p _ => macPresent f p
  | .ethFrameSent _ p _ _ => macPresent f p
  | .pauseRefresh _ p => macPresent f p
  | .collision _ p _ => macPresent f p
  | .backoffExpiry _ p => macPresent f p
  | .t1sForcedJam _ p => macPresent f p
  | .plcaTransmitOpportunity _ p _ => macPresent f p
  | .timeStep _ _ => true
  | .wakeEvent _ p => decide (p < 104) && portPresent f p
  | .wakeInEdge _ k _ _ => decide (k < 4)
  | .clRequest _ _ c => decide (c < 32)
  | .clRelease _ _ c => decide (c < 32)
  | .repeatExpiry _ c => decide (c < 32)
  | .nmTimerExpiry _ c => decide (c < 32)
  | .nmCycle _ c => decide (c < 32)
  | .waitExpiry _ c => decide (c < 32)
  | .sleepCommit _ c => decide (c < 32)
  | .falseWakeWindowExpiry _ p => decide (p < 104) && portPresent f p
  | .fwHourPeriod _ => true
  | .keepawakeFlag _ i => decide (i < 256)
  | .heartbeatLapse _ d => decide (d < 2)
  | .powerVoteWithdraw _ d => decide (d < 2)
  | .regionPark _ r => decide (r < 4)
  | .regionUnpark _ r => decide (r < 4)
  | .laneDispatch _ => true
  | .secocGenerate _ i _ => decide (kindOf f (lanePage i) = 0x42)
  | .secocVerify _ i _ => decide (kindOf f (lanePage i) = 0x42)
  | .macsecProtect _ i _ => decide (kindOf f (lanePage i) = 0x42)
  | .macsecReceive _ i _ => decide (kindOf f (lanePage i) = 0x42)
  | .laneSelftestDone _ i _ => decide (kindOf f (lanePage i) = 0x42)
  | .entropyHealthFail _ _ => true
  | .entropyStartupDone _ => true
  | .drbgReseed _ _ => true
  | .drbgOutRead _ _ => true
  | .lcGo _ _ _ => true
  | .keyGenerate _ _ => true
  | .keyDerive _ _ => true
  | .keyErase _ _ => true
  | .keyInfo _ _ => true
  | .cvStart _ _ u => decide (u < 4)
  | .cvAbort _ _ u => decide (u < 4)
  | .cvDataWrite _ _ u _ => decide (u < 4)
  | .countedFault _ page _ _ _ _ => kindOf f page != 0
  | .rowTestEnd _ page _ _ => kindOf f page != 0
  | .hubReclaim _ _ => true
  | .operMinute _ => true
  | .handshakeStall _ page => kindOf f page != 0
  | .paceWindow _ i _ => decide (i < 5)
  | .monitorSample _ dom blk pg => decide (kindOf f (pageAt dom blk pg) = 0x11)
  | .monSnap _ _ page _ => decide (kindOf f page = 0x11)
  | .monConfigWrite _ _ page _ _ => decide (kindOf f page = 0x11)
  | .updateHeaderBlock _ _ _ => true
  | .updateBodyBlock _ _ _ _ => true
  | .updVerify _ _ => true
  | .updActivate _ _ _ _ => true
  | .updConfirm _ _ => true
  | .updReject _ _ => true
  | .trialTimerExpiry _ => true
  | .trialMinute _ => true
  | .updAbandon _ _ => true
  | .updEpoch _ _ => true
  | .setRead _ _ => true
  | .setWrite _ _ _ => true
  | .setDelete _ _ => true
  | .tailWrite _ _ _ n _ => decide (n < 16)
  | .htxDescriptor _ n _ _ _ _ _ _ => decide (n < 16)
  | .hostqStallExpiry _ n => decide (n < 16)
  | .lateCompletion _ n => decide (n < 16)
  | .hrxDeliver _ n _ _ => decide (n < 16)
  | .msixHoldoffEnd _ n => decide (n < 16)
  | .ebderLinkTrained _ k _ => decide (k < 2) && f.xTier
  | .idClashRetry _ k _ => decide (k < 2) && f.xTier
  | .ebderFrameReceived _ k _ => decide (k < 2) && f.xTier
  | .ebderAck _ k _ => decide (k < 2) && f.xTier
  | .ebderNak _ k _ => decide (k < 2) && f.xTier
  | .ebderCredit _ k _ _ _ => decide (k < 2) && f.xTier
  | .replayTimeout _ k => decide (k < 2) && f.xTier
  | .linkRetrain _ k _ => decide (k < 2) && f.xTier
  | .relayWaitExpiry _ k => decide (k < 2) && f.xTier
  | .remoteAccess _ _ _ _ _ _ _ => true
  | .regReqReceived _ _ _ _ _ _ _ => f.xTier
  | .regRspReceived _ _ _ _ _ => f.xTier
  | .remoteAccessTimeout _ _ => f.xTier
  | .intFrameReceived _ _ => f.xTier
  | .leaseGrant _ _ _ _ _ => true
  | .leaseExpiry _ => f.xTier
  | .guardExpiry _ => f.xTier
  | .pairHandover _ _ => true
  | .pairFrameSend _ => f.xTier
  | .pairFrameReceived _ _ _ _ _ => f.xTier
  | .contactTimeout _ => f.xTier
  | .reclaimHoldExpiry _ => f.xTier
  | .reclaimReceived _ => f.xTier
  | .mirrorReceived _ _ _ _ _ => f.xTier
  | .leaseOutToggle _ => f.xTier
  | .vbatPowerOn _ => true
  | .vbatPowerOff _ => true
  | .coreSupplyGood _ _ => true
  | .pgoodTimeout _ d => decide (d < 2)
  | .voteRetry _ d => decide (d < 2)
  | .pwrWarm _ _ _ => true
  | .pwrStandby _ _ _ => true
  | .autoStandbyExpiry _ => true
  | .standbyPagesStopped _ => true
  | .standbyHoldExpiry _ _ => true
  | .brownOut _ _ => true
  | .refclkLoss _ => true
  | .perstAssert _ => true
  | .coreSupplyRemoved _ => true
  | .perstRelease _ => true
  | .pcieLinkUp _ => true
  | .pcieLinkDown _ => true
  | .refclkRestored _ _ => true
  | .keySaveDone _ => true
  | .healthyRestored _ => f.xTier
  | .nmSourceHolding _ c => decide (c < 32)
  | .speedDuplexChange _ p _ _ => macPresent f p

/-- The commands that are events of the core die, which works in ACTIVE and PARTIAL alone (R643, R648). -/
def isEvent : Instr → Bool
  | .registerWrite _ _ _ _ _ => false
  | .pageRun _ _ _ => false
  | .pageStop _ _ _ => false
  | .pageRestart _ _ _ => false
  | .itemBoundary _ _ => true
  | .mbxSnap _ _ _ => false
  | .mbxSnapclr _ _ _ => false
  | .mbxCommit _ _ _ => false
  | .mbxDataRead _ _ _ _ => false
  | .cfgOpen _ _ => false
  | .cfgClose _ _ => false
  | .cfgPassEnd _ => true
  | .cfgWindowTimeout _ => true
  | .furrowCommit _ _ _ _ => true
  | .furrowRewind _ _ _ => true
  | .furrowWordRead _ _ _ _ => true
  | .furHwmWrite _ _ _ _ => false
  | .furPop _ _ _ => false
  | .popGuardExpiry _ _ _ => true
  | .pipelineItem _ _ _ => true
  | .admission _ _ => true
  | .plotCharge _ _ _ _ => true
  | .plotFree _ _ => true
  | .heldAccountMove _ _ => true
  | .egressSelect _ _ => true
  | .copyAgeExpiry _ _ => true
  | .cutThroughStart _ _ => true
  | .gateCycleStart _ _ => true
  | .gateEntryEnd _ _ => true
  | .reseqItemArrival _ _ _ _ _ _ => true
  | .reseqVoid _ _ _ _ => true
  | .rsqGapExpiry _ _ => true
  | .rsqReset _ _ => false
  | .outputDown _ _ => true
  | .holdExpiry _ _ => true
  | .outputUp _ _ => true
  | .stuckExpiry _ _ => true
  | .tpRead _ _ _ => false
  | .tpWrite _ _ _ => false
  | .tpInval _ _ _ => false
  | .tpHash _ _ _ => false
  | .tablePendingTimeout _ _ _ _ => true
  | .learnApply _ _ => true
  | .pinEnd _ _ _ => true
  | .unpinAll _ _ _ => false
  | .lrnFlush _ _ _ => false
  | .ageingVisit _ _ => true
  | .harrowCompare _ _ _ _ _ => true
  | .harrowFlagJudge _ _ _ _ _ => true
  | .ssRead _ _ => false
  | .ssWrite _ _ => false
  | .mbUnpack _ _ _ => true
  | .mbPack _ _ _ => true
  | .mbSend _ _ => false
  | .drillTick _ _ => true
  | .deadlineTimeout _ _ _ => true
  | .mdtDeferralEnd _ _ => true
  | .repetitionDue _ _ => true
  | .periodicSend _ _ => true
  | .linPull _ _ _ _ => true
  | .canModeWrite _ _ _ _ => false
  | .busIntegration _ _ => true
  | .canFrameReceived _ _ _ _ _ _ _ _ _ => true
  | .canRxError _ _ _ _ _ _ => true
  | .objReq _ _ _ => false
  | .objCancel _ _ _ => false
  | .objNewReturn _ _ _ => false
  | .canRouterFill _ _ => true
  | .canTxSelection _ _ => true
  | .canArbLoss _ _ => true
  | .canTxError _ _ _ _ _ _ _ _ => true
  | .canTxDone _ _ _ => true
  | .busOffRecovered _ _ => true
  | .trxStatusReport _ _ _ _ _ _ => true
  | .transceiverModeCommand _ _ _ _ => true
  | .heartbeatWord _ => false
  | .linSlotStart _ _ => true
  | .linHeaderReceived _ _ _ _ => true
  | .linResponseReceived _ _ _ _ => true
  | .linResponseTimeout _ _ _ => true
  | .linRoutedFill _ _ => true
  | .linBufReadySet _ _ _ _ => false
  | .linSchedSwitch _ _ _ => false
  | .linWakePulse _ _ => true
  | .linWakeWaitExpiry _ _ => true
  | .linIdle _ _ => true
  | .linkDown _ _ => true
  | .linkUp _ _ _ _ _ => true
  | .ethFrameReceived _ _ _ _ _ _ _ _ _ => true
  | .macControlFrame _ _ _ => true
  | .pauseTimerExpiry _ _ _ => true
  | .ethFrameSent _ _ _ _ => true
  | .pauseRefresh _ _ => true
  | .collision _ _ _ => true
  | .backoffExpiry _ _ => true
  | .t1sForcedJam _ _ => true
  | .plcaTransmitOpportunity _ _ _ => true
  | .timeStep _ _ => false
  | .wakeEvent _ _ => false
  | .wakeInEdge _ _ _ _ => false
  | .clRequest _ _ _ => false
  | .clRelease _ _ _ => false
  | .repeatExpiry _ _ => true
  | .nmTimerExpiry _ _ => true
  | .nmCycle _ _ => true
  | .waitExpiry _ _ => true
  | .sleepCommit _ _ => true
  | .falseWakeWindowExpiry _ _ => true
  | .fwHourPeriod _ => false
  | .keepawakeFlag _ _ => true
  | .heartbeatLapse _ _ => false
  | .powerVoteWithdraw _ _ => false
  | .regionPark _ _ => true
  | .regionUnpark _ _ => true
  | .laneDispatch _ => true
  | .secocGenerate _ _ _ => true
  | .secocVerify _ _ _ => true
  | .macsecProtect _ _ _ => true
  | .macsecReceive _ _ _ => true
  | .laneSelftestDone _ _ _ => true
  | .entropyHealthFail _ _ => true
  | .entropyStartupDone _ => true
  | .drbgReseed _ _ => false
  | .drbgOutRead _ _ => false
  | .lcGo _ _ _ => false
  | .keyGenerate _ _ => false
  | .keyDerive _ _ => false
  | .keyErase _ _ => false
  | .keyInfo _ _ => false
  | .cvStart _ _ _ => false
  | .cvAbort _ _ _ => false
  | .cvDataWrite _ _ _ _ => false
  | .countedFault _ _ _ _ _ _ => true
  | .rowTestEnd _ _ _ _ => true
  | .hubReclaim _ _ => false
  | .operMinute _ => true
  | .handshakeStall _ _ => true
  | .paceWindow _ _ _ => true
  | .monitorSample _ _ _ _ => true
  | .monSnap _ _ _ _ => false
  | .monConfigWrite _ _ _ _ _ => false
  | .updateHeaderBlock _ _ _ => true
  | .updateBodyBlock _ _ _ _ => true
  | .updVerify _ _ => false
  | .updActivate _ _ _ _ => false
  | .updConfirm _ _ => false
  | .updReject _ _ => false
  | .trialTimerExpiry _ => true
  | .trialMinute _ => true
  | .updAbandon _ _ => false
  | .updEpoch _ _ => false
  | .setRead _ _ => false
  | .setWrite _ _ _ => false
  | .setDelete _ _ => false
  | .tailWrite _ _ _ _ _ => false
  | .htxDescriptor _ _ _ _ _ _ _ _ => true
  | .hostqStallExpiry _ _ => true
  | .lateCompletion _ _ => true
  | .hrxDeliver _ _ _ _ => true
  | .msixHoldoffEnd _ _ => true
  | .ebderLinkTrained _ _ _ => true
  | .idClashRetry _ _ _ => true
  | .ebderFrameReceived _ _ _ => true
  | .ebderAck _ _ _ => true
  | .ebderNak _ _ _ => true
  | .ebderCredit _ _ _ _ _ => true
  | .replayTimeout _ _ => true
  | .linkRetrain _ _ _ => true
  | .relayWaitExpiry _ _ => true
  | .remoteAccess _ _ _ _ _ _ _ => false
  | .regReqReceived _ _ _ _ _ _ _ => true
  | .regRspReceived _ _ _ _ _ => true
  | .remoteAccessTimeout _ _ => true
  | .intFrameReceived _ _ => true
  | .leaseGrant _ _ _ _ _ => false
  | .leaseExpiry _ => true
  | .guardExpiry _ => true
  | .pairHandover _ _ => false
  | .pairFrameSend _ => true
  | .pairFrameReceived _ _ _ _ _ => true
  | .contactTimeout _ => true
  | .reclaimHoldExpiry _ => true
  | .reclaimReceived _ => true
  | .mirrorReceived _ _ _ _ _ => true
  | .leaseOutToggle _ => true
  | .vbatPowerOn _ => false
  | .vbatPowerOff _ => false
  | .coreSupplyGood _ _ => false
  | .pgoodTimeout _ _ => false
  | .voteRetry _ _ => false
  | .pwrWarm _ _ _ => false
  | .pwrStandby _ _ _ => false
  | .autoStandbyExpiry _ => false
  | .standbyPagesStopped _ => true
  | .standbyHoldExpiry _ _ => false
  | .brownOut _ _ => false
  | .refclkLoss _ => false
  | .perstAssert _ => false
  | .coreSupplyRemoved _ => false
  | .perstRelease _ => false
  | .pcieLinkUp _ => false
  | .pcieLinkDown _ => false
  | .refclkRestored _ _ => false
  | .keySaveDone _ => true
  | .healthyRestored _ => true
  | .nmSourceHolding _ _ => true
  | .speedDuplexChange _ _ _ _ => true

/-- A write of a whole register by a requester at a moment. -/
structure RegWrite where
  moment : Nat
  req : Nat
  addr : Nat
  value : Nat
  deriving DecidableEq, Repr

/-- The register write that a command of the table is, where it is one. -/
def registerWriteOf (f : Fuses) : Instr → Option RegWrite
  | .registerWrite _ _ _ _ _ => none
  | .pageRun t req page => some { moment := t, req := req, addr := page + 8, value := 1 }
  | .pageStop t req page => some { moment := t, req := req, addr := page + 8, value := 2 }
  | .pageRestart t req page => some { moment := t, req := req, addr := page + 8, value := 4 }
  | .itemBoundary _ _ => none
  | .mbxSnap t req n => some { moment := t, req := req, addr := mbxPage n + 0x44, value := 1 }
  | .mbxSnapclr t req n => some { moment := t, req := req, addr := mbxPage n + 0x44, value := 2 }
  | .mbxCommit t req n => some { moment := t, req := req, addr := mbxPage n + 0x44, value := 4 }
  | .mbxDataRead _ _ _ _ => none
  | .cfgOpen t req => some { moment := t, req := req, addr := cfgPage + 0x40, value := 1 }
  | .cfgClose t req => some { moment := t, req := req, addr := cfgPage + 0x40, value := 2 }
  | .cfgPassEnd _ => none
  | .cfgWindowTimeout _ => none
  | .furrowCommit _ _ _ _ => none
  | .furrowRewind _ _ _ => none
  | .furrowWordRead _ _ _ _ => none
  | .furHwmWrite t req page v =>
    some { moment := t, req := req, addr := page + (furGroup (kindOf f page)).getD 0 + 0xC, value := v }
  | .furPop _ _ _ => none
  | .popGuardExpiry _ _ _ => none
  | .pipelineItem _ _ _ => none
  | .admission _ _ => none
  | .plotCharge _ _ _ _ => none
  | .plotFree _ _ => none
  | .heldAccountMove _ _ => none
  | .egressSelect _ _ => none
  | .copyAgeExpiry _ _ => none
  | .cutThroughStart _ _ => none
  | .gateCycleStart _ _ => none
  | .gateEntryEnd _ _ => none
  | .reseqItemArrival _ _ _ _ _ _ => none
  | .reseqVoid _ _ _ _ => none
  | .rsqGapExpiry _ _ => none
  | .rsqReset t req => some { moment := t, req := req, addr := rsqPage + 0x48, value := 1 }
  | .outputDown _ _ => none
  | .holdExpiry _ _ => none
  | .outputUp _ _ => none
  | .stuckExpiry _ _ => none
  | .tpRead t req page => some { moment := t, req := req, addr := page + 0x44, value := 1 }
  | .tpWrite t req page => some { moment := t, req := req, addr := page + 0x44, value := 2 }
  | .tpInval t req page => some { moment := t, req := req, addr := page + 0x44, value := 4 }
  | .tpHash t req page => some { moment := t, req := req, addr := page + 0x44, value := 8 }
  | .tablePendingTimeout _ _ _ _ => none
  | .learnApply _ _ => none
  | .pinEnd _ _ _ => none
  | .unpinAll t req r => some { moment := t, req := req, addr := learnPage r + 0x5C, value := 2 }
  | .lrnFlush t req r => some { moment := t, req := req, addr := learnPage r + 0x5C, value := 1 }
  | .ageingVisit _ _ => none
  | .harrowCompare _ _ _ _ _ => none
  | .harrowFlagJudge _ _ _ _ _ => none
  | .ssRead _ _ => none
  | .ssWrite t req => some { moment := t, req := req, addr := ssPage + 0x44, value := 2 }
  | .mbUnpack _ _ _ => none
  | .mbPack _ _ _ => none
  | .mbSend t req => some { moment := t, req := req, addr := mbPage + 0x48, value := 1 }
  | .drillTick _ _ => none
  | .deadlineTimeout _ _ _ => none
  | .mdtDeferralEnd _ _ => none
  | .repetitionDue _ _ => none
  | .periodicSend _ _ => none
  | .linPull _ _ _ _ => none
  | .canModeWrite t req n v => some { moment := t, req := req, addr := canPage n + 0x44, value := v }
  | .busIntegration _ _ => none
  | .canFrameReceived _ _ _ _ _ _ _ _ _ => none
  | .canRxError _ _ _ _ _ _ => none
  | .objReq _ _ _ => none
  | .objCancel _ _ _ => none
  | .objNewReturn _ _ _ => none
  | .canRouterFill _ _ => none
  | .canTxSelection _ _ => none
  | .canArbLoss _ _ => none
  | .canTxError _ _ _ _ _ _ _ _ => none
  | .canTxDone _ _ _ => none
  | .busOffRecovered _ _ => none
  | .trxStatusReport _ _ _ _ _ _ => none
  | .transceiverModeCommand _ _ _ _ => none
  | .heartbeatWord _ => none
  | .linSlotStart _ _ => none
  | .linHeaderReceived _ _ _ _ => none
  | .linResponseReceived _ _ _ _ => none
  | .linResponseTimeout _ _ _ => none
  | .linRoutedFill _ _ => none
  | .linBufReadySet t req m i => some { moment := t, req := req, addr := linBufStat m i, value := 1 }
  | .linSchedSwitch t req m => some { moment := t, req := req, addr := linPage m + 0x4C, value := 1 }
  | .linWakePulse _ _ => none
  | .linWakeWaitExpiry _ _ => none
  | .linIdle _ _ => none
  | .linkDown _ _ => none
  | .linkUp _ _ _ _ _ => none
  | .ethFrameReceived _ _ _ _ _ _ _ _ _ => none
  | .macControlFrame _ _ _ => none
  | .pauseTimerExpiry _ _ _ => none
  | .ethFrameSent _ _ _ _ => none
  | .pauseRefresh _ _ => none
  | .collision _ _ _ => none
  | .backoffExpiry _ _ => none
  | .t1sForcedJam _ _ => none
  | .plcaTransmitOpportunity _ _ _ => none
  | .timeStep t req => some { moment := t, req := req, addr := timePage + 0x4C, value := 1 }
  | .wakeEvent _ _ => none
  | .wakeInEdge _ _ _ _ => none
  | .clRequest _ _ _ => none
  | .clRelease t req c => some { moment := t, req := req, addr := clusterPage + 0x600 + 4 * c, value := 1 }
  | .repeatExpiry _ _ => none
  | .nmTimerExpiry _ _ => none
  | .nmCycle _ _ => none
  | .waitExpiry _ _ => none
  | .sleepCommit _ _ => none
  | .falseWakeWindowExpiry _ _ => none
  | .fwHourPeriod _ => none
  | .keepawakeFlag _ _ => none
  | .heartbeatLapse _ _ => none
  | .powerVoteWithdraw _ _ => none
  | .regionPark _ _ => none
  | .regionUnpark _ _ => none
  | .laneDispatch _ => none
  | .secocGenerate _ _ _ => none
  | .secocVerify _ _ _ => none
  | .macsecProtect _ _ _ => none
  | .macsecReceive _ _ _ => none
  | .laneSelftestDone _ _ _ => none
  | .entropyHealthFail _ _ => none
  | .entropyStartupDone _ => none
  | .drbgReseed t req => some { moment := t, req := req, addr := entPage + 0x48, value := 1 }
  | .drbgOutRead _ _ => none
  | .lcGo _ _ _ => none
  | .keyGenerate t req => some { moment := t, req := req, addr := keyPage + 0x44, value := 2 }
  | .keyDerive t w => if w.met = 0 then some { moment := t, req := w.req, addr := keyPage + 0x44, value := 4 } else none
  | .keyErase t req => some { moment := t, req := req, addr := keyPage + 0x44, value := 1 }
  | .keyInfo t req => some { moment := t, req := req, addr := keyPage + 0x44, value := 8 }
  | .cvStart t req u => some { moment := t, req := req, addr := cvPage u + 0x50, value := 1 }
  | .cvAbort t req u => some { moment := t, req := req, addr := cvPage u + 0x50, value := 2 }
  | .cvDataWrite t req u v => some { moment := t, req := req, addr := cvPage u + 0x4C, value := v }
  | .countedFault _ _ _ _ _ _ => none
  | .rowTestEnd _ _ _ _ => none
  | .hubReclaim t req => some { moment := t, req := req, addr := hubPage + 0x58, value := 1 }
  | .operMinute _ => none
  | .handshakeStall _ _ => none
  | .paceWindow _ _ _ => none
  | .monitorSample _ _ _ _ => none
  | .monSnap t req page clear => some { moment := t, req := req, addr := page + 0x48, value := if clear then 3 else 1 }
  | .monConfigWrite t req page ctrl v =>
    some { moment := t, req := req, addr := if ctrl then page + 0x44 else page + 0x40, value := v }
  | .updateHeaderBlock _ _ _ => none
  | .updateBodyBlock _ _ _ _ => none
  | .updVerify t w => if w.met = 0 then some { moment := t, req := w.req, addr := updCmd, value := 1 } else none
  | .updActivate t req force fault =>
    if fault = 0 then some { moment := t, req := req, addr := updCmd, value := if force then 66 else 2 } else none
  | .updConfirm t req => some { moment := t, req := req, addr := updPage + 0x5C, value := 4 }
  | .updReject t w => if w.met = 0 then some { moment := t, req := w.req, addr := updCmd, value := 8 } else none
  | .trialTimerExpiry _ => none
  | .trialMinute _ => none
  | .updAbandon t req => some { moment := t, req := req, addr := updPage + 0x5C, value := 16 }
  | .updEpoch t req => some { moment := t, req := req, addr := updPage + 0x5C, value := 32 }
  | .setRead t w => if w.met = 0 then some { moment := t, req := w.req, addr := setCmd, value := 1 } else none
  | .setWrite t req full => if full then none else some { moment := t, req := req, addr := setCmd, value := 2 }
  | .setDelete t req => some { moment := t, req := req, addr := updPage + 0x84, value := 4 }
  | .tailWrite _ _ _ _ _ => none
  | .htxDescriptor _ _ _ _ _ _ _ _ => none
  | .hostqStallExpiry _ _ => none
  | .lateCompletion _ _ => none
  | .hrxDeliver _ _ _ _ => none
  | .msixHoldoffEnd _ _ => none
  | .ebderLinkTrained _ _ _ => none
  | .idClashRetry _ _ _ => none
  | .ebderFrameReceived _ _ _ => none
  | .ebderAck _ _ _ => none
  | .ebderNak _ _ _ => none
  | .ebderCredit _ _ _ _ _ => none
  | .replayTimeout _ _ => none
  | .linkRetrain _ _ _ => none
  | .relayWaitExpiry _ _ => none
  | .remoteAccess _ _ _ _ _ _ _ => none
  | .regReqReceived _ _ _ _ _ _ _ => none
  | .regRspReceived _ _ _ _ _ => none
  | .remoteAccessTimeout _ _ => none
  | .intFrameReceived _ _ => none
  | .leaseGrant _ _ _ _ _ => none
  | .leaseExpiry _ => none
  | .guardExpiry _ => none
  | .pairHandover t req => some { moment := t, req := req, addr := pairPage + 0x48, value := 1 }
  | .pairFrameSend _ => none
  | .pairFrameReceived _ _ _ _ _ => none
  | .contactTimeout _ => none
  | .reclaimHoldExpiry _ => none
  | .reclaimReceived _ => none
  | .mirrorReceived _ _ _ _ _ => none
  | .leaseOutToggle _ => none
  | .vbatPowerOn _ => none
  | .vbatPowerOff _ => none
  | .coreSupplyGood _ _ => none
  | .pgoodTimeout _ _ => none
  | .voteRetry _ _ => none
  | .pwrWarm _ _ _ => none
  | .pwrStandby t req force => some { moment := t, req := req, addr := pwrPage + 0x4C, value := if force then 5 else 1 }
  | .autoStandbyExpiry _ => none
  | .standbyPagesStopped _ => none
  | .standbyHoldExpiry _ _ => none
  | .brownOut _ _ => none
  | .refclkLoss _ => none
  | .perstAssert _ => none
  | .coreSupplyRemoved _ => none
  | .perstRelease _ => none
  | .pcieLinkUp _ => none
  | .pcieLinkDown _ => none
  | .refclkRestored _ _ => none
  | .keySaveDone _ => none
  | .healthyRestored _ => none
  | .nmSourceHolding _ _ => none
  | .speedDuplexChange _ _ _ _ => none

/-- A safe run: `n` steps that meet no fault and no refusal. -/
def safeRun (n : Nat) (s : State) : Prop := ∃ t, Sys2Proof.core.run n s = .next t

/-- A command's requester is a PF0 no pop of which stalls, and its register answers in the power state (R48, R51, R651). -/
def pf0Reaches (s : State) (req a : Nat) : Prop := reqPf req = 0 ∧ holdsUp s req = false ∧ bootReach s a = true

/-- The state in which a whole write of a page acts: at its moment, a command of the page that has completed showing its results,
and what waited for the command done. -/
def atPage (s : State) (t pg : Nat) : State := atAccess (advance s t) pg

/-- The region of a page does not run its tables and memories: it is parked (R451, R452). -/
def pageParked (s : State) (pg : Nat) : Bool := decide (domainOf pg < 4) && parked s (domainOf pg)

/-- A sparse map in canonical form: keys strictly rising, and no entry at the value an unlisted key reads as. -/
def mapCanon {α : Type} (d : α) (m : NMap α) : Prop := mapRising m = true ∧ ∀ e ∈ m, e.2 ≠ d

/-- The register memory is in canonical form: addresses strictly rising, and no word listed at its reset value. -/
def regsWf (s : State) : Prop :=
  mapRising s.regs = true ∧ ∀ e ∈ s.regs, e.2.toNat ≠ resetWord s.fuses e.1

/-- The stores of the block are in canonical form: registers, wide values, tables and signal slots list nothing at its default,
and frames stand by rising number. -/
def storesWf (s : State) : Prop :=
  regsWf s ∧ mapCanon 0 s.wide ∧ mapCanon emptyEntry s.tables ∧ mapCanon (⟨0, false, 0⟩ : Slot) s.slots ∧
    mapRising s.frames = true

end Sys2Proof.Machine
end

