-- ==== Sys2Proof/Certificates/Slice0/Obligations.lean ====
section
/-! DEFINITION. The statements about the gateway: the queue and the step, what every next state keeps, and, family by family,
when a command completes and the state it answers. In all of them `advance s t` is the state at the command's moment. -/
open Sys2Proof Sys2Proof.Machine

/-! ## Queue, step and whole-machine rules -/

/-- A step with a command at the front of the queue is the command's effect on the state with the queue's rest. -/
def Obligations.StepRunsFrontCommand : Prop :=
  ∀ (c : Instr) (rest : List Instr) (s : State),
    step { s with pending := c :: rest } = exec c { s with pending := rest }

/-- On an empty queue the block idles: the model's choice (notes/assumptions/6.md). -/
def Obligations.EmptyQueueIdles : Prop := ∀ s : State, s.pending = [] → step s = .next s

/-- Every command answers a next state; one that names an element which the variant does not have changes nothing but the moment,
as R3 has it of absent pages. -/
def Obligations.CommandsAnswer : Prop :=
  ∀ (i : Instr) (s : State),
    (∃ u, exec i s = .next u) ∧ (namesPresent s.fuses i = false → ∃ t, exec i s = .next (advance s t))

/-- What no command changes in a next state: the variant and the commands that wait; time does not run back; what left the device
stays as it was sent, in order. -/
def Obligations.NextStateKeepsVariantQueueAndOutput : Prop :=
  ∀ (i : Instr) (s u : State), exec i s = .next u →
    u.fuses = s.fuses ∧ u.pending = s.pending ∧ s.now ≤ u.now ∧ s.outbox <:+ u.outbox

/-- Every step keeps the stores of the block in canonical form: registers, wide values, tables and signal slots at strictly rising
addresses with nothing listed at its default, and frames by rising number. -/
def Obligations.StepKeepsStoresCanonical : Prop :=
  ∀ s u : State, storesWf s → step s = .next u → storesWf u

/-- The stores are in canonical form after reset, and every register reads its reset word. -/
def Obligations.ResetStoresCanonical : Prop := storesWf State.reset ∧ ∀ a, rd State.reset a = resetWord State.reset.fuses a

/-- No step of the epoch thermometer, once programmed, is ever cleared (R578): over every step of the block. -/
def Obligations.EpochFusesNeverCleared : Prop :=
  ∀ s u : State, step s = .next u → s.fuseEpoch ≤ u.fuseEpoch

/-- The life cycle never goes back: the order of R487's transitions over every step of the block. -/
def Obligations.LifeCycleNeverGoesBack : Prop :=
  ∀ s u : State, step s = .next u → s.fuseLc ≤ u.fuseLc

/-- Every queue runs to its end, each command answering a next state. -/
def Obligations.PresentQueueRunsToItsEnd : Prop :=
  ∀ s : State, ∃ u, Sys2Proof.core.run s.pending.length s = .next u ∧ u.pending = [] ∧ u.fuses = s.fuses ∧ s.outbox <:+ u.outbox

/-- Outside ACTIVE and PARTIAL an event of the core die changes nothing but the moment. -/
def Obligations.EventsNeedTheCore : Prop :=
  ∀ (i : Instr) (s : State), isEvent i = true → coreUp s = false → ∃ t, exec i s = .next (advance s t)

/-- Frames, each before what the command lets go on (`settled`): a moment changes only the clocks and what tells that it begins;
the key commands of PF0 on an unlocked key page, none under way, change only key slots, their records, the work given to the
lanes, the generator, the command under way and the key page's registers; a monitor's sample and SNAP only its live set, its
period and its page; the gate entry's end only the running gates, and a backoff's end, which nothing goes before, only the port's
MAC state; the minutes, late completions and the PCIe link only their registers, the count of minutes and since when a park holds;
TIME_STEP only the time base and the gates of the running cycles. -/
def Obligations.CommandsChangeTheirOwnStateOnly : Prop :=
  (∀ (s : State) (t : Nat), advance s t = { s with
      now := max s.now t, timeFine := (advance s t).timeFine, timeLog := (advance s t).timeLog
      regsAt := if t ≤ s.now then s.regsAt else s.regs, setNow := if t ≤ s.now then s.setNow else [] }) ∧
  (∀ (s : State) (t req : Nat) (i : Instr), pf0Reaches (advance s t) req keyPage → bit s (secPage + 0x40) 0 = false →
      mapGet? s.cmds keyCmd = none → coreUp s = true →
      i ∈ [Instr.keyErase t req, .keyGenerate t req, .keyDerive t ⟨req, 0⟩, .keyInfo t req, .keySaveDone t] →
      ∃ u, exec i s = .next (settled u) ∧ u = { advance s t with
          freeCtr := u.freeCtr, regs := u.regs, setNow := u.setNow, cmds := u.cmds, laneQ := u.laneQ, drbg := u.drbg
          keys := u.keys, keyRecs := u.keyRecs, keysSaving := u.keysSaving, keyWork := u.keyWork } ∧
        ∀ a, pageOf a ≠ keyPage → rd u a = rd s a) ∧
  (∀ (s : State) (t req dom blk pg page : Nat) (clear : Bool) (i : Instr), page = pageAt dom blk pg → kindOf s.fuses page = 0x11 →
      coreUp s = true → pf0Reaches (advance s t) req page → i ∈ [Instr.monitorSample t dom blk pg, .monSnap t req page clear] →
      ∃ u, exec i s = .next (settled u) ∧
        u = { advance s t with regs := u.regs, monLive := u.monLive, sampledAt := u.sampledAt } ∧
        ∀ a, pageOf a ≠ page → rd u a = rd s a) ∧
  (∀ (s : State) (t p : Nat), p < 20 → macPresent s.fuses (104 + p) = true → coreUp s = true →
      (∃ u, exec (.gateEntryEnd t p) s = .next (settled u) ∧ u = { advance s t with gateRun := u.gateRun }) ∧
      (mustYield (advance s t) (.backoffExpiry t (104 + p)) = false → ∃ u, exec (.backoffExpiry t (104 + p)) s = .next (settled u) ∧
        u = { advance s t with mac := u.mac })) ∧
  (∀ (s : State) (t n : Nat) (i : Instr), n < 16 → coreUp s = true → s.turn = none →
      i ∈ [Instr.operMinute t, .trialMinute t, .lateCompletion t n, .pcieLinkUp t, .pcieLinkDown t] →
      ∃ u, exec i s = .next (settled u) ∧
        u = { advance s t with
          freeCtr := u.freeCtr, regs := u.regs, setNow := u.setNow, power := u.power, heldFrom := u.heldFrom } ∧
        u.power = { s.power with
          minutes := u.power.minutes, trialMinutes := u.power.trialMinutes, operStored := u.power.operStored } ∧
        ∀ a, a ∉ [hubPage + 0x48, updPage + 0x64, pciePage + 0x64, pciePage + 0x40] → rd u a = rd s a) ∧
  (∀ (s : State) (t req : Nat), pf0Reaches (advance s t) req timePage →
      ∃ u, exec (.timeStep t req) s = .next (settled u) ∧
        u = { advance s t with timeFine := u.timeFine, timeLog := u.timeLog, gateRun := u.gateRun })

/-! ## Registers -/

/-- A word written to a register reads back as its low 24 bits, every other register reads as before, and nothing but the register
memory changes. The fields of a register word are independent: a field written reads back, and a field that does not overlap
it stands. -/
def Obligations.RegistersAndFieldsAreIndependent : Prop :=
  (∀ (s : State) (a v : Nat), rd (wr s a v) a = v % 2 ^ 24 ∧ (∀ b, b ≠ a → rd (wr s a v) b = rd s b) ∧
      ({ wr s a v with regs := s.regs } : State) = s) ∧
  (∀ (s : State) (a hi lo v : Nat), lo ≤ hi → hi < 24 →
      fld (setFld s a hi lo v) a hi lo = v % 2 ^ (hi + 1 - lo) ∧
        (∀ h l, l ≤ h → h < 24 → (h < lo ∨ hi < l) → fld (setFld s a hi lo v) a h l = fld s a h l) ∧
        (∀ b, b ≠ a → rd (setFld s a hi lo v) b = rd s b) ∧ ({ setFld s a hi lo v with regs := s.regs } : State) = s)

/-- Counters saturate at 0xFFFFFF and statistics wrap at 48 bits. -/
def Obligations.CountersSaturateAndStatisticsWrap : Prop :=
  ∀ (s : State) (a n : Nat),
    rd (addSat s a n) a = min 0xFFFFFF (rd s a + n) ∧ rdWide (addStat s a n) a = (rdWide s a + n) % 2 ^ 48 ∧
      (∀ b, b ≠ a → rd (addSat s a n) b = rd s b ∧ rdWide (addStat s a n) b = rdWide s b) ∧
      ({ addStat s a n with wide := s.wide } : State) = s

/-- A software write that is neither held up nor ahead of its turn: at a register that answers, PF0's whole and aligned write acts
as its slot says, on the page as a command that has completed left it; one to the memory of a parked region waits until the region
runs; a write that is not whole, or not aligned to a slot, is ignored and recorded; where nothing answers it does nothing. Behind
a stalled pop of its requester a write waits with its value. -/
def Obligations.RegisterWriteCompletes : Prop :=
  ∀ (s : State) (t req a v : Nat),
    (pf0Reaches (advance s t) req a → a % 4 = 0 → (fieldsAt s.fuses a).isEmpty = false →
      (mustYield (advance s t) (.registerWrite t req a v true) = false →
        (waitsParked (advance s t) a (v % 2 ^ 24) = false →
          exec (.registerWrite t req a v true) s = .next (settled (dispatchWrite (atPage s t (pageOf a)) req a (v % 2 ^ 24)))) ∧
        (waitsParked (advance s t) a (v % 2 ^ 24) = true →
          exec (.registerWrite t req a v true) s = .next (settled { advance s t with
            retained := s.retained ++ [{ requester := req, addr := a, value := v % 2 ^ 24, sel := rd s (pageOf a + 0x70) }] }))) ∧
      exec (.registerWrite t req a v false) s = .next (settled (raiseRec (advance s t) hubPage 0x01 0 0 a 0))) ∧
    (∀ k, k < 4 → 0 < k → a % 4 = 0 → bootReach (advance s t) a = true → (fieldsAt s.fuses a).isEmpty = false →
      holdsUp s req = false → ∀ whole, mustYield (advance s t) (.registerWrite t req (a + k) v whole) = false →
      exec (.registerWrite t req (a + k) v whole) s = .next (settled (raiseRec (advance s t) hubPage 0x01 0 0 a 0))) ∧
    (holdsUp s req = true → answers (advance s t) a = true → ∀ whole,
      mustYield (advance s t) (.registerWrite t req a v whole) = false →
      exec (.registerWrite t req a v whole) s = .next (settled { advance s t with
        held := s.held ++ [{ requester := req, write := true, addr := a, value := v, whole := whole, tag := none }] })) ∧
    (a % 4 = 0 → bootReach (advance s t) a = false ∨ (fieldsAt s.fuses a).isEmpty = true →
      ∀ whole, exec (.registerWrite t req a v whole) s = .next (advance s t))

/-- Every command of the table that is a software write is that register write, unless something of its moment goes before it. -/
def Obligations.SoftwareCommandsAreRegisterWrites : Prop :=
  ∀ (i : Instr) (s : State) (w : RegWrite), registerWriteOf s.fuses i = some w → namesPresent s.fuses i = true →
    mustYield (advance s w.moment) i = false →
    mustYield (advance s w.moment) (.registerWrite w.moment w.req w.addr w.value true) = false →
    exec i s = exec (.registerWrite w.moment w.req w.addr w.value true) s

/-- RUN, STOP and RESTART of a present page give their triggers to the page. An item boundary of a page that exists: the waits of
the cell's B-class writes end and its waiting triggers act; a check-value unit has its boundary where no computation runs. -/
def Obligations.PageTriggersAndBoundariesComplete : Prop :=
  (∀ (s : State) (t req page : Nat), page % 0x1000 = 0 → kindOf s.fuses page ≠ 0 → pf0Reaches (advance s t) req page →
      exec (.pageRun t req page) s = .next (settled (pageCtrl (atPage s t page) page true false false)) ∧
        exec (.pageStop t req page) s = .next (settled (pageCtrl (atPage s t page) page false true false)) ∧
        exec (.pageRestart t req page) s = .next (settled (pageCtrl (atPage s t page) page false false true))) ∧
  (∀ (s : State) (t page : Nat), coreUp s = true → kindOf s.fuses page ≠ 0 →
      (kindOf s.fuses page ≠ 0x46 → exec (.itemBoundary t page) s = .next (settled (itemBoundary (advance s t) page))) ∧
        (kindOf s.fuses page = 0x46 →
          exec (.itemBoundary t page) s = .next (settled (cvBoundary (advance s t) (instanceOf 0x46 page)))))

/-- A mailbox command acts on the wide value that the mailbox names while none runs, and is refused with 0x6 while one does. A
read of a mailbox data word, no command running, answers the word; the last word of the value clears VALID, and no other register
changes. A read that meets BUSY completes at the moment at which the command does. -/
def Obligations.MailboxComplete : Prop :=
  (∀ (s : State) (t req n : Nat), n < 4 → pf0Reaches (advance s t) req (mbxPage n) →
      (cmdBusy (advance s t) (mbxCmd n) = false →
        exec (.mbxSnap t req n) s = .next (settled (mbxCommand (atPage s t (mbxPage n)) req n .snap)) ∧
          exec (.mbxSnapclr t req n) s = .next (settled (mbxCommand (atPage s t (mbxPage n)) req n .snapClr)) ∧
          exec (.mbxCommit t req n) s = .next (settled (mbxCommand (atPage s t (mbxPage n)) req n .commit))) ∧
      (cmdBusy (advance s t) (mbxCmd n) = true →
        ∀ i, i ∈ [Instr.mbxSnap t req n, .mbxSnapclr t req n, .mbxCommit t req n] →
          exec i s = .next (settled (mbxRefuse (advance s t) n 0x6)))) ∧
  (∀ (s : State) (t req n k : Nat), n < 4 → k < 11 → bootReach (advance s t) (mbxPage n) = true → holdsUp s req = false →
      s.remoteIn = [] →
      (mapGet? s.cmds (mbxCmd n) = none →
        ∃ u, exec (.mbxDataRead t req n k) s = .next (settled u) ∧
          mapGet? u.hostRead req = some { value := BitVec.ofNat 24 (rd s (mbxData n k)), ur := false } ∧
          (k + 1 = fld s (mbxPage n + 0x48) 15 12 → bit u (mbxPage n + 0x48) 0 = false) ∧
          (∀ a, a ≠ mbxPage n + 0x48 → rd u a = rd s a)) ∧
      (∀ c, mapGet? s.cmds (mbxCmd n) = some c → c.puts = [] → (advance s t).now ≤ c.doneAt →
        ∃ u, exec (.mbxDataRead t req n k) s = .next (settled u) ∧ u.now = c.doneAt ∧ mapGet? u.cmds (mbxCmd n) = none))

/-- The configuration window opens and closes, a pass of the checker ends, and an open window that passes its limit is recorded. -/
def Obligations.ConfigurationCheckCompletes : Prop :=
  ∀ (s : State) (t req : Nat),
    (pf0Reaches (advance s t) req cfgPage → bit s (cfgPage + 0x44) 0 = false →
      exec (.cfgOpen t req) s = .next (settled (setBit { advance s t with
        cfg := { comparable := false, openedAt := (advance s t).now, windowRecorded := false } } (cfgPage + 0x44) 0))) ∧
    (pf0Reaches (advance s t) req cfgPage →
      exec (.cfgClose t req) s = .next (settled (clrBit (advance s t) (cfgPage + 0x44) 0))) ∧
    (coreUp s = true → running s cfgPage = true →
      exec (.cfgPassEnd t) s = .next (settled (cfgPassWith (advance s t) (passCrc (advance s t))))) ∧
    (coreUp s = true → (advance s t).now - s.cfg.openedAt > windowMax s →
      exec (.cfgWindowTimeout t) s = .next (settled (windowOver (advance s t))))

/-! ## Furrows -/

/-- A furrow's producer commits the item it has written behind the items that wait, as far as the furrow holds it; a stage of the
core waits with one that does not fit, a poisoned one is rewound, and a rewind drops the words of the open item and counts; a
late mark is delivered to the consumer, else the next word of the head item, and its last word frees the item. A write of
FUR_HWM keeps the mark at or above the words held; a pop of an empty furrow stalls, a pop of a furrow with items answers its
head, and a stalled pop whose guard has run is answered with the empty sentinel, behind a commit of the same moment. -/
def Obligations.FurrowCommandsComplete : Prop :=
  (∀ (s : State) (t page : Nat), coreUp s = true → hasFurrow s page = true →
      (∀ data, (getFur s page).openWords.map furData ++ data ≠ [] →
        (furWords (getFur s page) + data.length ≤ furCap (kindOf s.fuses page) page →
          exec (.furrowCommit t page data false) s =
            .next (settled (furSettle (noteFill (putFur (advance s t) page { getFur s page with
              items := (getFur s page).items ++ [furItem false ((getFur s page).openWords.map furData ++ data)],
              taken := (if (getFur s page).items = [] then (getFur s page).openTaken else (getFur s page).taken),
              openWords := [], openTaken := 0 }) page) page))) ∧
        (furCap (kindOf s.fuses page) page < furWords (getFur s page) + data.length → islandIn (kindOf s.fuses page) = false →
          exec (.furrowCommit t page data false) s = .next (settled (putFur (advance s t) page { getFur s page with
            openWords := [], openTaken := 0,
            waits := (getFur s page).waits ++ [furItem false ((getFur s page).openWords.map furData ++ data)] }))) ∧
        exec (.furrowCommit t page data true) s = .next (settled (furRewound (advance s t) page data))) ∧
      (kindOf s.fuses page ≠ 0x09 → exec (.furrowRewind t page []) s =
          .next (settled (furSettle (furRewind (putFur (advance s t) page { getFur s page with
            openWords := [], openTaken := 0, marker := (getFur s page).marker || decide (0 < (getFur s page).openTaken) }) page) page))) ∧
      ((getFur s page).marker = true →
        exec (.furrowWordRead t page [] false) s =
          .next (settled { putFur (advance s t) page { getFur s page with marker := false, failed := false } with
            delivered := mapSet s.delivered page rewindMarker })) ∧
      (∀ it rest w, (getFur s page).marker = false → (getFur s page).items = it :: rest → w = it.getD (getFur s page).taken 0 →
        exec (.furrowWordRead t page [] false) s =
          .next (settled (furSettle (putFur { advance s t with
            delivered := mapSet s.delivered page (furWord (furPoison w || (getFur s page).failed) (w.toNat / 2 ^ 24 % 4) (furData w)) } page
            (if (getFur s page).taken + 1 < it.length then { getFur s page with taken := (getFur s page).taken + 1 }
              else { getFur s page with items := rest, taken := 0, failed := false })) page)))) ∧
  (∀ (s : State) (t req page : Nat),
      (∀ b v w, page % 0x1000 = 0 → furGroup (kindOf s.fuses page) = some b → cmdSlot (kindOf s.fuses page) = none →
        pf0Reaches (advance s t) req page → w = max (v % 2 ^ 24) (furWords (getFur s page)) →
        (hwMoved (advance s t) (page + b + 0xC) 23 0 = false → exec (.furHwmWrite t req page v) s =
          .next (settled (syncWord (wr (advance s t) (page + b + 0xC) w) (page + b + 0xC) (rd s (page + b + 0xC)) w))) ∧
        (hwMoved (advance s t) (page + b + 0xC) 23 0 = true → exec (.furHwmWrite t req page v) s = .next (settled (advance s t)))) ∧
      (page % 0x1000 = 0 → hasPop s page = true → bootReach (advance s t) page = true → holdsUp s req = false →
        ((getFur s page).items = [] →
          exec (.furPop t req page) s = .next (settled { advance s t with
            stalled := s.stalled ++ [{ page := page, requester := req, guardEnd := (advance s t).now + popGuard s }] })) ∧
        ((getFur s page).items ≠ [] →
          exec (.furPop t req page) s =
            .next (settled (completeRead (furSettle (popHead (advance s t) page).2 page) req (popHead (advance s t) page).1)))) ∧
      (coreUp s = true → hasPop s page = true →
        (∀ p, s.stalled = [p] → p.page = page → p.requester = req → p.guardEnd ≤ (advance s t).now →
          mustYield (advance s t) (.popGuardExpiry t req page) = false →
          exec (.popGuardExpiry t req page) s = .next (settled (completeRead { advance s t with stalled := [] } req 0))) ∧
        (mustYield (advance s t) (.popGuardExpiry t req page) = true →
          exec (.popGuardExpiry t req page) s =
            .next (settled { advance s t with yields := s.yields ++ [.popGuardExpiry t req page] }))))

/-! ## The switch -/

/-- What may free plots at this moment goes before what takes one: an admission or a plot's arrival waits behind it. When it acts,
the verdict at the head of a region's queue is admitted where entries suffice and held else, and a plot arrives: at a MAC, over a
link, and of a host packet in the furrow of its ring. Plots are freed with the last copy and move to the held account. -/
def Obligations.AdmissionAndPlotsComplete : Prop :=
  ∀ (s : State) (t : Nat), coreUp s = true →
    (∀ r, (mustYield (advance s t) (.admission t r) = true →
        exec (.admission t r) s = .next (settled { advance s t with yields := s.yields ++ [.admission t r] })) ∧
      ∀ v rest w, w = advance s t → mustYield w (.admission t r) = false → mapGet [] w.verdicts r = v :: rest →
        running w admPage = true →
        (entriesShort w v = false → exec (.admission t r) s =
          .next (settled (handled (admitItem { w with verdicts := mapPut [] w.verdicts r rest } v) admPage))) ∧
        (entriesShort w v = true → exec (.admission t r) s = .next (settled (holdShort w r v rest)))) ∧
    (∀ p first bytes, portPresent s.fuses p = true →
      (mustYield (advance s t) (.plotCharge t p first bytes) = false →
        (127 < p → txMay (advance s t) (p - 128) = true →
          exec (.plotCharge t p first bytes) s = .next (settled (furWrite
            (if first then putFur (advance s t) (txRing (p - 128)) emptyFurrow else advance s t) (txRing (p - 128)) (packWords bytes)))) ∧
        (124 ≤ p → p < 126 →
          exec (.plotCharge t p first bytes) s = .next (settled (linkPlot (advance s t) (p - 124) first bytes))) ∧
        (88 ≤ p → p < 124 → exec (.plotCharge t p first bytes) s = .next (settled (ethPlot (advance s t) p first bytes)))) ∧
      (mustYield (advance s t) (.plotCharge t p first bytes) = true → plotInput s p = true →
        exec (.plotCharge t p first bytes) s =
          .next (settled { advance s t with yields := s.yields ++ [.plotCharge t p first bytes] }))) ∧
    (∀ id, hasFrame s id = true → (getFrame s id).judged = true → outstanding s id = false →
      exec (.plotFree t id) s = .next (settled (dropFrame (dropRest (advance s t) (getFrame s id).input id) id))) ∧
    (∀ id, heldCopies s id = true → liveCopies s id = false →
      exec (.heldAccountMove t id) s = .next (settled (evalAll (putFrame (advance s t) id
        { getFrame s id with plots := movePlots (getFrame s id).plots (poolFree s) }))))

/-- A selection at a free output takes the scheduler's copy, and a CAN or LIN output then holds it in flight, a host ring in its
furrow too; with a copy in flight, or with the egress page stopped or about to stop, nothing is selected. A cut-through start is a
selection that takes a copy not yet whole. Both stand behind a SNAPCLR of a full time-stamp queue at the same moment. The heads of
an output that is up age. -/
def Obligations.SelectionsComplete : Prop :=
  ∀ (s : State) (t o : Nat), coreUp s = true → portPresent s.fuses o = true →
    (mustYield (advance s t) (.egressSelect t o) = false →
      (∀ u, u = selectAt (advance s t) o → mapGet? s.inFlight o = none → running s egrPage = true → egrStops s = false →
        (mapGet? u.inFlight o = none → exec (.egressSelect t o) s = .next (settled u)) ∧
        ∀ c, mapGet? u.inFlight o = some c →
          (o < 88 → exec (.egressSelect t o) s = .next (settled (handled u egrPage))) ∧
          (128 ≤ o → exec (.egressSelect t o) s =
            .next (settled (ringTakes (latency (handled u egrPage) o c.cls (readyAt (handled u egrPage) c)) (o - 128) c)))) ∧
      ((mapGet? s.inFlight o).isSome = true ∨ running s egrPage = false ∨ egrStops s = true →
        exec (.egressSelect t o) s = .next (settled (advance s t)))) ∧
    (mustYield (advance s t) (.cutThroughStart t o) = false →
      ∀ c, mapGet? (egressSelect (advance s t) o).inFlight o = some c → c.cut = true →
        exec (.cutThroughStart t o) s = .next (settled (egressSelect (advance s t) o))) ∧
    (mustYield (advance s t) (.egressSelect t o) = true → exec (.egressSelect t o) s =
      .next (settled { advance s t with yields := s.yields ++ [.egressSelect t o] })) ∧
    (outState s o = 0 →
      exec (.copyAgeExpiry t o) s = .next (settled (ageHeads ((outQueue (advance s t) o).length + 1) (advance s t) o)))

/-- A gate cycle starts, when one is due, with entry 0 of the list that GATE_CTRL.LIST names and with the cycle and offset as
written, at the instant at which it was due; when none is due nothing happens. At the end of an interval the next entry of the
running list follows, from the instant at which the interval ended. A numbered item and a void reach their stream, an expired
gap timer releases what waits behind the gap and counts, but behind an arrival of the same moment, and RSQ_CMD.RESET releases
everything of the selected stream. -/
def Obligations.GateAndResequencerCommandsComplete : Prop :=
  (∀ (s : State) (t i : Nat), coreUp s = true → i < 20 → macPresent s.fuses (104 + i) = true → bit s (gateCtrl i) 0 = true →
      (∀ t0, gateDue (advance s t) i = some t0 →
        ∃ u, exec (.gateCycleStart t i) s = .next (settled u) ∧ mapGet? u.gateRun i = some
          { list := fld s (gateCtrl i) 1 1, entry := 0, began := t0, interval := (gateEntry s i (fld s (gateCtrl i) 1 1) 0).2,
            cycleBegan := t0, gates := (gateEntry s i (fld s (gateCtrl i) 1 1) 0).1, started := true,
            cycle := max 1000 (rd s (gateCycle i)), offset := rd s (gateOffset i) }) ∧
      (gateDue (advance s t) i = none → exec (.gateCycleStart t i) s = .next (settled (advance s t))) ∧
      (∀ run next, mapGet? s.gateRun i = some run → entryAfter (advance s t) i run = some next →
        next.began ≤ timeNs (advance s t) →
        exec (.gateEntryEnd t i) s = .next (settled { advance s t with gateRun := mapSet s.gateRun i next }) ∧
          next.entry = run.entry + 1 ∧ next.began = run.began + run.interval ∧
          next.gates = (gateEntry s i run.list (run.entry + 1)).1)) ∧
  (∀ (s : State) (t n : Nat),
      (coreUp s = true → ∀ num start, mustYield (advance s t) (.reseqVoid t n num start) = false →
        exec (.reseqVoid t n num start) s =
          .next (settled (incSat (reseqArrive (advance s t) n num start voidItem) (rsqPage + 0x60)))) ∧
      (coreUp s = true → ∀ num start frame outs, hasFrame s frame = true →
        exec (.reseqItemArrival t n num start frame outs) s =
          .next (settled (reseqArrive (advance s t) n num start
            { copies := outs.map (fun o => (o, { frame := frame, input := (getFrame s frame).input, cls := (getFrame s frame).cls,
                                                 visibleAt := (advance s t).now, cut := false, form := plainForm }))
              plain := none, void := false }))) ∧
      (coreUp s = true → (getStream s n).gapRuns = true → (getStream s n).gapFrom + gapTime s ≤ (advance s t).now →
        (mustYield (advance s t) (.rsqGapExpiry t n) = false →
          exec (.rsqGapExpiry t n) s = .next (settled (reseqGap (advance s t) n))) ∧
        (mustYield (advance s t) (.rsqGapExpiry t n) = true →
          exec (.rsqGapExpiry t n) s = .next (settled { advance s t with yields := s.yields ++ [.rsqGapExpiry t n] }))) ∧
      (∀ req, pf0Reaches (advance s t) req rsqPage →
        exec (.rsqReset t req) s = .next (settled (serveMac (reseqReset (advance s t) (fld s (rsqPage + 0x44) 9 0))))))

/-- An output goes down under a condition of R161 and up without one; HOLD_MS and STUCK_MS end, but behind whatever else of the
same moment may bring the output up or end a pause. -/
def Obligations.OutputStatesComplete : Prop :=
  ∀ (s : State) (t o : Nat), coreUp s = true → portPresent s.fuses o = true →
    (downCond s o = true → exec (.outputDown t o) s = .next (settled (outputDown (advance s t) o)) ∧
      exec (.outputUp t o) s = .next (settled (advance s t))) ∧
    (downCond s o = false → exec (.outputUp t o) s = .next (settled (outputUp (advance s t) o)) ∧
      exec (.outputDown t o) s = .next (settled (advance s t))) ∧
    (outState s o = 1 → (advance s t).now - mapGet 0 s.downSince o ≥ holdTime s o →
      mustYield (advance s t) (.holdExpiry t o) = false →
      exec (.holdExpiry t o) s = .next (settled (flushOutput (setFld (advance s t) (egrPort o) 13 12 2) o))) ∧
    (mustYield (advance s t) (.holdExpiry t o) = true →
      exec (.holdExpiry t o) s = .next (settled { advance s t with yields := s.yields ++ [.holdExpiry t o] })) ∧
    (∀ from0, mapGet? s.stuckSince o = some from0 → outQueue s o ≠ [] → o ≠ 126 → fld s (egrPage + 0x40) 9 0 ≠ 0 →
      (advance s t).now - from0 > msTicks (min 1000 (fld s (egrPage + 0x40) 9 0)) →
      mustYield (advance s t) (.stuckExpiry t o) = false →
      exec (.stuckExpiry t o) s = .next (settled (refreshOutput (setBit (advance s t) (egrPort o) 11) o)))

/-! ## Lookup, tables and learning -/

/-- The head at the front of an input's head furrow passes the pipeline; an input without heads changes nothing. The four commands
of a table port act on the entry that TP_TABLE and TP_INDEX select while none runs, are refused with 0x6 while one does, wait
until a parked region runs, and stand behind a learn application of the same moment on their entry. An entry that has been pending
past TP_PEND_MAX is recorded once. -/
def Obligations.LookupAndTablePortComplete : Prop :=
  (∀ (s : State) (t p : Nat) (bad : List (Nat × Nat)), coreUp s = true → portPresent s.fuses p = true → p ≠ 126 →
      exec (.pipelineItem t p bad) s = .next (settled (pipelineItem (advance s t) p bad)) ∧
        (mapGet [] s.heads (inputCell p) = [] → pipelineItem (advance s t) p bad = advance s t)) ∧
  (∀ (s : State) (t req page : Nat), page % 0x1000 = 0 → kindOf s.fuses page = 0x1F → pf0Reaches (advance s t) req page →
      (∀ i c v, (i, c, v) ∈ [(Instr.tpRead t req page, PortCmd.read, 1), (.tpWrite t req page, .write, 2),
          (.tpInval t req page, .inval, 4), (.tpHash t req page, .hash, 8)] →
        (mustYield (advance s t) i = false →
          (pageParked s page = false ∨ cmdBusy (advance s t) (page + 0x44) = true →
            (cmdBusy (atPage s t page) (page + 0x44) = false →
              exec i s = .next (settled (tpCommand (atPage s t page) req page c))) ∧
            (cmdBusy (atPage s t page) (page + 0x44) = true →
              exec i s = .next (settled (tpRefuse (atPage s t page) page 0x6)))) ∧
          (pageParked s page = true → cmdBusy (advance s t) (page + 0x44) = false →
            exec i s = .next (settled { advance s t with
              retained := s.retained ++ [{ requester := req, addr := page + 0x44, value := v, sel := rd s (page + 0x70) }] }))) ∧
        (mustYield (advance s t) i = true → exec i s = .next (settled { advance s t with yields := s.yields ++ [i] })))) ∧
  (∀ (s : State) (t page table i : Nat) (p : TPend), coreUp s = true → kindOf s.fuses page = 0x1F →
      mapGet? s.tpend (tKey page table 0 i) = some p → p.recorded = false → (advance s t).now - p.since > pendMax s page →
      exec (.tablePendingTimeout t page table i) s = .next (settled (raiseRec { advance s t with
        tpend := mapSet s.tpend (tKey page table 0 i) { p with recorded := true } } page 0x05 table 0 page i)))

/-- A learn request leaves its furrow and is applied; a pin ends; UNPIN_ALL and FLUSH act on their region; the harrow ages an
entry, but behind a lookup or application of the same moment. A harrow compares the next entry of its pass and steps on; it
judges a flagged entry once, and a pass that stands there goes on behind it. -/
def Obligations.LearningAndHarrowCommandsComplete : Prop :=
  (∀ (s : State) (t r : Nat), r < 4 →
      (∀ q rest, coreUp s = true → running s (learnPage r) = true → parked s r = false → mapGet [] s.learnQ r = q :: rest →
        exec (.learnApply t r) s = .next (settled (handled (applyLearn { advance s t with learnQ := mapPut [] s.learnQ r rest } r q)
          (learnPage r)))) ∧
      (∀ k e, coreUp s = true → k < 256 → mapGet? s.trackers (r * 256 + k) = some e → e.pinEnd ≤ (advance s t).now →
        exec (.pinEnd t r k) s = .next (settled (endPin (advance s t) r (r * 256 + k)))) ∧
      (∀ req, pf0Reaches (advance s t) req (learnPage r) →
        exec (.unpinAll t req r) s = .next (settled (unpinAll (advance s t) r)) ∧
          exec (.lrnFlush t req r) s = .next (settled (cmdStart (flushSel (advance s t) r) (learnPage r + 0x5C) 1 []))) ∧
      (coreUp s = true → running s (learnPage r) = true → mustYield (advance s t) (.ageingVisit t r) = false →
        exec (.ageingVisit t r) s = .next (settled (ageVisit (advance s t) r))) ∧
      (coreUp s = true → mustYield (advance s t) (.ageingVisit t r) = true →
        exec (.ageingVisit t r) s = .next (settled { advance s t with yields := s.yields ++ [.ageingVisit t r] }))) ∧
  (∀ (s : State) (t h : Nat) (a b c : Bool), coreUp s = true → h < 6 →
      (∀ code i, harrowAt s h = (code, i) → harrowRests (advance s t) h code = false →
        exec (.harrowCompare t h a b c) s = .next (settled (harrowStep (harrowJudge
          { advance s t with harrowFlags := s.harrowFlags.erase (h, code, i) } h code i a b c) h))) ∧
      (∀ f u, s.harrowFlags = [f] → f.1 = h → harrowRests (advance s t) h f.2.1 = false →
        u = harrowJudge { advance s t with harrowFlags := [] } h f.2.1 f.2.2 a b c →
        exec (.harrowFlagJudge t h a b c) s = .next (settled (if harrowAt s h = f.2 then harrowStep u h else u))))

/-! ## The signal router -/

/-- SS_CMD reads and writes the slots from SS_SLOT on while no command runs, refuses a range past the last slot, and is refused
while a command runs. The mouldboard, when no pull waits and the turn is its, takes the item at the head of its furrow, discards
a poisoned one with its count, packs the next layout of its send queue, and sends a layout that software names. -/
def Obligations.SlotPortAndMouldboardComplete : Prop :=
  (∀ (s w : State) (t req : Nat), w = atPage s t ssPage →
      (bootReach s ssPage = true → cmdBusy (advance s t) (ssPage + 0x44) = false →
        (ssSlot w + ssCount w ≤ 262144 → exec (.ssRead t []) s =
          .next (settled (cmdStart (ssAccept w) (ssPage + 0x44) 1 (ssPuts (ssAccept w) (ssSlot w) (ssCount w))))) ∧
        (262144 < ssSlot w + ssCount w → exec (.ssRead t []) s = .next (settled (ssRefuse w 0x1)))) ∧
      (bootReach s ssPage = true → cmdBusy (advance s t) (ssPage + 0x44) = true →
        exec (.ssRead t []) s = .next (settled (ssRefuse (advance s t) 0x6))) ∧
      (pf0Reaches (advance s t) req ssPage → cmdBusy (advance s t) (ssPage + 0x44) = false → bit w (ssPage + 0x60) 0 = false →
        ssSlot w + ssCount w ≤ 262144 →
        exec (.ssWrite t req) s = .next (settled (cmdStart (forEach (List.range (ssCount w)) (ssAccept w)
          (fun u k => writeSlot u (ssSlot w + k) (rd u (ssPage + 0x50 + 4 * k)) false)) (ssPage + 0x44) 2 [])))) ∧
  (∀ (s : State) (t : Nat), coreUp s = true → pullWaits s = false → running s mbPage = true →
      (∀ it rest v bad, (getFur s mbPage).items = it :: rest → (bothWait s && s.mbLast == 1) = false →
        v = stateFaults (furSettle (handled (putFur { advance s t with mbLast := 1 } mbPage
          { getFur s mbPage with items := rest, taken := 0, failed := false }) mbPage) mbPage) bad →
        (∀ slots, it.any furPoison = true →
          exec (.mbUnpack t bad slots) s = .next (settled (setBit (incSat v (mbPage + 0x50)) (mbPage + 0x4C) 0))) ∧
        (it.any furPoison = false → (getFur s mbPage).failed = false → (mbPdu it).2.1 = false →
          exec (.mbUnpack t bad []) s = .next (settled (unpackPdu
            (if (takeLayout v (mbPdu it).1 (mbPdu it).2.2 bad).1.isSome then addStat v (mbPage + 0x80) 1 else v)
            (mbPdu it).1 (mbPdu it).2.2 bad)))) ∧
      (∀ l slots, postponing s = false → nextLayout s = some l → (bothWait s && s.mbLast == 2) = false → tLive s mbTable 3 l = none →
        exec (.mbPack t [] slots) s = .next (settled (putTx (handled { advance s t with
          sendQ := s.sendQ.filter (fun k => k != l), mbLast := 2 } mbPage) l { getTx s l with pending := false, trig := false }))) ∧
      (∀ bad slots, exec (.mbPack t bad slots) s = .next (settled (mbPack (advance s t) bad slots)))) ∧
  (∀ (s : State) (t req : Nat), pf0Reaches (advance s t) req mbPage →
      exec (.mbSend t req) s = .next (settled (sendRequest (advance s t) (fld s (mbPage + 0x44) 13 0) true false)))

/-- The drill's ticks and what falls due at them: a tick begins at the drill's boundary; a deadline substitutes and flags, a
deferral ends with its send, a repetition and a period send. The layout that a LIN slot pulls fills the frame in flight. -/
def Obligations.DrillAndLinPullComplete : Prop :=
  (∀ (s : State) (t l : Nat) (bad : List (Nat × Nat)), coreUp s = true →
      (∀ slots, exec (.drillTick t ⟨bad, slots⟩) s =
        .next (settled (drillTick (boundary (advance s t) drillPage) bad slots))) ∧
      (∀ e, deadlineDue s l = true → bad.contains (0, l) = false → running s drillPage = true → tLive s mbTable 0 l = some e →
        isDirectory s l = true →
        exec (.deadlineTimeout t l bad) s = .next (settled (setBit (incSat (putRx (advance s t) l
          { getRx s l with timedOut := true, fresh := true }) (mbPage + 0x60)) (mbPage + 0x4C) 2))) ∧
      (∀ e, (getTx s l).deferred = true → (getTx s l).deferTo ≤ s.tick → running s drillPage = true →
        tLive s mbTable 3 l = some e →
        exec (.mdtDeferralEnd t l) s = .next (settled (sendNow (putTx (advance s t) l
          { getTx s l with deferred := false, deferTo := 0 }) l e (getTx s l).trig))) ∧
      (∀ e, 0 < (getTx s l).repLeft → (getTx s l).repNext ≤ s.tick → running s drillPage = true → tLive s mbTable 3 l = some e →
        exec (.repetitionDue t l) s = .next (settled (sendRequest (putTx (advance s t) l { getTx s l with
          repLeft := (getTx s l).repLeft - 1, repNext := s.tick + max 1 (twf e 6 7 0) }) l false false))) ∧
      (periodDue s l = true → running s drillPage = true →
        exec (.periodicSend t l) s = .next (settled (sendRequest (putTx (advance s t) l
          { getTx s l with periodAt := s.tick + 1 }) l false true)))) ∧
  (∀ (s : State) (t m l : Nat) (bad : List (Nat × Nat)) (slots : List (Nat × Bool)) (f : LinFrame) (d : List Byte) (u : State),
      coreUp s = true → linPresent s.fuses m = true → (getLin s m).frame = some f → f.pull = some l →
      pullLayout (advance s t) l bad slots = (some d, u) →
      exec (.linPull t m bad slots) s = .next (settled (linFrame u m { f with pull := none, data := linFit f.len d })))

/-! ## CAN -/

/-- A write of CAN_MODE sets the mode of a channel whose held mode is below 4; a value of 4 or more is ignored. The commands of an
object: the command itself clears no outcome; REQ then makes an idle transmit object pending, CANCEL of the object on the bus is
noted and of another pending object ends it, and NEW is returned, but for what hardware sets at that very moment. -/
def Obligations.CanSoftwareCommandsComplete : Prop :=
  (∀ (s : State) (t req n v : Nat), canPresent s.fuses n = true → pf0Reaches (advance s t) req (canPage n) →
      (v % 8 < 4 → fld s (canPage n + 0x44) 2 0 < 4 →
        exec (.canModeWrite t req n v) s = .next (settled (softWord (advance s t) req (canPage n + 0x44) (v % 2 ^ 24)))) ∧
      (4 ≤ v % 8 → exec (.canModeWrite t req n v) s = .next (settled (advance s t)))) ∧
  (∀ (s : State) (t n i : Nat), n < 64 → i < 96 → canPresent s.fuses n = true → bootReach (advance s t) (canPage n) = true →
      ∀ a u, a = objAddr n i 5 → u = setFld (advance s t) a 21 14 (fld s a 21 14) →
      exec (.objReq t n i) s = .next (settled (objRequest u n i)) ∧
        exec (.objCancel t n i) s = .next (settled (objCancel u n i)) ∧
        exec (.objNewReturn t n i) s = .next (settled (setFld (advance s t) a 21 14
          (fld s a 21 14 &&& (127 ||| hwSet (advance s t) a 21 14)))))

/-- 11 recessive bits: a channel in recovery counts them in CAN_STATUS, and the 128th ends the recovery; else the channel joins
its bus. A received frame, behind a write of the same moment that gives its object back, and a receive error of a channel on its
bus; a frame of FD format where FD is off, with TOLERATE, only counts and leaves the bus until the channel integrates again. A
copy fills a router-fed object; a poisoned copy is dropped with its count. -/
def Obligations.CanBusEventsComplete : Prop :=
  (∀ (s : State) (t n : Nat), coreUp s = true → canPresent s.fuses n = true → running s (canPage n) = true →
      isFallow s (canPage n) = false → fld s (canPage n + 0x44) 2 0 ≠ 5 →
      ((getCan s n).recovering = true → fld s (canStatus n) 16 10 < 127 →
        exec (.busIntegration t n) s =
            .next (settled (setFld (advance s t) (canStatus n) 16 10 (fld s (canStatus n) 16 10 + 1))) ∧
          exec (.busOffRecovered t n) s = .next (settled (advance s t))) ∧
      ((getCan s n).recovering = true → 127 ≤ fld s (canStatus n) 16 10 →
        exec (.busIntegration t n) s = .next (settled (canRecovered (advance s t) n)) ∧
          exec (.busOffRecovered t n) s = .next (settled (canRecovered (advance s t) n))) ∧
      ((getCan s n).recovering = false → mapGet 0 s.trxMode n < 2 →
        exec (.busIntegration t n) s = .next (settled (putCan (advance s t) n { getCan s n with joined := true })))) ∧
  (∀ (s : State) (t n ident : Nat) (ide fdf brs rtr esi : Bool) (data : List Byte),
      coreUp s = true → canPresent s.fuses n = true → canOnBus s n = true → canActs s n ≠ 3 →
      (mustYield (advance s t) (.canFrameReceived t n ide fdf brs rtr esi ident data) = false →
        exec (.canFrameReceived t n ide fdf brs rtr esi ident data) s =
          .next (settled (canReceived (advance s t) n { ide := ide, fdf := fdf, brs := brs, rtr := rtr, esi := esi, id := ident } data)) ∧
        ∀ u, u = canQuiet (advance s t) n → fdf = true → fdEn u n = false → bit u (canCtrl n) 21 = true →
          exec (.canFrameReceived t n ide fdf brs rtr esi ident data) s = .next (settled (putCan (setBit (incSat u
            (canPage n + 0xEC)) (canEvents n) 2) n { getCan u n with joined := false }))) ∧
        (mustYield (advance s t) (.canFrameReceived t n ide fdf brs rtr esi ident data) = true →
          exec (.canFrameReceived t n ide fdf brs rtr esi ident data) s = .next (settled { advance s t with
            yields := s.yields ++ [.canFrameReceived t n ide fdf brs rtr esi ident data] })) ∧
        (∀ code dp ones eights,
          exec (.canRxError t n code dp ones eights) s = .next (settled (canRxError (advance s t) n code dp ones eights)))) ∧
  (∀ (s : State) (t n : Nat) (c : Copy), coreUp s = true → canPresent s.fuses n = true → mapGet? s.inFlight n = some c →
      exec (.canRouterFill t n) s = .next (settled (canFill (advance s t) n)) ∧
        ((getFrame s c.frame).poison = true →
          canFill (advance s t) n = freeIfDone (endFlight (incSat (advance s t) (canPage n + 0xE4)) n) c.frame))

/-- A selection instant puts the best pending object on the bus; a loss of arbitration takes it off, counts, and lets the winner's
frame in; without an object on the bus a loss and an end of transmission change nothing, and an error adds what the standard
adds alone. -/
def Obligations.CanTransmissionCompletes : Prop :=
  ∀ (s : State) (t n : Nat), coreUp s = true → canPresent s.fuses n = true →
    (∀ i, canMaySend s n = true → objBest s n = some i → ((objHdr s n i).fdf = true → fdEn s n = true) →
      exec (.canTxSelection t n) s = .next (settled (setFld (putCan (advance s t) n
        { getCan s n with current := some i, sendAt := (advance s t).now, rxOpen := false }) (canStatus n) 3 2 2))) ∧
    (∀ i u, (getCan s n).current = some i → u = incSat (objOff (advance s t) n) (canPage n + 0xDC) →
      (getCan u n).cancelled = [] → (objLimits u n i).2 = 255 →
      exec (.canArbLoss t n) s = .next (settled (setFld (putCan u n { getCan u n with rxOpen := true }) (objAddr n i 6) 23 16
        (min 255 (fld u (objAddr n i 6) 23 16 + 1))))) ∧
    (∀ code dp ex dom eights delay,
      exec (.canTxError t n code dp ex dom eights delay) s =
        .next (settled (canTxError (advance s t) n code dp ex dom eights delay))) ∧
    (∀ i delay, (getCan s n).current = some i → exec (.canTxDone t n delay) s = .next (settled (canTxDone (advance s t) n delay))) ∧
    ((getCan s n).current = none → ∀ delay code dp ex dom eights,
      exec (.canArbLoss t n) s = .next (settled (advance s t)) ∧ exec (.canTxDone t n delay) s = .next (settled (advance s t)) ∧
        exec (.canTxError t n code dp ex dom eights delay) s = .next (settled (canTecAdds (advance s t) n (8 * eights))))

/-- The words that leave for a transceiver and what it reports: a mode command sends the mode it commands, a report of no
condition clears the shown conditions, and a heartbeat that is due goes to both dies while the core works and no goodbye is
out. -/
def Obligations.TransceiverCommandsComplete : Prop :=
  ∀ (s : State) (t p : Nat),
    (coreUp s = true → busPort s p = true →
      exec (.transceiverModeCommand t p false false) s =
        .next (settled (send (advance s t) p .modeWord [mapGet 0 s.trxMode p] []))) ∧
    (coreUp s = true → busPort s p = true → p < 64 →
      exec (.trxStatusReport t p false false false false) s = .next (settled (putBit (putBit (setFld (advance s t)
        (canPage p + 0x6C) 5 2 0) (canStatus p) 20 false) (canStatus p) 19 false))) ∧
    (coreUp s = true → s.power.goodbyeAt = none → s.failsafe = [] → beatDue (advance s t) = true →
      exec (.heartbeatWord t) s =
        .next (settled (forEach [0, 1] (advance s t) (fun u d => firstHeartbeat (send u d .heartbeat [] []) d)))) ∧
    (beatDue (advance s t) = false → exec (.heartbeatWord t) s = .next (settled (advance s t)))

/-! ## LIN -/

/-- The commander's slots and a responder's headers, the end of the response and its timeout. -/
def Obligations.LinFramesComplete : Prop :=
  ∀ (s : State) (t m : Nat), coreUp s = true → linPresent s.fuses m = true →
    exec (.linSlotStart t m) s = .next (settled (slotStart (advance s t) m)) ∧
    (∀ measured u, linCommander s m = false → linHears s m = true → (getLin s m).frame = none →
      u = putLin { advance s t with linWakeCmd := s.linWakeCmd.filter (fun p => p != 64 + m) } m
        { getLin s m with frame := none, pulses := 0, waiting := 0, edgeAt := some (advance s t).now } →
      exec (.linHeaderReceived t m measured none) s = .next (settled (linError u m 2)) ∧
        (100 * measured < 86 * clamp 2000 40000 (fld s (linPage m + 0x44) 15 0) → ∀ pid,
          exec (.linHeaderReceived t m measured (some pid)) s = .next (settled (linError u m 4)))) ∧
    (∀ measured pid, linCommander s m = false → linHears s m = true →
      exec (.linHeaderReceived t m measured pid) s = .next (settled (linHeaderIn (advance s t) m measured pid))) ∧
    (∀ f bytes u, (getLin s m).frame = some f → running s (linPage m) = true → f.pull = none →
      u = linEdge (advance s t) m (advance s t).now →
      (f.dir = 1 → linOver u m f = false → f.len < bytes.length → byteAt bytes f.len = linCheck u m f.ident (bytes.take f.len) →
        exec (.linResponseReceived t m bytes 0) s = .next (settled (linGood u m f (bytes.take f.len)))) ∧
      (f.dir = 1 → linOver u m f = true →
        exec (.linResponseReceived t m bytes 0) s = .next (settled (linTimeout u m (!bytes.isEmpty)))) ∧
      (f.dir = 2 → exec (.linResponseReceived t m bytes 0) s = .next (settled (linSent u m f)) ∧
        exec (.linResponseReceived t m bytes 1) s = .next (settled (linFail u m f 1)))) ∧
    (∀ f some', (getLin s m).frame = some f → linDue (advance s t) m f = true → f.dir ≠ 1 →
      exec (.linResponseTimeout t m some') s = .next (settled (linEnd (advance s t) m))) ∧
    (∀ f, (getLin s m).frame = some f → linDue (advance s t) m f = true → f.dir = 1 →
      exec (.linResponseTimeout t m true) s = .next (settled (linFail (advance s t) m f 7)))

/-- Software makes a buffer ready and asks for a schedule switch; a routed copy fills its buffer. A commanded wake sends a pulse;
when its wait ends a commander starts its schedule, and a responder sends the next pulse, pauses after three and begins again,
while the wake is still asked for. A bus without an edge for LIN_IDLE.MS is an event. -/
def Obligations.LinBuffersAndWakesComplete : Prop :=
  (∀ (s : State) (t req m i : Nat), linPresent s.fuses m = true →
      (i < 64 → pf0Reaches (advance s t) req (linPage m) →
        exec (.linBufReadySet t req m i) s = .next (settled (linBufWrite (advance s t) req m (0x20C + 16 * i) 1))) ∧
      (pf0Reaches (advance s t) req (linPage m) →
        exec (.linSchedSwitch t req m) s = .next (settled (setBit (advance s t) (linPage m + 0x4C) 0))) ∧
      (∀ c, coreUp s = true → mapGet? s.inFlight (64 + m) = some c → (getFrame s c.frame).poison = true →
        exec (.linRoutedFill t m) s =
          .next (settled (freeIfDone (endFlight (incSat (advance s t) (egrPage + 0x44)) (64 + m)) c.frame))) ∧
      (coreUp s = true → exec (.linRoutedFill t m) s = .next (settled (linFill (advance s t) m)))) ∧
  (∀ (s : State) (t m : Nat), coreUp s = true → linPresent s.fuses m = true →
      (s.linWakeCmd.contains (64 + m) = true → (getLin s m).waiting = 0 → running s (linPage m) = true →
        isFallow s (linPage m) = false → exec (.linWakePulse t m) s = .next (settled (linPulse (advance s t) m 1))) ∧
      ((getLin s m).waiting = 0 → exec (.linWakeWaitExpiry t m) s = .next (settled (advance s t))) ∧
      ((getLin s m).waiting ≠ 0 → s.linWakeCmd.contains (64 + m) = false ∨ isFallow s (linPage m) = true →
        exec (.linWakeWaitExpiry t m) s = .next (settled (putLin (advance s t) m { getLin s m with pulses := 0, waiting := 0 }))) ∧
      (s.linWakeCmd.contains (64 + m) = true → isFallow s (linPage m) = false →
        (linCommander s m = true → (getLin s m).waiting ≠ 0 → (getLin s m).waitFrom + msTicks 100 ≤ (advance s t).now →
          exec (.linWakeWaitExpiry t m) s = .next (settled (linStart (putLin { advance s t with
            linWakeCmd := s.linWakeCmd.filter (fun p => p != 64 + m) } m { getLin s m with pulses := 0, waiting := 0 }) m))) ∧
        (linCommander s m = false → (getLin s m).waiting = 1 → (getLin s m).waitFrom + msTicks 200 ≤ (advance s t).now →
          ((getLin s m).pulses < 3 →
            exec (.linWakeWaitExpiry t m) s = .next (settled (linPulse (advance s t) m ((getLin s m).pulses + 1)))) ∧
          (3 ≤ (getLin s m).pulses → exec (.linWakeWaitExpiry t m) s = .next (settled (putLin (advance s t) m
            { getLin s m with pulses := 0, waiting := 2, waitFrom := (advance s t).now })))) ∧
        (linCommander s m = false → 1 < (getLin s m).waiting → (getLin s m).waitFrom + msTicks 1500 ≤ (advance s t).now →
          exec (.linWakeWaitExpiry t m) s = .next (settled (linPulse (advance s t) m 1)))) ∧
      (∀ e, running s (linPage m) = true → isFallow s (linPage m) = false → linCommander s m = true → (getLin s m).edgeAt = some e →
        e + msTicks (clamp 4000 10000 (fld s (linPage m + 0x58) 13 0)) ≤ (advance s t).now →
        exec (.linIdle t m) s =
          .next (settled (setBit (putLin (advance s t) m { getLin s m with edgeAt := none }) (linEvents m) 4))))

/-! ## Ethernet -/

/-- The link of a MAC port goes up, goes down and changes its modes. Frames of a MAC port: one received, behind what frees plots
at the same moment, one sent, and a control frame: a PAUSE or PFC frame that a port on its link hears counts and, where flow
control is obeyed, pauses its classes, and any other does nothing; a frame whose sending fails ends and is noted at its crossing. -/
def Obligations.EthernetLinkAndFramesComplete : Prop :=
  (∀ (s : State) (t p : Nat), coreUp s = true → macPresent s.fuses p = true →
      (ethUp s p = true → isT1s p = false → ∀ u, u = setBit (clrBit (clrBit (advance s t) (ethLink p) 23) (ethLink p) 17) (ethEvents p) 0 →
        exec (.linkDown t p) s =
          .next (settled (clrBit (refreshOutput (txAbort (putMac u p { getMac u p with fcQ := [] }) p) p) (ethLink p) 17))) ∧
      (∀ speed half held, lapsesNow (advance s t) p = false →
        exec (.linkUp t p speed half held) s = .next (settled (linkUp (advance s t) p speed half held)) ∧
        (isT1s p = false → ethUp s p = false → macLive s p = true → upHold s p ≤ held →
          exec (.linkUp t p speed half held) s = .next (settled (refreshOutput (setBit (putBit (setFld (setBit (advance s t)
            (ethLink p) 23) (ethLink p) 22 20 (ethModes s p speed half).1) (ethLink p) 19 (ethModes s p speed half).2)
            (ethEvents p) 1) p)))) ∧
      (∀ speed half held, lapsesNow (advance s t) p = true →
        exec (.linkUp t p speed half held) s = .next (settled (advance s t))) ∧
      (∀ speed half, ethUp s p = true → (ethModes s p speed half).1 ≠ fld s (ethLink p) 22 20 →
        exec (.speedDuplexChange t p speed half) s = .next (settled (putBit (setFld (linkDown (advance s t) p) (ethLink p) 22 20
          (ethModes s p speed half).1) (ethLink p) 19 (ethModes s p speed half).2)))) ∧
  (∀ (s : State) (t p : Nat), coreUp s = true → macPresent s.fuses p = true →
      (∀ first rest len since abort code fcs i, i = Instr.ethFrameReceived t p first rest len since abort code fcs →
        (mustYield (advance s t) i = false →
          exec i s = .next (settled (ethReceived (advance s t) p first rest len since abort code fcs))) ∧
        (mustYield (advance s t) i = true → exec i s = .next (settled { advance s t with yields := s.yields ++ [i] }))) ∧
      (∀ bs u, u = incSat (advance s t) (macPage p + 0x9C) →
        exec (.macControlFrame t p bs) s = .next (settled (macControl (advance s t) p bs)) ∧
        (macHears s p = false ∨ ethUp s p = false ∨ beAt bs 12 2 ≠ 0x8808 ∨ (beAt bs 14 2 ≠ 1 ∧ beAt bs 14 2 ≠ 0x101) →
          exec (.macControlFrame t p bs) s = .next (settled (advance s t))) ∧
        (macHears s p = true → ethUp s p = true → beAt bs 12 2 = 0x8808 →
          (beAt bs 14 2 = 1 ∨ beAt bs 14 2 = 0x101 → fcObeys u p = false →
            exec (.macControlFrame t p bs) s = .next (settled u)) ∧
          (beAt bs 14 2 = 1 → fcObeys u p = true → exec (.macControlFrame t p bs) s = .next (settled
            (noteStuck (forEach (List.range 8) u (fun w c => pauseClass w p c (beAt bs 16 2))) p))) ∧
          (beAt bs 14 2 = 0x101 → fcObeys u p = true → isT1s p = false → exec (.macControlFrame t p bs) s = .next (settled
            (noteStuck (forEach (List.range 8) u (fun w c =>
              if byteAt bs 17 / 2 ^ c % 2 = 1 then pauseClass w p c (beAt bs (18 + 2 * c) 2) else w)) p))))) ∧
      (∀ c, mapGet? s.inFlight p = some c → macLive s p = true → ethUp s p = true → notBegun (advance s t) p = false →
        (getFrame s c.frame).poison = false → ∀ left u, u = txEnds (advance s t) p false (some left) →
        exec (.ethFrameSent t p left true) s = .next (settled { u with crossings := u.crossings ++ [(macPage p, 0)] })) ∧
      (∀ left failed, exec (.ethFrameSent t p left failed) s = .next (settled (ethSent (advance s t) p left failed))))

/-- Pauses end and are refreshed, behind what may release them at the same moment, collisions jam and back off, and the T1S turns
and jams. A step of the time base adds TIME_STEP, a signed number of nanoseconds, cuts every running gate cycle short, and
changes nothing else. -/
def Obligations.EthernetMediumAndTimeComplete : Prop :=
  (∀ (s : State) (t p : Nat), coreUp s = true → macPresent s.fuses p = true →
      (∀ c e, mapGet? (getMac s p).pauseTo c = some e → e ≤ (advance s t).now →
        exec (.pauseTimerExpiry t p c) s = .next (settled (noteStuck (pauseClass (advance s t) p c 0) p))) ∧
      (mustYield (advance s t) (.pauseRefresh t p) = false → bit s (admUsed p) 23 = true → fcMode s p ≠ 0 → (getMac s p).fcQ = [] →
        (advance s t).now - mapGet 0 s.fcSentAt p ≥ bitTicks s p (quantaOf s p * 256) →
        exec (.pauseRefresh t p) s = .next (settled (sendControl (advance s t) p (mapGet 0 s.withheld p) (quantaOf s p)))) ∧
      (mustYield (advance s t) (.t1sForcedJam t p) = false → isT1s p = true → csma s p = true → bit s (admUsed p) 23 = true →
        macLive s p = true → pairQuiet s = false → chanAsleep s p = false →
        exec (.t1sForcedJam t p) s = .next (settled (send (incSat (advance s t) (macPage p + 0xB0)) p .ethJam [] []))) ∧
      (csma s p = true → notBegun (advance s t) p = false → (mapGet? s.inFlight p).isSome = true → macLive s p = true →
        exec (.collision t p true) s = .next (settled (flightOver (incSat (tsFails (send (incSat (advance s t)
          (macPage p + 0xA4)) p .ethJam [] []) p) (macPage p + 0xA8)) p)) ∧
        exec (.collision t p false) s = .next (settled (collision (advance s t) p false))) ∧
      (∀ e, (getMac s p).backoff = some e → e ≤ (advance s t).now → mustYield (advance s t) (.backoffExpiry t p) = false →
        exec (.backoffExpiry t p) s = .next (settled (putMac (advance s t) p { getMac s p with backoff := none }))) ∧
      (plcaOn s p = true → macLive s p = true →
        (mapGet? s.inFlight p = none → (getMac s p).turnEnd ≤ (advance s t).now →
          mustYield (advance s t) (.plcaTransmitOpportunity t p false) = false →
          exec (.plcaTransmitOpportunity t p false) s =
            .next (settled (putMac (advance s t) p { getMac s p with turn := false, burst := 0 }))) ∧
        (pairQuiet s = false → chanAsleep s p = false → plcaId s p ≠ 0 →
          mustYield (advance s t) (.plcaTransmitOpportunity t p true) = false →
          exec (.plcaTransmitOpportunity t p true) s = .next (settled (serveControl (putMac (advance s t) p
            { getMac s p with
              turn := true, burst := fld s (macPage p + 0x5C) 15 8
              turnEnd := (advance s t).now + bitTicks s p (max 1 (fld s (macPage p + 0x5C) 23 16)) }) p))))) ∧
  (∀ (s : State) (t req : Nat), pf0Reaches (advance s t) req timePage →
      exec (.timeStep t req) s = .next (settled { advance s t with
        timeFine := ((advance s t).timeFine +
          (if rd s (timePage + 0x48) < 2 ^ 23 then rd s (timePage + 0x48) * 2 ^ 32
            else timeRange - (2 ^ 24 - rd s (timePage + 0x48)) * 2 ^ 32)) % timeRange
        gateRun := s.gateRun.map (fun e => (e.1, { e.2 with started := false })) }))

/-! ## Wake and sleep -/

/-- An armed detector and a WAKE_IN pin: a detector that is not armed reports nothing; an armed one is reported to the core that
works, or is latched while it does not. -/
def Obligations.WakeEventsComplete : Prop :=
  ∀ (s : State) (t p : Nat), busPort s p = true →
    ((mapGet? s.armed p).isSome = true → coreUp s = true → s.failsafe.contains (dieOf p) = false → s.power.goodbyeAt = none →
      exec (.wakeEvent t p) s = .next (settled (wakeReport (entryAbort (advance s t)) p false))) ∧
    ((mapGet? s.armed p).isSome = true → powerState s = 1 ∨ powerState s = 2 →
      exec (.wakeEvent t p) s = .next (settled (latchWake (advance s t) (dieOf p) 1 p))) ∧
    ((mapGet? s.armed p).isSome = false → exec (.wakeEvent t p) s = .next (settled (advance s t))) ∧
    (∀ k rising us, k < 4 → coreUp s = true → winSelected s k rising us = true → s.failsafe.contains (k / 2) = false →
      s.power.goodbyeAt = none →
      exec (.wakeInEdge t k rising us) s = .next (settled (winReport (entryAbort (advance s t)) k false)))

/-- CL_CMD and the timers of a cluster's network management; the NM timer expires behind a frame of the cluster at the same
moment. -/
def Obligations.ClusterCommandsComplete : Prop :=
  ∀ (s : State) (t c : Nat), c < 32 →
    (∀ req, pf0Reaches (advance s t) req clusterPage →
      exec (.clRequest t req c) s = .next (settled (clRequest (advance s t) c)) ∧
        exec (.clRelease t req c) s = .next (settled (clRelease (advance s t) c))) ∧
    (coreUp s = true → bit s (clCfg c) 23 = true →
      (clState s c = 1 → (advance s t).now - (getCl s c).entered ≥ (getCl s c).repeatFor → clReq s c = true →
        exec (.repeatExpiry t c) s = .next (settled (serveHints (setCluster (advance s t) c 2)))) ∧
      (clState s c = 1 → (advance s t).now - (getCl s c).entered ≥ (getCl s c).repeatFor → clReq s c = false →
        exec (.repeatExpiry t c) s = .next (settled (serveHints (enterReady (advance s t) c)))) ∧
      (clState s c = 3 → nmExpired (advance s t) c = true →
        mustYield (advance s t) (.nmTimerExpiry t c) = false →
        exec (.nmTimerExpiry t c) s = .next (settled (serveHints (enterPrepare (advance s t) c)))) ∧
      (clState s c = 1 ∨ clState s c = 2 → (advance s t).now - (getCl s c).cycleAt ≥ (getCl s c).cycleFor →
        exec (.nmCycle t c) s = .next (settled (nmSend (advance s t) c))) ∧
      (clState s c = 4 → bit s (clStat c) 18 = false → (advance s t).now - (getCl s c).entered ≥ (getCl s c).waitFor →
        exec (.waitExpiry t c) s = .next (settled (forEach (members s c) (setBit (advance s t) (clStat c) 18) refreshTrx))) ∧
      (clState s c = 4 → bit s (clStat c) 18 = true →
        exec (.sleepCommit t c) s = .next (settled (setCluster (setBit { advance s t with
          linWakeCmd := s.linWakeCmd.filter (fun p => clusterOf s p != some c) } (clEvents c) 1) c 0)))) ∧
    (coreUp s = true → exec (.nmSourceHolding t c) s = .next (settled (refreshHolding (advance s t) c)))

/-- A false wake is counted, its counts end with their period, and a source that holds its cluster awake too long is flagged.
Heartbeat lapses and their votes, each behind what stands over it at the same moment, the parking of a region that has been
idle for 10 ms and that nothing asks to run at this moment, and the unparking of one that something asks to run. -/
def Obligations.FalseWakesAndParkingComplete : Prop :=
  (∀ (s : State) (t : Nat),
      (∀ p, coreUp s = true → busPort s p = true → mustYield (advance s t) (.falseWakeWindowExpiry t p) = false →
        exec (.falseWakeWindowExpiry t p) s = .next (settled (fwExpiry (advance s t) p)) ∧
        (mapGet? s.fwFrom p = none → exec (.falseWakeWindowExpiry t p) s = .next (settled (advance s t)))) ∧
      exec (.fwHourPeriod t) s =
        .next (settled (forEach (busPorts s.fuses) (advance s t) (fun u p => setFld u (wkChst p) 15 8 0))) ∧
      (∀ i, i < 256 → coreUp s = true → exec (.keepawakeFlag t i) s = .next (settled (kaFlag (advance s t) i)))) ∧
  (∀ (s : State) (t d r : Nat),
      (∀ h, d < 2 → mapGet? s.heartbeatAt d = some h → h + msTicks 4 ≤ (advance s t).now → powerState s ≠ 0 →
        s.power.goodbyeAt = none → s.failsafe.contains d = false → mustYield (advance s t) (.heartbeatLapse t d) = false →
        exec (.heartbeatLapse t d) s = .next (settled (putSup (failsafeDie (advance s t) d) d
          { getSup (failsafeDie (advance s t) d) d with lapsedAt := some (failsafeDie (advance s t) d).now }))) ∧
      (d < 2 → mustYield (advance s t) (.heartbeatLapse t d) = true →
        exec (.heartbeatLapse t d) s = .next (settled { advance s t with yields := s.yields ++ [.heartbeatLapse t d] })) ∧
      (∀ h, d < 2 → (getSup s d).lapsedAt = some h → h + secTicks 1 ≤ (advance s t).now →
        exec (.powerVoteWithdraw t d) s =
          .next (settled (putSup (advance s t) d { getSup s d with alive := false, lapsedAt := none }))) ∧
      (r < 4 → coreUp s = true →
        (mustYield (advance s t) (.regionPark t r) = true →
          exec (.regionPark t r) s = .next (settled { advance s t with yields := s.yields ++ [.regionPark t r] })) ∧
        (mustYield (advance s t) (.regionPark t r) = false → bit s (wakePage r + 0x40) 23 = true →
          parkable (advance s t) r = true → heldFor (advance s t) r (msTicks 10) = true → parked s r = false →
          (mapGet? s.heldFrom (8 + r) ≠ some (advance s t).now →
            exec (.regionPark t r) s = .next (settled (notePark (incSat (setBit (wr { advance s t with pace := mapDel s.pace r }
              (regionBase r + 0x30) 0xC00000) (wakePage r + 0x44) 23) (wakePage r + 0x4C))))) ∧
          (mapGet? s.heldFrom (8 + r) = some (advance s t).now → exec (.regionPark t r) s = .next (settled (advance s t)))) ∧
        parked (wr (clrBit s (wakePage r + 0x44) 23) (regionBase r + 0x30) 0) r = false) ∧
      (r < 4 → coreUp s = true →
        (unparkAsked (advance s t) r = false → exec (.regionUnpark t r) s = .next (settled (advance s t))) ∧
        (unparkAsked (advance s t) r = true → parked s r = true →
          exec (.regionUnpark t r) s = .next (settled (notePark (policersFull (wr (clrBit
            { advance s t with heldFrom := mapSet s.heldFrom (8 + r) (advance s t).now }
            (wakePage r + 0x44) 23) (regionBase r + 0x30) 0) r))))))

/-! ## Security -/

/-- The dispatcher gives the item it chooses to a lane; a lane takes the item at its front: a profile that is neither valid nor
quarantined releases it as it came, a received frame of bad lane parity is rewound and voided, and a lane's test ends. -/
def Obligations.LaneCommandsComplete : Prop :=
  ∀ (s : State) (t i : Nat), coreUp s = true → kindOf s.fuses (lanePage i) = 0x42 →
    (∀ it u, laneTake (advance s t) i 0 = some (it, u) → it.kind = 0 → laneServes s i = true → isQuar s 5 0 it.profile = false →
      tLive s secTable 0 it.profile = none →
      exec (.secocGenerate t i 0) s = .next (settled (laneRelease u it it.copies none)) ∧
        exec (.secocVerify t i 0) s = .next (settled (laneRelease u it it.copies none))) ∧
    (∀ ev, exec (.secocGenerate t i ev) s = .next (settled (laneSecoc (advance s t) i true ev)) ∧
      exec (.secocVerify t i ev) s = .next (settled (laneSecoc (advance s t) i false ev)) ∧
      (mustYield (advance s t) (.macsecProtect t i ev) = false →
        exec (.macsecProtect t i ev) s = .next (settled (laneProtect (advance s t) i ev))) ∧
      exec (.macsecReceive t i ev) s = .next (settled (laneReceive (advance s t) i ev))) ∧
    (∀ it u, laneTake (advance s t) i 1 = some (it, u) → it.kind = 1 → it.poison = false → laneServes s i = true →
      exec (.macsecReceive t i 1) s = .next (settled (laneFault u i it))) ∧
    (bit s (lanePage i + 0x40) 22 = true → ∀ pass,
      exec (.laneSelftestDone t i pass) s = .next (settled (laneTested (advance s t) i pass))) ∧
    exec (.laneDispatch t) s = .next (settled (dispatch (advance s t)))

/-- The entropy source fails on raw bits that a health test refuses, and starts again on ones that both accept; a reseed seeds the
generator from it while it is READY; a read of DRBG_OUT is a request of the generator while it is READY and sets ERR_SEEN
otherwise. An accepted life-cycle transition to SCRAPPED clears LC_ARM, erases every wrapped key record and begins to program the
state, which its command shows as PENDING when it ends; it is refused outside R487 and without its code. -/
def Obligations.EntropyAndLifeCycleComplete : Prop :=
  (∀ (s : State) (t req : Nat),
      (∀ bits, coreUp s = true → running s entPage = true →
        (rctFails bits = true ∨ aptFails bits = true →
          exec (.entropyHealthFail t bits) s = .next (settled (entropyFail (advance s t) (!(rctFails bits))))) ∧
        (rctFails bits = false → aptFails bits = false →
          exec (.entropyHealthFail t bits) s = .next (settled (advance s t)) ∧
          (bit s (entPage + 0x40) 22 = true → s.awaitTest.contains (entPage, 0) = false → s.maskGen = [] →
            exec (.entropyStartupDone ⟨t, bits⟩) s = .next (settled (serviceWork (drbgSeed (setFld (setBit (clrBit (advance s t)
              (entPage + 0x40) 22) (entPage + 0x40) 23) (entPage + 0x4C) 23 22 1) true) 1 3))))) ∧
      (pf0Reaches (advance s t) req entPage → drbgState s = 1 →
        exec (.drbgReseed t req) s = .next (settled (serviceWork (drbgSeed (advance s t) false) 1 3))) ∧
      (bootReach (advance s t) entPage = true → holdsUp s req = false →
        (drbgState s ≠ 1 → exec (.drbgOutRead t req) s =
          .next (settled (completeRead (setBit (advance s t) (entPage + 0x4C) 21) req 0))) ∧
        (drbgState s = 1 → ∀ bs u, drbgRequest (advance s t) 24 false = (bs, u) →
          u.drbg.requests = (if 2 ^ 20 ≤ s.drbg.requests then 1 else s.drbg.requests + 1) ∧
          exec (.drbgOutRead t req) s = .next (settled (completeRead
            (serviceWork u 1 (drbgBlocks 24 (decide (2 ^ 20 ≤ s.drbg.requests)))) req (bytesNum bs)))))) ∧
  (∀ (s : State) (t req : Nat), pf0Reaches (advance s t) req lcPage → mapGet? s.cmds lcCmd = none →
      cmdBusy (advance s t) lcCmd = false →
      (lcState s < 4 → fld s (lcPage + 0x44) 2 0 = 4 → fld s (lcPage + 0x44) 23 12 = 0x5A5 → bit s (lcPage + 0x4C) 0 = false →
        drbgState s = 1 → fld s (lcPage + 0x40) 20 18 = lcState s →
        exec (.lcGo t req true) s = .next (settled (cmdStart { clrBit (setFld (wr (advance s t) (lcPage + 0x44) 0)
          (lcPage + 0x40) 15 12 0) (lcPage + 0x40) 16 with keyRecs := [] } lcCmd 1
          [{ addr := lcPage + 0x40, hi := 20, lo := 18, val := 4 }]))) ∧
      (∀ burnOk, lcAllowed (lcState s) (fld s (lcPage + 0x44) 2 0) = false →
        exec (.lcGo t req burnOk) s = .next (settled (lcRefuse (wr (advance s t) (lcPage + 0x44) 0) 0x1))) ∧
      (∀ burnOk, lcAllowed (lcState s) (fld s (lcPage + 0x44) 2 0) = true → fld s (lcPage + 0x44) 23 12 ≠ 0x5A5 →
        exec (.lcGo t req burnOk) s = .next (settled (lcRefuse (wr (advance s t) (lcPage + 0x44) 0) 0x2))))

/-- The key commands on an unlocked key page, none under way: ERASE empties the slot and its record, GENERATE fills it from the
generator when the lanes have done the work, INFO shows an empty slot as empty, DERIVE acts under its own gate; one that meets a
command under way is refused with 0x6; and a saved slot has its check value. A check-value unit that runs and is not BUSY starts
with a polynomial it has; ABORT ends a computation; a word written to CV_DATA without a computation under way sets the flag of a
stray word. -/
def Obligations.KeysAndCheckValuesComplete : Prop :=
  (∀ (s : State) (t req : Nat), pf0Reaches (advance s t) req keyPage → bit s (secPage + 0x40) 0 = false →
      (mapGet? s.cmds keyCmd = none → cmdBusy (advance s t) keyCmd = false →
        exec (.keyErase t req) s = .next (settled (cmdStart (keyAccept { advance s t with
          keys := mapDel s.keys (keySlotSel s), keyRecs := mapDel s.keyRecs (keySlotSel s),
          keysSaving := s.keysSaving.filter (fun j => j != keySlotSel s) }) keyCmd 1 [])) ∧
        (keyBarred s = false → drbgState s = 1 →
          ∀ n bs u, n = (if key256Sel s then 256 else 128) → drbgRequest (advance s t) n true = (bs, u) →
          exec (.keyGenerate t req) s =
            .next (settled (cmdStart (keyFill (keyAccept u) (bytesNum bs) 2 (drbgBlocks n true)) keyCmd 2 []))) ∧
        (∀ met, exec (.keyDerive t ⟨req, met⟩) s = .next (settled (keyDerive (advance s t) req (met != 0)))) ∧
        (mapGet? s.keys (keySlotSel s) = none →
          exec (.keyInfo t req) s = .next (settled (cmdStart (keyAccept (advance s t)) keyCmd 8
            [{ addr := keyPage + 0x4C, hi := 23, lo := 0, val := 0 }, { addr := keyPage + 0x50, hi := 23, lo := 0, val := 0 }])))) ∧
      (cmdBusy (advance s t) keyCmd = true →
        ∀ i met, i ∈ [Instr.keyErase t req, .keyGenerate t req, .keyDerive t ⟨req, met⟩, .keyInfo t req] →
          exec i s = .next (settled (keyRefuse (advance s t) 0x6))) ∧
      (coreUp s = true → exec (.keySaveDone t) s = .next (settled (keySaved (advance s t))))) ∧
  (∀ (s : State) (t req u : Nat), u < 4 → pf0Reaches (advance s t) req (cvPage u) →
      exec (.cvStart t req u) s = .next (settled (cvBoundary (cvStart (advance s t) u) u)) ∧
        exec (.cvAbort t req u) s = .next (settled (cvBoundary (cvAbort (advance s t) u) u)) ∧
        (∀ v, exec (.cvDataWrite t req u v) s = .next (settled (cvBoundary (cvData (advance s t) req u (v % 2 ^ 24)) u))) ∧
        (∀ v, bit s (cvPage u + 0x24) 0 = false → mapGet? s.cvRun u = none →
          cvData (advance s t) req u v = setBit (wr (advance s t) (cvPage u + 0x4C) (v % 2 ^ 24)) (cvPage u + 0x54) 3))

/-! ## Errors, monitors and identity -/

/-- A counted fault takes its actions, a deferred test ends, a stall is taken, and the operating minutes that have passed count,
wrap, and are stored every 15. RECLAIM of a roster entry that may be reclaimed removes it and gives its hardware back; of no
entry, or of one that may not be, it is refused. -/
def Obligations.FaultsAndReclaimComplete : Prop :=
  (∀ (s : State) (t page : Nat), coreUp s = true → kindOf s.fuses page ≠ 0 →
      (∀ row code detail failed, counted code = true →
        exec (.countedFault t page row code detail failed) s =
          .next (settled (takeFault (advance s t) page row code detail failed))) ∧
      (∀ row pass, s.awaitTest.contains (page, row) = true →
        exec (.rowTestEnd t page row pass) s = .next (settled (testEnd (advance s t) page row pass))) ∧
      exec (.handshakeStall t page) s = .next (settled (stalled1ms (advance s t) page)) ∧
      (∀ n, n = (operMin s + 1) % 2 ^ 24 → s.power.minutes < minutesPassed (advance s t) →
        exec (.operMinute t) s = .next (settled (wr { advance s t with power := { s.power with
          minutes := s.power.minutes + 1, operStored := if n % 15 = 0 then n else s.power.operStored } } (hubPage + 0x48) n))) ∧
      (minutesPassed (advance s t) ≤ s.power.minutes → exec (.operMinute t) s = .next (settled (advance s t)))) ∧
  (∀ (s w : State) (t req : Nat), pf0Reaches (advance s t) req hubPage → w = atPage s t hubPage →
      cmdBusy (advance s t) (hubPage + 0x58) = false →
      (∀ e, mapGet? w.roster (fld w (hubPage + 0x54) 8 0) = some e →
        (e.kind ≠ 3 → e.kind ≠ 4 → ∀ u, u = setFld (clrBit w (hubPage + 0x5C) 2) (hubPage + 0x5C) 11 8 0 →
          exec (.hubReclaim t req) s = .next (settled (cmdStart (ledgerReclaim (reclaimDo (noteRoster
            { u with roster := mapDel u.roster (fld w (hubPage + 0x54) 8 0) }) e) e) (hubPage + 0x58) 1 []))) ∧
        (e.kind = 3 ∨ e.kind = 4 → exec (.hubReclaim t req) s = .next (settled (reclaimRefuse w 0x2)))) ∧
      (mapGet? w.roster (fld w (hubPage + 0x54) 8 0) = none →
        exec (.hubReclaim t req) s = .next (settled (reclaimRefuse w 0x1))))

/-- The pace monitors show a window's reading when the window is over; a monitor that samples by periods does so at their ends, of
what the gateway holds: a QUEUE monitor the plots queued for its port; SNAP shows its live set and clears it with CLEAR, and a
write of its configuration starts it anew. -/
def Obligations.MonitorCommandsComplete : Prop :=
  ∀ (s : State) (t dom blk pg page : Nat), page = pageAt dom blk pg →
    (∀ i v, coreUp s = true → i < 5 → (i < 4 → parked s i = false) →
      exec (.paceWindow t i v) s = .next (settled (paceWindow (advance s t) i v)) ∧
      (periodOver (advance s t) (pacePageOf i) (usTicks 10) = true →
        rd (paceWindow (advance s t) i v) (pacePageOf i + 0x30) % 2 ^ 12 = min v 0xFFF)) ∧
    (coreUp s = true → kindOf s.fuses page = 0x11 →
      exec (.monitorSample t dom blk pg) s = .next (settled (if running s page then monSample (advance s t) page else advance s t)) ∧
      (running s page = true → edgeErr s page = false → monKind s page = 2 →
        (periodOver (advance s t) page (monPeriod s page) = true → ∀ u, u = periodNext (advance s t) page (monPeriod s page) →
          exec (.monitorSample t dom blk pg) s = .next (settled (monTake u page (queuedPlots u (fld s (page + 0x40) 20 13))))) ∧
        (periodOver (advance s t) page (monPeriod s page) = false → exec (.monitorSample t dom blk pg) s = .next (settled (advance s t))))) ∧
    (∀ req, kindOf s.fuses page = 0x11 → pf0Reaches (advance s t) req page →
      exec (.monSnap t req page false) s = .next (settled (monSnap (advance s t) page false)) ∧
        exec (.monSnap t req page true) s =
          .next (settled { monSnap (advance s t) page false with monLive := mapDel s.monLive page }) ∧
        ∀ v u, u = { advance s t with monLive := mapDel s.monLive page, sampledAt := mapSet s.sampledAt page (advance s t).now } →
          exec (.monConfigWrite t req page true v) s = .next (settled (softWord u req (page + 0x44) (v % 2 ^ 24))) ∧
            exec (.monConfigWrite t req page false v) s = .next (settled (softWord u req (page + 0x40) (v % 2 ^ 24))))

/-! ## Configuration update -/

/-- After the bookkeeping of a fall-back that is over: a header block of a good image is taken into the inactive bank, which is
then RECEIVING its body, and one whose seedbed read-back fails is refused; a body block is placed, and one at offset 0 is a
header. A minute of the trial that has passed counts its timer down, and a trial whose timer is at 0 falls back. -/
def Obligations.UpdateBlocksAndTrialComplete : Prop :=
  ∀ (s u : State) (t : Nat), coreUp s = true → u = turnEnd (advance s t) →
    (∀ b data, lcState u ≠ 4 → inactiveBank u = some b → data.length = 4096 → headerError u data = none →
      exec (.updateHeaderBlock t data 0) s = .next (settled (noteBlocks (wr (setBank (updAccept { u with
        banks := mapSet u.banks b [(0, data)] }) b 1) (updVer b) (imgVersion data)) b)) ∧
      exec (.updateHeaderBlock t data 2) s = .next (settled (headerRefused (seedFault u 0) 0x0C))) ∧
    (∀ off data bad, off ≠ 0 → exec (.updateBodyBlock t off data bad) s = .next (settled (bodyBlock u off data bad).2)) ∧
    (∀ data bad, exec (.updateHeaderBlock t data bad) s = .next (settled (headerBlock u data bad).2) ∧
      exec (.updateBodyBlock t 0 data bad) s = .next (settled (headerBlock u data bad).2)) ∧
    (inTrial u = true →
      (u.power.trialMinutes < minutesPassed u → exec (.trialMinute t) s = .next (settled (setFld { u with
        power := { u.power with trialMinutes := u.power.trialMinutes + 1 } } (updPage + 0x64) 23 13
          (fld u (updPage + 0x64) 23 13 - 1)))) ∧
      (minutesPassed u ≤ u.power.trialMinutes → exec (.trialMinute t) s = .next (settled u)) ∧
      (fld u (updPage + 0x64) 23 13 = 0 → inTurn u = false → ∀ fault,
        exec (.trialTimerExpiry ⟨t, fault⟩) s = .next (settled (fallBack u 2 fault))))

/-- The update commands of PF0 outside SCRAPPED, neither a command nor a turn under way: each clears UPD_ARM.CODE and acts; a
CONFIRM or REJECT outside TRIAL is refused with 0x15; while one is under way each is refused with 0x17. A seedbed fault that
ACTIVATE or REJECT meets, and a bad key word that VERIFY meets, act in their place. -/
def Obligations.UpdateCommandsComplete : Prop :=
  ∀ (s w : State) (t req : Nat) (force met : Bool) (fault : Nat), pf0Reaches (advance s t) req updPage →
    (met = false → fault = 0) →
    (w = if met then turnEnd (advance s t) else atPage s t updPage) → lcState w ≠ 4 →
    (updBusy w = false →
      exec (.updVerify t ⟨req, b2n met⟩) s = .next (settled (updVerify (disarm w) met)) ∧
      (met = decide (fault ≠ 0) →
        exec (.updReject t ⟨req, fault⟩) s = .next (settled (updReject (disarm w) fault)) ∧
        (inTrial w = false → exec (.updReject t ⟨req, fault⟩) s = .next (settled (updRefuse (disarm w) 0x15))) ∧
        exec (.updActivate t req force fault) s = .next (settled (updActivate (disarm w) force fault))) ∧
      (met = false →
        (inTrial w = false → exec (.updConfirm t req) s = .next (settled (updRefuse (disarm w) 0x15))) ∧
        exec (.updConfirm t req) s = .next (settled (updConfirm (disarm w))) ∧
        exec (.updAbandon t req) s = .next (settled (updAbandon (disarm w))) ∧
        exec (.updEpoch t req) s = .next (settled (updEpoch (disarm w) (fld w (updPage + 0x60) 23 12) w.updArmedAt)))) ∧
    (updBusy w = true →
      exec (.updVerify t ⟨req, b2n met⟩) s = .next (settled (updRefuse (disarm w) 0x17)) ∧
      (met = decide (fault ≠ 0) → ∀ i, i ∈ [Instr.updReject t ⟨req, fault⟩, .updActivate t req force fault] →
        exec i s = .next (settled (updRefuse (disarm w) 0x17))) ∧
      (met = false → ∀ i, i ∈ [Instr.updConfirm t req, .updAbandon t req, .updEpoch t req] →
        exec i s = .next (settled (updRefuse (disarm w) 0x17))))

/-- The settings commands of PF0 outside SCRAPPED, none under way: a WRITE replaces the record of a legal identifier, a DELETE
removes it, a READ shows it, or open words where the seedbed read fails; WRITE and DELETE of an identifier outside 0x0001 to
0xFBFF are refused with 0x1, a WRITE without room with 0x2; one that meets a command under way is refused with 0x6. -/
def Obligations.SettingsCommandsComplete : Prop :=
  ∀ (s u : State) (t req : Nat), pf0Reaches (advance s t) req updPage → u = turnEnd (advance s t) → lcState u ≠ 4 →
    (mapGet? s.cmds setCmd = none → mapGet? u.cmds setCmd = none → cmdBusy u setCmd = false →
      (setId u ≠ 0 → setId u ≤ 0xFBFF →
        (∀ ws, ws = (List.range (setLen u)).map (fun k => BitVec.ofNat 24 (rd u (updPage + 0xA0 + 4 * k))) →
          exec (.setWrite t req false) s = .next (settled (cmdStart (mirrorSetting (setAccept { u with
            settings := mapSet u.settings (setId u) ws }) (setId u) (some ws)) setCmd 2 []))) ∧
        exec (.setWrite t req true) s = .next (settled (setRefuse u 0x2)) ∧
        exec (.setDelete t req) s = .next (settled (cmdStart (mirrorSetting (setAccept { u with
          settings := mapDel u.settings (setId u) }) (setId u) none) setCmd 4 []))) ∧
      (setId u = 0 ∨ 0xFBFF < setId u → ∀ full,
        exec (.setWrite t req full) s = .next (settled (setRefuse u 0x1)) ∧
          exec (.setDelete t req) s = .next (settled (setRefuse u 0x1))) ∧
      (∀ ws, ws = (setRecord u (setId u)).getD [] →
        exec (.setRead t ⟨req, 0⟩) s = .next (settled (cmdStart (setAccept u) setCmd 1 (setPuts ws))) ∧
        ∀ met vs w, met ≠ 0 → drawWords (seedFault u 1) ws.length = (vs, w) →
          exec (.setRead t ⟨req, met⟩) s = .next (settled (cmdStart (setAccept w) setCmd 1 (setPuts vs))))) ∧
    (cmdBusy (advance s t) setCmd = true → cmdBusy u setCmd = true →
      ∀ met full i, i ∈ [Instr.setRead t ⟨req, met⟩, .setWrite t req full, .setDelete t req] →
        exec i s = .next (settled (setRefuse u 0x6)))

/-! ## The host interface -/

/-- A tail written within its ring or beyond it, the descriptors of a TX ring that is granted, behind what frees plots at the same
moment, its stalls and late completions, a delivery of an RX ring and the end of a hold-off. -/
def Obligations.HostRingCommandsComplete : Prop :=
  ∀ (s : State) (t n : Nat), n < 16 →
    (∀ req v u, pf0Reaches (advance s t) req (htxPage n) → bit s (htxPage n + 0x24) 0 = false →
      tailBad (advance s t) (txRing n) (v % 65536) = false → u = softWord (advance s t) req (txRing n + 0xC) (v % 2 ^ 24) →
      exec (.tailWrite t req true n v) s = .next (settled
        (if ringTail s (txRing n) = ringHead u (txRing n) then { u with heldFrom := mapSet u.heldFrom (16 + n) u.now } else u))) ∧
    (∀ req v, pf0Reaches (advance s t) req (hrxPage n) → bit s (hrxPage n + 0x24) 0 = false →
      tailBad (advance s t) (rxRing n) (v % 65536) = true →
      exec (.tailWrite t req false n v) s =
        .next (settled (raisePlain (setBit (advance s t) (rxRing n + 0x14) 2) (hrxPage n) 0x3B (16 + n)))) ∧
    (∀ req v, pf0Reaches (advance s t) req (hrxPage n) → bit s (hrxPage n + 0x24) 0 = false →
      tailBad (advance s t) (rxRing n) (v % 65536) = false →
      exec (.tailWrite t req false n v) s =
        .next (settled (noteStuck (softWord (advance s t) req (rxRing n + 0xC) (v % 2 ^ 24)) (128 + n)))) ∧
    (∀ form ts tag bytes cpl bad i, i = Instr.htxDescriptor t n form ts tag bytes cpl bad → coreUp s = true →
      (mustYield (advance s t) i = false →
        exec i s = .next (settled (txDescriptor (advance s t) n form ts tag bytes cpl bad)) ∧
        (txGranted (advance s t) n = true → txLenGood form bytes.length = false →
          exec i s = .next (settled (txStatus (txTaken { advance s t with rrCell := mapSet s.rrCell 65536 n } n) n 3)))) ∧
      (mustYield (advance s t) i = true → exec i s = .next (settled { advance s t with yields := s.yields ++ [i] }))) ∧
    (coreUp s = true → txMay s n = true → mapGet 0 s.heldFrom (16 + n) + stallTime s ≤ (advance s t).now →
      exec (.hostqStallExpiry t n) s = .next (settled (txStall (advance s t) n))) ∧
    (coreUp s = true → s.htxStalled.contains n = true →
      exec (.lateCompletion t n) s = .next (settled (incSat (advance s t) (pciePage + 0x64)))) ∧
    (∀ c addr bufLen, coreUp s = true → mapGet? s.inFlight (128 + n) = some c → pcieUp s = true → running s (hrxPage n) = true →
      ringHead s (rxRing n) ≠ ringTail s (rxRing n) → (getFrame s c.frame).committed = true →
      exec (.hrxDeliver t n addr bufLen) s = .next (settled (rxDeliver (advance s t) n addr bufLen))) ∧
    (∀ v, coreUp s = true → mapGet? s.hrxSignal n = some v → v % 2 = 1 → v / 2 + holdoff s n ≤ (advance s t).now →
      exec (.msixHoldoffEnd t n) s = .next (settled (rxSignal (advance s t) n)))

/-! ## Links and remote accesses -/

/-- A link trains with a peer of another number and shows a clash with its own; frames, acknowledgements, requests to resend and
credits act on a trained link; a quiet link resends, a frame too long unacknowledged retrains it, and a relayed frame that
waited too long is dropped. -/
def Obligations.LinkCommandsComplete : Prop :=
  ∀ (s : State) (t k : Nat), coreUp s = true → linkPresent s k = true →
    (linkMay s k = true → bit s (lnkStat k) 23 = false → bit s (lnkStat k) 21 = false →
      exec (.ebderLinkTrained t k s.fuses.devId) s = .next (settled (raisePlain (setBit (setFld (advance s t) (lnkStat k) 5 0
        s.fuses.devId) (lnkStat k) 21) (linkPage k) 0x38 (k + 2)))) ∧
    (∀ peer, exec (.ebderLinkTrained t k peer) s = .next (settled (linkTrain (advance s t) k peer))) ∧
    (∀ peer, bit s (lnkStat k) 21 = true → exec (.idClashRetry t k peer) s = .next (settled (linkTrain (advance s t) k peer))) ∧
    (linkTrained s k = true →
      (∀ bs, (mustYield (advance s t) (.ebderFrameReceived t k bs) = false →
          exec (.ebderFrameReceived t k bs) s = .next (settled (linkReceive (advance s t) k bs))) ∧
        (mustYield (advance s t) (.ebderFrameReceived t k bs) = true → exec (.ebderFrameReceived t k bs) s =
          .next (settled { advance s t with yields := s.yields ++ [.ebderFrameReceived t k bs] }))) ∧
      (∀ num, exec (.ebderAck t k num) s = .next (settled (linkGo (linkCover (advance s t) k num) k)) ∧
        exec (.ebderNak t k num) s =
          .next (settled (linkGo (resend (linkCover (incSat (advance s t) (linkPage k + 0x54)) k num) k) k))) ∧
      (∀ pool cls limit, exec (.ebderCredit t k pool cls limit) s = .next (settled (linkCreditIn (advance s t) k pool cls limit))) ∧
      ((getLnk s k).replay ≠ [] → (getLnk s k).quietFrom + usTicks 20 ≤ (advance s t).now →
        exec (.replayTimeout t k) s = .next (settled (resend (advance s t) k)))) ∧
    (retrainDue (advance s t) k = true →
      exec (.linkRetrain t k true) s =
        .next (settled (raisePlain (incSat (linkLose (advance s t) k) (linkPage k + 0x5C)) (linkPage k) 0x38 k))) ∧
    (∀ f at0 rest, (getLnk s k).relay = (f, at0) :: rest →
      at0 + usTicks (clamp 10 10000 (fld s (routePage + 0x44) 13 0)) ≤ (advance s t).now →
      exec (.relayWaitExpiry t k) s = .next (settled (relayExpiry (advance s t) k)))

/-- An access of this device's own registers is a register access of the host's function; one to another device fails on a device
without links; requests of other devices, in the order of issue of each requester, responses, timeouts and interrupt frames are
served. -/
def Obligations.RemoteAccessCompletes : Prop :=
  ∀ (s : State) (t : Nat),
    (∀ pf addr data, 2 ≤ powerState s →
      exec (.remoteAccess t pf s.fuses.devId true addr data true) s =
        .next (settled (writeReg (advance s t) (reqNo s.fuses.devId pf) addr data true)) ∧
      exec (.remoteAccess t pf s.fuses.devId false addr data true) s =
        .next (settled (readFor (advance s t) (reqNo s.fuses.devId pf) addr))) ∧
    (∀ pf dev addr data, 2 ≤ powerState s → dev ≠ s.fuses.devId → s.fuses.xTier = false →
      exec (.remoteAccess t pf dev false addr data true) s =
        .next (settled (remoteFail (advance s t) (reqNo s.fuses.devId pf) dev false 4))) ∧
    (coreUp s = true → s.fuses.xTier = true →
      (∀ src pf tag addr data, holdsUp s (reqNo src pf) = false → exec (.regReqReceived t src pf tag true addr data) s =
        .next (settled (sendResponse (writeNow (advance s t) (reqNo src pf) addr data true) src tag 0 0))) ∧
      (∀ src pf tag write addr data, holdsUp s (reqNo src pf) = true → exec (.regReqReceived t src pf tag write addr data) s =
        .next (settled { advance s t with held := s.held ++
          [{ requester := reqNo src pf, write := write, addr := addr, value := data, whole := true, tag := some tag }] })) ∧
      (∀ a data, s.remoteAcc = [a] → a.write = false →
        exec (.regRspReceived t a.dev a.tag 0 data) s = .next (settled { advance s t with
          remoteAcc := [], hostRead := mapSet s.hostRead a.requester { value := BitVec.ofNat 24 data, ur := false } })) ∧
      (∀ a, s.remoteAcc = [a] → a.since + popGuard s + usTicks 150 ≤ (advance s t).now →
        exec (.remoteAccessTimeout t a.tag) s =
          .next (settled (remoteFail { advance s t with remoteAcc := [] } a.requester a.dev a.write 3))) ∧
      (∀ src, bit s (pciePage + 0x4C + 4 * (src / 24)) (src % 24) = false → bit s (pciePage + 0x40) 23 = false →
        exec (.intFrameReceived t src) s = .next (settled (setBit (advance s t) (pciePage + 0x4C + 4 * (src / 24)) (src % 24)))))

/-! ## Pairing -/

/-- The lease is granted by the pin and ends, behind a grant of the same moment; the guard time makes a waiting standby the
primary, behind a PAIR frame of the same moment; and a primary hands over. -/
def Obligations.LeaseCommandsComplete : Prop :=
  ∀ (s : State) (t : Nat), coreUp s = true → s.fuses.xTier = true →
    (∀ low high req, 1000 ≤ low → 1000 ≤ high → exec (.leaseGrant t true low high req) s = .next (settled (leaseGrant (advance s t)))) ∧
    (∀ low high req, low < 1000 ∨ high < 1000 → exec (.leaseGrant t true low high req) s = .next (settled (advance s t))) ∧
    (∀ low high req, pf0Reaches (advance s t) req pairPage →
      exec (.leaseGrant t false low high req) s = .next (settled (leaseGrant (advance s t)))) ∧
    (∀ e, s.pair.leaseEnd = some e → e ≤ (advance s t).now → mustYield (advance s t) (.leaseExpiry t) = false →
      exec (.leaseExpiry t) s = .next (settled (pairAfter (pairQuit (incSat (clrBit { advance s t with
        pair := { s.pair with leaseEnd := none } } pairStat 17) (pairPage + 0x5C)) 1)))) ∧
    (mustYield (advance s t) (.leaseExpiry t) = true →
      exec (.leaseExpiry t) s = .next (settled { advance s t with yields := s.yields ++ [.leaseExpiry t] })) ∧
    (∀ g, s.pair.guardAt = some g → pairOn s = true → pairState s = 2 → g + guardTime s ≤ (advance s t).now →
      leaseValid (advance s t) = true → inContact (advance s t) = false → mustYield (advance s t) (.guardExpiry t) = false →
      exec (.guardExpiry t) s = .next (settled (noteReclaim (pairEnter (advance s t) 3)))) ∧
    (∀ req, pf0Reaches (advance s t) req pairPage → pairOn s = true →
      exec (.pairHandover t req) s = .next (settled (pairAfter (pairQuit (advance s t) 3)))) ∧
    (pairOn s = true → exec (.reclaimReceived t) s = .next (settled (pairAfter (pairQuit (advance s t) 4))))

/-- The frames and mirrored items of the peer, the contact with it, the reclaim, LEASE_OUT and HEALTHY. -/
def Obligations.PairingEventsComplete : Prop :=
  ∀ (s : State) (t : Nat), coreUp s = true → s.fuses.xTier = true →
    (pairOn s = true → s.pair.sentAt + usTicks 100 ≤ (advance s t).now →
      exec (.pairFrameSend t) s = .next (settled (sendPair (advance s t) false))) ∧
    (∀ st prim lease peer, pairOn s = true → linkTrained s (pairLink s) = true →
      exec (.pairFrameReceived t st prim lease peer) s = .next (settled (pairHeard (advance s t) st prim lease peer))) ∧
    (∀ h, s.pair.heardAt = some h → h + msTicks 1 ≤ (advance s t).now →
      exec (.contactTimeout t) s = .next (settled (contactLost (advance s t)))) ∧
    (∀ h, s.pair.holdFrom = some h → reclaimReady (advance s t) = true →
      h + msTicks (fld s (pairPage + 0x44) 15 0) ≤ (advance s t).now →
      exec (.reclaimHoldExpiry t) s = .next (settled (sendPair (setBit { advance s t with
        pair := { s.pair with holdFrom := none } } pairEvents 4) true))) ∧
    (∀ i v flag, pairOn s = true →
      exec (.mirrorReceived t 0 i v flag) s = .next (settled (writeSlot (advance s t) i v (flag == 1))) ∧
        exec (.mirrorReceived t 3 i v flag) s = .next (settled { advance s t with tick := v, tickAt := (advance s t).now }) ∧
        exec (.mirrorReceived t 4 i v flag) s =
          .next (settled (noteReclaim (setBit (setBit (advance s t) pairStat 19) pairEvents 0)))) ∧
    (pairOn s = true → bit s pairStat 18 = true → s.pair.toggledAt + msTicks (leaseMs s) / 4 ≤ (advance s t).now →
      exec (.leaseOutToggle t) s = .next (settled (leaseToggle (advance s t)))) ∧
    exec (.healthyRestored t) s = .next (settled (refreshHealth (advance s t)))

/-! ## Power and reset -/

/-- VBAT comes and goes, the core supply becomes good without a vote, its wait ends, behind a first heartbeat of the same moment,
and is tried again, and it is removed. -/
def Obligations.SupplyCommandsComplete : Prop :=
  ∀ (s : State) (t d : Nat) (boot : BootMeets),
    exec (.vbatPowerOff t) s = .next (settled (vbatOff (advance s t))) ∧
    (powerState s = 0 → exec (.vbatPowerOn t) s = .next (settled (vbatOn (advance s t))) ∧
      powerState (vbatOn (advance s t)) = 1 ∧
      ∀ p, p ∈ busPorts s.fuses → mapGet 0 (vbatOn (advance s t)).trxMode p = 2) ∧
    (∀ u, u = { advance s t with power := { s.power with supplyGood := true } } →
      ((powerState s = 1 ∨ powerState s = 2) → powerReq s = true → s.power.refLost = false →
        exec (.coreSupplyGood t boot) s = .next (settled (Machine.boot u boot))) ∧
      (powerReq s = false → exec (.coreSupplyGood t boot) s = .next (settled u))) ∧
    (∀ u0, d < 2 → (getSup s d).waitFrom = some u0 → votes (getSup s d) = true → u0 + msTicks 100 ≤ (advance s t).now →
      mustYield (advance s t) (.pgoodTimeout t d) = false →
      exec (.pgoodTimeout t d) s = .next (settled (pgoodTimeout (advance s t) d))) ∧
    (d < 2 → mustYield (advance s t) (.pgoodTimeout t d) = true →
      exec (.pgoodTimeout t d) s = .next (settled { advance s t with yields := s.yields ++ [.pgoodTimeout t d] })) ∧
    (∀ u0, d < 2 → (getSup s d).silentTo = some u0 → u0 ≤ (advance s t).now →
      exec (.voteRetry t d) s =
        .next (settled (putSup (advance s t) d { getSup s d with silentTo := none, waitFrom := some (advance s t).now }))) ∧
    (coreUp s = true → s.power.goodbyeAt = none →
      exec (.coreSupplyRemoved t) s =
        .next (settled (brownOut { advance s t with power := { s.power with supplyGood := false } } 0)))

/-- Resets and standby: WARM with its code, a STANDBY with or without FORCE, the automatic entry once its conditions have lasted
and behind what asks for a region at the same moment, its end and its hold. A core supply that fails and a lost reference clock in
ACTIVE or PARTIAL are brown-outs; the clock that returns boots a core that waited for it; PERST_N and the PCIe link. -/
def Obligations.StandbyWarmAndBrownOutComplete : Prop :=
  (∀ (s : State) (t req : Nat) (boot : BootMeets),
      (pf0Reaches (advance s t) req pwrPage → fld s (pwrPage + 0x48) 23 12 = 0x3C3 →
        exec (.pwrWarm t req boot) s = .next (settled (Machine.boot (warmReset (wr (advance s t) (pwrPage + 0x48) 0)) boot))) ∧
      (pf0Reaches (advance s t) req pwrPage → fld s (pwrPage + 0x48) 23 12 ≠ 0x3C3 →
        exec (.pwrWarm t req boot) s = .next (settled (setBit (wr (advance s t) (pwrPage + 0x48) 0) (pwrPage + 0x50) 2))) ∧
      (pf0Reaches (advance s t) req pwrPage →
        exec (.pwrStandby t req true) s = .next (settled (standbyCommand (wr (advance s t) (pwrPage + 0x48) 0) true)) ∧
          exec (.pwrStandby t req false) s = .next (settled (standbyCommand (wr (advance s t) (pwrPage + 0x48) 0) false))) ∧
      (coreUp s = true → bit s (pwrPage + 0x44) 23 = true → clustersAsleep s = true → [0, 1, 2, 3].all (parked s) = true →
        heldFor (advance s t) 4 (msTicks (max 10 (fld s (pwrPage + 0x44) 11 0))) = true →
        bit s (pwrPage + 0x40) 20 = false → s.power.goodbyeAt = none → mustYield (advance s t) (.autoStandbyExpiry t) = false →
        exec (.autoStandbyExpiry t) s = .next (settled (entryBegin (advance s t) 0))) ∧
      (mustYield (advance s t) (.autoStandbyExpiry t) = true →
        exec (.autoStandbyExpiry t) s = .next (settled { advance s t with yields := s.yields ++ [.autoStandbyExpiry t] })) ∧
      (coreUp s = true → bit s (pwrPage + 0x40) 20 = true →
        exec (.standbyPagesStopped t) s = .next (settled (entryEnd (advance s t)))) ∧
      (∀ g, s.power.goodbyeAt = some g → g + msTicks 50 ≤ (advance s t).now → s.power.supplyGood = true → powerReq s = true →
        exec (.standbyHoldExpiry t boot) s =
          .next (settled (Machine.boot { advance s t with power := { s.power with nextCause := 6 } } boot)))) ∧
  (∀ (s : State) (t supply : Nat) (boot : BootMeets),
      (2 ≤ powerState s →
        exec (.brownOut t supply) s =
          .next (settled (brownOut { advance s t with power := { s.power with supplyGood := false } } supply)) ∧
        exec (.refclkLoss t) s = .next (settled (brownOut { advance s t with power := { s.power with refLost := true } } 2))) ∧
      (s.power.refLost = true → powerState s = 2 → s.power.supplyGood = true → powerReq s = true →
        exec (.refclkRestored t boot) s =
          .next (settled (Machine.boot { advance s t with power := { s.power with refLost := false } } boot))) ∧
      exec (.perstAssert t) s = .next (settled (perstAssert (advance s t))) ∧
      exec (.perstRelease t) s = .next (settled { advance s t with power := { s.power with perst := false } }) ∧
      (s.power.perst = false → 2 ≤ powerState s →
        exec (.pcieLinkUp t) s = .next (settled (noteHeld (pcieTrained (setBit (advance s t) (pciePage + 0x40) 23))))) ∧
      exec (.pcieLinkDown t) s = .next (settled (noteHeld (setFld (advance s t) (pciePage + 0x40) 23 18 0))))

/-! ## Rules of the spec in their own words -/

/-- R3: a page that is absent in the variant reads zero in every slot and ignores writes. -/
def Obligations.AbsentPageReadsZeroAndIgnoresWrites : Prop :=
  ∀ (s : State) (t req a v : Nat) (whole : Bool), kindOf s.fuses (pageOf a) = 0 →
    readReg s a = (0, s) ∧ exec (.registerWrite t req a v whole) s = .next (advance s t)

/-- R113: a read of FUR_POP on a furrow that holds a committed item removes the head item, places its words in FUR_POPDATA0
onward, and answers VALID, POISON, LEN and REMAIN; no other register and no other furrow changes. -/
def Obligations.FurPopReturnsTheHead : Prop :=
  ∀ (s : State) (t req page p : Nat) (it : List (BitVec 28)) (rest : List (List (BitVec 28))),
    page % 0x1000 = 0 → popGroup (kindOf s.fuses page) = some p → bootReach (advance s t) page = true → holdsUp s req = false →
    (getFur s page).items = it :: rest → (getFur s page).waits = [] → (∀ p ∈ s.stalled, p.page ≠ page) → it.length ≤ 8 →
    rest.length < 0x10000 → s.remoteIn = [] →
    ∃ u w, exec (.furPop t req page) s = .next (settled u) ∧
      mapGet? u.hostRead req = some { value := BitVec.ofNat 24 w, ur := false } ∧
      bitsOf w 23 23 = 1 ∧ bitsOf w 22 22 = b2n (it.any furPoison || (getFur s page).failed) ∧ bitsOf w 19 16 = it.length ∧
      bitsOf w 15 0 = rest.length ∧ getFur u page = { getFur s page with items := rest, taken := 0, failed := false } ∧
      (∀ i (h : i < it.length), rd u (page + p + 4 + 4 * i) = furData it[i]) ∧
      (∀ a, (∀ i, i < it.length → a ≠ page + p + 4 + 4 * i) → rd u a = rd s a) ∧
      (∀ q, q ≠ page → getFur u q = getFur s q)

/-- R184: a hedgerow rule matches when (HK and MASK) equals (VALUE and MASK); of the matching valid rules the one with the lowest
index gives the verdict; without one HDG_CTRL.DEFAULT gives it. -/
def Obligations.LowestMatchingRuleGivesTheVerdict : Prop :=
  ∀ (s : State) (r : Nat) (hk : List Nat), storesWf s →
    (∀ e : TEntry, ruleMatches e hk = true ↔ ∀ k, k < 8 → hk.getD k 0 &&& tw e (8 + k) = tw e k &&& tw e (8 + k)) ∧
    (∀ i e, i < 0x80000 → tLive s (hdgTable r) 0 i = some e → ruleMatches e hk = true →
      (∀ j e', j < i → tLive s (hdgTable r) 0 j = some e' → ruleMatches e' hk = false) →
      matchRule s r hk = some (i, e) ∧
        ∀ bad, actsQuar s r 0 i bad = false →
          (hedge s r hk bad).1 = (if 3 < twf e 16 23 21 then 1 else twf e 16 23 21)) ∧
    ((∀ j e, tLive s (hdgTable r) 0 j = some e → j < 0x80000 → ruleMatches e hk = false) →
      matchRule s r hk = none ∧ ∀ bad,
        (hedge s r hk bad).1 = b2n (effBit s (hedgerowPage r) (hedgerowPage r + 0x40) 0))

/-- R367: the LIN checksum is the inverted 8-bit sum with end-around carry, over the data bytes, and over the PID too in the
enhanced form, which the identifiers 0x3C and 0x3D never take and the others take by ENH. -/
def Obligations.LinChecksumIsTheInvertedSum : Prop :=
  ∀ (s : State) (m i : Nat) (data : List Byte),
    (linEnhanced s m i = true ↔ i ≠ 0x3C ∧ i ≠ 0x3D ∧ effBit s (linPage m) (linCfg m i) 21 = true) ∧
    ∃ sum, sum = (if linEnhanced s m i then linPid i else 0) + (data.map (·.toNat)).sum ∧
      linCheck s m i data ≤ 255 ∧ (sum + linCheck s m i data) % 255 = 0 ∧ (linCheck s m i data = 255 ↔ sum = 0)

/-- The parameters of R509 and the check value of each polynomial over the characters 1 to 9; no other polynomial. -/
def Obligations.CheckValuesOfEveryPolynomial : Prop :=
  (List.range 8).map (fun k => (cvPoly k).map (fun p => (p.width, p.poly, p.init, p.refl, p.xorOut))) =
    [some (8, 0x1D, 0xFF, false, 0xFF), some (8, 0x2F, 0xFF, false, 0xFF), some (16, 0x1021, 0xFFFF, false, 0),
      some (32, 0x04C11DB7, 0xFFFFFFFF, true, 0xFFFFFFFF), some (32, 0xF4ACFB13, 0xFFFFFFFF, true, 0xFFFFFFFF), none, none, none] ∧
  (List.range 5).map (fun k => (cvPoly k).map (fun p => crcOf p ((List.range 9).map (0x31 + ·)))) =
    [some 0x4B, some 0xDF, some 0x29B1, some 0xCBF43926, some 0x1697D06A]

/-- R515: a write to CV_DATA while no computation runs feeds nothing; the register takes the value and CV_STAT.STRAY is set. On a
locked page the write is a lock violation and the register keeps its value. -/
def Obligations.StrayCheckValueWordIsFlagged : Prop :=
  ∀ (s : State) (t req u v : Nat), u < 4 → pf0Reaches (advance s t) req (cvPage u) → mapGet? s.cvRun u = none →
    (bit s (cvPage u + 0x24) 0 = false → exec (.cvDataWrite t req u v) s =
      .next (settled (cvBoundary (setBit (wr (advance s t) (cvPage u + 0x4C) (v % 2 ^ 24)) (cvPage u + 0x54) 3) u))) ∧
    (bit s (cvPage u + 0x24) 0 = true → exec (.cvDataWrite t req u v) s =
      .next (settled (cvBoundary (lockViolation (advance s t) req (cvPage u + 0x4C)) u)))

/-- R374: the data words of a LIN buffer take software writes while READY is 0 and ignore them while READY is 1. -/
def Obligations.LinBufferWordsFollowReady : Prop :=
  ∀ (s : State) (t req m i k v : Nat), m < 24 → i < 64 → k < 3 → linPresent s.fuses m = true → pf0Reaches (advance s t) req (linPage m) →
    (bit s (linBufStat m i) 0 = true →
      exec (.registerWrite t req (linPage m + 0x200 + 16 * i + 4 * k) v true) s = .next (settled (advance s t))) ∧
    (bit s (linBufStat m i) 0 = false →
      exec (.registerWrite t req (linPage m + 0x200 + 16 * i + 4 * k) v true) s =
        .next (settled (softWord (advance s t) req (linPage m + 0x200 + 16 * i + 4 * k)
          (if k = 2 then v % 2 ^ 24 / 256 * 256 else v % 2 ^ 24))))
end

