-- ==== Sys2Proof/Laws/Maps.lean ====
section
/-! SUPPORT. The sparse maps of State: what a read gives after a write, and that every map operation keeps the keys rising. -/
namespace Sys2Proof.Machine

variable {α : Type}

@[simp] theorem mapGet?_nil (k : Nat) : mapGet? ([] : NMap α) k = none := rfl

theorem mapGet?_cons (j : Nat) (v : α) (m : NMap α) (k : Nat) :
    mapGet? ((j, v) :: m) k = if j = k then some v else mapGet? m k := rfl

/-- A key reads as what was written at it. -/
@[simp] theorem mapGet?_mapSet_self (m : NMap α) (k : Nat) (v : α) : mapGet? (mapSet m k v) k = some v := by
  induction m with
  | nil => simp [mapSet, mapGet?_cons]
  | cons x m ih =>
    obtain ⟨j, w⟩ := x
    unfold mapSet
    split_ifs with h1 h2 <;> simp [mapGet?_cons, *]

/-- Every other key reads as before. -/
theorem mapGet?_mapSet_ne (m : NMap α) {k j : Nat} (v : α) (h : j ≠ k) : mapGet? (mapSet m k v) j = mapGet? m j := by
  induction m with
  | nil => simp [mapSet, mapGet?_cons, Ne.symm h]
  | cons x m ih =>
    obtain ⟨i, w⟩ := x
    unfold mapSet
    split_ifs with h1 h2
    · simp [mapGet?_cons, Ne.symm h]
    · subst h2; simp [mapGet?_cons, Ne.symm h]
    · simp [mapGet?_cons, ih]

@[simp] theorem mapGet?_mapDel_self (m : NMap α) (k : Nat) : mapGet? (mapDel m k) k = none := by
  induction m with
  | nil => rfl
  | cons x m ih =>
    obtain ⟨j, w⟩ := x
    unfold mapDel
    split_ifs with h1
    · exact ih
    · simp [mapGet?_cons, h1, ih]

theorem mapGet?_mapDel_ne (m : NMap α) {k j : Nat} (h : j ≠ k) : mapGet? (mapDel m k) j = mapGet? m j := by
  induction m with
  | nil => rfl
  | cons x m ih =>
    obtain ⟨i, w⟩ := x
    unfold mapDel
    split_ifs with h1
    · subst h1; simp [mapGet?_cons, ih, Ne.symm h]
    · simp [mapGet?_cons, ih]

/-- Rising keys, as a property of pairs. -/
theorem mapRising_iff (m : NMap α) : mapRising m = true ↔ m.Pairwise (fun x y => x.1 < y.1) := by
  induction m with
  | nil => simp [mapRising]
  | cons x m ih =>
    cases m with
    | nil => simp [mapRising]
    | cons y m =>
      rw [mapRising, Bool.and_eq_true, ih, decide_eq_true_iff, List.pairwise_cons (a := x)]
      constructor
      · rintro ⟨h, k⟩
        refine ⟨fun z hz => ?_, k⟩
        rcases List.mem_cons.mp hz with rfl | hz
        · exact h
        · exact h.trans ((List.pairwise_cons.mp k).1 z hz)
      · rintro ⟨h, k⟩
        exact ⟨h y (List.mem_cons_self ..), k⟩

theorem mem_mapSet {m : NMap α} {k : Nat} {v : α} {x : Nat × α} (h : x ∈ mapSet m k v) : x = (k, v) ∨ x ∈ m := by
  induction m with
  | nil => exact Or.inl (by simpa [mapSet] using h)
  | cons y m ih =>
    obtain ⟨j, w⟩ := y
    unfold mapSet at h
    split_ifs at h with h1 h2
    · simpa using h
    · rcases List.mem_cons.mp h with h | h
      · exact Or.inl h
      · exact Or.inr (List.mem_cons_of_mem _ h)
    · rcases List.mem_cons.mp h with h | h
      · exact Or.inr (by simp [h])
      · exact (ih h).imp_right (List.mem_cons_of_mem _)

theorem mem_mapDel {m : NMap α} {k : Nat} {x : Nat × α} (h : x ∈ mapDel m k) : x ∈ m := by
  induction m with
  | nil => exact h
  | cons y m ih =>
    obtain ⟨j, w⟩ := y
    unfold mapDel at h
    split_ifs at h with h1
    · exact List.mem_cons_of_mem _ (ih h)
    · rcases List.mem_cons.mp h with h | h
      · exact h ▸ List.mem_cons_self ..
      · exact List.mem_cons_of_mem _ (ih h)

/-- A write keeps the keys rising. -/
theorem mapRising_mapSet {m : NMap α} (h : mapRising m = true) (k : Nat) (v : α) : mapRising (mapSet m k v) = true := by
  rw [mapRising_iff] at *
  induction m with
  | nil => simp [mapSet]
  | cons y m ih =>
    obtain ⟨j, w⟩ := y
    obtain ⟨h1, h2⟩ := List.pairwise_cons.mp h
    unfold mapSet
    split_ifs with c1 c2
    · refine List.pairwise_cons.mpr ⟨fun z hz => ?_, h⟩
      rcases List.mem_cons.mp hz with rfl | hz
      · exact c1
      · exact c1.trans (h1 z hz)
    · subst c2; exact List.pairwise_cons.mpr ⟨h1, h2⟩
    · refine List.pairwise_cons.mpr ⟨fun z hz => ?_, ih h2⟩
      rcases mem_mapSet hz with rfl | hz
      · show j < k; omega
      · exact h1 z hz

/-- A deletion keeps the keys rising. -/
theorem mapRising_mapDel {m : NMap α} (h : mapRising m = true) (k : Nat) : mapRising (mapDel m k) = true := by
  rw [mapRising_iff] at *
  induction m with
  | nil => exact h
  | cons y m ih =>
    obtain ⟨j, w⟩ := y
    obtain ⟨h1, h2⟩ := List.pairwise_cons.mp h
    unfold mapDel
    split_ifs with c1
    · exact ih h2
    · exact List.pairwise_cons.mpr ⟨fun z hz => h1 z (mem_mapDel hz), ih h2⟩

/-- A write that lists no default keeps the keys rising. -/
theorem mapRising_mapPut [DecidableEq α] {m : NMap α} (h : mapRising m = true) (d : α) (k : Nat) (v : α) :
    mapRising (mapPut d m k v) = true := by
  unfold mapPut
  split_ifs
  · exact mapRising_mapDel h k
  · exact mapRising_mapSet h k v

/-- Leaving entries out keeps the keys rising. -/
theorem mapRising_filter {m : NMap α} (h : mapRising m = true) (p : Nat × α → Bool) : mapRising (m.filter p) = true := by
  rw [mapRising_iff] at *
  exact h.filter p

/-- A sparse map with a default reads as what was written, and elsewhere as before. -/
theorem mapGet_mapPut [DecidableEq α] (d : α) (m : NMap α) (k j : Nat) (v : α) :
    mapGet d (mapPut d m k v) j = if j = k then v else mapGet d m j := by
  unfold mapGet mapPut
  split_ifs with h1 h2 h2
  · subst h2; simp [h1]
  · rw [mapGet?_mapDel_ne m h2]
  · subst h2; simp
  · rw [mapGet?_mapSet_ne m v h2]

/-- A write keeps a canonical map canonical. -/
theorem mapCanon_mapPut [DecidableEq α] {d : α} {m : NMap α} (h : mapCanon d m) (k : Nat) (v : α) :
    mapCanon d (mapPut d m k v) := by
  refine ⟨mapRising_mapPut h.1 d k v, fun e he => ?_⟩
  unfold mapPut at he
  split_ifs at he with c
  · exact h.2 e (mem_mapDel he)
  · rcases mem_mapSet he with rfl | he
    · exact c
    · exact h.2 e he

/-- Leaving entries out keeps a canonical map canonical. -/
theorem mapCanon_filter {d : α} {m : NMap α} (h : mapCanon d m) (p : Nat × α → Bool) : mapCanon d (m.filter p) :=
  ⟨mapRising_filter h.1 p, fun e he => h.2 e (List.mem_filter.mp he).1⟩

/-- The map that lists nothing is canonical. -/
theorem mapCanon_nil (d : α) : mapCanon d ([] : NMap α) := ⟨rfl, by simp⟩

/-- Writes one after another keep a canonical map canonical. -/
theorem mapCanon_foldl [DecidableEq α] {β : Type} {d : α} {m : NMap α} (h : mapCanon d m) (xs : List β) (k : β → Nat) (v : β → α) :
    mapCanon d (xs.foldl (fun m x => mapPut d m (k x) (v x)) m) := by
  induction xs generalizing m with
  | nil => exact h
  | cons x xs ih => exact ih (mapCanon_mapPut h _ _)

/-- A change of values keeps the keys rising. -/
theorem mapRising_map {m : NMap α} (h : mapRising m = true) {f : Nat × α → Nat × α} (k : ∀ e, (f e).1 = e.1) :
    mapRising (m.map f) = true := by
  rw [mapRising_iff] at *
  rw [List.pairwise_map]
  exact h.imp fun {a b} c => by rw [k a, k b]; exact c

end Sys2Proof.Machine
end

