-- ==== Sys2Proof/Laws/Keeps.lean ====
section
/-! SUPPORT. What every operation keeps: the variant and the queue of commands stand, time and the counter of free values do
not run back, what has left the device stays sent, the fuses of the life cycle and the epoch only grow, and the
stores keep their canonical form. The other files Keeps* say it of each operation. -/
namespace Sys2Proof.Machine

/-- What an operation keeps on its way from `s` to `t`. -/
structure Keeps (s t : State) : Prop where
  fuses : t.fuses = s.fuses
  pending : t.pending = s.pending
  now : s.now ≤ t.now
  freeCtr : s.freeCtr ≤ t.freeCtr
  outbox : s.outbox <:+ t.outbox
  stores : storesWf s → storesWf t
  lc : s.fuseLc ≤ t.fuseLc
  epoch : s.fuseEpoch ≤ t.fuseEpoch

theorem keeps_self (s : State) : Keeps s s := ⟨rfl, rfl, le_refl _, le_refl _, List.suffix_refl _, id, le_refl _, le_refl _⟩

theorem Keeps.trans {a s t : State} (h : Keeps a s) (k : Keeps s t) : Keeps a t :=
  ⟨k.1.trans h.1, k.2.trans h.2, h.3.trans k.3, h.4.trans k.4, h.5.trans k.5, fun w => k.6 (h.6 w), h.7.trans k.7, h.8.trans k.8⟩

/-- What leaves these fields as they are keeps everything. -/
theorem keeps_same {a s t : State} (h : Keeps a s) (e1 : t.fuses = s.fuses) (e2 : t.pending = s.pending) (e3 : t.now = s.now)
    (e4 : t.freeCtr = s.freeCtr) (e5 : t.outbox = s.outbox) (e6 : t.regs = s.regs) (e7 : t.fuseLc = s.fuseLc)
    (e8 : t.fuseEpoch = s.fuseEpoch) (e9 : t.wide = s.wide) (e10 : t.tables = s.tables) (e11 : t.slots = s.slots)
    (e12 : t.frames = s.frames) : Keeps a t :=
  h.trans ⟨e1, e2, e3.ge, e4.ge, e5 ▸ List.suffix_refl _,
    fun w => by unfold storesWf regsWf at *; rw [e6, e1, e9, e10, e11, e12]; exact w, e7.ge, e8.ge⟩

/-- An update of the other fields keeps everything. -/
theorem keeps_update {a s : State} {f1} {f4} {f6} {f7} {f9} {f10} {f11} {f12} {f13} {f14} {f15} {f16} {f17} {f18}
    {f19} {f20} {f21} {f22} {f26} {f27} {f28} {f29} {f30} {f31} {f32} {f33} {f34} {f35} {f36} {f37} {f38} {f39} {f40}
    {f41} {f43} {f44} {f45} {f46} {f47} {f48} {f49} {f50} {f51} {f52} {f53} {f54} {f55} {f56} {f57} {f58} {f60} {f61}
    {f62} {f63} {f64} {f65} {f66} {f67} {f68} {f69} {f70} {f71} {f72} {f73} {f74} {f75} {f76} {f77} {f78} {f79} {f80}
    {f81} {f82} {f83} {f84} {f85} {f86} {f87} {f88} {f89} {f90} {f91} {f92} {f93} {f94} {f95} {f96} {f97} {f98} {f99}
    {f100} {f101} {f102} {f103} {f104} {f105} {f106} {f107} {f110} {f111} {f112} {f113} {f114} {f115} {f116} {f117}
    {f118} {f119} {f120} {f121} {f122} {f123} {f124} {f125} {f126} {f127} {f128} {f129} {f130} {f131} {f132} {f133}
    {f134} {f135} {f136} {f137} {f138} {f139} {f140}
    (h : Keeps a s) :
    Keeps a (State.mk s.pending f1 s.fuses s.now f4 s.regs f6 f7 s.wide f9 f10 f11 f12 f13 f14 f15 f16 f17 f18 f19 f20
      f21 f22 s.outbox s.freeCtr s.frames f26 f27 f28 f29 f30 f31 f32 f33 f34 f35 f36 f37 f38 f39 f40 f41 s.tables f43
      f44 f45 f46 f47 f48 f49 f50 f51 f52 f53 f54 f55 f56 f57 f58 s.slots f60 f61 f62 f63 f64 f65 f66 f67 f68 f69 f70
      f71 f72 f73 f74 f75 f76 f77 f78 f79 f80 f81 f82 f83 f84 f85 f86 f87 f88 f89 f90 f91 f92 f93 f94 f95 f96 f97 f98
      f99 f100 f101 f102 f103 f104 f105 f106 f107 s.fuseLc s.fuseEpoch f110 f111 f112 f113 f114 f115 f116 f117 f118
      f119 f120 f121 f122 f123 f124 f125 f126 f127 f128 f129 f130 f131 f132 f133 f134 f135 f136 f137 f138 f139 f140) :=
  keeps_same h rfl rfl rfl rfl rfl rfl rfl rfl rfl rfl rfl rfl

theorem keeps_ite {a s t : State} {c : Prop} [Decidable c] (h : Keeps a s) (k : Keeps a t) : Keeps a (if c then s else t) := by
  split <;> assumption

theorem keeps_foldl {α : Type} {a s : State} {xs : List α} {f : State → α → State} (h : Keeps a s)
    (k : ∀ s x, Keeps a s → Keeps a (f s x)) : Keeps a (xs.foldl f s) := by
  induction xs generalizing s with
  | nil => exact h
  | cons x xs ih => exact ih (k s x h)

theorem keeps_forEach {α : Type} {a s : State} {xs : List α} {f : State → α → State} (h : Keeps a s)
    (k : ∀ s x, Keeps a s → Keeps a (f s x)) : Keeps a (forEach xs s f) := keeps_foldl h k

theorem keeps_foldl_snd {α β : Type} {a : State} {p : β × State} {xs : List α} {f : β × State → α → β × State} (h : Keeps a p.2)
    (k : ∀ p x, Keeps a p.2 → Keeps a (f p x).2) : Keeps a (xs.foldl f p).2 := by
  induction xs generalizing p with
  | nil => exact h
  | cons x xs ih => exact ih (k p x h)

theorem keeps_fst {α : Type} {a t : State} {p : State × α} {x : α} (e : p = (t, x)) (h : Keeps a p.1) : Keeps a t := by
  subst e; exact h

theorem keeps_snd {α : Type} {a t : State} {p : α × State} {x : α} (e : p = (x, t)) (h : Keeps a p.2) : Keeps a t := by
  subst e; exact h

theorem keeps_thd {α β : Type} {a t : State} {p : α × β × State} {x : α} {y : β} (e : p = (x, y, t)) (h : Keeps a p.2.2) :
    Keeps a t := by
  subst e; exact h

theorem keeps_fourth {α β γ : Type} {a t : State} {p : α × β × γ × State} {x : α} {y : β} {z : γ} (e : p = (x, y, z, t))
    (h : Keeps a p.2.2.2) : Keeps a t := by
  subst e; exact h

/-! ## The primitive operations -/

/-- What replaces the stores alone, and keeps their canonical form. -/
theorem keeps_stores {a s t : State} (h : Keeps a s) (w : storesWf s → storesWf t) (e1 : t.fuses = s.fuses)
    (e2 : t.pending = s.pending) (e3 : t.now = s.now) (e4 : t.freeCtr = s.freeCtr) (e5 : t.outbox = s.outbox)
    (e7 : t.fuseLc = s.fuseLc) (e8 : t.fuseEpoch = s.fuseEpoch) : Keeps a t :=
  h.trans ⟨e1, e2, e3.ge, e4.ge, e5 ▸ List.suffix_refl _, w, e7.ge, e8.ge⟩

/-- A register word replaced: the memory stays in canonical form. -/
theorem keeps_wr {a s : State} {x v : Nat} (h : Keeps a s) : Keeps a (wr s x v) := by
  refine keeps_stores h (fun w => ⟨?_, w.2⟩) rfl rfl rfl rfl rfl rfl rfl
  obtain ⟨w1, w2⟩ := w.1
  unfold wr regsWf
  dsimp only
  split_ifs with c
  · exact ⟨mapRising_mapDel w1 _, fun e he => w2 e (mem_mapDel he)⟩
  · refine ⟨mapRising_mapSet w1 _ _, fun e he => ?_⟩
    rcases mem_mapSet he with rfl | he
    · exact c
    · exact w2 e he

theorem keeps_drawNat {a s : State} (h : Keeps a s) : Keeps a (drawNat s).2 :=
  h.trans ⟨rfl, rfl, le_refl _, Nat.le_succ _, List.suffix_refl _, id, le_refl _, le_refl _⟩

theorem keeps_drawBytes {a s : State} {n : Nat} (h : Keeps a s) : Keeps a (drawBytes s n).2 :=
  h.trans ⟨rfl, rfl, le_refl _, Nat.le_add_right _ _, List.suffix_refl _, id, le_refl _, le_refl _⟩

theorem keeps_send {a s : State} {p : Nat} {k : SentKind} {i : List Nat} {b : List Byte} (h : Keeps a s) :
    Keeps a (send s p k i b) :=
  h.trans ⟨rfl, rfl, le_refl _, le_refl _, List.suffix_cons _ _, id, le_refl _, le_refl _⟩

theorem keeps_advance {a s : State} {t : Nat} (h : Keeps a s) : Keeps a (advance s t) := by
  unfold advance
  split_ifs with c
  · exact h
  · exact h.trans ⟨rfl, rfl, (not_le.mp c).le, le_refl _, List.suffix_refl _, id, le_refl _, le_refl _⟩

end Sys2Proof.Machine
end

