-- ==== Sys2Proof/Laws/State.lean ====
section
/-! SUPPORT. What the named operations over State leave as it was, field by field, and the laws of register words and fields. -/
namespace Sys2Proof.Machine

variable (s : State)

/-! ## A register write -/

@[simp] theorem wr_pending (a v : Nat) : (wr s a v).pending = s.pending := rfl
@[simp] theorem wr_fuses (a v : Nat) : (wr s a v).fuses = s.fuses := rfl
@[simp] theorem wr_now (a v : Nat) : (wr s a v).now = s.now := rfl
@[simp] theorem wr_tbFrom (a v : Nat) : (wr s a v).tbFrom = s.tbFrom := rfl
@[simp] theorem wr_wide (a v : Nat) : (wr s a v).wide = s.wide := rfl
@[simp] theorem wr_bOld (a v : Nat) : (wr s a v).bOld = s.bOld := rfl
@[simp] theorem wr_capSeq (a v : Nat) : (wr s a v).capSeq = s.capSeq := rfl
@[simp] theorem wr_furrows (a v : Nat) : (wr s a v).furrows = s.furrows := rfl
@[simp] theorem wr_delivered (a v : Nat) : (wr s a v).delivered = s.delivered := rfl
@[simp] theorem wr_trigQ (a v : Nat) : (wr s a v).trigQ = s.trigQ := rfl
@[simp] theorem wr_stalled (a v : Nat) : (wr s a v).stalled = s.stalled := rfl
@[simp] theorem wr_hostRead (a v : Nat) : (wr s a v).hostRead = s.hostRead := rfl
@[simp] theorem wr_cfg (a v : Nat) : (wr s a v).cfg = s.cfg := rfl
@[simp] theorem wr_msix (a v : Nat) : (wr s a v).msix = s.msix := rfl
@[simp] theorem wr_outbox (a v : Nat) : (wr s a v).outbox = s.outbox := rfl
@[simp] theorem wr_freeCtr (a v : Nat) : (wr s a v).freeCtr = s.freeCtr := rfl
@[simp] theorem wr_frames (a v : Nat) : (wr s a v).frames = s.frames := rfl
@[simp] theorem wr_nextFrame (a v : Nat) : (wr s a v).nextFrame = s.nextFrame := rfl
@[simp] theorem wr_openFrame (a v : Nat) : (wr s a v).openFrame = s.openFrame := rfl
@[simp] theorem wr_dropping (a v : Nat) : (wr s a v).dropping = s.dropping := rfl
@[simp] theorem wr_withheld (a v : Nat) : (wr s a v).withheld = s.withheld := rfl
@[simp] theorem wr_outQ (a v : Nat) : (wr s a v).outQ = s.outQ := rfl
@[simp] theorem wr_inFlight (a v : Nat) : (wr s a v).inFlight = s.inFlight := rfl
@[simp] theorem wr_deficit (a v : Nat) : (wr s a v).deficit = s.deficit := rfl
@[simp] theorem wr_rrInput (a v : Nat) : (wr s a v).rrInput = s.rrInput := rfl
@[simp] theorem wr_rrClass (a v : Nat) : (wr s a v).rrClass = s.rrClass := rfl
@[simp] theorem wr_downSince (a v : Nat) : (wr s a v).downSince = s.downSince := rfl
@[simp] theorem wr_stuckSince (a v : Nat) : (wr s a v).stuckSince = s.stuckSince := rfl
@[simp] theorem wr_gateRun (a v : Nat) : (wr s a v).gateRun = s.gateRun := rfl
@[simp] theorem wr_streams (a v : Nat) : (wr s a v).streams = s.streams := rfl
@[simp] theorem wr_macReleased (a v : Nat) : (wr s a v).macReleased = s.macReleased := rfl
@[simp] theorem wr_rowsOut (a v : Nat) : (wr s a v).rowsOut = s.rowsOut := rfl
@[simp] theorem wr_tables (a v : Nat) : (wr s a v).tables = s.tables := rfl
@[simp] theorem wr_tpend (a v : Nat) : (wr s a v).tpend = s.tpend := rfl
@[simp] theorem wr_tquar (a v : Nat) : (wr s a v).tquar = s.tquar := rfl
@[simp] theorem wr_polState (a v : Nat) : (wr s a v).polState = s.polState := rfl
@[simp] theorem wr_heads (a v : Nat) : (wr s a v).heads = s.heads := rfl
@[simp] theorem wr_verdicts (a v : Nat) : (wr s a v).verdicts = s.verdicts := rfl
@[simp] theorem wr_learnQ (a v : Nat) : (wr s a v).learnQ = s.learnQ := rfl
@[simp] theorem wr_trackers (a v : Nat) : (wr s a v).trackers = s.trackers := rfl
@[simp] theorem wr_sweepPos (a v : Nat) : (wr s a v).sweepPos = s.sweepPos := rfl
@[simp] theorem wr_sweeps (a v : Nat) : (wr s a v).sweeps = s.sweeps := rfl
@[simp] theorem wr_lostEvents (a v : Nat) : (wr s a v).lostEvents = s.lostEvents := rfl
@[simp] theorem wr_harrowPos (a v : Nat) : (wr s a v).harrowPos = s.harrowPos := rfl
@[simp] theorem wr_harrowFlags (a v : Nat) : (wr s a v).harrowFlags = s.harrowFlags := rfl
@[simp] theorem wr_gateFaults (a v : Nat) : (wr s a v).gateFaults = s.gateFaults := rfl
@[simp] theorem wr_slots (a v : Nat) : (wr s a v).slots = s.slots := rfl
@[simp] theorem wr_deadSlots (a v : Nat) : (wr s a v).deadSlots = s.deadSlots := rfl
@[simp] theorem wr_rxStates (a v : Nat) : (wr s a v).rxStates = s.rxStates := rfl
@[simp] theorem wr_txStates (a v : Nat) : (wr s a v).txStates = s.txStates := rfl
@[simp] theorem wr_sendQ (a v : Nat) : (wr s a v).sendQ = s.sendQ := rfl
@[simp] theorem wr_seen (a v : Nat) : (wr s a v).seen = s.seen := rfl
@[simp] theorem wr_tick (a v : Nat) : (wr s a v).tick = s.tick := rfl
@[simp] theorem wr_activeAt (a v : Nat) : (wr s a v).activeAt = s.activeAt := rfl
@[simp] theorem wr_tplSeq (a v : Nat) : (wr s a v).tplSeq = s.tplSeq := rfl
@[simp] theorem wr_can (a v : Nat) : (wr s a v).can = s.can := rfl
@[simp] theorem wr_canReq (a v : Nat) : (wr s a v).canReq = s.canReq := rfl
@[simp] theorem wr_canReqNext (a v : Nat) : (wr s a v).canReqNext = s.canReqNext := rfl
@[simp] theorem wr_canQueue (a v : Nat) : (wr s a v).canQueue = s.canQueue := rfl
@[simp] theorem wr_canLimits (a v : Nat) : (wr s a v).canLimits = s.canLimits := rfl
@[simp] theorem wr_lin (a v : Nat) : (wr s a v).lin = s.lin := rfl
@[simp] theorem wr_linMark (a v : Nat) : (wr s a v).linMark = s.linMark := rfl
@[simp] theorem wr_timeFine (a v : Nat) : (wr s a v).timeFine = s.timeFine := rfl
@[simp] theorem wr_mac (a v : Nat) : (wr s a v).mac = s.mac := rfl
@[simp] theorem wr_fcSentAt (a v : Nat) : (wr s a v).fcSentAt = s.fcSentAt := rfl
@[simp] theorem wr_clusters (a v : Nat) : (wr s a v).clusters = s.clusters := rfl
@[simp] theorem wr_keepAwake (a v : Nat) : (wr s a v).keepAwake = s.keepAwake := rfl
@[simp] theorem wr_trxMode (a v : Nat) : (wr s a v).trxMode = s.trxMode := rfl
@[simp] theorem wr_armed (a v : Nat) : (wr s a v).armed = s.armed := rfl
@[simp] theorem wr_fwWait (a v : Nat) : (wr s a v).fwWait = s.fwWait := rfl
@[simp] theorem wr_fwFrom (a v : Nat) : (wr s a v).fwFrom = s.fwFrom := rfl
@[simp] theorem wr_failsafe (a v : Nat) : (wr s a v).failsafe = s.failsafe := rfl
@[simp] theorem wr_heartbeatAt (a v : Nat) : (wr s a v).heartbeatAt = s.heartbeatAt := rfl
@[simp] theorem wr_latched (a v : Nat) : (wr s a v).latched = s.latched := rfl
@[simp] theorem wr_linWakeCmd (a v : Nat) : (wr s a v).linWakeCmd = s.linWakeCmd := rfl
@[simp] theorem wr_wakeHints (a v : Nat) : (wr s a v).wakeHints = s.wakeHints := rfl
@[simp] theorem wr_laneQ (a v : Nat) : (wr s a v).laneQ = s.laneQ := rfl
@[simp] theorem wr_lanes (a v : Nat) : (wr s a v).lanes = s.lanes := rfl
@[simp] theorem wr_macOut (a v : Nat) : (wr s a v).macOut = s.macOut := rfl
@[simp] theorem wr_laneSeq (a v : Nat) : (wr s a v).laneSeq = s.laneSeq := rfl
@[simp] theorem wr_keys (a v : Nat) : (wr s a v).keys = s.keys := rfl
@[simp] theorem wr_keysRetired (a v : Nat) : (wr s a v).keysRetired = s.keysRetired := rfl
@[simp] theorem wr_keysSaving (a v : Nat) : (wr s a v).keysSaving = s.keysSaving := rfl
@[simp] theorem wr_keyRecs (a v : Nat) : (wr s a v).keyRecs = s.keyRecs := rfl
@[simp] theorem wr_fvSaved (a v : Nat) : (wr s a v).fvSaved = s.fvSaved := rfl
@[simp] theorem wr_roots (a v : Nat) : (wr s a v).roots = s.roots := rfl
@[simp] theorem wr_fuseLc (a v : Nat) : (wr s a v).fuseLc = s.fuseLc := rfl
@[simp] theorem wr_fuseEpoch (a v : Nat) : (wr s a v).fuseEpoch = s.fuseEpoch := rfl
@[simp] theorem wr_cvRun (a v : Nat) : (wr s a v).cvRun = s.cvRun := rfl
@[simp] theorem wr_ledger (a v : Nat) : (wr s a v).ledger = s.ledger := rfl
@[simp] theorem wr_roster (a v : Nat) : (wr s a v).roster = s.roster := rfl
@[simp] theorem wr_unrostered (a v : Nat) : (wr s a v).unrostered = s.unrostered := rfl
@[simp] theorem wr_awaitTest (a v : Nat) : (wr s a v).awaitTest = s.awaitTest := rfl
@[simp] theorem wr_fallow (a v : Nat) : (wr s a v).fallow = s.fallow := rfl
@[simp] theorem wr_stallRetry (a v : Nat) : (wr s a v).stallRetry = s.stallRetry := rfl
@[simp] theorem wr_monLive (a v : Nat) : (wr s a v).monLive = s.monLive := rfl
@[simp] theorem wr_pace (a v : Nat) : (wr s a v).pace = s.pace := rfl
@[simp] theorem wr_banks (a v : Nat) : (wr s a v).banks = s.banks := rfl
@[simp] theorem wr_settings (a v : Nat) : (wr s a v).settings = s.settings := rfl
@[simp] theorem wr_settingsOld (a v : Nat) : (wr s a v).settingsOld = s.settingsOld := rfl
@[simp] theorem wr_turn (a v : Nat) : (wr s a v).turn = s.turn := rfl
@[simp] theorem wr_updArmedAt (a v : Nat) : (wr s a v).updArmedAt = s.updArmedAt := rfl
@[simp] theorem wr_linkSeq (a v : Nat) : (wr s a v).linkSeq = s.linkSeq := rfl
@[simp] theorem wr_links (a v : Nat) : (wr s a v).links = s.links := rfl
@[simp] theorem wr_remoteAcc (a v : Nat) : (wr s a v).remoteAcc = s.remoteAcc := rfl
@[simp] theorem wr_remoteTag (a v : Nat) : (wr s a v).remoteTag = s.remoteTag := rfl
@[simp] theorem wr_remoteIn (a v : Nat) : (wr s a v).remoteIn = s.remoteIn := rfl
@[simp] theorem wr_pair (a v : Nat) : (wr s a v).pair = s.pair := rfl
@[simp] theorem wr_htxStalled (a v : Nat) : (wr s a v).htxStalled = s.htxStalled := rfl
@[simp] theorem wr_hrxSignal (a v : Nat) : (wr s a v).hrxSignal = s.hrxSignal := rfl
@[simp] theorem wr_sup (a v : Nat) : (wr s a v).sup = s.sup := rfl
@[simp] theorem wr_power (a v : Nat) : (wr s a v).power = s.power := rfl
@[simp] theorem wr_winKept (a v : Nat) : (wr s a v).winKept = s.winKept := rfl
@[simp] theorem wr_yields (a v : Nat) : (wr s a v).yields = s.yields := rfl
@[simp] theorem wr_cmds (a v : Nat) : (wr s a v).cmds = s.cmds := rfl
@[simp] theorem wr_grpOwn (a v : Nat) : (wr s a v).grpOwn = s.grpOwn := rfl
@[simp] theorem wr_rrCell (a v : Nat) : (wr s a v).rrCell = s.rrCell := rfl
@[simp] theorem wr_rrBlock (a v : Nat) : (wr s a v).rrBlock = s.rrBlock := rfl
@[simp] theorem wr_mbLast (a v : Nat) : (wr s a v).mbLast = s.mbLast := rfl
@[simp] theorem wr_tickAt (a v : Nat) : (wr s a v).tickAt = s.tickAt := rfl
@[simp] theorem wr_heldFrom (a v : Nat) : (wr s a v).heldFrom = s.heldFrom := rfl
@[simp] theorem wr_drained (a v : Nat) : (wr s a v).drained = s.drained := rfl
@[simp] theorem wr_crossings (a v : Nat) : (wr s a v).crossings = s.crossings := rfl
@[simp] theorem wr_handledAt (a v : Nat) : (wr s a v).handledAt = s.handledAt := rfl
@[simp] theorem wr_sampledAt (a v : Nat) : (wr s a v).sampledAt = s.sampledAt := rfl
@[simp] theorem wr_hrxErrs (a v : Nat) : (wr s a v).hrxErrs = s.hrxErrs := rfl
@[simp] theorem wr_regsAt (a v : Nat) : (wr s a v).regsAt = s.regsAt := rfl
@[simp] theorem wr_setNow (a v : Nat) : (wr s a v).setNow = s.setNow := rfl
@[simp] theorem wr_escBuf (a v : Nat) : (wr s a v).escBuf = s.escBuf := rfl
@[simp] theorem wr_recFaulty (a v : Nat) : (wr s a v).recFaulty = s.recFaulty := rfl
@[simp] theorem wr_held (a v : Nat) : (wr s a v).held = s.held := rfl
@[simp] theorem wr_retained (a v : Nat) : (wr s a v).retained = s.retained := rfl
@[simp] theorem wr_relWait (a v : Nat) : (wr s a v).relWait = s.relWait := rfl
@[simp] theorem wr_movedAt (a v : Nat) : (wr s a v).movedAt = s.movedAt := rfl
@[simp] theorem wr_timeLog (a v : Nat) : (wr s a v).timeLog = s.timeLog := rfl
@[simp] theorem wr_fallowKnown (a v : Nat) : (wr s a v).fallowKnown = s.fallowKnown := rfl
@[simp] theorem wr_keyWork (a v : Nat) : (wr s a v).keyWork = s.keyWork := rfl
@[simp] theorem wr_drbg (a v : Nat) : (wr s a v).drbg = s.drbg := rfl
@[simp] theorem wr_maskGen (a v : Nat) : (wr s a v).maskGen = s.maskGen := rfl
@[simp] theorem wr_busy (a v : Nat) : (wr s a v).busy = s.busy := rfl

/-! ## A write of a wide value -/

@[simp] theorem wrWide_pending (a v : Nat) : (wrWide s a v).pending = s.pending := rfl
@[simp] theorem wrWide_fuses (a v : Nat) : (wrWide s a v).fuses = s.fuses := rfl
@[simp] theorem wrWide_now (a v : Nat) : (wrWide s a v).now = s.now := rfl
@[simp] theorem wrWide_tbFrom (a v : Nat) : (wrWide s a v).tbFrom = s.tbFrom := rfl
@[simp] theorem wrWide_regs (a v : Nat) : (wrWide s a v).regs = s.regs := rfl
@[simp] theorem wrWide_bOld (a v : Nat) : (wrWide s a v).bOld = s.bOld := rfl
@[simp] theorem wrWide_capSeq (a v : Nat) : (wrWide s a v).capSeq = s.capSeq := rfl
@[simp] theorem wrWide_furrows (a v : Nat) : (wrWide s a v).furrows = s.furrows := rfl
@[simp] theorem wrWide_delivered (a v : Nat) : (wrWide s a v).delivered = s.delivered := rfl
@[simp] theorem wrWide_trigQ (a v : Nat) : (wrWide s a v).trigQ = s.trigQ := rfl
@[simp] theorem wrWide_stalled (a v : Nat) : (wrWide s a v).stalled = s.stalled := rfl
@[simp] theorem wrWide_hostRead (a v : Nat) : (wrWide s a v).hostRead = s.hostRead := rfl
@[simp] theorem wrWide_cfg (a v : Nat) : (wrWide s a v).cfg = s.cfg := rfl
@[simp] theorem wrWide_msix (a v : Nat) : (wrWide s a v).msix = s.msix := rfl
@[simp] theorem wrWide_outbox (a v : Nat) : (wrWide s a v).outbox = s.outbox := rfl
@[simp] theorem wrWide_freeCtr (a v : Nat) : (wrWide s a v).freeCtr = s.freeCtr := rfl
@[simp] theorem wrWide_frames (a v : Nat) : (wrWide s a v).frames = s.frames := rfl
@[simp] theorem wrWide_nextFrame (a v : Nat) : (wrWide s a v).nextFrame = s.nextFrame := rfl
@[simp] theorem wrWide_openFrame (a v : Nat) : (wrWide s a v).openFrame = s.openFrame := rfl
@[simp] theorem wrWide_dropping (a v : Nat) : (wrWide s a v).dropping = s.dropping := rfl
@[simp] theorem wrWide_withheld (a v : Nat) : (wrWide s a v).withheld = s.withheld := rfl
@[simp] theorem wrWide_outQ (a v : Nat) : (wrWide s a v).outQ = s.outQ := rfl
@[simp] theorem wrWide_inFlight (a v : Nat) : (wrWide s a v).inFlight = s.inFlight := rfl
@[simp] theorem wrWide_deficit (a v : Nat) : (wrWide s a v).deficit = s.deficit := rfl
@[simp] theorem wrWide_rrInput (a v : Nat) : (wrWide s a v).rrInput = s.rrInput := rfl
@[simp] theorem wrWide_rrClass (a v : Nat) : (wrWide s a v).rrClass = s.rrClass := rfl
@[simp] theorem wrWide_downSince (a v : Nat) : (wrWide s a v).downSince = s.downSince := rfl
@[simp] theorem wrWide_stuckSince (a v : Nat) : (wrWide s a v).stuckSince = s.stuckSince := rfl
@[simp] theorem wrWide_gateRun (a v : Nat) : (wrWide s a v).gateRun = s.gateRun := rfl
@[simp] theorem wrWide_streams (a v : Nat) : (wrWide s a v).streams = s.streams := rfl
@[simp] theorem wrWide_macReleased (a v : Nat) : (wrWide s a v).macReleased = s.macReleased := rfl
@[simp] theorem wrWide_rowsOut (a v : Nat) : (wrWide s a v).rowsOut = s.rowsOut := rfl
@[simp] theorem wrWide_tables (a v : Nat) : (wrWide s a v).tables = s.tables := rfl
@[simp] theorem wrWide_tpend (a v : Nat) : (wrWide s a v).tpend = s.tpend := rfl
@[simp] theorem wrWide_tquar (a v : Nat) : (wrWide s a v).tquar = s.tquar := rfl
@[simp] theorem wrWide_polState (a v : Nat) : (wrWide s a v).polState = s.polState := rfl
@[simp] theorem wrWide_heads (a v : Nat) : (wrWide s a v).heads = s.heads := rfl
@[simp] theorem wrWide_verdicts (a v : Nat) : (wrWide s a v).verdicts = s.verdicts := rfl
@[simp] theorem wrWide_learnQ (a v : Nat) : (wrWide s a v).learnQ = s.learnQ := rfl
@[simp] theorem wrWide_trackers (a v : Nat) : (wrWide s a v).trackers = s.trackers := rfl
@[simp] theorem wrWide_sweepPos (a v : Nat) : (wrWide s a v).sweepPos = s.sweepPos := rfl
@[simp] theorem wrWide_sweeps (a v : Nat) : (wrWide s a v).sweeps = s.sweeps := rfl
@[simp] theorem wrWide_lostEvents (a v : Nat) : (wrWide s a v).lostEvents = s.lostEvents := rfl
@[simp] theorem wrWide_harrowPos (a v : Nat) : (wrWide s a v).harrowPos = s.harrowPos := rfl
@[simp] theorem wrWide_harrowFlags (a v : Nat) : (wrWide s a v).harrowFlags = s.harrowFlags := rfl
@[simp] theorem wrWide_gateFaults (a v : Nat) : (wrWide s a v).gateFaults = s.gateFaults := rfl
@[simp] theorem wrWide_slots (a v : Nat) : (wrWide s a v).slots = s.slots := rfl
@[simp] theorem wrWide_deadSlots (a v : Nat) : (wrWide s a v).deadSlots = s.deadSlots := rfl
@[simp] theorem wrWide_rxStates (a v : Nat) : (wrWide s a v).rxStates = s.rxStates := rfl
@[simp] theorem wrWide_txStates (a v : Nat) : (wrWide s a v).txStates = s.txStates := rfl
@[simp] theorem wrWide_sendQ (a v : Nat) : (wrWide s a v).sendQ = s.sendQ := rfl
@[simp] theorem wrWide_seen (a v : Nat) : (wrWide s a v).seen = s.seen := rfl
@[simp] theorem wrWide_tick (a v : Nat) : (wrWide s a v).tick = s.tick := rfl
@[simp] theorem wrWide_activeAt (a v : Nat) : (wrWide s a v).activeAt = s.activeAt := rfl
@[simp] theorem wrWide_tplSeq (a v : Nat) : (wrWide s a v).tplSeq = s.tplSeq := rfl
@[simp] theorem wrWide_can (a v : Nat) : (wrWide s a v).can = s.can := rfl
@[simp] theorem wrWide_canReq (a v : Nat) : (wrWide s a v).canReq = s.canReq := rfl
@[simp] theorem wrWide_canReqNext (a v : Nat) : (wrWide s a v).canReqNext = s.canReqNext := rfl
@[simp] theorem wrWide_canQueue (a v : Nat) : (wrWide s a v).canQueue = s.canQueue := rfl
@[simp] theorem wrWide_canLimits (a v : Nat) : (wrWide s a v).canLimits = s.canLimits := rfl
@[simp] theorem wrWide_lin (a v : Nat) : (wrWide s a v).lin = s.lin := rfl
@[simp] theorem wrWide_linMark (a v : Nat) : (wrWide s a v).linMark = s.linMark := rfl
@[simp] theorem wrWide_timeFine (a v : Nat) : (wrWide s a v).timeFine = s.timeFine := rfl
@[simp] theorem wrWide_mac (a v : Nat) : (wrWide s a v).mac = s.mac := rfl
@[simp] theorem wrWide_fcSentAt (a v : Nat) : (wrWide s a v).fcSentAt = s.fcSentAt := rfl
@[simp] theorem wrWide_clusters (a v : Nat) : (wrWide s a v).clusters = s.clusters := rfl
@[simp] theorem wrWide_keepAwake (a v : Nat) : (wrWide s a v).keepAwake = s.keepAwake := rfl
@[simp] theorem wrWide_trxMode (a v : Nat) : (wrWide s a v).trxMode = s.trxMode := rfl
@[simp] theorem wrWide_armed (a v : Nat) : (wrWide s a v).armed = s.armed := rfl
@[simp] theorem wrWide_fwWait (a v : Nat) : (wrWide s a v).fwWait = s.fwWait := rfl
@[simp] theorem wrWide_fwFrom (a v : Nat) : (wrWide s a v).fwFrom = s.fwFrom := rfl
@[simp] theorem wrWide_failsafe (a v : Nat) : (wrWide s a v).failsafe = s.failsafe := rfl
@[simp] theorem wrWide_heartbeatAt (a v : Nat) : (wrWide s a v).heartbeatAt = s.heartbeatAt := rfl
@[simp] theorem wrWide_latched (a v : Nat) : (wrWide s a v).latched = s.latched := rfl
@[simp] theorem wrWide_linWakeCmd (a v : Nat) : (wrWide s a v).linWakeCmd = s.linWakeCmd := rfl
@[simp] theorem wrWide_wakeHints (a v : Nat) : (wrWide s a v).wakeHints = s.wakeHints := rfl
@[simp] theorem wrWide_laneQ (a v : Nat) : (wrWide s a v).laneQ = s.laneQ := rfl
@[simp] theorem wrWide_lanes (a v : Nat) : (wrWide s a v).lanes = s.lanes := rfl
@[simp] theorem wrWide_macOut (a v : Nat) : (wrWide s a v).macOut = s.macOut := rfl
@[simp] theorem wrWide_laneSeq (a v : Nat) : (wrWide s a v).laneSeq = s.laneSeq := rfl
@[simp] theorem wrWide_keys (a v : Nat) : (wrWide s a v).keys = s.keys := rfl
@[simp] theorem wrWide_keysRetired (a v : Nat) : (wrWide s a v).keysRetired = s.keysRetired := rfl
@[simp] theorem wrWide_keysSaving (a v : Nat) : (wrWide s a v).keysSaving = s.keysSaving := rfl
@[simp] theorem wrWide_keyRecs (a v : Nat) : (wrWide s a v).keyRecs = s.keyRecs := rfl
@[simp] theorem wrWide_fvSaved (a v : Nat) : (wrWide s a v).fvSaved = s.fvSaved := rfl
@[simp] theorem wrWide_roots (a v : Nat) : (wrWide s a v).roots = s.roots := rfl
@[simp] theorem wrWide_fuseLc (a v : Nat) : (wrWide s a v).fuseLc = s.fuseLc := rfl
@[simp] theorem wrWide_fuseEpoch (a v : Nat) : (wrWide s a v).fuseEpoch = s.fuseEpoch := rfl
@[simp] theorem wrWide_cvRun (a v : Nat) : (wrWide s a v).cvRun = s.cvRun := rfl
@[simp] theorem wrWide_ledger (a v : Nat) : (wrWide s a v).ledger = s.ledger := rfl
@[simp] theorem wrWide_roster (a v : Nat) : (wrWide s a v).roster = s.roster := rfl
@[simp] theorem wrWide_unrostered (a v : Nat) : (wrWide s a v).unrostered = s.unrostered := rfl
@[simp] theorem wrWide_awaitTest (a v : Nat) : (wrWide s a v).awaitTest = s.awaitTest := rfl
@[simp] theorem wrWide_fallow (a v : Nat) : (wrWide s a v).fallow = s.fallow := rfl
@[simp] theorem wrWide_stallRetry (a v : Nat) : (wrWide s a v).stallRetry = s.stallRetry := rfl
@[simp] theorem wrWide_monLive (a v : Nat) : (wrWide s a v).monLive = s.monLive := rfl
@[simp] theorem wrWide_pace (a v : Nat) : (wrWide s a v).pace = s.pace := rfl
@[simp] theorem wrWide_banks (a v : Nat) : (wrWide s a v).banks = s.banks := rfl
@[simp] theorem wrWide_settings (a v : Nat) : (wrWide s a v).settings = s.settings := rfl
@[simp] theorem wrWide_settingsOld (a v : Nat) : (wrWide s a v).settingsOld = s.settingsOld := rfl
@[simp] theorem wrWide_turn (a v : Nat) : (wrWide s a v).turn = s.turn := rfl
@[simp] theorem wrWide_updArmedAt (a v : Nat) : (wrWide s a v).updArmedAt = s.updArmedAt := rfl
@[simp] theorem wrWide_linkSeq (a v : Nat) : (wrWide s a v).linkSeq = s.linkSeq := rfl
@[simp] theorem wrWide_links (a v : Nat) : (wrWide s a v).links = s.links := rfl
@[simp] theorem wrWide_remoteAcc (a v : Nat) : (wrWide s a v).remoteAcc = s.remoteAcc := rfl
@[simp] theorem wrWide_remoteTag (a v : Nat) : (wrWide s a v).remoteTag = s.remoteTag := rfl
@[simp] theorem wrWide_remoteIn (a v : Nat) : (wrWide s a v).remoteIn = s.remoteIn := rfl
@[simp] theorem wrWide_pair (a v : Nat) : (wrWide s a v).pair = s.pair := rfl
@[simp] theorem wrWide_htxStalled (a v : Nat) : (wrWide s a v).htxStalled = s.htxStalled := rfl
@[simp] theorem wrWide_hrxSignal (a v : Nat) : (wrWide s a v).hrxSignal = s.hrxSignal := rfl
@[simp] theorem wrWide_sup (a v : Nat) : (wrWide s a v).sup = s.sup := rfl
@[simp] theorem wrWide_power (a v : Nat) : (wrWide s a v).power = s.power := rfl
@[simp] theorem wrWide_winKept (a v : Nat) : (wrWide s a v).winKept = s.winKept := rfl
@[simp] theorem wrWide_yields (a v : Nat) : (wrWide s a v).yields = s.yields := rfl
@[simp] theorem wrWide_cmds (a v : Nat) : (wrWide s a v).cmds = s.cmds := rfl
@[simp] theorem wrWide_grpOwn (a v : Nat) : (wrWide s a v).grpOwn = s.grpOwn := rfl
@[simp] theorem wrWide_rrCell (a v : Nat) : (wrWide s a v).rrCell = s.rrCell := rfl
@[simp] theorem wrWide_rrBlock (a v : Nat) : (wrWide s a v).rrBlock = s.rrBlock := rfl
@[simp] theorem wrWide_mbLast (a v : Nat) : (wrWide s a v).mbLast = s.mbLast := rfl
@[simp] theorem wrWide_tickAt (a v : Nat) : (wrWide s a v).tickAt = s.tickAt := rfl
@[simp] theorem wrWide_heldFrom (a v : Nat) : (wrWide s a v).heldFrom = s.heldFrom := rfl
@[simp] theorem wrWide_drained (a v : Nat) : (wrWide s a v).drained = s.drained := rfl
@[simp] theorem wrWide_crossings (a v : Nat) : (wrWide s a v).crossings = s.crossings := rfl
@[simp] theorem wrWide_handledAt (a v : Nat) : (wrWide s a v).handledAt = s.handledAt := rfl
@[simp] theorem wrWide_sampledAt (a v : Nat) : (wrWide s a v).sampledAt = s.sampledAt := rfl
@[simp] theorem wrWide_hrxErrs (a v : Nat) : (wrWide s a v).hrxErrs = s.hrxErrs := rfl
@[simp] theorem wrWide_regsAt (a v : Nat) : (wrWide s a v).regsAt = s.regsAt := rfl
@[simp] theorem wrWide_setNow (a v : Nat) : (wrWide s a v).setNow = s.setNow := rfl
@[simp] theorem wrWide_escBuf (a v : Nat) : (wrWide s a v).escBuf = s.escBuf := rfl
@[simp] theorem wrWide_recFaulty (a v : Nat) : (wrWide s a v).recFaulty = s.recFaulty := rfl
@[simp] theorem wrWide_held (a v : Nat) : (wrWide s a v).held = s.held := rfl
@[simp] theorem wrWide_retained (a v : Nat) : (wrWide s a v).retained = s.retained := rfl
@[simp] theorem wrWide_relWait (a v : Nat) : (wrWide s a v).relWait = s.relWait := rfl
@[simp] theorem wrWide_movedAt (a v : Nat) : (wrWide s a v).movedAt = s.movedAt := rfl
@[simp] theorem wrWide_timeLog (a v : Nat) : (wrWide s a v).timeLog = s.timeLog := rfl
@[simp] theorem wrWide_fallowKnown (a v : Nat) : (wrWide s a v).fallowKnown = s.fallowKnown := rfl
@[simp] theorem wrWide_keyWork (a v : Nat) : (wrWide s a v).keyWork = s.keyWork := rfl
@[simp] theorem wrWide_drbg (a v : Nat) : (wrWide s a v).drbg = s.drbg := rfl
@[simp] theorem wrWide_maskGen (a v : Nat) : (wrWide s a v).maskGen = s.maskGen := rfl
@[simp] theorem wrWide_busy (a v : Nat) : (wrWide s a v).busy = s.busy := rfl

/-! ## The clocks -/

@[simp] theorem advance_pending (t : Nat) : (advance s t).pending = s.pending := by unfold advance; split <;> rfl
@[simp] theorem advance_fuses (t : Nat) : (advance s t).fuses = s.fuses := by unfold advance; split <;> rfl
@[simp] theorem advance_tbFrom (t : Nat) : (advance s t).tbFrom = s.tbFrom := by unfold advance; split <;> rfl
@[simp] theorem advance_regs (t : Nat) : (advance s t).regs = s.regs := by unfold advance; split <;> rfl
@[simp] theorem advance_wide (t : Nat) : (advance s t).wide = s.wide := by unfold advance; split <;> rfl
@[simp] theorem advance_bOld (t : Nat) : (advance s t).bOld = s.bOld := by unfold advance; split <;> rfl
@[simp] theorem advance_capSeq (t : Nat) : (advance s t).capSeq = s.capSeq := by unfold advance; split <;> rfl
@[simp] theorem advance_furrows (t : Nat) : (advance s t).furrows = s.furrows := by unfold advance; split <;> rfl
@[simp] theorem advance_delivered (t : Nat) : (advance s t).delivered = s.delivered := by unfold advance; split <;> rfl
@[simp] theorem advance_trigQ (t : Nat) : (advance s t).trigQ = s.trigQ := by unfold advance; split <;> rfl
@[simp] theorem advance_stalled (t : Nat) : (advance s t).stalled = s.stalled := by unfold advance; split <;> rfl
@[simp] theorem advance_hostRead (t : Nat) : (advance s t).hostRead = s.hostRead := by unfold advance; split <;> rfl
@[simp] theorem advance_cfg (t : Nat) : (advance s t).cfg = s.cfg := by unfold advance; split <;> rfl
@[simp] theorem advance_msix (t : Nat) : (advance s t).msix = s.msix := by unfold advance; split <;> rfl
@[simp] theorem advance_outbox (t : Nat) : (advance s t).outbox = s.outbox := by unfold advance; split <;> rfl
@[simp] theorem advance_freeCtr (t : Nat) : (advance s t).freeCtr = s.freeCtr := by unfold advance; split <;> rfl
@[simp] theorem advance_frames (t : Nat) : (advance s t).frames = s.frames := by unfold advance; split <;> rfl
@[simp] theorem advance_nextFrame (t : Nat) : (advance s t).nextFrame = s.nextFrame := by unfold advance; split <;> rfl
@[simp] theorem advance_openFrame (t : Nat) : (advance s t).openFrame = s.openFrame := by unfold advance; split <;> rfl
@[simp] theorem advance_dropping (t : Nat) : (advance s t).dropping = s.dropping := by unfold advance; split <;> rfl
@[simp] theorem advance_withheld (t : Nat) : (advance s t).withheld = s.withheld := by unfold advance; split <;> rfl
@[simp] theorem advance_outQ (t : Nat) : (advance s t).outQ = s.outQ := by unfold advance; split <;> rfl
@[simp] theorem advance_inFlight (t : Nat) : (advance s t).inFlight = s.inFlight := by unfold advance; split <;> rfl
@[simp] theorem advance_deficit (t : Nat) : (advance s t).deficit = s.deficit := by unfold advance; split <;> rfl
@[simp] theorem advance_rrInput (t : Nat) : (advance s t).rrInput = s.rrInput := by unfold advance; split <;> rfl
@[simp] theorem advance_rrClass (t : Nat) : (advance s t).rrClass = s.rrClass := by unfold advance; split <;> rfl
@[simp] theorem advance_downSince (t : Nat) : (advance s t).downSince = s.downSince := by unfold advance; split <;> rfl
@[simp] theorem advance_stuckSince (t : Nat) : (advance s t).stuckSince = s.stuckSince := by unfold advance; split <;> rfl
@[simp] theorem advance_gateRun (t : Nat) : (advance s t).gateRun = s.gateRun := by unfold advance; split <;> rfl
@[simp] theorem advance_streams (t : Nat) : (advance s t).streams = s.streams := by unfold advance; split <;> rfl
@[simp] theorem advance_macReleased (t : Nat) : (advance s t).macReleased = s.macReleased := by unfold advance; split <;> rfl
@[simp] theorem advance_rowsOut (t : Nat) : (advance s t).rowsOut = s.rowsOut := by unfold advance; split <;> rfl
@[simp] theorem advance_tables (t : Nat) : (advance s t).tables = s.tables := by unfold advance; split <;> rfl
@[simp] theorem advance_tpend (t : Nat) : (advance s t).tpend = s.tpend := by unfold advance; split <;> rfl
@[simp] theorem advance_tquar (t : Nat) : (advance s t).tquar = s.tquar := by unfold advance; split <;> rfl
@[simp] theorem advance_polState (t : Nat) : (advance s t).polState = s.polState := by unfold advance; split <;> rfl
@[simp] theorem advance_heads (t : Nat) : (advance s t).heads = s.heads := by unfold advance; split <;> rfl
@[simp] theorem advance_verdicts (t : Nat) : (advance s t).verdicts = s.verdicts := by unfold advance; split <;> rfl
@[simp] theorem advance_learnQ (t : Nat) : (advance s t).learnQ = s.learnQ := by unfold advance; split <;> rfl
@[simp] theorem advance_trackers (t : Nat) : (advance s t).trackers = s.trackers := by unfold advance; split <;> rfl
@[simp] theorem advance_sweepPos (t : Nat) : (advance s t).sweepPos = s.sweepPos := by unfold advance; split <;> rfl
@[simp] theorem advance_sweeps (t : Nat) : (advance s t).sweeps = s.sweeps := by unfold advance; split <;> rfl
@[simp] theorem advance_lostEvents (t : Nat) : (advance s t).lostEvents = s.lostEvents := by unfold advance; split <;> rfl
@[simp] theorem advance_harrowPos (t : Nat) : (advance s t).harrowPos = s.harrowPos := by unfold advance; split <;> rfl
@[simp] theorem advance_harrowFlags (t : Nat) : (advance s t).harrowFlags = s.harrowFlags := by unfold advance; split <;> rfl
@[simp] theorem advance_gateFaults (t : Nat) : (advance s t).gateFaults = s.gateFaults := by unfold advance; split <;> rfl
@[simp] theorem advance_slots (t : Nat) : (advance s t).slots = s.slots := by unfold advance; split <;> rfl
@[simp] theorem advance_deadSlots (t : Nat) : (advance s t).deadSlots = s.deadSlots := by unfold advance; split <;> rfl
@[simp] theorem advance_rxStates (t : Nat) : (advance s t).rxStates = s.rxStates := by unfold advance; split <;> rfl
@[simp] theorem advance_txStates (t : Nat) : (advance s t).txStates = s.txStates := by unfold advance; split <;> rfl
@[simp] theorem advance_sendQ (t : Nat) : (advance s t).sendQ = s.sendQ := by unfold advance; split <;> rfl
@[simp] theorem advance_seen (t : Nat) : (advance s t).seen = s.seen := by unfold advance; split <;> rfl
@[simp] theorem advance_tick (t : Nat) : (advance s t).tick = s.tick := by unfold advance; split <;> rfl
@[simp] theorem advance_activeAt (t : Nat) : (advance s t).activeAt = s.activeAt := by unfold advance; split <;> rfl
@[simp] theorem advance_tplSeq (t : Nat) : (advance s t).tplSeq = s.tplSeq := by unfold advance; split <;> rfl
@[simp] theorem advance_can (t : Nat) : (advance s t).can = s.can := by unfold advance; split <;> rfl
@[simp] theorem advance_canReq (t : Nat) : (advance s t).canReq = s.canReq := by unfold advance; split <;> rfl
@[simp] theorem advance_canReqNext (t : Nat) : (advance s t).canReqNext = s.canReqNext := by unfold advance; split <;> rfl
@[simp] theorem advance_canQueue (t : Nat) : (advance s t).canQueue = s.canQueue := by unfold advance; split <;> rfl
@[simp] theorem advance_canLimits (t : Nat) : (advance s t).canLimits = s.canLimits := by unfold advance; split <;> rfl
@[simp] theorem advance_lin (t : Nat) : (advance s t).lin = s.lin := by unfold advance; split <;> rfl
@[simp] theorem advance_linMark (t : Nat) : (advance s t).linMark = s.linMark := by unfold advance; split <;> rfl
@[simp] theorem advance_mac (t : Nat) : (advance s t).mac = s.mac := by unfold advance; split <;> rfl
@[simp] theorem advance_fcSentAt (t : Nat) : (advance s t).fcSentAt = s.fcSentAt := by unfold advance; split <;> rfl
@[simp] theorem advance_clusters (t : Nat) : (advance s t).clusters = s.clusters := by unfold advance; split <;> rfl
@[simp] theorem advance_keepAwake (t : Nat) : (advance s t).keepAwake = s.keepAwake := by unfold advance; split <;> rfl
@[simp] theorem advance_trxMode (t : Nat) : (advance s t).trxMode = s.trxMode := by unfold advance; split <;> rfl
@[simp] theorem advance_armed (t : Nat) : (advance s t).armed = s.armed := by unfold advance; split <;> rfl
@[simp] theorem advance_fwWait (t : Nat) : (advance s t).fwWait = s.fwWait := by unfold advance; split <;> rfl
@[simp] theorem advance_fwFrom (t : Nat) : (advance s t).fwFrom = s.fwFrom := by unfold advance; split <;> rfl
@[simp] theorem advance_failsafe (t : Nat) : (advance s t).failsafe = s.failsafe := by unfold advance; split <;> rfl
@[simp] theorem advance_heartbeatAt (t : Nat) : (advance s t).heartbeatAt = s.heartbeatAt := by unfold advance; split <;> rfl
@[simp] theorem advance_latched (t : Nat) : (advance s t).latched = s.latched := by unfold advance; split <;> rfl
@[simp] theorem advance_linWakeCmd (t : Nat) : (advance s t).linWakeCmd = s.linWakeCmd := by unfold advance; split <;> rfl
@[simp] theorem advance_wakeHints (t : Nat) : (advance s t).wakeHints = s.wakeHints := by unfold advance; split <;> rfl
@[simp] theorem advance_laneQ (t : Nat) : (advance s t).laneQ = s.laneQ := by unfold advance; split <;> rfl
@[simp] theorem advance_lanes (t : Nat) : (advance s t).lanes = s.lanes := by unfold advance; split <;> rfl
@[simp] theorem advance_macOut (t : Nat) : (advance s t).macOut = s.macOut := by unfold advance; split <;> rfl
@[simp] theorem advance_laneSeq (t : Nat) : (advance s t).laneSeq = s.laneSeq := by unfold advance; split <;> rfl
@[simp] theorem advance_keys (t : Nat) : (advance s t).keys = s.keys := by unfold advance; split <;> rfl
@[simp] theorem advance_keysRetired (t : Nat) : (advance s t).keysRetired = s.keysRetired := by unfold advance; split <;> rfl
@[simp] theorem advance_keysSaving (t : Nat) : (advance s t).keysSaving = s.keysSaving := by unfold advance; split <;> rfl
@[simp] theorem advance_keyRecs (t : Nat) : (advance s t).keyRecs = s.keyRecs := by unfold advance; split <;> rfl
@[simp] theorem advance_fvSaved (t : Nat) : (advance s t).fvSaved = s.fvSaved := by unfold advance; split <;> rfl
@[simp] theorem advance_roots (t : Nat) : (advance s t).roots = s.roots := by unfold advance; split <;> rfl
@[simp] theorem advance_fuseLc (t : Nat) : (advance s t).fuseLc = s.fuseLc := by unfold advance; split <;> rfl
@[simp] theorem advance_fuseEpoch (t : Nat) : (advance s t).fuseEpoch = s.fuseEpoch := by unfold advance; split <;> rfl
@[simp] theorem advance_cvRun (t : Nat) : (advance s t).cvRun = s.cvRun := by unfold advance; split <;> rfl
@[simp] theorem advance_ledger (t : Nat) : (advance s t).ledger = s.ledger := by unfold advance; split <;> rfl
@[simp] theorem advance_roster (t : Nat) : (advance s t).roster = s.roster := by unfold advance; split <;> rfl
@[simp] theorem advance_unrostered (t : Nat) : (advance s t).unrostered = s.unrostered := by unfold advance; split <;> rfl
@[simp] theorem advance_awaitTest (t : Nat) : (advance s t).awaitTest = s.awaitTest := by unfold advance; split <;> rfl
@[simp] theorem advance_fallow (t : Nat) : (advance s t).fallow = s.fallow := by unfold advance; split <;> rfl
@[simp] theorem advance_stallRetry (t : Nat) : (advance s t).stallRetry = s.stallRetry := by unfold advance; split <;> rfl
@[simp] theorem advance_monLive (t : Nat) : (advance s t).monLive = s.monLive := by unfold advance; split <;> rfl
@[simp] theorem advance_pace (t : Nat) : (advance s t).pace = s.pace := by unfold advance; split <;> rfl
@[simp] theorem advance_banks (t : Nat) : (advance s t).banks = s.banks := by unfold advance; split <;> rfl
@[simp] theorem advance_settings (t : Nat) : (advance s t).settings = s.settings := by unfold advance; split <;> rfl
@[simp] theorem advance_settingsOld (t : Nat) : (advance s t).settingsOld = s.settingsOld := by unfold advance; split <;> rfl
@[simp] theorem advance_turn (t : Nat) : (advance s t).turn = s.turn := by unfold advance; split <;> rfl
@[simp] theorem advance_updArmedAt (t : Nat) : (advance s t).updArmedAt = s.updArmedAt := by unfold advance; split <;> rfl
@[simp] theorem advance_linkSeq (t : Nat) : (advance s t).linkSeq = s.linkSeq := by unfold advance; split <;> rfl
@[simp] theorem advance_links (t : Nat) : (advance s t).links = s.links := by unfold advance; split <;> rfl
@[simp] theorem advance_remoteAcc (t : Nat) : (advance s t).remoteAcc = s.remoteAcc := by unfold advance; split <;> rfl
@[simp] theorem advance_remoteTag (t : Nat) : (advance s t).remoteTag = s.remoteTag := by unfold advance; split <;> rfl
@[simp] theorem advance_remoteIn (t : Nat) : (advance s t).remoteIn = s.remoteIn := by unfold advance; split <;> rfl
@[simp] theorem advance_pair (t : Nat) : (advance s t).pair = s.pair := by unfold advance; split <;> rfl
@[simp] theorem advance_htxStalled (t : Nat) : (advance s t).htxStalled = s.htxStalled := by unfold advance; split <;> rfl
@[simp] theorem advance_hrxSignal (t : Nat) : (advance s t).hrxSignal = s.hrxSignal := by unfold advance; split <;> rfl
@[simp] theorem advance_sup (t : Nat) : (advance s t).sup = s.sup := by unfold advance; split <;> rfl
@[simp] theorem advance_power (t : Nat) : (advance s t).power = s.power := by unfold advance; split <;> rfl
@[simp] theorem advance_winKept (t : Nat) : (advance s t).winKept = s.winKept := by unfold advance; split <;> rfl
@[simp] theorem advance_yields (t : Nat) : (advance s t).yields = s.yields := by unfold advance; split <;> rfl
@[simp] theorem advance_cmds (t : Nat) : (advance s t).cmds = s.cmds := by unfold advance; split <;> rfl
@[simp] theorem advance_grpOwn (t : Nat) : (advance s t).grpOwn = s.grpOwn := by unfold advance; split <;> rfl
@[simp] theorem advance_rrCell (t : Nat) : (advance s t).rrCell = s.rrCell := by unfold advance; split <;> rfl
@[simp] theorem advance_rrBlock (t : Nat) : (advance s t).rrBlock = s.rrBlock := by unfold advance; split <;> rfl
@[simp] theorem advance_mbLast (t : Nat) : (advance s t).mbLast = s.mbLast := by unfold advance; split <;> rfl
@[simp] theorem advance_tickAt (t : Nat) : (advance s t).tickAt = s.tickAt := by unfold advance; split <;> rfl
@[simp] theorem advance_heldFrom (t : Nat) : (advance s t).heldFrom = s.heldFrom := by unfold advance; split <;> rfl
@[simp] theorem advance_drained (t : Nat) : (advance s t).drained = s.drained := by unfold advance; split <;> rfl
@[simp] theorem advance_crossings (t : Nat) : (advance s t).crossings = s.crossings := by unfold advance; split <;> rfl
@[simp] theorem advance_handledAt (t : Nat) : (advance s t).handledAt = s.handledAt := by unfold advance; split <;> rfl
@[simp] theorem advance_sampledAt (t : Nat) : (advance s t).sampledAt = s.sampledAt := by unfold advance; split <;> rfl
@[simp] theorem advance_hrxErrs (t : Nat) : (advance s t).hrxErrs = s.hrxErrs := by unfold advance; split <;> rfl
@[simp] theorem advance_escBuf (t : Nat) : (advance s t).escBuf = s.escBuf := by unfold advance; split <;> rfl
@[simp] theorem advance_recFaulty (t : Nat) : (advance s t).recFaulty = s.recFaulty := by unfold advance; split <;> rfl
@[simp] theorem advance_held (t : Nat) : (advance s t).held = s.held := by unfold advance; split <;> rfl
@[simp] theorem advance_retained (t : Nat) : (advance s t).retained = s.retained := by unfold advance; split <;> rfl
@[simp] theorem advance_relWait (t : Nat) : (advance s t).relWait = s.relWait := by unfold advance; split <;> rfl
@[simp] theorem advance_movedAt (t : Nat) : (advance s t).movedAt = s.movedAt := by unfold advance; split <;> rfl
@[simp] theorem advance_fallowKnown (t : Nat) : (advance s t).fallowKnown = s.fallowKnown := by unfold advance; split <;> rfl
@[simp] theorem advance_keyWork (t : Nat) : (advance s t).keyWork = s.keyWork := by unfold advance; split <;> rfl
@[simp] theorem advance_drbg (t : Nat) : (advance s t).drbg = s.drbg := by unfold advance; split <;> rfl
@[simp] theorem advance_maskGen (t : Nat) : (advance s t).maskGen = s.maskGen := by unfold advance; split <;> rfl
@[simp] theorem advance_busy (t : Nat) : (advance s t).busy = s.busy := by unfold advance; split <;> rfl

@[simp] theorem advance_now (t : Nat) : (advance s t).now = max s.now t := by
  unfold advance; split
  · rw [Nat.max_eq_left (by assumption)]
  · rw [Nat.max_eq_right (by omega)]
@[simp] theorem rd_advance (t a : Nat) : rd (advance s t) a = rd s a := by simp [rd]
@[simp] theorem rdWide_advance (t a : Nat) : rdWide (advance s t) a = rdWide s a := by simp [rdWide]
@[simp] theorem fld_advance (t a hi lo : Nat) : fld (advance s t) a hi lo = fld s a hi lo := by simp [fld]
@[simp] theorem bit_advance (t a i : Nat) : bit (advance s t) a i = bit s a i := by simp [bit]
@[simp] theorem effWord_advance (t c a : Nat) : effWord (advance s t) c a = effWord s c a := by simp [effWord]
@[simp] theorem eff_advance (t c a hi lo : Nat) : eff (advance s t) c a hi lo = eff s c a hi lo := by simp [eff]
@[simp] theorem effBit_advance (t c a i : Nat) : effBit (advance s t) c a i = effBit s c a i := by simp [effBit]
@[simp] theorem powerState_advance (t : Nat) : powerState (advance s t) = powerState s := by simp [powerState]
@[simp] theorem coreUp_advance (t : Nat) : coreUp (advance s t) = coreUp s := by simp [coreUp]
@[simp] theorem ownRunning_advance (t p : Nat) : ownRunning (advance s t) p = ownRunning s p := by simp [ownRunning]
@[simp] theorem running_advance (t p : Nat) : running (advance s t) p = running s p := by simp [running]
@[simp] theorem isFallow_advance (t p : Nat) : isFallow (advance s t) p = isFallow s p := by simp [isFallow]
@[simp] theorem bootReach_advance (t a : Nat) : bootReach (advance s t) a = bootReach s a := by simp [bootReach]

/-! ## Register words and fields -/

theorem wr_regs (a v : Nat) : (wr s a v).regs =
    if (BitVec.ofNat 24 v).toNat = resetWord s.fuses a then mapDel s.regs a else mapSet s.regs a (BitVec.ofNat 24 v) := rfl

theorem rd_wr_self (a v : Nat) : rd (wr s a v) a = v % 2 ^ 24 := by
  have e : (BitVec.ofNat 24 v).toNat = v % 2 ^ 24 := BitVec.toNat_ofNat v 24
  rw [rd, wr_regs, wr_fuses]
  by_cases h : (BitVec.ofNat 24 v).toNat = resetWord s.fuses a
  · rw [if_pos h, mapGet?_mapDel_self, ← e, h]
  · rw [if_neg h, mapGet?_mapSet_self, ← e]

theorem rd_wr_ne {a b : Nat} (v : Nat) (h : b ≠ a) : rd (wr s a v) b = rd s b := by
  rw [rd, wr_regs, wr_fuses, rd]
  by_cases c : (BitVec.ofNat 24 v).toNat = resetWord s.fuses a
  · rw [if_pos c, mapGet?_mapDel_ne _ h]
  · rw [if_neg c, mapGet?_mapSet_ne _ _ h]

theorem rd_wr (a b v : Nat) : rd (wr s a v) b = if b = a then v % 2 ^ 24 else rd s b := by
  split
  · subst b; exact rd_wr_self s a v
  · exact rd_wr_ne s v ‹_›

theorem bitsOf_lt (x hi lo : Nat) : bitsOf x hi lo < 2 ^ (hi + 1 - lo) := Nat.mod_lt _ (by positivity)

theorem testBit_setBits (x hi lo v j : Nat) (h : lo ≤ hi) :
    (setBits x hi lo v).testBit j = if hi < j then x.testBit j else if lo ≤ j then v.testBit (j - lo) else x.testBit j := by
  have e : setBits x hi lo v =
      2 ^ lo * (2 ^ (hi + 1 - lo) * (x / 2 ^ (hi + 1)) + v % 2 ^ (hi + 1 - lo)) + x % 2 ^ lo := by
    have : 2 ^ (hi + 1) = 2 ^ lo * 2 ^ (hi + 1 - lo) := by rw [← pow_add]; congr 1; omega
    unfold setBits
    rw [Nat.mul_add, ← Nat.mul_assoc, ← this, Nat.mul_comm (2 ^ (hi + 1)), Nat.mul_comm (2 ^ lo)]
  rw [e, Nat.testBit_two_pow_mul_add _ (Nat.mod_lt _ (by positivity)),
    Nat.testBit_two_pow_mul_add _ (Nat.mod_lt _ (by positivity))]
  by_cases h1 : j < lo
  · simp [h1, show ¬ hi < j by omega, show ¬ lo ≤ j by omega]
  · by_cases h2 : hi < j
    · simp only [h1, h2, if_true, if_false, show ¬ j - lo < hi + 1 - lo by omega, Nat.testBit_div_two_pow]
      congr 1; omega
    · simp [h1, h2, show j - lo < hi + 1 - lo by omega, show lo ≤ j by omega]

theorem testBit_bitsOf (x hi lo j : Nat) : (bitsOf x hi lo).testBit j = (decide (j < hi + 1 - lo) && x.testBit (j + lo)) := by
  simp [bitsOf, Nat.testBit_mod_two_pow, Nat.testBit_div_two_pow]

theorem bitsOf_setBits_self (x hi lo v : Nat) (h : lo ≤ hi) : bitsOf (setBits x hi lo v) hi lo = v % 2 ^ (hi + 1 - lo) := by
  apply Nat.eq_of_testBit_eq; intro j
  rw [testBit_bitsOf, testBit_setBits _ _ _ _ _ h, Nat.testBit_mod_two_pow]
  by_cases k : j < hi + 1 - lo
  · simp [k, show ¬ hi < j + lo by omega]
  · simp [k]

theorem bitsOf_setBits_ne (x hi lo v h l : Nat) (le : lo ≤ hi) (d : h < lo ∨ hi < l) :
    bitsOf (setBits x hi lo v) h l = bitsOf x h l := by
  apply Nat.eq_of_testBit_eq; intro j
  rw [testBit_bitsOf, testBit_bitsOf, testBit_setBits _ _ _ _ _ le]
  by_cases k : j < h + 1 - l
  · by_cases k2 : hi < j + l
    · simp [k2]
    · simp [k2, show ¬ lo ≤ j + l by omega]
  · simp [k]

theorem bitsOf_mod (x hi lo : Nat) (h : hi < 24) : bitsOf (x % 2 ^ 24) hi lo = bitsOf x hi lo := by
  apply Nat.eq_of_testBit_eq; intro j
  rw [testBit_bitsOf, testBit_bitsOf, Nat.testBit_mod_two_pow]
  by_cases k : j < hi + 1 - lo
  · simp [show j + lo < 24 by omega]
  · simp [k]

theorem fld_setFld_self (a hi lo v : Nat) (h : lo ≤ hi) (k : hi < 24) :
    fld (setFld s a hi lo v) a hi lo = v % 2 ^ (hi + 1 - lo) := by
  rw [fld, setFld, rd_wr_self, bitsOf_mod _ _ _ k, bitsOf_setBits_self _ _ _ _ h]

theorem fld_setFld_ne (a hi lo v h l : Nat) (le : lo ≤ hi) (k : h < 24) (d : h < lo ∨ hi < l) :
    fld (setFld s a hi lo v) a h l = fld s a h l := by
  rw [fld, setFld, rd_wr_self, bitsOf_mod _ _ _ k, bitsOf_setBits_ne _ _ _ _ _ _ le d, fld]

theorem rd_setFld_ne {a b : Nat} (hi lo v : Nat) (h : b ≠ a) : rd (setFld s a hi lo v) b = rd s b := rd_wr_ne s _ h

theorem rdWide_wrWide_self (a v : Nat) : rdWide (wrWide s a v) a = v := by
  unfold rdWide wrWide; simp [mapGet_mapPut]

theorem rdWide_wrWide_ne {a b : Nat} (v : Nat) (h : b ≠ a) : rdWide (wrWide s a v) b = rdWide s b := by
  unfold rdWide wrWide; simp [mapGet_mapPut, h]

end Sys2Proof.Machine
end

