-- ==== Sys2Proof/Laws/Fields.lean ====
section
/-! SUPPORT. What the writes of a field, a bit and a saturating counter leave as it was, field by field of State, and the same for
any reading of State that a register write or a moment leaves as it was. -/
namespace Sys2Proof.Machine

variable (s : State)

/-! ## A reading that does not look at the registers -/

theorem wr_keep {β : Type} (g : State → β) (h : ∀ (s : State) r, g { s with regs := r } = g s) (a v : Nat) : g (wr s a v) = g s :=
  h s _
theorem setFld_keep {β : Type} (g : State → β) (h : ∀ (s : State) r, g { s with regs := r } = g s) (a hi lo v : Nat) :
    g (setFld s a hi lo v) = g s := wr_keep s g h _ _
theorem addSat_keep {β : Type} (g : State → β) (h : ∀ (s : State) r, g { s with regs := r } = g s) (a n : Nat) :
    g (addSat s a n) = g s := wr_keep s g h _ _
theorem forEach_keep {α β : Type} (g : State → β) (f : State → α → State) (h : ∀ s x, g (f s x) = g s) (l : List α) :
    g (forEach l s f) = g s := by
  unfold forEach
  induction l generalizing s with
  | nil => rfl
  | cons a l ih => rw [List.foldl_cons, ih, h]

/-! ## setFld -/

@[simp] theorem setFld_pending (a hi lo v : Nat) : (setFld s a hi lo v).pending = s.pending := rfl
@[simp] theorem setFld_fuses (a hi lo v : Nat) : (setFld s a hi lo v).fuses = s.fuses := rfl
@[simp] theorem setFld_now (a hi lo v : Nat) : (setFld s a hi lo v).now = s.now := rfl
@[simp] theorem setFld_tbFrom (a hi lo v : Nat) : (setFld s a hi lo v).tbFrom = s.tbFrom := rfl
@[simp] theorem setFld_wide (a hi lo v : Nat) : (setFld s a hi lo v).wide = s.wide := rfl
@[simp] theorem setFld_bOld (a hi lo v : Nat) : (setFld s a hi lo v).bOld = s.bOld := rfl
@[simp] theorem setFld_capSeq (a hi lo v : Nat) : (setFld s a hi lo v).capSeq = s.capSeq := rfl
@[simp] theorem setFld_furrows (a hi lo v : Nat) : (setFld s a hi lo v).furrows = s.furrows := rfl
@[simp] theorem setFld_delivered (a hi lo v : Nat) : (setFld s a hi lo v).delivered = s.delivered := rfl
@[simp] theorem setFld_trigQ (a hi lo v : Nat) : (setFld s a hi lo v).trigQ = s.trigQ := rfl
@[simp] theorem setFld_stalled (a hi lo v : Nat) : (setFld s a hi lo v).stalled = s.stalled := rfl
@[simp] theorem setFld_hostRead (a hi lo v : Nat) : (setFld s a hi lo v).hostRead = s.hostRead := rfl
@[simp] theorem setFld_cfg (a hi lo v : Nat) : (setFld s a hi lo v).cfg = s.cfg := rfl
@[simp] theorem setFld_msix (a hi lo v : Nat) : (setFld s a hi lo v).msix = s.msix := rfl
@[simp] theorem setFld_outbox (a hi lo v : Nat) : (setFld s a hi lo v).outbox = s.outbox := rfl
@[simp] theorem setFld_freeCtr (a hi lo v : Nat) : (setFld s a hi lo v).freeCtr = s.freeCtr := rfl
@[simp] theorem setFld_frames (a hi lo v : Nat) : (setFld s a hi lo v).frames = s.frames := rfl
@[simp] theorem setFld_nextFrame (a hi lo v : Nat) : (setFld s a hi lo v).nextFrame = s.nextFrame := rfl
@[simp] theorem setFld_openFrame (a hi lo v : Nat) : (setFld s a hi lo v).openFrame = s.openFrame := rfl
@[simp] theorem setFld_dropping (a hi lo v : Nat) : (setFld s a hi lo v).dropping = s.dropping := rfl
@[simp] theorem setFld_withheld (a hi lo v : Nat) : (setFld s a hi lo v).withheld = s.withheld := rfl
@[simp] theorem setFld_outQ (a hi lo v : Nat) : (setFld s a hi lo v).outQ = s.outQ := rfl
@[simp] theorem setFld_inFlight (a hi lo v : Nat) : (setFld s a hi lo v).inFlight = s.inFlight := rfl
@[simp] theorem setFld_deficit (a hi lo v : Nat) : (setFld s a hi lo v).deficit = s.deficit := rfl
@[simp] theorem setFld_rrInput (a hi lo v : Nat) : (setFld s a hi lo v).rrInput = s.rrInput := rfl
@[simp] theorem setFld_rrClass (a hi lo v : Nat) : (setFld s a hi lo v).rrClass = s.rrClass := rfl
@[simp] theorem setFld_downSince (a hi lo v : Nat) : (setFld s a hi lo v).downSince = s.downSince := rfl
@[simp] theorem setFld_stuckSince (a hi lo v : Nat) : (setFld s a hi lo v).stuckSince = s.stuckSince := rfl
@[simp] theorem setFld_gateRun (a hi lo v : Nat) : (setFld s a hi lo v).gateRun = s.gateRun := rfl
@[simp] theorem setFld_streams (a hi lo v : Nat) : (setFld s a hi lo v).streams = s.streams := rfl
@[simp] theorem setFld_macReleased (a hi lo v : Nat) : (setFld s a hi lo v).macReleased = s.macReleased := rfl
@[simp] theorem setFld_rowsOut (a hi lo v : Nat) : (setFld s a hi lo v).rowsOut = s.rowsOut := rfl
@[simp] theorem setFld_tables (a hi lo v : Nat) : (setFld s a hi lo v).tables = s.tables := rfl
@[simp] theorem setFld_tpend (a hi lo v : Nat) : (setFld s a hi lo v).tpend = s.tpend := rfl
@[simp] theorem setFld_tquar (a hi lo v : Nat) : (setFld s a hi lo v).tquar = s.tquar := rfl
@[simp] theorem setFld_polState (a hi lo v : Nat) : (setFld s a hi lo v).polState = s.polState := rfl
@[simp] theorem setFld_heads (a hi lo v : Nat) : (setFld s a hi lo v).heads = s.heads := rfl
@[simp] theorem setFld_verdicts (a hi lo v : Nat) : (setFld s a hi lo v).verdicts = s.verdicts := rfl
@[simp] theorem setFld_learnQ (a hi lo v : Nat) : (setFld s a hi lo v).learnQ = s.learnQ := rfl
@[simp] theorem setFld_trackers (a hi lo v : Nat) : (setFld s a hi lo v).trackers = s.trackers := rfl
@[simp] theorem setFld_sweepPos (a hi lo v : Nat) : (setFld s a hi lo v).sweepPos = s.sweepPos := rfl
@[simp] theorem setFld_sweeps (a hi lo v : Nat) : (setFld s a hi lo v).sweeps = s.sweeps := rfl
@[simp] theorem setFld_lostEvents (a hi lo v : Nat) : (setFld s a hi lo v).lostEvents = s.lostEvents := rfl
@[simp] theorem setFld_harrowPos (a hi lo v : Nat) : (setFld s a hi lo v).harrowPos = s.harrowPos := rfl
@[simp] theorem setFld_harrowFlags (a hi lo v : Nat) : (setFld s a hi lo v).harrowFlags = s.harrowFlags := rfl
@[simp] theorem setFld_gateFaults (a hi lo v : Nat) : (setFld s a hi lo v).gateFaults = s.gateFaults := rfl
@[simp] theorem setFld_slots (a hi lo v : Nat) : (setFld s a hi lo v).slots = s.slots := rfl
@[simp] theorem setFld_deadSlots (a hi lo v : Nat) : (setFld s a hi lo v).deadSlots = s.deadSlots := rfl
@[simp] theorem setFld_rxStates (a hi lo v : Nat) : (setFld s a hi lo v).rxStates = s.rxStates := rfl
@[simp] theorem setFld_txStates (a hi lo v : Nat) : (setFld s a hi lo v).txStates = s.txStates := rfl
@[simp] theorem setFld_sendQ (a hi lo v : Nat) : (setFld s a hi lo v).sendQ = s.sendQ := rfl
@[simp] theorem setFld_seen (a hi lo v : Nat) : (setFld s a hi lo v).seen = s.seen := rfl
@[simp] theorem setFld_tick (a hi lo v : Nat) : (setFld s a hi lo v).tick = s.tick := rfl
@[simp] theorem setFld_activeAt (a hi lo v : Nat) : (setFld s a hi lo v).activeAt = s.activeAt := rfl
@[simp] theorem setFld_tplSeq (a hi lo v : Nat) : (setFld s a hi lo v).tplSeq = s.tplSeq := rfl
@[simp] theorem setFld_can (a hi lo v : Nat) : (setFld s a hi lo v).can = s.can := rfl
@[simp] theorem setFld_canReq (a hi lo v : Nat) : (setFld s a hi lo v).canReq = s.canReq := rfl
@[simp] theorem setFld_canReqNext (a hi lo v : Nat) : (setFld s a hi lo v).canReqNext = s.canReqNext := rfl
@[simp] theorem setFld_canQueue (a hi lo v : Nat) : (setFld s a hi lo v).canQueue = s.canQueue := rfl
@[simp] theorem setFld_canLimits (a hi lo v : Nat) : (setFld s a hi lo v).canLimits = s.canLimits := rfl
@[simp] theorem setFld_lin (a hi lo v : Nat) : (setFld s a hi lo v).lin = s.lin := rfl
@[simp] theorem setFld_linMark (a hi lo v : Nat) : (setFld s a hi lo v).linMark = s.linMark := rfl
@[simp] theorem setFld_timeFine (a hi lo v : Nat) : (setFld s a hi lo v).timeFine = s.timeFine := rfl
@[simp] theorem setFld_mac (a hi lo v : Nat) : (setFld s a hi lo v).mac = s.mac := rfl
@[simp] theorem setFld_fcSentAt (a hi lo v : Nat) : (setFld s a hi lo v).fcSentAt = s.fcSentAt := rfl
@[simp] theorem setFld_clusters (a hi lo v : Nat) : (setFld s a hi lo v).clusters = s.clusters := rfl
@[simp] theorem setFld_keepAwake (a hi lo v : Nat) : (setFld s a hi lo v).keepAwake = s.keepAwake := rfl
@[simp] theorem setFld_trxMode (a hi lo v : Nat) : (setFld s a hi lo v).trxMode = s.trxMode := rfl
@[simp] theorem setFld_armed (a hi lo v : Nat) : (setFld s a hi lo v).armed = s.armed := rfl
@[simp] theorem setFld_fwWait (a hi lo v : Nat) : (setFld s a hi lo v).fwWait = s.fwWait := rfl
@[simp] theorem setFld_fwFrom (a hi lo v : Nat) : (setFld s a hi lo v).fwFrom = s.fwFrom := rfl
@[simp] theorem setFld_failsafe (a hi lo v : Nat) : (setFld s a hi lo v).failsafe = s.failsafe := rfl
@[simp] theorem setFld_heartbeatAt (a hi lo v : Nat) : (setFld s a hi lo v).heartbeatAt = s.heartbeatAt := rfl
@[simp] theorem setFld_latched (a hi lo v : Nat) : (setFld s a hi lo v).latched = s.latched := rfl
@[simp] theorem setFld_linWakeCmd (a hi lo v : Nat) : (setFld s a hi lo v).linWakeCmd = s.linWakeCmd := rfl
@[simp] theorem setFld_wakeHints (a hi lo v : Nat) : (setFld s a hi lo v).wakeHints = s.wakeHints := rfl
@[simp] theorem setFld_laneQ (a hi lo v : Nat) : (setFld s a hi lo v).laneQ = s.laneQ := rfl
@[simp] theorem setFld_lanes (a hi lo v : Nat) : (setFld s a hi lo v).lanes = s.lanes := rfl
@[simp] theorem setFld_macOut (a hi lo v : Nat) : (setFld s a hi lo v).macOut = s.macOut := rfl
@[simp] theorem setFld_laneSeq (a hi lo v : Nat) : (setFld s a hi lo v).laneSeq = s.laneSeq := rfl
@[simp] theorem setFld_keys (a hi lo v : Nat) : (setFld s a hi lo v).keys = s.keys := rfl
@[simp] theorem setFld_keysRetired (a hi lo v : Nat) : (setFld s a hi lo v).keysRetired = s.keysRetired := rfl
@[simp] theorem setFld_keysSaving (a hi lo v : Nat) : (setFld s a hi lo v).keysSaving = s.keysSaving := rfl
@[simp] theorem setFld_keyRecs (a hi lo v : Nat) : (setFld s a hi lo v).keyRecs = s.keyRecs := rfl
@[simp] theorem setFld_fvSaved (a hi lo v : Nat) : (setFld s a hi lo v).fvSaved = s.fvSaved := rfl
@[simp] theorem setFld_roots (a hi lo v : Nat) : (setFld s a hi lo v).roots = s.roots := rfl
@[simp] theorem setFld_fuseLc (a hi lo v : Nat) : (setFld s a hi lo v).fuseLc = s.fuseLc := rfl
@[simp] theorem setFld_fuseEpoch (a hi lo v : Nat) : (setFld s a hi lo v).fuseEpoch = s.fuseEpoch := rfl
@[simp] theorem setFld_cvRun (a hi lo v : Nat) : (setFld s a hi lo v).cvRun = s.cvRun := rfl
@[simp] theorem setFld_ledger (a hi lo v : Nat) : (setFld s a hi lo v).ledger = s.ledger := rfl
@[simp] theorem setFld_roster (a hi lo v : Nat) : (setFld s a hi lo v).roster = s.roster := rfl
@[simp] theorem setFld_unrostered (a hi lo v : Nat) : (setFld s a hi lo v).unrostered = s.unrostered := rfl
@[simp] theorem setFld_awaitTest (a hi lo v : Nat) : (setFld s a hi lo v).awaitTest = s.awaitTest := rfl
@[simp] theorem setFld_fallow (a hi lo v : Nat) : (setFld s a hi lo v).fallow = s.fallow := rfl
@[simp] theorem setFld_stallRetry (a hi lo v : Nat) : (setFld s a hi lo v).stallRetry = s.stallRetry := rfl
@[simp] theorem setFld_monLive (a hi lo v : Nat) : (setFld s a hi lo v).monLive = s.monLive := rfl
@[simp] theorem setFld_pace (a hi lo v : Nat) : (setFld s a hi lo v).pace = s.pace := rfl
@[simp] theorem setFld_banks (a hi lo v : Nat) : (setFld s a hi lo v).banks = s.banks := rfl
@[simp] theorem setFld_settings (a hi lo v : Nat) : (setFld s a hi lo v).settings = s.settings := rfl
@[simp] theorem setFld_settingsOld (a hi lo v : Nat) : (setFld s a hi lo v).settingsOld = s.settingsOld := rfl
@[simp] theorem setFld_turn (a hi lo v : Nat) : (setFld s a hi lo v).turn = s.turn := rfl
@[simp] theorem setFld_updArmedAt (a hi lo v : Nat) : (setFld s a hi lo v).updArmedAt = s.updArmedAt := rfl
@[simp] theorem setFld_linkSeq (a hi lo v : Nat) : (setFld s a hi lo v).linkSeq = s.linkSeq := rfl
@[simp] theorem setFld_links (a hi lo v : Nat) : (setFld s a hi lo v).links = s.links := rfl
@[simp] theorem setFld_remoteAcc (a hi lo v : Nat) : (setFld s a hi lo v).remoteAcc = s.remoteAcc := rfl
@[simp] theorem setFld_remoteTag (a hi lo v : Nat) : (setFld s a hi lo v).remoteTag = s.remoteTag := rfl
@[simp] theorem setFld_remoteIn (a hi lo v : Nat) : (setFld s a hi lo v).remoteIn = s.remoteIn := rfl
@[simp] theorem setFld_pair (a hi lo v : Nat) : (setFld s a hi lo v).pair = s.pair := rfl
@[simp] theorem setFld_htxStalled (a hi lo v : Nat) : (setFld s a hi lo v).htxStalled = s.htxStalled := rfl
@[simp] theorem setFld_hrxSignal (a hi lo v : Nat) : (setFld s a hi lo v).hrxSignal = s.hrxSignal := rfl
@[simp] theorem setFld_sup (a hi lo v : Nat) : (setFld s a hi lo v).sup = s.sup := rfl
@[simp] theorem setFld_power (a hi lo v : Nat) : (setFld s a hi lo v).power = s.power := rfl
@[simp] theorem setFld_winKept (a hi lo v : Nat) : (setFld s a hi lo v).winKept = s.winKept := rfl
@[simp] theorem setFld_yields (a hi lo v : Nat) : (setFld s a hi lo v).yields = s.yields := rfl
@[simp] theorem setFld_cmds (a hi lo v : Nat) : (setFld s a hi lo v).cmds = s.cmds := rfl
@[simp] theorem setFld_grpOwn (a hi lo v : Nat) : (setFld s a hi lo v).grpOwn = s.grpOwn := rfl
@[simp] theorem setFld_rrCell (a hi lo v : Nat) : (setFld s a hi lo v).rrCell = s.rrCell := rfl
@[simp] theorem setFld_rrBlock (a hi lo v : Nat) : (setFld s a hi lo v).rrBlock = s.rrBlock := rfl
@[simp] theorem setFld_mbLast (a hi lo v : Nat) : (setFld s a hi lo v).mbLast = s.mbLast := rfl
@[simp] theorem setFld_tickAt (a hi lo v : Nat) : (setFld s a hi lo v).tickAt = s.tickAt := rfl
@[simp] theorem setFld_heldFrom (a hi lo v : Nat) : (setFld s a hi lo v).heldFrom = s.heldFrom := rfl
@[simp] theorem setFld_drained (a hi lo v : Nat) : (setFld s a hi lo v).drained = s.drained := rfl
@[simp] theorem setFld_crossings (a hi lo v : Nat) : (setFld s a hi lo v).crossings = s.crossings := rfl
@[simp] theorem setFld_handledAt (a hi lo v : Nat) : (setFld s a hi lo v).handledAt = s.handledAt := rfl
@[simp] theorem setFld_sampledAt (a hi lo v : Nat) : (setFld s a hi lo v).sampledAt = s.sampledAt := rfl
@[simp] theorem setFld_hrxErrs (a hi lo v : Nat) : (setFld s a hi lo v).hrxErrs = s.hrxErrs := rfl
@[simp] theorem setFld_regsAt (a hi lo v : Nat) : (setFld s a hi lo v).regsAt = s.regsAt := rfl
@[simp] theorem setFld_setNow (a hi lo v : Nat) : (setFld s a hi lo v).setNow = s.setNow := rfl
@[simp] theorem setFld_escBuf (a hi lo v : Nat) : (setFld s a hi lo v).escBuf = s.escBuf := rfl
@[simp] theorem setFld_recFaulty (a hi lo v : Nat) : (setFld s a hi lo v).recFaulty = s.recFaulty := rfl
@[simp] theorem setFld_held (a hi lo v : Nat) : (setFld s a hi lo v).held = s.held := rfl
@[simp] theorem setFld_retained (a hi lo v : Nat) : (setFld s a hi lo v).retained = s.retained := rfl
@[simp] theorem setFld_relWait (a hi lo v : Nat) : (setFld s a hi lo v).relWait = s.relWait := rfl
@[simp] theorem setFld_movedAt (a hi lo v : Nat) : (setFld s a hi lo v).movedAt = s.movedAt := rfl
@[simp] theorem setFld_timeLog (a hi lo v : Nat) : (setFld s a hi lo v).timeLog = s.timeLog := rfl
@[simp] theorem setFld_fallowKnown (a hi lo v : Nat) : (setFld s a hi lo v).fallowKnown = s.fallowKnown := rfl
@[simp] theorem setFld_keyWork (a hi lo v : Nat) : (setFld s a hi lo v).keyWork = s.keyWork := rfl
@[simp] theorem setFld_drbg (a hi lo v : Nat) : (setFld s a hi lo v).drbg = s.drbg := rfl
@[simp] theorem setFld_maskGen (a hi lo v : Nat) : (setFld s a hi lo v).maskGen = s.maskGen := rfl
@[simp] theorem setFld_busy (a hi lo v : Nat) : (setFld s a hi lo v).busy = s.busy := rfl

/-! ## setBit -/

@[simp] theorem setBit_pending (a i : Nat) : (setBit s a i).pending = s.pending := rfl
@[simp] theorem setBit_fuses (a i : Nat) : (setBit s a i).fuses = s.fuses := rfl
@[simp] theorem setBit_now (a i : Nat) : (setBit s a i).now = s.now := rfl
@[simp] theorem setBit_tbFrom (a i : Nat) : (setBit s a i).tbFrom = s.tbFrom := rfl
@[simp] theorem setBit_wide (a i : Nat) : (setBit s a i).wide = s.wide := rfl
@[simp] theorem setBit_bOld (a i : Nat) : (setBit s a i).bOld = s.bOld := rfl
@[simp] theorem setBit_capSeq (a i : Nat) : (setBit s a i).capSeq = s.capSeq := rfl
@[simp] theorem setBit_furrows (a i : Nat) : (setBit s a i).furrows = s.furrows := rfl
@[simp] theorem setBit_delivered (a i : Nat) : (setBit s a i).delivered = s.delivered := rfl
@[simp] theorem setBit_trigQ (a i : Nat) : (setBit s a i).trigQ = s.trigQ := rfl
@[simp] theorem setBit_stalled (a i : Nat) : (setBit s a i).stalled = s.stalled := rfl
@[simp] theorem setBit_hostRead (a i : Nat) : (setBit s a i).hostRead = s.hostRead := rfl
@[simp] theorem setBit_cfg (a i : Nat) : (setBit s a i).cfg = s.cfg := rfl
@[simp] theorem setBit_msix (a i : Nat) : (setBit s a i).msix = s.msix := rfl
@[simp] theorem setBit_outbox (a i : Nat) : (setBit s a i).outbox = s.outbox := rfl
@[simp] theorem setBit_freeCtr (a i : Nat) : (setBit s a i).freeCtr = s.freeCtr := rfl
@[simp] theorem setBit_frames (a i : Nat) : (setBit s a i).frames = s.frames := rfl
@[simp] theorem setBit_nextFrame (a i : Nat) : (setBit s a i).nextFrame = s.nextFrame := rfl
@[simp] theorem setBit_openFrame (a i : Nat) : (setBit s a i).openFrame = s.openFrame := rfl
@[simp] theorem setBit_dropping (a i : Nat) : (setBit s a i).dropping = s.dropping := rfl
@[simp] theorem setBit_withheld (a i : Nat) : (setBit s a i).withheld = s.withheld := rfl
@[simp] theorem setBit_outQ (a i : Nat) : (setBit s a i).outQ = s.outQ := rfl
@[simp] theorem setBit_inFlight (a i : Nat) : (setBit s a i).inFlight = s.inFlight := rfl
@[simp] theorem setBit_deficit (a i : Nat) : (setBit s a i).deficit = s.deficit := rfl
@[simp] theorem setBit_rrInput (a i : Nat) : (setBit s a i).rrInput = s.rrInput := rfl
@[simp] theorem setBit_rrClass (a i : Nat) : (setBit s a i).rrClass = s.rrClass := rfl
@[simp] theorem setBit_downSince (a i : Nat) : (setBit s a i).downSince = s.downSince := rfl
@[simp] theorem setBit_stuckSince (a i : Nat) : (setBit s a i).stuckSince = s.stuckSince := rfl
@[simp] theorem setBit_gateRun (a i : Nat) : (setBit s a i).gateRun = s.gateRun := rfl
@[simp] theorem setBit_streams (a i : Nat) : (setBit s a i).streams = s.streams := rfl
@[simp] theorem setBit_macReleased (a i : Nat) : (setBit s a i).macReleased = s.macReleased := rfl
@[simp] theorem setBit_rowsOut (a i : Nat) : (setBit s a i).rowsOut = s.rowsOut := rfl
@[simp] theorem setBit_tables (a i : Nat) : (setBit s a i).tables = s.tables := rfl
@[simp] theorem setBit_tpend (a i : Nat) : (setBit s a i).tpend = s.tpend := rfl
@[simp] theorem setBit_tquar (a i : Nat) : (setBit s a i).tquar = s.tquar := rfl
@[simp] theorem setBit_polState (a i : Nat) : (setBit s a i).polState = s.polState := rfl
@[simp] theorem setBit_heads (a i : Nat) : (setBit s a i).heads = s.heads := rfl
@[simp] theorem setBit_verdicts (a i : Nat) : (setBit s a i).verdicts = s.verdicts := rfl
@[simp] theorem setBit_learnQ (a i : Nat) : (setBit s a i).learnQ = s.learnQ := rfl
@[simp] theorem setBit_trackers (a i : Nat) : (setBit s a i).trackers = s.trackers := rfl
@[simp] theorem setBit_sweepPos (a i : Nat) : (setBit s a i).sweepPos = s.sweepPos := rfl
@[simp] theorem setBit_sweeps (a i : Nat) : (setBit s a i).sweeps = s.sweeps := rfl
@[simp] theorem setBit_lostEvents (a i : Nat) : (setBit s a i).lostEvents = s.lostEvents := rfl
@[simp] theorem setBit_harrowPos (a i : Nat) : (setBit s a i).harrowPos = s.harrowPos := rfl
@[simp] theorem setBit_harrowFlags (a i : Nat) : (setBit s a i).harrowFlags = s.harrowFlags := rfl
@[simp] theorem setBit_gateFaults (a i : Nat) : (setBit s a i).gateFaults = s.gateFaults := rfl
@[simp] theorem setBit_slots (a i : Nat) : (setBit s a i).slots = s.slots := rfl
@[simp] theorem setBit_deadSlots (a i : Nat) : (setBit s a i).deadSlots = s.deadSlots := rfl
@[simp] theorem setBit_rxStates (a i : Nat) : (setBit s a i).rxStates = s.rxStates := rfl
@[simp] theorem setBit_txStates (a i : Nat) : (setBit s a i).txStates = s.txStates := rfl
@[simp] theorem setBit_sendQ (a i : Nat) : (setBit s a i).sendQ = s.sendQ := rfl
@[simp] theorem setBit_seen (a i : Nat) : (setBit s a i).seen = s.seen := rfl
@[simp] theorem setBit_tick (a i : Nat) : (setBit s a i).tick = s.tick := rfl
@[simp] theorem setBit_activeAt (a i : Nat) : (setBit s a i).activeAt = s.activeAt := rfl
@[simp] theorem setBit_tplSeq (a i : Nat) : (setBit s a i).tplSeq = s.tplSeq := rfl
@[simp] theorem setBit_can (a i : Nat) : (setBit s a i).can = s.can := rfl
@[simp] theorem setBit_canReq (a i : Nat) : (setBit s a i).canReq = s.canReq := rfl
@[simp] theorem setBit_canReqNext (a i : Nat) : (setBit s a i).canReqNext = s.canReqNext := rfl
@[simp] theorem setBit_canQueue (a i : Nat) : (setBit s a i).canQueue = s.canQueue := rfl
@[simp] theorem setBit_canLimits (a i : Nat) : (setBit s a i).canLimits = s.canLimits := rfl
@[simp] theorem setBit_lin (a i : Nat) : (setBit s a i).lin = s.lin := rfl
@[simp] theorem setBit_linMark (a i : Nat) : (setBit s a i).linMark = s.linMark := rfl
@[simp] theorem setBit_timeFine (a i : Nat) : (setBit s a i).timeFine = s.timeFine := rfl
@[simp] theorem setBit_mac (a i : Nat) : (setBit s a i).mac = s.mac := rfl
@[simp] theorem setBit_fcSentAt (a i : Nat) : (setBit s a i).fcSentAt = s.fcSentAt := rfl
@[simp] theorem setBit_clusters (a i : Nat) : (setBit s a i).clusters = s.clusters := rfl
@[simp] theorem setBit_keepAwake (a i : Nat) : (setBit s a i).keepAwake = s.keepAwake := rfl
@[simp] theorem setBit_trxMode (a i : Nat) : (setBit s a i).trxMode = s.trxMode := rfl
@[simp] theorem setBit_armed (a i : Nat) : (setBit s a i).armed = s.armed := rfl
@[simp] theorem setBit_fwWait (a i : Nat) : (setBit s a i).fwWait = s.fwWait := rfl
@[simp] theorem setBit_fwFrom (a i : Nat) : (setBit s a i).fwFrom = s.fwFrom := rfl
@[simp] theorem setBit_failsafe (a i : Nat) : (setBit s a i).failsafe = s.failsafe := rfl
@[simp] theorem setBit_heartbeatAt (a i : Nat) : (setBit s a i).heartbeatAt = s.heartbeatAt := rfl
@[simp] theorem setBit_latched (a i : Nat) : (setBit s a i).latched = s.latched := rfl
@[simp] theorem setBit_linWakeCmd (a i : Nat) : (setBit s a i).linWakeCmd = s.linWakeCmd := rfl
@[simp] theorem setBit_wakeHints (a i : Nat) : (setBit s a i).wakeHints = s.wakeHints := rfl
@[simp] theorem setBit_laneQ (a i : Nat) : (setBit s a i).laneQ = s.laneQ := rfl
@[simp] theorem setBit_lanes (a i : Nat) : (setBit s a i).lanes = s.lanes := rfl
@[simp] theorem setBit_macOut (a i : Nat) : (setBit s a i).macOut = s.macOut := rfl
@[simp] theorem setBit_laneSeq (a i : Nat) : (setBit s a i).laneSeq = s.laneSeq := rfl
@[simp] theorem setBit_keys (a i : Nat) : (setBit s a i).keys = s.keys := rfl
@[simp] theorem setBit_keysRetired (a i : Nat) : (setBit s a i).keysRetired = s.keysRetired := rfl
@[simp] theorem setBit_keysSaving (a i : Nat) : (setBit s a i).keysSaving = s.keysSaving := rfl
@[simp] theorem setBit_keyRecs (a i : Nat) : (setBit s a i).keyRecs = s.keyRecs := rfl
@[simp] theorem setBit_fvSaved (a i : Nat) : (setBit s a i).fvSaved = s.fvSaved := rfl
@[simp] theorem setBit_roots (a i : Nat) : (setBit s a i).roots = s.roots := rfl
@[simp] theorem setBit_fuseLc (a i : Nat) : (setBit s a i).fuseLc = s.fuseLc := rfl
@[simp] theorem setBit_fuseEpoch (a i : Nat) : (setBit s a i).fuseEpoch = s.fuseEpoch := rfl
@[simp] theorem setBit_cvRun (a i : Nat) : (setBit s a i).cvRun = s.cvRun := rfl
@[simp] theorem setBit_ledger (a i : Nat) : (setBit s a i).ledger = s.ledger := rfl
@[simp] theorem setBit_roster (a i : Nat) : (setBit s a i).roster = s.roster := rfl
@[simp] theorem setBit_unrostered (a i : Nat) : (setBit s a i).unrostered = s.unrostered := rfl
@[simp] theorem setBit_awaitTest (a i : Nat) : (setBit s a i).awaitTest = s.awaitTest := rfl
@[simp] theorem setBit_fallow (a i : Nat) : (setBit s a i).fallow = s.fallow := rfl
@[simp] theorem setBit_stallRetry (a i : Nat) : (setBit s a i).stallRetry = s.stallRetry := rfl
@[simp] theorem setBit_monLive (a i : Nat) : (setBit s a i).monLive = s.monLive := rfl
@[simp] theorem setBit_pace (a i : Nat) : (setBit s a i).pace = s.pace := rfl
@[simp] theorem setBit_banks (a i : Nat) : (setBit s a i).banks = s.banks := rfl
@[simp] theorem setBit_settings (a i : Nat) : (setBit s a i).settings = s.settings := rfl
@[simp] theorem setBit_settingsOld (a i : Nat) : (setBit s a i).settingsOld = s.settingsOld := rfl
@[simp] theorem setBit_turn (a i : Nat) : (setBit s a i).turn = s.turn := rfl
@[simp] theorem setBit_updArmedAt (a i : Nat) : (setBit s a i).updArmedAt = s.updArmedAt := rfl
@[simp] theorem setBit_linkSeq (a i : Nat) : (setBit s a i).linkSeq = s.linkSeq := rfl
@[simp] theorem setBit_links (a i : Nat) : (setBit s a i).links = s.links := rfl
@[simp] theorem setBit_remoteAcc (a i : Nat) : (setBit s a i).remoteAcc = s.remoteAcc := rfl
@[simp] theorem setBit_remoteTag (a i : Nat) : (setBit s a i).remoteTag = s.remoteTag := rfl
@[simp] theorem setBit_remoteIn (a i : Nat) : (setBit s a i).remoteIn = s.remoteIn := rfl
@[simp] theorem setBit_pair (a i : Nat) : (setBit s a i).pair = s.pair := rfl
@[simp] theorem setBit_htxStalled (a i : Nat) : (setBit s a i).htxStalled = s.htxStalled := rfl
@[simp] theorem setBit_hrxSignal (a i : Nat) : (setBit s a i).hrxSignal = s.hrxSignal := rfl
@[simp] theorem setBit_sup (a i : Nat) : (setBit s a i).sup = s.sup := rfl
@[simp] theorem setBit_power (a i : Nat) : (setBit s a i).power = s.power := rfl
@[simp] theorem setBit_winKept (a i : Nat) : (setBit s a i).winKept = s.winKept := rfl
@[simp] theorem setBit_yields (a i : Nat) : (setBit s a i).yields = s.yields := rfl
@[simp] theorem setBit_cmds (a i : Nat) : (setBit s a i).cmds = s.cmds := rfl
@[simp] theorem setBit_grpOwn (a i : Nat) : (setBit s a i).grpOwn = s.grpOwn := rfl
@[simp] theorem setBit_rrCell (a i : Nat) : (setBit s a i).rrCell = s.rrCell := rfl
@[simp] theorem setBit_rrBlock (a i : Nat) : (setBit s a i).rrBlock = s.rrBlock := rfl
@[simp] theorem setBit_mbLast (a i : Nat) : (setBit s a i).mbLast = s.mbLast := rfl
@[simp] theorem setBit_tickAt (a i : Nat) : (setBit s a i).tickAt = s.tickAt := rfl
@[simp] theorem setBit_heldFrom (a i : Nat) : (setBit s a i).heldFrom = s.heldFrom := rfl
@[simp] theorem setBit_drained (a i : Nat) : (setBit s a i).drained = s.drained := rfl
@[simp] theorem setBit_crossings (a i : Nat) : (setBit s a i).crossings = s.crossings := rfl
@[simp] theorem setBit_handledAt (a i : Nat) : (setBit s a i).handledAt = s.handledAt := rfl
@[simp] theorem setBit_sampledAt (a i : Nat) : (setBit s a i).sampledAt = s.sampledAt := rfl
@[simp] theorem setBit_hrxErrs (a i : Nat) : (setBit s a i).hrxErrs = s.hrxErrs := rfl
@[simp] theorem setBit_regsAt (a i : Nat) : (setBit s a i).regsAt = s.regsAt := rfl
@[simp] theorem setBit_escBuf (a i : Nat) : (setBit s a i).escBuf = s.escBuf := rfl
@[simp] theorem setBit_recFaulty (a i : Nat) : (setBit s a i).recFaulty = s.recFaulty := rfl
@[simp] theorem setBit_held (a i : Nat) : (setBit s a i).held = s.held := rfl
@[simp] theorem setBit_retained (a i : Nat) : (setBit s a i).retained = s.retained := rfl
@[simp] theorem setBit_relWait (a i : Nat) : (setBit s a i).relWait = s.relWait := rfl
@[simp] theorem setBit_movedAt (a i : Nat) : (setBit s a i).movedAt = s.movedAt := rfl
@[simp] theorem setBit_timeLog (a i : Nat) : (setBit s a i).timeLog = s.timeLog := rfl
@[simp] theorem setBit_fallowKnown (a i : Nat) : (setBit s a i).fallowKnown = s.fallowKnown := rfl
@[simp] theorem setBit_keyWork (a i : Nat) : (setBit s a i).keyWork = s.keyWork := rfl
@[simp] theorem setBit_drbg (a i : Nat) : (setBit s a i).drbg = s.drbg := rfl
@[simp] theorem setBit_maskGen (a i : Nat) : (setBit s a i).maskGen = s.maskGen := rfl
@[simp] theorem setBit_busy (a i : Nat) : (setBit s a i).busy = s.busy := rfl

/-! ## clrBit -/

@[simp] theorem clrBit_pending (a i : Nat) : (clrBit s a i).pending = s.pending := rfl
@[simp] theorem clrBit_fuses (a i : Nat) : (clrBit s a i).fuses = s.fuses := rfl
@[simp] theorem clrBit_now (a i : Nat) : (clrBit s a i).now = s.now := rfl
@[simp] theorem clrBit_tbFrom (a i : Nat) : (clrBit s a i).tbFrom = s.tbFrom := rfl
@[simp] theorem clrBit_wide (a i : Nat) : (clrBit s a i).wide = s.wide := rfl
@[simp] theorem clrBit_bOld (a i : Nat) : (clrBit s a i).bOld = s.bOld := rfl
@[simp] theorem clrBit_capSeq (a i : Nat) : (clrBit s a i).capSeq = s.capSeq := rfl
@[simp] theorem clrBit_furrows (a i : Nat) : (clrBit s a i).furrows = s.furrows := rfl
@[simp] theorem clrBit_delivered (a i : Nat) : (clrBit s a i).delivered = s.delivered := rfl
@[simp] theorem clrBit_trigQ (a i : Nat) : (clrBit s a i).trigQ = s.trigQ := rfl
@[simp] theorem clrBit_stalled (a i : Nat) : (clrBit s a i).stalled = s.stalled := rfl
@[simp] theorem clrBit_hostRead (a i : Nat) : (clrBit s a i).hostRead = s.hostRead := rfl
@[simp] theorem clrBit_cfg (a i : Nat) : (clrBit s a i).cfg = s.cfg := rfl
@[simp] theorem clrBit_msix (a i : Nat) : (clrBit s a i).msix = s.msix := rfl
@[simp] theorem clrBit_outbox (a i : Nat) : (clrBit s a i).outbox = s.outbox := rfl
@[simp] theorem clrBit_freeCtr (a i : Nat) : (clrBit s a i).freeCtr = s.freeCtr := rfl
@[simp] theorem clrBit_frames (a i : Nat) : (clrBit s a i).frames = s.frames := rfl
@[simp] theorem clrBit_nextFrame (a i : Nat) : (clrBit s a i).nextFrame = s.nextFrame := rfl
@[simp] theorem clrBit_openFrame (a i : Nat) : (clrBit s a i).openFrame = s.openFrame := rfl
@[simp] theorem clrBit_dropping (a i : Nat) : (clrBit s a i).dropping = s.dropping := rfl
@[simp] theorem clrBit_withheld (a i : Nat) : (clrBit s a i).withheld = s.withheld := rfl
@[simp] theorem clrBit_outQ (a i : Nat) : (clrBit s a i).outQ = s.outQ := rfl
@[simp] theorem clrBit_inFlight (a i : Nat) : (clrBit s a i).inFlight = s.inFlight := rfl
@[simp] theorem clrBit_deficit (a i : Nat) : (clrBit s a i).deficit = s.deficit := rfl
@[simp] theorem clrBit_rrInput (a i : Nat) : (clrBit s a i).rrInput = s.rrInput := rfl
@[simp] theorem clrBit_rrClass (a i : Nat) : (clrBit s a i).rrClass = s.rrClass := rfl
@[simp] theorem clrBit_downSince (a i : Nat) : (clrBit s a i).downSince = s.downSince := rfl
@[simp] theorem clrBit_stuckSince (a i : Nat) : (clrBit s a i).stuckSince = s.stuckSince := rfl
@[simp] theorem clrBit_gateRun (a i : Nat) : (clrBit s a i).gateRun = s.gateRun := rfl
@[simp] theorem clrBit_streams (a i : Nat) : (clrBit s a i).streams = s.streams := rfl
@[simp] theorem clrBit_macReleased (a i : Nat) : (clrBit s a i).macReleased = s.macReleased := rfl
@[simp] theorem clrBit_rowsOut (a i : Nat) : (clrBit s a i).rowsOut = s.rowsOut := rfl
@[simp] theorem clrBit_tables (a i : Nat) : (clrBit s a i).tables = s.tables := rfl
@[simp] theorem clrBit_tpend (a i : Nat) : (clrBit s a i).tpend = s.tpend := rfl
@[simp] theorem clrBit_tquar (a i : Nat) : (clrBit s a i).tquar = s.tquar := rfl
@[simp] theorem clrBit_polState (a i : Nat) : (clrBit s a i).polState = s.polState := rfl
@[simp] theorem clrBit_heads (a i : Nat) : (clrBit s a i).heads = s.heads := rfl
@[simp] theorem clrBit_verdicts (a i : Nat) : (clrBit s a i).verdicts = s.verdicts := rfl
@[simp] theorem clrBit_learnQ (a i : Nat) : (clrBit s a i).learnQ = s.learnQ := rfl
@[simp] theorem clrBit_trackers (a i : Nat) : (clrBit s a i).trackers = s.trackers := rfl
@[simp] theorem clrBit_sweepPos (a i : Nat) : (clrBit s a i).sweepPos = s.sweepPos := rfl
@[simp] theorem clrBit_sweeps (a i : Nat) : (clrBit s a i).sweeps = s.sweeps := rfl
@[simp] theorem clrBit_lostEvents (a i : Nat) : (clrBit s a i).lostEvents = s.lostEvents := rfl
@[simp] theorem clrBit_harrowPos (a i : Nat) : (clrBit s a i).harrowPos = s.harrowPos := rfl
@[simp] theorem clrBit_harrowFlags (a i : Nat) : (clrBit s a i).harrowFlags = s.harrowFlags := rfl
@[simp] theorem clrBit_gateFaults (a i : Nat) : (clrBit s a i).gateFaults = s.gateFaults := rfl
@[simp] theorem clrBit_slots (a i : Nat) : (clrBit s a i).slots = s.slots := rfl
@[simp] theorem clrBit_deadSlots (a i : Nat) : (clrBit s a i).deadSlots = s.deadSlots := rfl
@[simp] theorem clrBit_rxStates (a i : Nat) : (clrBit s a i).rxStates = s.rxStates := rfl
@[simp] theorem clrBit_txStates (a i : Nat) : (clrBit s a i).txStates = s.txStates := rfl
@[simp] theorem clrBit_sendQ (a i : Nat) : (clrBit s a i).sendQ = s.sendQ := rfl
@[simp] theorem clrBit_seen (a i : Nat) : (clrBit s a i).seen = s.seen := rfl
@[simp] theorem clrBit_tick (a i : Nat) : (clrBit s a i).tick = s.tick := rfl
@[simp] theorem clrBit_activeAt (a i : Nat) : (clrBit s a i).activeAt = s.activeAt := rfl
@[simp] theorem clrBit_tplSeq (a i : Nat) : (clrBit s a i).tplSeq = s.tplSeq := rfl
@[simp] theorem clrBit_can (a i : Nat) : (clrBit s a i).can = s.can := rfl
@[simp] theorem clrBit_canReq (a i : Nat) : (clrBit s a i).canReq = s.canReq := rfl
@[simp] theorem clrBit_canReqNext (a i : Nat) : (clrBit s a i).canReqNext = s.canReqNext := rfl
@[simp] theorem clrBit_canQueue (a i : Nat) : (clrBit s a i).canQueue = s.canQueue := rfl
@[simp] theorem clrBit_canLimits (a i : Nat) : (clrBit s a i).canLimits = s.canLimits := rfl
@[simp] theorem clrBit_lin (a i : Nat) : (clrBit s a i).lin = s.lin := rfl
@[simp] theorem clrBit_linMark (a i : Nat) : (clrBit s a i).linMark = s.linMark := rfl
@[simp] theorem clrBit_timeFine (a i : Nat) : (clrBit s a i).timeFine = s.timeFine := rfl
@[simp] theorem clrBit_mac (a i : Nat) : (clrBit s a i).mac = s.mac := rfl
@[simp] theorem clrBit_fcSentAt (a i : Nat) : (clrBit s a i).fcSentAt = s.fcSentAt := rfl
@[simp] theorem clrBit_clusters (a i : Nat) : (clrBit s a i).clusters = s.clusters := rfl
@[simp] theorem clrBit_keepAwake (a i : Nat) : (clrBit s a i).keepAwake = s.keepAwake := rfl
@[simp] theorem clrBit_trxMode (a i : Nat) : (clrBit s a i).trxMode = s.trxMode := rfl
@[simp] theorem clrBit_armed (a i : Nat) : (clrBit s a i).armed = s.armed := rfl
@[simp] theorem clrBit_fwWait (a i : Nat) : (clrBit s a i).fwWait = s.fwWait := rfl
@[simp] theorem clrBit_fwFrom (a i : Nat) : (clrBit s a i).fwFrom = s.fwFrom := rfl
@[simp] theorem clrBit_failsafe (a i : Nat) : (clrBit s a i).failsafe = s.failsafe := rfl
@[simp] theorem clrBit_heartbeatAt (a i : Nat) : (clrBit s a i).heartbeatAt = s.heartbeatAt := rfl
@[simp] theorem clrBit_latched (a i : Nat) : (clrBit s a i).latched = s.latched := rfl
@[simp] theorem clrBit_linWakeCmd (a i : Nat) : (clrBit s a i).linWakeCmd = s.linWakeCmd := rfl
@[simp] theorem clrBit_wakeHints (a i : Nat) : (clrBit s a i).wakeHints = s.wakeHints := rfl
@[simp] theorem clrBit_laneQ (a i : Nat) : (clrBit s a i).laneQ = s.laneQ := rfl
@[simp] theorem clrBit_lanes (a i : Nat) : (clrBit s a i).lanes = s.lanes := rfl
@[simp] theorem clrBit_macOut (a i : Nat) : (clrBit s a i).macOut = s.macOut := rfl
@[simp] theorem clrBit_laneSeq (a i : Nat) : (clrBit s a i).laneSeq = s.laneSeq := rfl
@[simp] theorem clrBit_keys (a i : Nat) : (clrBit s a i).keys = s.keys := rfl
@[simp] theorem clrBit_keysRetired (a i : Nat) : (clrBit s a i).keysRetired = s.keysRetired := rfl
@[simp] theorem clrBit_keysSaving (a i : Nat) : (clrBit s a i).keysSaving = s.keysSaving := rfl
@[simp] theorem clrBit_keyRecs (a i : Nat) : (clrBit s a i).keyRecs = s.keyRecs := rfl
@[simp] theorem clrBit_fvSaved (a i : Nat) : (clrBit s a i).fvSaved = s.fvSaved := rfl
@[simp] theorem clrBit_roots (a i : Nat) : (clrBit s a i).roots = s.roots := rfl
@[simp] theorem clrBit_fuseLc (a i : Nat) : (clrBit s a i).fuseLc = s.fuseLc := rfl
@[simp] theorem clrBit_fuseEpoch (a i : Nat) : (clrBit s a i).fuseEpoch = s.fuseEpoch := rfl
@[simp] theorem clrBit_cvRun (a i : Nat) : (clrBit s a i).cvRun = s.cvRun := rfl
@[simp] theorem clrBit_ledger (a i : Nat) : (clrBit s a i).ledger = s.ledger := rfl
@[simp] theorem clrBit_roster (a i : Nat) : (clrBit s a i).roster = s.roster := rfl
@[simp] theorem clrBit_unrostered (a i : Nat) : (clrBit s a i).unrostered = s.unrostered := rfl
@[simp] theorem clrBit_awaitTest (a i : Nat) : (clrBit s a i).awaitTest = s.awaitTest := rfl
@[simp] theorem clrBit_fallow (a i : Nat) : (clrBit s a i).fallow = s.fallow := rfl
@[simp] theorem clrBit_stallRetry (a i : Nat) : (clrBit s a i).stallRetry = s.stallRetry := rfl
@[simp] theorem clrBit_monLive (a i : Nat) : (clrBit s a i).monLive = s.monLive := rfl
@[simp] theorem clrBit_pace (a i : Nat) : (clrBit s a i).pace = s.pace := rfl
@[simp] theorem clrBit_banks (a i : Nat) : (clrBit s a i).banks = s.banks := rfl
@[simp] theorem clrBit_settings (a i : Nat) : (clrBit s a i).settings = s.settings := rfl
@[simp] theorem clrBit_settingsOld (a i : Nat) : (clrBit s a i).settingsOld = s.settingsOld := rfl
@[simp] theorem clrBit_turn (a i : Nat) : (clrBit s a i).turn = s.turn := rfl
@[simp] theorem clrBit_updArmedAt (a i : Nat) : (clrBit s a i).updArmedAt = s.updArmedAt := rfl
@[simp] theorem clrBit_linkSeq (a i : Nat) : (clrBit s a i).linkSeq = s.linkSeq := rfl
@[simp] theorem clrBit_links (a i : Nat) : (clrBit s a i).links = s.links := rfl
@[simp] theorem clrBit_remoteAcc (a i : Nat) : (clrBit s a i).remoteAcc = s.remoteAcc := rfl
@[simp] theorem clrBit_remoteTag (a i : Nat) : (clrBit s a i).remoteTag = s.remoteTag := rfl
@[simp] theorem clrBit_remoteIn (a i : Nat) : (clrBit s a i).remoteIn = s.remoteIn := rfl
@[simp] theorem clrBit_pair (a i : Nat) : (clrBit s a i).pair = s.pair := rfl
@[simp] theorem clrBit_htxStalled (a i : Nat) : (clrBit s a i).htxStalled = s.htxStalled := rfl
@[simp] theorem clrBit_hrxSignal (a i : Nat) : (clrBit s a i).hrxSignal = s.hrxSignal := rfl
@[simp] theorem clrBit_sup (a i : Nat) : (clrBit s a i).sup = s.sup := rfl
@[simp] theorem clrBit_power (a i : Nat) : (clrBit s a i).power = s.power := rfl
@[simp] theorem clrBit_winKept (a i : Nat) : (clrBit s a i).winKept = s.winKept := rfl
@[simp] theorem clrBit_yields (a i : Nat) : (clrBit s a i).yields = s.yields := rfl
@[simp] theorem clrBit_cmds (a i : Nat) : (clrBit s a i).cmds = s.cmds := rfl
@[simp] theorem clrBit_grpOwn (a i : Nat) : (clrBit s a i).grpOwn = s.grpOwn := rfl
@[simp] theorem clrBit_rrCell (a i : Nat) : (clrBit s a i).rrCell = s.rrCell := rfl
@[simp] theorem clrBit_rrBlock (a i : Nat) : (clrBit s a i).rrBlock = s.rrBlock := rfl
@[simp] theorem clrBit_mbLast (a i : Nat) : (clrBit s a i).mbLast = s.mbLast := rfl
@[simp] theorem clrBit_tickAt (a i : Nat) : (clrBit s a i).tickAt = s.tickAt := rfl
@[simp] theorem clrBit_heldFrom (a i : Nat) : (clrBit s a i).heldFrom = s.heldFrom := rfl
@[simp] theorem clrBit_drained (a i : Nat) : (clrBit s a i).drained = s.drained := rfl
@[simp] theorem clrBit_crossings (a i : Nat) : (clrBit s a i).crossings = s.crossings := rfl
@[simp] theorem clrBit_handledAt (a i : Nat) : (clrBit s a i).handledAt = s.handledAt := rfl
@[simp] theorem clrBit_sampledAt (a i : Nat) : (clrBit s a i).sampledAt = s.sampledAt := rfl
@[simp] theorem clrBit_hrxErrs (a i : Nat) : (clrBit s a i).hrxErrs = s.hrxErrs := rfl
@[simp] theorem clrBit_regsAt (a i : Nat) : (clrBit s a i).regsAt = s.regsAt := rfl
@[simp] theorem clrBit_setNow (a i : Nat) : (clrBit s a i).setNow = s.setNow := rfl
@[simp] theorem clrBit_escBuf (a i : Nat) : (clrBit s a i).escBuf = s.escBuf := rfl
@[simp] theorem clrBit_recFaulty (a i : Nat) : (clrBit s a i).recFaulty = s.recFaulty := rfl
@[simp] theorem clrBit_held (a i : Nat) : (clrBit s a i).held = s.held := rfl
@[simp] theorem clrBit_retained (a i : Nat) : (clrBit s a i).retained = s.retained := rfl
@[simp] theorem clrBit_relWait (a i : Nat) : (clrBit s a i).relWait = s.relWait := rfl
@[simp] theorem clrBit_movedAt (a i : Nat) : (clrBit s a i).movedAt = s.movedAt := rfl
@[simp] theorem clrBit_timeLog (a i : Nat) : (clrBit s a i).timeLog = s.timeLog := rfl
@[simp] theorem clrBit_fallowKnown (a i : Nat) : (clrBit s a i).fallowKnown = s.fallowKnown := rfl
@[simp] theorem clrBit_keyWork (a i : Nat) : (clrBit s a i).keyWork = s.keyWork := rfl
@[simp] theorem clrBit_drbg (a i : Nat) : (clrBit s a i).drbg = s.drbg := rfl
@[simp] theorem clrBit_maskGen (a i : Nat) : (clrBit s a i).maskGen = s.maskGen := rfl
@[simp] theorem clrBit_busy (a i : Nat) : (clrBit s a i).busy = s.busy := rfl

/-! ## putBit -/

@[simp] theorem putBit_pending (a i : Nat) (b : Bool) : (putBit s a i b).pending = s.pending := rfl
@[simp] theorem putBit_fuses (a i : Nat) (b : Bool) : (putBit s a i b).fuses = s.fuses := rfl
@[simp] theorem putBit_now (a i : Nat) (b : Bool) : (putBit s a i b).now = s.now := rfl
@[simp] theorem putBit_tbFrom (a i : Nat) (b : Bool) : (putBit s a i b).tbFrom = s.tbFrom := rfl
@[simp] theorem putBit_wide (a i : Nat) (b : Bool) : (putBit s a i b).wide = s.wide := rfl
@[simp] theorem putBit_bOld (a i : Nat) (b : Bool) : (putBit s a i b).bOld = s.bOld := rfl
@[simp] theorem putBit_capSeq (a i : Nat) (b : Bool) : (putBit s a i b).capSeq = s.capSeq := rfl
@[simp] theorem putBit_furrows (a i : Nat) (b : Bool) : (putBit s a i b).furrows = s.furrows := rfl
@[simp] theorem putBit_delivered (a i : Nat) (b : Bool) : (putBit s a i b).delivered = s.delivered := rfl
@[simp] theorem putBit_trigQ (a i : Nat) (b : Bool) : (putBit s a i b).trigQ = s.trigQ := rfl
@[simp] theorem putBit_stalled (a i : Nat) (b : Bool) : (putBit s a i b).stalled = s.stalled := rfl
@[simp] theorem putBit_hostRead (a i : Nat) (b : Bool) : (putBit s a i b).hostRead = s.hostRead := rfl
@[simp] theorem putBit_cfg (a i : Nat) (b : Bool) : (putBit s a i b).cfg = s.cfg := rfl
@[simp] theorem putBit_msix (a i : Nat) (b : Bool) : (putBit s a i b).msix = s.msix := rfl
@[simp] theorem putBit_outbox (a i : Nat) (b : Bool) : (putBit s a i b).outbox = s.outbox := rfl
@[simp] theorem putBit_freeCtr (a i : Nat) (b : Bool) : (putBit s a i b).freeCtr = s.freeCtr := rfl
@[simp] theorem putBit_frames (a i : Nat) (b : Bool) : (putBit s a i b).frames = s.frames := rfl
@[simp] theorem putBit_nextFrame (a i : Nat) (b : Bool) : (putBit s a i b).nextFrame = s.nextFrame := rfl
@[simp] theorem putBit_openFrame (a i : Nat) (b : Bool) : (putBit s a i b).openFrame = s.openFrame := rfl
@[simp] theorem putBit_dropping (a i : Nat) (b : Bool) : (putBit s a i b).dropping = s.dropping := rfl
@[simp] theorem putBit_withheld (a i : Nat) (b : Bool) : (putBit s a i b).withheld = s.withheld := rfl
@[simp] theorem putBit_outQ (a i : Nat) (b : Bool) : (putBit s a i b).outQ = s.outQ := rfl
@[simp] theorem putBit_inFlight (a i : Nat) (b : Bool) : (putBit s a i b).inFlight = s.inFlight := rfl
@[simp] theorem putBit_deficit (a i : Nat) (b : Bool) : (putBit s a i b).deficit = s.deficit := rfl
@[simp] theorem putBit_rrInput (a i : Nat) (b : Bool) : (putBit s a i b).rrInput = s.rrInput := rfl
@[simp] theorem putBit_rrClass (a i : Nat) (b : Bool) : (putBit s a i b).rrClass = s.rrClass := rfl
@[simp] theorem putBit_downSince (a i : Nat) (b : Bool) : (putBit s a i b).downSince = s.downSince := rfl
@[simp] theorem putBit_stuckSince (a i : Nat) (b : Bool) : (putBit s a i b).stuckSince = s.stuckSince := rfl
@[simp] theorem putBit_gateRun (a i : Nat) (b : Bool) : (putBit s a i b).gateRun = s.gateRun := rfl
@[simp] theorem putBit_streams (a i : Nat) (b : Bool) : (putBit s a i b).streams = s.streams := rfl
@[simp] theorem putBit_macReleased (a i : Nat) (b : Bool) : (putBit s a i b).macReleased = s.macReleased := rfl
@[simp] theorem putBit_rowsOut (a i : Nat) (b : Bool) : (putBit s a i b).rowsOut = s.rowsOut := rfl
@[simp] theorem putBit_tables (a i : Nat) (b : Bool) : (putBit s a i b).tables = s.tables := rfl
@[simp] theorem putBit_tpend (a i : Nat) (b : Bool) : (putBit s a i b).tpend = s.tpend := rfl
@[simp] theorem putBit_tquar (a i : Nat) (b : Bool) : (putBit s a i b).tquar = s.tquar := rfl
@[simp] theorem putBit_polState (a i : Nat) (b : Bool) : (putBit s a i b).polState = s.polState := rfl
@[simp] theorem putBit_heads (a i : Nat) (b : Bool) : (putBit s a i b).heads = s.heads := rfl
@[simp] theorem putBit_verdicts (a i : Nat) (b : Bool) : (putBit s a i b).verdicts = s.verdicts := rfl
@[simp] theorem putBit_learnQ (a i : Nat) (b : Bool) : (putBit s a i b).learnQ = s.learnQ := rfl
@[simp] theorem putBit_trackers (a i : Nat) (b : Bool) : (putBit s a i b).trackers = s.trackers := rfl
@[simp] theorem putBit_sweepPos (a i : Nat) (b : Bool) : (putBit s a i b).sweepPos = s.sweepPos := rfl
@[simp] theorem putBit_sweeps (a i : Nat) (b : Bool) : (putBit s a i b).sweeps = s.sweeps := rfl
@[simp] theorem putBit_lostEvents (a i : Nat) (b : Bool) : (putBit s a i b).lostEvents = s.lostEvents := rfl
@[simp] theorem putBit_harrowPos (a i : Nat) (b : Bool) : (putBit s a i b).harrowPos = s.harrowPos := rfl
@[simp] theorem putBit_harrowFlags (a i : Nat) (b : Bool) : (putBit s a i b).harrowFlags = s.harrowFlags := rfl
@[simp] theorem putBit_gateFaults (a i : Nat) (b : Bool) : (putBit s a i b).gateFaults = s.gateFaults := rfl
@[simp] theorem putBit_slots (a i : Nat) (b : Bool) : (putBit s a i b).slots = s.slots := rfl
@[simp] theorem putBit_deadSlots (a i : Nat) (b : Bool) : (putBit s a i b).deadSlots = s.deadSlots := rfl
@[simp] theorem putBit_rxStates (a i : Nat) (b : Bool) : (putBit s a i b).rxStates = s.rxStates := rfl
@[simp] theorem putBit_txStates (a i : Nat) (b : Bool) : (putBit s a i b).txStates = s.txStates := rfl
@[simp] theorem putBit_sendQ (a i : Nat) (b : Bool) : (putBit s a i b).sendQ = s.sendQ := rfl
@[simp] theorem putBit_seen (a i : Nat) (b : Bool) : (putBit s a i b).seen = s.seen := rfl
@[simp] theorem putBit_tick (a i : Nat) (b : Bool) : (putBit s a i b).tick = s.tick := rfl
@[simp] theorem putBit_activeAt (a i : Nat) (b : Bool) : (putBit s a i b).activeAt = s.activeAt := rfl
@[simp] theorem putBit_tplSeq (a i : Nat) (b : Bool) : (putBit s a i b).tplSeq = s.tplSeq := rfl
@[simp] theorem putBit_can (a i : Nat) (b : Bool) : (putBit s a i b).can = s.can := rfl
@[simp] theorem putBit_canReq (a i : Nat) (b : Bool) : (putBit s a i b).canReq = s.canReq := rfl
@[simp] theorem putBit_canReqNext (a i : Nat) (b : Bool) : (putBit s a i b).canReqNext = s.canReqNext := rfl
@[simp] theorem putBit_canQueue (a i : Nat) (b : Bool) : (putBit s a i b).canQueue = s.canQueue := rfl
@[simp] theorem putBit_canLimits (a i : Nat) (b : Bool) : (putBit s a i b).canLimits = s.canLimits := rfl
@[simp] theorem putBit_lin (a i : Nat) (b : Bool) : (putBit s a i b).lin = s.lin := rfl
@[simp] theorem putBit_linMark (a i : Nat) (b : Bool) : (putBit s a i b).linMark = s.linMark := rfl
@[simp] theorem putBit_timeFine (a i : Nat) (b : Bool) : (putBit s a i b).timeFine = s.timeFine := rfl
@[simp] theorem putBit_mac (a i : Nat) (b : Bool) : (putBit s a i b).mac = s.mac := rfl
@[simp] theorem putBit_fcSentAt (a i : Nat) (b : Bool) : (putBit s a i b).fcSentAt = s.fcSentAt := rfl
@[simp] theorem putBit_clusters (a i : Nat) (b : Bool) : (putBit s a i b).clusters = s.clusters := rfl
@[simp] theorem putBit_keepAwake (a i : Nat) (b : Bool) : (putBit s a i b).keepAwake = s.keepAwake := rfl
@[simp] theorem putBit_trxMode (a i : Nat) (b : Bool) : (putBit s a i b).trxMode = s.trxMode := rfl
@[simp] theorem putBit_armed (a i : Nat) (b : Bool) : (putBit s a i b).armed = s.armed := rfl
@[simp] theorem putBit_fwWait (a i : Nat) (b : Bool) : (putBit s a i b).fwWait = s.fwWait := rfl
@[simp] theorem putBit_fwFrom (a i : Nat) (b : Bool) : (putBit s a i b).fwFrom = s.fwFrom := rfl
@[simp] theorem putBit_failsafe (a i : Nat) (b : Bool) : (putBit s a i b).failsafe = s.failsafe := rfl
@[simp] theorem putBit_heartbeatAt (a i : Nat) (b : Bool) : (putBit s a i b).heartbeatAt = s.heartbeatAt := rfl
@[simp] theorem putBit_latched (a i : Nat) (b : Bool) : (putBit s a i b).latched = s.latched := rfl
@[simp] theorem putBit_linWakeCmd (a i : Nat) (b : Bool) : (putBit s a i b).linWakeCmd = s.linWakeCmd := rfl
@[simp] theorem putBit_wakeHints (a i : Nat) (b : Bool) : (putBit s a i b).wakeHints = s.wakeHints := rfl
@[simp] theorem putBit_laneQ (a i : Nat) (b : Bool) : (putBit s a i b).laneQ = s.laneQ := rfl
@[simp] theorem putBit_lanes (a i : Nat) (b : Bool) : (putBit s a i b).lanes = s.lanes := rfl
@[simp] theorem putBit_macOut (a i : Nat) (b : Bool) : (putBit s a i b).macOut = s.macOut := rfl
@[simp] theorem putBit_laneSeq (a i : Nat) (b : Bool) : (putBit s a i b).laneSeq = s.laneSeq := rfl
@[simp] theorem putBit_keys (a i : Nat) (b : Bool) : (putBit s a i b).keys = s.keys := rfl
@[simp] theorem putBit_keysRetired (a i : Nat) (b : Bool) : (putBit s a i b).keysRetired = s.keysRetired := rfl
@[simp] theorem putBit_keysSaving (a i : Nat) (b : Bool) : (putBit s a i b).keysSaving = s.keysSaving := rfl
@[simp] theorem putBit_keyRecs (a i : Nat) (b : Bool) : (putBit s a i b).keyRecs = s.keyRecs := rfl
@[simp] theorem putBit_fvSaved (a i : Nat) (b : Bool) : (putBit s a i b).fvSaved = s.fvSaved := rfl
@[simp] theorem putBit_roots (a i : Nat) (b : Bool) : (putBit s a i b).roots = s.roots := rfl
@[simp] theorem putBit_fuseLc (a i : Nat) (b : Bool) : (putBit s a i b).fuseLc = s.fuseLc := rfl
@[simp] theorem putBit_fuseEpoch (a i : Nat) (b : Bool) : (putBit s a i b).fuseEpoch = s.fuseEpoch := rfl
@[simp] theorem putBit_cvRun (a i : Nat) (b : Bool) : (putBit s a i b).cvRun = s.cvRun := rfl
@[simp] theorem putBit_ledger (a i : Nat) (b : Bool) : (putBit s a i b).ledger = s.ledger := rfl
@[simp] theorem putBit_roster (a i : Nat) (b : Bool) : (putBit s a i b).roster = s.roster := rfl
@[simp] theorem putBit_unrostered (a i : Nat) (b : Bool) : (putBit s a i b).unrostered = s.unrostered := rfl
@[simp] theorem putBit_awaitTest (a i : Nat) (b : Bool) : (putBit s a i b).awaitTest = s.awaitTest := rfl
@[simp] theorem putBit_fallow (a i : Nat) (b : Bool) : (putBit s a i b).fallow = s.fallow := rfl
@[simp] theorem putBit_stallRetry (a i : Nat) (b : Bool) : (putBit s a i b).stallRetry = s.stallRetry := rfl
@[simp] theorem putBit_monLive (a i : Nat) (b : Bool) : (putBit s a i b).monLive = s.monLive := rfl
@[simp] theorem putBit_pace (a i : Nat) (b : Bool) : (putBit s a i b).pace = s.pace := rfl
@[simp] theorem putBit_banks (a i : Nat) (b : Bool) : (putBit s a i b).banks = s.banks := rfl
@[simp] theorem putBit_settings (a i : Nat) (b : Bool) : (putBit s a i b).settings = s.settings := rfl
@[simp] theorem putBit_settingsOld (a i : Nat) (b : Bool) : (putBit s a i b).settingsOld = s.settingsOld := rfl
@[simp] theorem putBit_turn (a i : Nat) (b : Bool) : (putBit s a i b).turn = s.turn := rfl
@[simp] theorem putBit_updArmedAt (a i : Nat) (b : Bool) : (putBit s a i b).updArmedAt = s.updArmedAt := rfl
@[simp] theorem putBit_linkSeq (a i : Nat) (b : Bool) : (putBit s a i b).linkSeq = s.linkSeq := rfl
@[simp] theorem putBit_links (a i : Nat) (b : Bool) : (putBit s a i b).links = s.links := rfl
@[simp] theorem putBit_remoteAcc (a i : Nat) (b : Bool) : (putBit s a i b).remoteAcc = s.remoteAcc := rfl
@[simp] theorem putBit_remoteTag (a i : Nat) (b : Bool) : (putBit s a i b).remoteTag = s.remoteTag := rfl
@[simp] theorem putBit_remoteIn (a i : Nat) (b : Bool) : (putBit s a i b).remoteIn = s.remoteIn := rfl
@[simp] theorem putBit_pair (a i : Nat) (b : Bool) : (putBit s a i b).pair = s.pair := rfl
@[simp] theorem putBit_htxStalled (a i : Nat) (b : Bool) : (putBit s a i b).htxStalled = s.htxStalled := rfl
@[simp] theorem putBit_hrxSignal (a i : Nat) (b : Bool) : (putBit s a i b).hrxSignal = s.hrxSignal := rfl
@[simp] theorem putBit_sup (a i : Nat) (b : Bool) : (putBit s a i b).sup = s.sup := rfl
@[simp] theorem putBit_power (a i : Nat) (b : Bool) : (putBit s a i b).power = s.power := rfl
@[simp] theorem putBit_winKept (a i : Nat) (b : Bool) : (putBit s a i b).winKept = s.winKept := rfl
@[simp] theorem putBit_yields (a i : Nat) (b : Bool) : (putBit s a i b).yields = s.yields := rfl
@[simp] theorem putBit_cmds (a i : Nat) (b : Bool) : (putBit s a i b).cmds = s.cmds := rfl
@[simp] theorem putBit_grpOwn (a i : Nat) (b : Bool) : (putBit s a i b).grpOwn = s.grpOwn := rfl
@[simp] theorem putBit_rrCell (a i : Nat) (b : Bool) : (putBit s a i b).rrCell = s.rrCell := rfl
@[simp] theorem putBit_rrBlock (a i : Nat) (b : Bool) : (putBit s a i b).rrBlock = s.rrBlock := rfl
@[simp] theorem putBit_mbLast (a i : Nat) (b : Bool) : (putBit s a i b).mbLast = s.mbLast := rfl
@[simp] theorem putBit_tickAt (a i : Nat) (b : Bool) : (putBit s a i b).tickAt = s.tickAt := rfl
@[simp] theorem putBit_heldFrom (a i : Nat) (b : Bool) : (putBit s a i b).heldFrom = s.heldFrom := rfl
@[simp] theorem putBit_drained (a i : Nat) (b : Bool) : (putBit s a i b).drained = s.drained := rfl
@[simp] theorem putBit_crossings (a i : Nat) (b : Bool) : (putBit s a i b).crossings = s.crossings := rfl
@[simp] theorem putBit_handledAt (a i : Nat) (b : Bool) : (putBit s a i b).handledAt = s.handledAt := rfl
@[simp] theorem putBit_sampledAt (a i : Nat) (b : Bool) : (putBit s a i b).sampledAt = s.sampledAt := rfl
@[simp] theorem putBit_hrxErrs (a i : Nat) (b : Bool) : (putBit s a i b).hrxErrs = s.hrxErrs := rfl
@[simp] theorem putBit_regsAt (a i : Nat) (b : Bool) : (putBit s a i b).regsAt = s.regsAt := rfl
@[simp] theorem putBit_escBuf (a i : Nat) (b : Bool) : (putBit s a i b).escBuf = s.escBuf := rfl
@[simp] theorem putBit_recFaulty (a i : Nat) (b : Bool) : (putBit s a i b).recFaulty = s.recFaulty := rfl
@[simp] theorem putBit_held (a i : Nat) (b : Bool) : (putBit s a i b).held = s.held := rfl
@[simp] theorem putBit_retained (a i : Nat) (b : Bool) : (putBit s a i b).retained = s.retained := rfl
@[simp] theorem putBit_relWait (a i : Nat) (b : Bool) : (putBit s a i b).relWait = s.relWait := rfl
@[simp] theorem putBit_movedAt (a i : Nat) (b : Bool) : (putBit s a i b).movedAt = s.movedAt := rfl
@[simp] theorem putBit_timeLog (a i : Nat) (b : Bool) : (putBit s a i b).timeLog = s.timeLog := rfl
@[simp] theorem putBit_fallowKnown (a i : Nat) (b : Bool) : (putBit s a i b).fallowKnown = s.fallowKnown := rfl
@[simp] theorem putBit_keyWork (a i : Nat) (b : Bool) : (putBit s a i b).keyWork = s.keyWork := rfl
@[simp] theorem putBit_drbg (a i : Nat) (b : Bool) : (putBit s a i b).drbg = s.drbg := rfl
@[simp] theorem putBit_maskGen (a i : Nat) (b : Bool) : (putBit s a i b).maskGen = s.maskGen := rfl
@[simp] theorem putBit_busy (a i : Nat) (b : Bool) : (putBit s a i b).busy = s.busy := rfl
@[simp] theorem putBit_setNow (a i : Nat) (b : Bool) : (putBit s a i b).setNow = s.setNow := rfl

/-! ## addSat -/

@[simp] theorem addSat_pending (a n : Nat) : (addSat s a n).pending = s.pending := rfl
@[simp] theorem addSat_fuses (a n : Nat) : (addSat s a n).fuses = s.fuses := rfl
@[simp] theorem addSat_now (a n : Nat) : (addSat s a n).now = s.now := rfl
@[simp] theorem addSat_tbFrom (a n : Nat) : (addSat s a n).tbFrom = s.tbFrom := rfl
@[simp] theorem addSat_wide (a n : Nat) : (addSat s a n).wide = s.wide := rfl
@[simp] theorem addSat_bOld (a n : Nat) : (addSat s a n).bOld = s.bOld := rfl
@[simp] theorem addSat_capSeq (a n : Nat) : (addSat s a n).capSeq = s.capSeq := rfl
@[simp] theorem addSat_furrows (a n : Nat) : (addSat s a n).furrows = s.furrows := rfl
@[simp] theorem addSat_delivered (a n : Nat) : (addSat s a n).delivered = s.delivered := rfl
@[simp] theorem addSat_trigQ (a n : Nat) : (addSat s a n).trigQ = s.trigQ := rfl
@[simp] theorem addSat_stalled (a n : Nat) : (addSat s a n).stalled = s.stalled := rfl
@[simp] theorem addSat_hostRead (a n : Nat) : (addSat s a n).hostRead = s.hostRead := rfl
@[simp] theorem addSat_cfg (a n : Nat) : (addSat s a n).cfg = s.cfg := rfl
@[simp] theorem addSat_msix (a n : Nat) : (addSat s a n).msix = s.msix := rfl
@[simp] theorem addSat_outbox (a n : Nat) : (addSat s a n).outbox = s.outbox := rfl
@[simp] theorem addSat_freeCtr (a n : Nat) : (addSat s a n).freeCtr = s.freeCtr := rfl
@[simp] theorem addSat_frames (a n : Nat) : (addSat s a n).frames = s.frames := rfl
@[simp] theorem addSat_nextFrame (a n : Nat) : (addSat s a n).nextFrame = s.nextFrame := rfl
@[simp] theorem addSat_openFrame (a n : Nat) : (addSat s a n).openFrame = s.openFrame := rfl
@[simp] theorem addSat_dropping (a n : Nat) : (addSat s a n).dropping = s.dropping := rfl
@[simp] theorem addSat_withheld (a n : Nat) : (addSat s a n).withheld = s.withheld := rfl
@[simp] theorem addSat_outQ (a n : Nat) : (addSat s a n).outQ = s.outQ := rfl
@[simp] theorem addSat_inFlight (a n : Nat) : (addSat s a n).inFlight = s.inFlight := rfl
@[simp] theorem addSat_deficit (a n : Nat) : (addSat s a n).deficit = s.deficit := rfl
@[simp] theorem addSat_rrInput (a n : Nat) : (addSat s a n).rrInput = s.rrInput := rfl
@[simp] theorem addSat_rrClass (a n : Nat) : (addSat s a n).rrClass = s.rrClass := rfl
@[simp] theorem addSat_downSince (a n : Nat) : (addSat s a n).downSince = s.downSince := rfl
@[simp] theorem addSat_stuckSince (a n : Nat) : (addSat s a n).stuckSince = s.stuckSince := rfl
@[simp] theorem addSat_gateRun (a n : Nat) : (addSat s a n).gateRun = s.gateRun := rfl
@[simp] theorem addSat_streams (a n : Nat) : (addSat s a n).streams = s.streams := rfl
@[simp] theorem addSat_macReleased (a n : Nat) : (addSat s a n).macReleased = s.macReleased := rfl
@[simp] theorem addSat_rowsOut (a n : Nat) : (addSat s a n).rowsOut = s.rowsOut := rfl
@[simp] theorem addSat_tables (a n : Nat) : (addSat s a n).tables = s.tables := rfl
@[simp] theorem addSat_tpend (a n : Nat) : (addSat s a n).tpend = s.tpend := rfl
@[simp] theorem addSat_tquar (a n : Nat) : (addSat s a n).tquar = s.tquar := rfl
@[simp] theorem addSat_polState (a n : Nat) : (addSat s a n).polState = s.polState := rfl
@[simp] theorem addSat_heads (a n : Nat) : (addSat s a n).heads = s.heads := rfl
@[simp] theorem addSat_verdicts (a n : Nat) : (addSat s a n).verdicts = s.verdicts := rfl
@[simp] theorem addSat_learnQ (a n : Nat) : (addSat s a n).learnQ = s.learnQ := rfl
@[simp] theorem addSat_trackers (a n : Nat) : (addSat s a n).trackers = s.trackers := rfl
@[simp] theorem addSat_sweepPos (a n : Nat) : (addSat s a n).sweepPos = s.sweepPos := rfl
@[simp] theorem addSat_sweeps (a n : Nat) : (addSat s a n).sweeps = s.sweeps := rfl
@[simp] theorem addSat_lostEvents (a n : Nat) : (addSat s a n).lostEvents = s.lostEvents := rfl
@[simp] theorem addSat_harrowPos (a n : Nat) : (addSat s a n).harrowPos = s.harrowPos := rfl
@[simp] theorem addSat_harrowFlags (a n : Nat) : (addSat s a n).harrowFlags = s.harrowFlags := rfl
@[simp] theorem addSat_gateFaults (a n : Nat) : (addSat s a n).gateFaults = s.gateFaults := rfl
@[simp] theorem addSat_slots (a n : Nat) : (addSat s a n).slots = s.slots := rfl
@[simp] theorem addSat_deadSlots (a n : Nat) : (addSat s a n).deadSlots = s.deadSlots := rfl
@[simp] theorem addSat_rxStates (a n : Nat) : (addSat s a n).rxStates = s.rxStates := rfl
@[simp] theorem addSat_txStates (a n : Nat) : (addSat s a n).txStates = s.txStates := rfl
@[simp] theorem addSat_sendQ (a n : Nat) : (addSat s a n).sendQ = s.sendQ := rfl
@[simp] theorem addSat_seen (a n : Nat) : (addSat s a n).seen = s.seen := rfl
@[simp] theorem addSat_tick (a n : Nat) : (addSat s a n).tick = s.tick := rfl
@[simp] theorem addSat_activeAt (a n : Nat) : (addSat s a n).activeAt = s.activeAt := rfl
@[simp] theorem addSat_tplSeq (a n : Nat) : (addSat s a n).tplSeq = s.tplSeq := rfl
@[simp] theorem addSat_can (a n : Nat) : (addSat s a n).can = s.can := rfl
@[simp] theorem addSat_canReq (a n : Nat) : (addSat s a n).canReq = s.canReq := rfl
@[simp] theorem addSat_canReqNext (a n : Nat) : (addSat s a n).canReqNext = s.canReqNext := rfl
@[simp] theorem addSat_canQueue (a n : Nat) : (addSat s a n).canQueue = s.canQueue := rfl
@[simp] theorem addSat_canLimits (a n : Nat) : (addSat s a n).canLimits = s.canLimits := rfl
@[simp] theorem addSat_lin (a n : Nat) : (addSat s a n).lin = s.lin := rfl
@[simp] theorem addSat_linMark (a n : Nat) : (addSat s a n).linMark = s.linMark := rfl
@[simp] theorem addSat_timeFine (a n : Nat) : (addSat s a n).timeFine = s.timeFine := rfl
@[simp] theorem addSat_mac (a n : Nat) : (addSat s a n).mac = s.mac := rfl
@[simp] theorem addSat_fcSentAt (a n : Nat) : (addSat s a n).fcSentAt = s.fcSentAt := rfl
@[simp] theorem addSat_clusters (a n : Nat) : (addSat s a n).clusters = s.clusters := rfl
@[simp] theorem addSat_keepAwake (a n : Nat) : (addSat s a n).keepAwake = s.keepAwake := rfl
@[simp] theorem addSat_trxMode (a n : Nat) : (addSat s a n).trxMode = s.trxMode := rfl
@[simp] theorem addSat_armed (a n : Nat) : (addSat s a n).armed = s.armed := rfl
@[simp] theorem addSat_fwWait (a n : Nat) : (addSat s a n).fwWait = s.fwWait := rfl
@[simp] theorem addSat_fwFrom (a n : Nat) : (addSat s a n).fwFrom = s.fwFrom := rfl
@[simp] theorem addSat_failsafe (a n : Nat) : (addSat s a n).failsafe = s.failsafe := rfl
@[simp] theorem addSat_heartbeatAt (a n : Nat) : (addSat s a n).heartbeatAt = s.heartbeatAt := rfl
@[simp] theorem addSat_latched (a n : Nat) : (addSat s a n).latched = s.latched := rfl
@[simp] theorem addSat_linWakeCmd (a n : Nat) : (addSat s a n).linWakeCmd = s.linWakeCmd := rfl
@[simp] theorem addSat_wakeHints (a n : Nat) : (addSat s a n).wakeHints = s.wakeHints := rfl
@[simp] theorem addSat_laneQ (a n : Nat) : (addSat s a n).laneQ = s.laneQ := rfl
@[simp] theorem addSat_lanes (a n : Nat) : (addSat s a n).lanes = s.lanes := rfl
@[simp] theorem addSat_macOut (a n : Nat) : (addSat s a n).macOut = s.macOut := rfl
@[simp] theorem addSat_laneSeq (a n : Nat) : (addSat s a n).laneSeq = s.laneSeq := rfl
@[simp] theorem addSat_keys (a n : Nat) : (addSat s a n).keys = s.keys := rfl
@[simp] theorem addSat_keysRetired (a n : Nat) : (addSat s a n).keysRetired = s.keysRetired := rfl
@[simp] theorem addSat_keysSaving (a n : Nat) : (addSat s a n).keysSaving = s.keysSaving := rfl
@[simp] theorem addSat_keyRecs (a n : Nat) : (addSat s a n).keyRecs = s.keyRecs := rfl
@[simp] theorem addSat_fvSaved (a n : Nat) : (addSat s a n).fvSaved = s.fvSaved := rfl
@[simp] theorem addSat_roots (a n : Nat) : (addSat s a n).roots = s.roots := rfl
@[simp] theorem addSat_fuseLc (a n : Nat) : (addSat s a n).fuseLc = s.fuseLc := rfl
@[simp] theorem addSat_fuseEpoch (a n : Nat) : (addSat s a n).fuseEpoch = s.fuseEpoch := rfl
@[simp] theorem addSat_cvRun (a n : Nat) : (addSat s a n).cvRun = s.cvRun := rfl
@[simp] theorem addSat_ledger (a n : Nat) : (addSat s a n).ledger = s.ledger := rfl
@[simp] theorem addSat_roster (a n : Nat) : (addSat s a n).roster = s.roster := rfl
@[simp] theorem addSat_unrostered (a n : Nat) : (addSat s a n).unrostered = s.unrostered := rfl
@[simp] theorem addSat_awaitTest (a n : Nat) : (addSat s a n).awaitTest = s.awaitTest := rfl
@[simp] theorem addSat_fallow (a n : Nat) : (addSat s a n).fallow = s.fallow := rfl
@[simp] theorem addSat_stallRetry (a n : Nat) : (addSat s a n).stallRetry = s.stallRetry := rfl
@[simp] theorem addSat_monLive (a n : Nat) : (addSat s a n).monLive = s.monLive := rfl
@[simp] theorem addSat_pace (a n : Nat) : (addSat s a n).pace = s.pace := rfl
@[simp] theorem addSat_banks (a n : Nat) : (addSat s a n).banks = s.banks := rfl
@[simp] theorem addSat_settings (a n : Nat) : (addSat s a n).settings = s.settings := rfl
@[simp] theorem addSat_settingsOld (a n : Nat) : (addSat s a n).settingsOld = s.settingsOld := rfl
@[simp] theorem addSat_turn (a n : Nat) : (addSat s a n).turn = s.turn := rfl
@[simp] theorem addSat_updArmedAt (a n : Nat) : (addSat s a n).updArmedAt = s.updArmedAt := rfl
@[simp] theorem addSat_linkSeq (a n : Nat) : (addSat s a n).linkSeq = s.linkSeq := rfl
@[simp] theorem addSat_links (a n : Nat) : (addSat s a n).links = s.links := rfl
@[simp] theorem addSat_remoteAcc (a n : Nat) : (addSat s a n).remoteAcc = s.remoteAcc := rfl
@[simp] theorem addSat_remoteTag (a n : Nat) : (addSat s a n).remoteTag = s.remoteTag := rfl
@[simp] theorem addSat_remoteIn (a n : Nat) : (addSat s a n).remoteIn = s.remoteIn := rfl
@[simp] theorem addSat_pair (a n : Nat) : (addSat s a n).pair = s.pair := rfl
@[simp] theorem addSat_htxStalled (a n : Nat) : (addSat s a n).htxStalled = s.htxStalled := rfl
@[simp] theorem addSat_hrxSignal (a n : Nat) : (addSat s a n).hrxSignal = s.hrxSignal := rfl
@[simp] theorem addSat_sup (a n : Nat) : (addSat s a n).sup = s.sup := rfl
@[simp] theorem addSat_power (a n : Nat) : (addSat s a n).power = s.power := rfl
@[simp] theorem addSat_winKept (a n : Nat) : (addSat s a n).winKept = s.winKept := rfl
@[simp] theorem addSat_yields (a n : Nat) : (addSat s a n).yields = s.yields := rfl
@[simp] theorem addSat_cmds (a n : Nat) : (addSat s a n).cmds = s.cmds := rfl
@[simp] theorem addSat_grpOwn (a n : Nat) : (addSat s a n).grpOwn = s.grpOwn := rfl
@[simp] theorem addSat_rrCell (a n : Nat) : (addSat s a n).rrCell = s.rrCell := rfl
@[simp] theorem addSat_rrBlock (a n : Nat) : (addSat s a n).rrBlock = s.rrBlock := rfl
@[simp] theorem addSat_mbLast (a n : Nat) : (addSat s a n).mbLast = s.mbLast := rfl
@[simp] theorem addSat_tickAt (a n : Nat) : (addSat s a n).tickAt = s.tickAt := rfl
@[simp] theorem addSat_heldFrom (a n : Nat) : (addSat s a n).heldFrom = s.heldFrom := rfl
@[simp] theorem addSat_drained (a n : Nat) : (addSat s a n).drained = s.drained := rfl
@[simp] theorem addSat_crossings (a n : Nat) : (addSat s a n).crossings = s.crossings := rfl
@[simp] theorem addSat_handledAt (a n : Nat) : (addSat s a n).handledAt = s.handledAt := rfl
@[simp] theorem addSat_sampledAt (a n : Nat) : (addSat s a n).sampledAt = s.sampledAt := rfl
@[simp] theorem addSat_hrxErrs (a n : Nat) : (addSat s a n).hrxErrs = s.hrxErrs := rfl
@[simp] theorem addSat_regsAt (a n : Nat) : (addSat s a n).regsAt = s.regsAt := rfl
@[simp] theorem addSat_setNow (a n : Nat) : (addSat s a n).setNow = s.setNow := rfl
@[simp] theorem addSat_escBuf (a n : Nat) : (addSat s a n).escBuf = s.escBuf := rfl
@[simp] theorem addSat_recFaulty (a n : Nat) : (addSat s a n).recFaulty = s.recFaulty := rfl
@[simp] theorem addSat_held (a n : Nat) : (addSat s a n).held = s.held := rfl
@[simp] theorem addSat_retained (a n : Nat) : (addSat s a n).retained = s.retained := rfl
@[simp] theorem addSat_relWait (a n : Nat) : (addSat s a n).relWait = s.relWait := rfl
@[simp] theorem addSat_movedAt (a n : Nat) : (addSat s a n).movedAt = s.movedAt := rfl
@[simp] theorem addSat_timeLog (a n : Nat) : (addSat s a n).timeLog = s.timeLog := rfl
@[simp] theorem addSat_fallowKnown (a n : Nat) : (addSat s a n).fallowKnown = s.fallowKnown := rfl
@[simp] theorem addSat_keyWork (a n : Nat) : (addSat s a n).keyWork = s.keyWork := rfl
@[simp] theorem addSat_drbg (a n : Nat) : (addSat s a n).drbg = s.drbg := rfl
@[simp] theorem addSat_maskGen (a n : Nat) : (addSat s a n).maskGen = s.maskGen := rfl
@[simp] theorem addSat_busy (a n : Nat) : (addSat s a n).busy = s.busy := rfl

/-! ## incSat -/

@[simp] theorem incSat_pending (a : Nat) : (incSat s a).pending = s.pending := rfl
@[simp] theorem incSat_fuses (a : Nat) : (incSat s a).fuses = s.fuses := rfl
@[simp] theorem incSat_now (a : Nat) : (incSat s a).now = s.now := rfl
@[simp] theorem incSat_tbFrom (a : Nat) : (incSat s a).tbFrom = s.tbFrom := rfl
@[simp] theorem incSat_wide (a : Nat) : (incSat s a).wide = s.wide := rfl
@[simp] theorem incSat_bOld (a : Nat) : (incSat s a).bOld = s.bOld := rfl
@[simp] theorem incSat_capSeq (a : Nat) : (incSat s a).capSeq = s.capSeq := rfl
@[simp] theorem incSat_furrows (a : Nat) : (incSat s a).furrows = s.furrows := rfl
@[simp] theorem incSat_delivered (a : Nat) : (incSat s a).delivered = s.delivered := rfl
@[simp] theorem incSat_trigQ (a : Nat) : (incSat s a).trigQ = s.trigQ := rfl
@[simp] theorem incSat_stalled (a : Nat) : (incSat s a).stalled = s.stalled := rfl
@[simp] theorem incSat_hostRead (a : Nat) : (incSat s a).hostRead = s.hostRead := rfl
@[simp] theorem incSat_cfg (a : Nat) : (incSat s a).cfg = s.cfg := rfl
@[simp] theorem incSat_msix (a : Nat) : (incSat s a).msix = s.msix := rfl
@[simp] theorem incSat_outbox (a : Nat) : (incSat s a).outbox = s.outbox := rfl
@[simp] theorem incSat_freeCtr (a : Nat) : (incSat s a).freeCtr = s.freeCtr := rfl
@[simp] theorem incSat_frames (a : Nat) : (incSat s a).frames = s.frames := rfl
@[simp] theorem incSat_nextFrame (a : Nat) : (incSat s a).nextFrame = s.nextFrame := rfl
@[simp] theorem incSat_openFrame (a : Nat) : (incSat s a).openFrame = s.openFrame := rfl
@[simp] theorem incSat_dropping (a : Nat) : (incSat s a).dropping = s.dropping := rfl
@[simp] theorem incSat_withheld (a : Nat) : (incSat s a).withheld = s.withheld := rfl
@[simp] theorem incSat_outQ (a : Nat) : (incSat s a).outQ = s.outQ := rfl
@[simp] theorem incSat_inFlight (a : Nat) : (incSat s a).inFlight = s.inFlight := rfl
@[simp] theorem incSat_deficit (a : Nat) : (incSat s a).deficit = s.deficit := rfl
@[simp] theorem incSat_rrInput (a : Nat) : (incSat s a).rrInput = s.rrInput := rfl
@[simp] theorem incSat_rrClass (a : Nat) : (incSat s a).rrClass = s.rrClass := rfl
@[simp] theorem incSat_downSince (a : Nat) : (incSat s a).downSince = s.downSince := rfl
@[simp] theorem incSat_stuckSince (a : Nat) : (incSat s a).stuckSince = s.stuckSince := rfl
@[simp] theorem incSat_gateRun (a : Nat) : (incSat s a).gateRun = s.gateRun := rfl
@[simp] theorem incSat_streams (a : Nat) : (incSat s a).streams = s.streams := rfl
@[simp] theorem incSat_macReleased (a : Nat) : (incSat s a).macReleased = s.macReleased := rfl
@[simp] theorem incSat_rowsOut (a : Nat) : (incSat s a).rowsOut = s.rowsOut := rfl
@[simp] theorem incSat_tables (a : Nat) : (incSat s a).tables = s.tables := rfl
@[simp] theorem incSat_tpend (a : Nat) : (incSat s a).tpend = s.tpend := rfl
@[simp] theorem incSat_tquar (a : Nat) : (incSat s a).tquar = s.tquar := rfl
@[simp] theorem incSat_polState (a : Nat) : (incSat s a).polState = s.polState := rfl
@[simp] theorem incSat_heads (a : Nat) : (incSat s a).heads = s.heads := rfl
@[simp] theorem incSat_verdicts (a : Nat) : (incSat s a).verdicts = s.verdicts := rfl
@[simp] theorem incSat_learnQ (a : Nat) : (incSat s a).learnQ = s.learnQ := rfl
@[simp] theorem incSat_trackers (a : Nat) : (incSat s a).trackers = s.trackers := rfl
@[simp] theorem incSat_sweepPos (a : Nat) : (incSat s a).sweepPos = s.sweepPos := rfl
@[simp] theorem incSat_sweeps (a : Nat) : (incSat s a).sweeps = s.sweeps := rfl
@[simp] theorem incSat_lostEvents (a : Nat) : (incSat s a).lostEvents = s.lostEvents := rfl
@[simp] theorem incSat_harrowPos (a : Nat) : (incSat s a).harrowPos = s.harrowPos := rfl
@[simp] theorem incSat_harrowFlags (a : Nat) : (incSat s a).harrowFlags = s.harrowFlags := rfl
@[simp] theorem incSat_gateFaults (a : Nat) : (incSat s a).gateFaults = s.gateFaults := rfl
@[simp] theorem incSat_slots (a : Nat) : (incSat s a).slots = s.slots := rfl
@[simp] theorem incSat_deadSlots (a : Nat) : (incSat s a).deadSlots = s.deadSlots := rfl
@[simp] theorem incSat_rxStates (a : Nat) : (incSat s a).rxStates = s.rxStates := rfl
@[simp] theorem incSat_txStates (a : Nat) : (incSat s a).txStates = s.txStates := rfl
@[simp] theorem incSat_sendQ (a : Nat) : (incSat s a).sendQ = s.sendQ := rfl
@[simp] theorem incSat_seen (a : Nat) : (incSat s a).seen = s.seen := rfl
@[simp] theorem incSat_tick (a : Nat) : (incSat s a).tick = s.tick := rfl
@[simp] theorem incSat_activeAt (a : Nat) : (incSat s a).activeAt = s.activeAt := rfl
@[simp] theorem incSat_tplSeq (a : Nat) : (incSat s a).tplSeq = s.tplSeq := rfl
@[simp] theorem incSat_can (a : Nat) : (incSat s a).can = s.can := rfl
@[simp] theorem incSat_canReq (a : Nat) : (incSat s a).canReq = s.canReq := rfl
@[simp] theorem incSat_canReqNext (a : Nat) : (incSat s a).canReqNext = s.canReqNext := rfl
@[simp] theorem incSat_canQueue (a : Nat) : (incSat s a).canQueue = s.canQueue := rfl
@[simp] theorem incSat_canLimits (a : Nat) : (incSat s a).canLimits = s.canLimits := rfl
@[simp] theorem incSat_lin (a : Nat) : (incSat s a).lin = s.lin := rfl
@[simp] theorem incSat_linMark (a : Nat) : (incSat s a).linMark = s.linMark := rfl
@[simp] theorem incSat_timeFine (a : Nat) : (incSat s a).timeFine = s.timeFine := rfl
@[simp] theorem incSat_mac (a : Nat) : (incSat s a).mac = s.mac := rfl
@[simp] theorem incSat_fcSentAt (a : Nat) : (incSat s a).fcSentAt = s.fcSentAt := rfl
@[simp] theorem incSat_clusters (a : Nat) : (incSat s a).clusters = s.clusters := rfl
@[simp] theorem incSat_keepAwake (a : Nat) : (incSat s a).keepAwake = s.keepAwake := rfl
@[simp] theorem incSat_trxMode (a : Nat) : (incSat s a).trxMode = s.trxMode := rfl
@[simp] theorem incSat_armed (a : Nat) : (incSat s a).armed = s.armed := rfl
@[simp] theorem incSat_fwWait (a : Nat) : (incSat s a).fwWait = s.fwWait := rfl
@[simp] theorem incSat_fwFrom (a : Nat) : (incSat s a).fwFrom = s.fwFrom := rfl
@[simp] theorem incSat_failsafe (a : Nat) : (incSat s a).failsafe = s.failsafe := rfl
@[simp] theorem incSat_heartbeatAt (a : Nat) : (incSat s a).heartbeatAt = s.heartbeatAt := rfl
@[simp] theorem incSat_latched (a : Nat) : (incSat s a).latched = s.latched := rfl
@[simp] theorem incSat_linWakeCmd (a : Nat) : (incSat s a).linWakeCmd = s.linWakeCmd := rfl
@[simp] theorem incSat_wakeHints (a : Nat) : (incSat s a).wakeHints = s.wakeHints := rfl
@[simp] theorem incSat_laneQ (a : Nat) : (incSat s a).laneQ = s.laneQ := rfl
@[simp] theorem incSat_lanes (a : Nat) : (incSat s a).lanes = s.lanes := rfl
@[simp] theorem incSat_macOut (a : Nat) : (incSat s a).macOut = s.macOut := rfl
@[simp] theorem incSat_laneSeq (a : Nat) : (incSat s a).laneSeq = s.laneSeq := rfl
@[simp] theorem incSat_keys (a : Nat) : (incSat s a).keys = s.keys := rfl
@[simp] theorem incSat_keysRetired (a : Nat) : (incSat s a).keysRetired = s.keysRetired := rfl
@[simp] theorem incSat_keysSaving (a : Nat) : (incSat s a).keysSaving = s.keysSaving := rfl
@[simp] theorem incSat_keyRecs (a : Nat) : (incSat s a).keyRecs = s.keyRecs := rfl
@[simp] theorem incSat_fvSaved (a : Nat) : (incSat s a).fvSaved = s.fvSaved := rfl
@[simp] theorem incSat_roots (a : Nat) : (incSat s a).roots = s.roots := rfl
@[simp] theorem incSat_fuseLc (a : Nat) : (incSat s a).fuseLc = s.fuseLc := rfl
@[simp] theorem incSat_fuseEpoch (a : Nat) : (incSat s a).fuseEpoch = s.fuseEpoch := rfl
@[simp] theorem incSat_cvRun (a : Nat) : (incSat s a).cvRun = s.cvRun := rfl
@[simp] theorem incSat_ledger (a : Nat) : (incSat s a).ledger = s.ledger := rfl
@[simp] theorem incSat_roster (a : Nat) : (incSat s a).roster = s.roster := rfl
@[simp] theorem incSat_unrostered (a : Nat) : (incSat s a).unrostered = s.unrostered := rfl
@[simp] theorem incSat_awaitTest (a : Nat) : (incSat s a).awaitTest = s.awaitTest := rfl
@[simp] theorem incSat_fallow (a : Nat) : (incSat s a).fallow = s.fallow := rfl
@[simp] theorem incSat_stallRetry (a : Nat) : (incSat s a).stallRetry = s.stallRetry := rfl
@[simp] theorem incSat_monLive (a : Nat) : (incSat s a).monLive = s.monLive := rfl
@[simp] theorem incSat_pace (a : Nat) : (incSat s a).pace = s.pace := rfl
@[simp] theorem incSat_banks (a : Nat) : (incSat s a).banks = s.banks := rfl
@[simp] theorem incSat_settings (a : Nat) : (incSat s a).settings = s.settings := rfl
@[simp] theorem incSat_settingsOld (a : Nat) : (incSat s a).settingsOld = s.settingsOld := rfl
@[simp] theorem incSat_turn (a : Nat) : (incSat s a).turn = s.turn := rfl
@[simp] theorem incSat_updArmedAt (a : Nat) : (incSat s a).updArmedAt = s.updArmedAt := rfl
@[simp] theorem incSat_linkSeq (a : Nat) : (incSat s a).linkSeq = s.linkSeq := rfl
@[simp] theorem incSat_links (a : Nat) : (incSat s a).links = s.links := rfl
@[simp] theorem incSat_remoteAcc (a : Nat) : (incSat s a).remoteAcc = s.remoteAcc := rfl
@[simp] theorem incSat_remoteTag (a : Nat) : (incSat s a).remoteTag = s.remoteTag := rfl
@[simp] theorem incSat_remoteIn (a : Nat) : (incSat s a).remoteIn = s.remoteIn := rfl
@[simp] theorem incSat_pair (a : Nat) : (incSat s a).pair = s.pair := rfl
@[simp] theorem incSat_htxStalled (a : Nat) : (incSat s a).htxStalled = s.htxStalled := rfl
@[simp] theorem incSat_hrxSignal (a : Nat) : (incSat s a).hrxSignal = s.hrxSignal := rfl
@[simp] theorem incSat_sup (a : Nat) : (incSat s a).sup = s.sup := rfl
@[simp] theorem incSat_power (a : Nat) : (incSat s a).power = s.power := rfl
@[simp] theorem incSat_winKept (a : Nat) : (incSat s a).winKept = s.winKept := rfl
@[simp] theorem incSat_yields (a : Nat) : (incSat s a).yields = s.yields := rfl
@[simp] theorem incSat_cmds (a : Nat) : (incSat s a).cmds = s.cmds := rfl
@[simp] theorem incSat_grpOwn (a : Nat) : (incSat s a).grpOwn = s.grpOwn := rfl
@[simp] theorem incSat_rrCell (a : Nat) : (incSat s a).rrCell = s.rrCell := rfl
@[simp] theorem incSat_rrBlock (a : Nat) : (incSat s a).rrBlock = s.rrBlock := rfl
@[simp] theorem incSat_mbLast (a : Nat) : (incSat s a).mbLast = s.mbLast := rfl
@[simp] theorem incSat_tickAt (a : Nat) : (incSat s a).tickAt = s.tickAt := rfl
@[simp] theorem incSat_heldFrom (a : Nat) : (incSat s a).heldFrom = s.heldFrom := rfl
@[simp] theorem incSat_drained (a : Nat) : (incSat s a).drained = s.drained := rfl
@[simp] theorem incSat_crossings (a : Nat) : (incSat s a).crossings = s.crossings := rfl
@[simp] theorem incSat_handledAt (a : Nat) : (incSat s a).handledAt = s.handledAt := rfl
@[simp] theorem incSat_sampledAt (a : Nat) : (incSat s a).sampledAt = s.sampledAt := rfl
@[simp] theorem incSat_hrxErrs (a : Nat) : (incSat s a).hrxErrs = s.hrxErrs := rfl
@[simp] theorem incSat_regsAt (a : Nat) : (incSat s a).regsAt = s.regsAt := rfl
@[simp] theorem incSat_setNow (a : Nat) : (incSat s a).setNow = s.setNow := rfl
@[simp] theorem incSat_escBuf (a : Nat) : (incSat s a).escBuf = s.escBuf := rfl
@[simp] theorem incSat_recFaulty (a : Nat) : (incSat s a).recFaulty = s.recFaulty := rfl
@[simp] theorem incSat_held (a : Nat) : (incSat s a).held = s.held := rfl
@[simp] theorem incSat_retained (a : Nat) : (incSat s a).retained = s.retained := rfl
@[simp] theorem incSat_relWait (a : Nat) : (incSat s a).relWait = s.relWait := rfl
@[simp] theorem incSat_movedAt (a : Nat) : (incSat s a).movedAt = s.movedAt := rfl
@[simp] theorem incSat_timeLog (a : Nat) : (incSat s a).timeLog = s.timeLog := rfl
@[simp] theorem incSat_fallowKnown (a : Nat) : (incSat s a).fallowKnown = s.fallowKnown := rfl
@[simp] theorem incSat_keyWork (a : Nat) : (incSat s a).keyWork = s.keyWork := rfl
@[simp] theorem incSat_drbg (a : Nat) : (incSat s a).drbg = s.drbg := rfl
@[simp] theorem incSat_maskGen (a : Nat) : (incSat s a).maskGen = s.maskGen := rfl
@[simp] theorem incSat_busy (a : Nat) : (incSat s a).busy = s.busy := rfl

end Sys2Proof.Machine
end

