-- ==== Sys2Proof/Laws/Answers.lean ====
section
/-! SUPPORT. What the four forms of a command's answer come to: on an element that exists, on one that does not, while the core
works, and for a whole software write of a register that answers. -/
namespace Sys2Proof.Machine

/-- A command of an element that exists acts at its moment. -/
theorem always_yes {ok : Bool} (h : ok = true) (s : State) (t : Nat) (f : State → State) :
    always ok s t f = .next (settled (f (advance s t))) := by
  subst h; rfl
/-- A command of an element that does not exist changes the moment alone. -/
theorem always_no {ok : Bool} (h : ok = false) (s : State) (t : Nat) (f : State → State) :
    always ok s t f = .next (advance s t) := by
  subst h; rfl
/-- An event while the core works. -/
theorem event_yes {ok : Bool} (h : ok = true) {s : State} (c : coreUp s = true) (t : Nat) (f : State → State) :
    event ok s t f = .next (settled (f (advance s t))) := by
  subst h; exact always_yes (by simp [c]) s t f
/-- An event while the core does not work changes the moment alone. -/
theorem event_idle (ok : Bool) {s : State} (c : coreUp s = false) (t : Nat) (f : State → State) :
    event ok s t f = .next (advance s t) := always_no (by simp [c]) s t f
/-- A command that nothing goes before takes its turn. -/
theorem yielding_acts {s : State} {i : Instr} (h : mustYield s i = false) : yielding s i = yieldAct s i := by
  simp [yielding, h]
/-- One that something goes before waits behind it. -/
theorem yielding_waits {s : State} {i : Instr} (h : mustYield s i = true) : yielding s i = { s with yields := s.yields ++ [i] } := by
  simp [yielding, h]

/-! ## Register writes of software -/

theorem domainOf_pageOf (a : Nat) : domainOf (pageOf a) = domainOf a := by unfold domainOf pageOf; omega
theorem blockOf_pageOf (a : Nat) : blockOf (pageOf a) = blockOf a := by unfold blockOf pageOf; omega
/-- Where a page answers, its slots do. -/
theorem bootReach_of_page {s : State} {a p : Nat} (h : pageOf a = p) (k : bootReach s p = true) : bootReach s a = true := by
  subst h
  have e : (pageOf a / 4 * 4 == pwrPage + 0x40) = false := by
    rw [beq_eq_false_iff_ne]; unfold pageOf pwrPage; omega
  have e' : pageOf (pageOf a) = pageOf a := by unfold pageOf; omega
  simp only [bootReach, domainOf_pageOf, blockOf_pageOf, e, e', Bool.false_or] at k ⊢
  split_ifs at k ⊢ <;> simp_all [or_assoc]
/-- The page and the slot of an address of a page. -/
theorem pageOf_add {p k : Nat} (h : p % 0x1000 = 0) (k1 : k < 0x1000) : pageOf (p + k) = p := by unfold pageOf; omega
theorem slotOf_add {p k : Nat} (h : p % 0x1000 = 0) (k1 : k < 0x1000) : slotOf (p + k) = k / 4 * 4 := by unfold slotOf; omega
theorem pf0Reaches_of_page {s : State} {req a p : Nat} (e : pageOf a = p) (h : pf0Reaches s req p) : pf0Reaches s req a :=
  ⟨h.1, h.2.1, bootReach_of_page e h.2.2⟩
/-- A register that a present page answers at. -/
theorem answers_of {s : State} {a : Nat} (h1 : a % 4 = 0) (h : bootReach s a = true) (k : (fieldsAt s.fuses a).isEmpty = false) :
    answers s a = true := by
  have e : a / 4 * 4 = a := by omega
  simp [answers, e, h, k]
/-- A whole PF0 write of a register that answers: what a command that ran on the page has left shows first. -/
theorem writeReg_pf0 {s : State} {t req a v : Nat} (h0 : a % 4 = 0) (h : pf0Reaches (advance s t) req a)
    (k : (fieldsAt s.fuses a).isEmpty = false) (p : waitsParked (advance s t) a (v % 2 ^ 24) = false) :
    writeReg (advance s t) req a v true = dispatchWrite (atPage s t (pageOf a)) req a (v % 2 ^ 24) := by
  have e : a / 4 * 4 = a := by omega
  simp only [writeReg, writeNow, atPage, e, h.1, h.2.1, h.2.2, h0, p, advance_fuses, k, beq_self_eq_true, Bool.not_true,
    Bool.true_and, Bool.or_false, Bool.false_eq_true, if_false, false_and, Nat.zero_ne_one]
/-- Every page that exists has PAGE_CTRL. -/
theorem fieldsAt_pageCtrl {f : Fuses} {a p : Nat} (h : pageOf a = p) (h2 : slotOf a = 8) (k : kindOf f p ≠ 0) : (fieldsAt f a).isEmpty = false := by
  unfold fieldsAt
  simp only [h, h2, k, if_false]
  simp only [show (8:Nat) < 0x40 from by decide, if_true]
  have m : (fr 0x8 0 0 .wt .l 0 "PAGE_CTRL.RUN") ∈ headerFields.filter (fun g => fieldAt g 8) := by decide
  rw [List.isEmpty_eq_false_iff_exists_mem]
  exact ⟨_, List.mem_filter.2 ⟨m, by rfl⟩⟩
/-- A software command on a register that answers is the dispatched write. -/
theorem software_writes {s : State} {t req a v : Nat} {ok : Bool} (h0 : ok = true) (h1 : a % 4 = 0)
    (h : pf0Reaches (advance s t) req a) (g : answers s a = true) (k : (fieldsAt s.fuses a).isEmpty = false)
    (p : waitsParked (advance s t) a (v % 2 ^ 24) = false) :
    software ok s t req a v = .next (settled (dispatchWrite (atPage s t (pageOf a)) req a (v % 2 ^ 24))) := by
  subst h0; rw [software, always_yes (by simp [g]), writeReg_pf0 h1 h k p]

end Sys2Proof.Machine
end

