-- ==== Sys2Proof/Laws/Advance.lean ====
section
/-! SUPPORT. What a command's moment leaves as it was: `advance` moves the time and the time base, and every reading of State
below reads the same after it. -/
namespace Sys2Proof.Machine

/-- The state at a later moment differs in the clocks and in what tells that the moment begins alone. -/
theorem advance_shape (s : State) (t : Nat) : ∃ n x l r w, n = max s.now t ∧
    advance s t = { s with now := n, timeFine := x, timeLog := l, regsAt := r, setNow := w } :=
  ⟨(advance s t).now, (advance s t).timeFine, (advance s t).timeLog, (advance s t).regsAt, (advance s t).setNow, by simp,
    by unfold advance; split <;> rfl⟩
/-- A reading that does not look there reads the same at a later moment. -/
theorem advance_keep {β : Type} (f : State → β)
    (h : ∀ s n x l r w, f { s with now := n, timeFine := x, timeLog := l, regsAt := r, setNow := w } = f s) (s : State) (t : Nat) :
    f (advance s t) = f s := by
  obtain ⟨n, x, l, r, w, _, ha⟩ := advance_shape s t; rw [ha]; exact h s n x l r w

variable (s : State)

@[simp] theorem present_advance (t : Nat) (pg : Nat) : present (advance s t) pg = present s pg := advance_keep (fun u => present u pg) (fun _ _ _ _ _ _ => rfl) s t
@[simp] theorem timeGain_advance (t : Nat) (n : Nat) : timeGain (advance s t) n = timeGain s n := advance_keep (fun u => timeGain u n) (fun _ _ _ _ _ _ => rfl) s t
@[simp] theorem serviceWaits_advance (t : Nat) (unit : Nat) : serviceWaits (advance s t) unit = serviceWaits s unit := advance_keep (fun u => serviceWaits u unit) (fun _ _ _ _ _ _ => rfl) s t
@[simp] theorem unitWaits_advance (t : Nat) (a : Nat) : unitWaits (advance s t) a = unitWaits s a := advance_keep (fun u => unitWaits u a) (fun _ _ _ _ _ _ => rfl) s t
@[simp] theorem getFur_advance (t : Nat) (key : Nat) : getFur (advance s t) key = getFur s key := advance_keep (fun u => getFur u key) (fun _ _ _ _ _ _ => rfl) s t
@[simp] theorem furKey_advance (t : Nat) (pg : Nat) : furKey (advance s t) pg = furKey s pg := advance_keep (fun u => furKey u pg) (fun _ _ _ _ _ _ => rfl) s t
@[simp] theorem furRoom_advance (t : Nat) (pg : Nat) : furRoom (advance s t) pg = furRoom s pg := advance_keep (fun u => furRoom u pg) (fun _ _ _ _ _ _ => rfl) s t
@[simp] theorem getLnk_advance (t : Nat) (k : Nat) : getLnk (advance s t) k = getLnk s k := advance_keep (fun u => getLnk u k) (fun _ _ _ _ _ _ => rfl) s t
@[simp] theorem linkTrained_advance (t : Nat) (k : Nat) : linkTrained (advance s t) k = linkTrained s k := advance_keep (fun u => linkTrained u k) (fun _ _ _ _ _ _ => rfl) s t
@[simp] theorem peerId_advance (t : Nat) (k : Nat) : peerId (advance s t) k = peerId s k := advance_keep (fun u => peerId u k) (fun _ _ _ _ _ _ => rfl) s t
@[simp] theorem linkFrame_advance (t : Nat) (type dst : Nat) : linkFrame (advance s t) type dst = linkFrame s type dst := advance_keep (fun u => linkFrame u type dst) (fun _ _ _ _ _ _ => rfl) s t
@[simp] theorem poolOf_advance (t : Nat) (k : Nat) (f : LinkFrame) : poolOf (advance s t) k f = poolOf s k f := advance_keep (fun u => poolOf u k f) (fun _ _ _ _ _ _ => rfl) s t
@[simp] theorem creditKey_advance (t : Nat) (k : Nat) (f : LinkFrame) : creditKey (advance s t) k f = creditKey s k f := advance_keep (fun u => creditKey u k f) (fun _ _ _ _ _ _ => rfl) s t
@[simp] theorem mayStart_advance (t : Nat) (k : Nat) (f : LinkFrame) : mayStart (advance s t) k f = mayStart s k f := advance_keep (fun u => mayStart u k f) (fun _ _ _ _ _ _ => rfl) s t
@[simp] theorem relayMay_advance (t : Nat) (k : Nat) (d : LinkFrame) : relayMay (advance s t) k d = relayMay s k d := advance_keep (fun u => relayMay u k d) (fun _ _ _ _ _ _ => rfl) s t
@[simp] theorem regPath_advance (t : Nat) (d : Nat) : regPath (advance s t) d = regPath s d := advance_keep (fun u => regPath u d) (fun _ _ _ _ _ _ => rfl) s t
@[simp] theorem alertLow_advance (t : Nat) : alertLow (advance s t) = alertLow s := advance_keep (fun u => alertLow u) (fun _ _ _ _ _ _ => rfl) s t
@[simp] theorem operMin_advance (t : Nat) : operMin (advance s t) = operMin s := advance_keep (fun u => operMin u) (fun _ _ _ _ _ _ => rfl) s t
@[simp] theorem permCount_advance (t : Nat) : permCount (advance s t) = permCount s := advance_keep (fun u => permCount u) (fun _ _ _ _ _ _ => rfl) s t
@[simp] theorem permWindow_advance (t : Nat) : permWindow (advance s t) = permWindow s := advance_keep (fun u => permWindow u) (fun _ _ _ _ _ _ => rfl) s t
@[simp] theorem ledgerFind_advance (t : Nat) (pg row : Nat) : ledgerFind (advance s t) pg row = ledgerFind s pg row := advance_keep (fun u => ledgerFind u pg row) (fun _ _ _ _ _ _ => rfl) s t
@[simp] theorem ageOf_advance (t : Nat) (t1 : Nat) : ageOf (advance s t) t1 = ageOf s t1 := advance_keep (fun u => ageOf u t1) (fun _ _ _ _ _ _ => rfl) s t
@[simp] theorem oldestEntry_advance (t : Nat) : oldestEntry (advance s t) = oldestEntry s := advance_keep (fun u => oldestEntry u) (fun _ _ _ _ _ _ => rfl) s t
@[simp] theorem rostered_advance (t : Nat) (kind pg row : Nat) : rostered (advance s t) kind pg row = rostered s kind pg row := advance_keep (fun u => rostered u kind pg row) (fun _ _ _ _ _ _ => rfl) s t
@[simp] theorem rosterCount_advance (t : Nat) (kind pg : Nat) : rosterCount (advance s t) kind pg = rosterCount s kind pg := advance_keep (fun u => rosterCount u kind pg) (fun _ _ _ _ _ _ => rfl) s t
@[simp] theorem portBusy_advance (t : Nat) (p : Nat) : portBusy (advance s t) p = portBusy s p := advance_keep (fun u => portBusy u p) (fun _ _ _ _ _ _ => rfl) s t
@[simp] theorem coveredOf_advance (t : Nat) (pg : Nat) : coveredOf (advance s t) pg = coveredOf s pg := advance_keep (fun u => coveredOf u pg) (fun _ _ _ _ _ _ => rfl) s t
@[simp] theorem passCrc_advance (t : Nat) : passCrc (advance s t) = passCrc s := advance_keep (fun u => passCrc u) (fun _ _ _ _ _ _ => rfl) s t
@[simp] theorem windowMax_advance (t : Nat) : windowMax (advance s t) = windowMax s := advance_keep (fun u => windowMax u) (fun _ _ _ _ _ _ => rfl) s t
@[simp] theorem tGet_advance (t : Nat) (pg t1 copy i : Nat) : tGet (advance s t) pg t1 copy i = tGet s pg t1 copy i := advance_keep (fun u => tGet u pg t1 copy i) (fun _ _ _ _ _ _ => rfl) s t
@[simp] theorem tLive_advance (t : Nat) (pg t1 i : Nat) : tLive (advance s t) pg t1 i = tLive s pg t1 i := advance_keep (fun u => tLive u pg t1 i) (fun _ _ _ _ _ _ => rfl) s t
@[simp] theorem grpGet_advance (t : Nat) (r i : Nat) : grpGet (advance s t) r i = grpGet s r i := advance_keep (fun u => grpGet u r i) (fun _ _ _ _ _ _ => rfl) s t
@[simp] theorem grpLive_advance (t : Nat) (r i : Nat) : grpLive (advance s t) r i = grpLive s r i := advance_keep (fun u => grpLive u r i) (fun _ _ _ _ _ _ => rfl) s t
@[simp] theorem tQuar_advance (t : Nat) (pg t1 i : Nat) : tQuar (advance s t) pg t1 i = tQuar s pg t1 i := advance_keep (fun u => tQuar u pg t1 i) (fun _ _ _ _ _ _ => rfl) s t
@[simp] theorem tPending_advance (t : Nat) (pg t1 i : Nat) : tPending (advance s t) pg t1 i = tPending s pg t1 i := advance_keep (fun u => tPending u pg t1 i) (fun _ _ _ _ _ _ => rfl) s t
@[simp] theorem pendCount_advance (t : Nat) (pg : Nat) : pendCount (advance s t) pg = pendCount s pg := advance_keep (fun u => pendCount u pg) (fun _ _ _ _ _ _ => rfl) s t
@[simp] theorem rowRemoved_advance (t : Nat) (pg i : Nat) : rowRemoved (advance s t) pg i = rowRemoved s pg i := advance_keep (fun u => rowRemoved u pg i) (fun _ _ _ _ _ _ => rfl) s t
@[simp] theorem waysHolding_advance (t : Nat) (r : Nat) (bridge : Bool) (ws : List Nat) : waysHolding (advance s t) r bridge ws = waysHolding s r bridge ws := advance_keep (fun u => waysHolding u r bridge ws) (fun _ _ _ _ _ _ => rfl) s t
@[simp] theorem ethIf_advance (t : Nat) (p : Nat) : ethIf (advance s t) p = ethIf s p := advance_keep (fun u => ethIf u p) (fun _ _ _ _ _ _ => rfl) s t
@[simp] theorem vlanOut_advance (t : Nat) (p : Nat) (c : Copy) (bs : List Byte) : vlanOut (advance s t) p c bs = vlanOut s p c bs := advance_keep (fun u => vlanOut u p c bs) (fun _ _ _ _ _ _ => rfl) s t
@[simp] theorem busyLoad_advance (t : Nat) (p lo hi : Nat) : busyLoad (advance s t) p lo hi = busyLoad s p lo hi := advance_keep (fun u => busyLoad u p lo hi) (fun _ _ _ _ _ _ => rfl) s t
@[simp] theorem monEdge_advance (t : Nat) (pg k : Nat) : monEdge (advance s t) pg k = monEdge s pg k := advance_keep (fun u => monEdge u pg k) (fun _ _ _ _ _ _ => rfl) s t
@[simp] theorem edgeErr_advance (t : Nat) (pg : Nat) : edgeErr (advance s t) pg = edgeErr s pg := advance_keep (fun u => edgeErr u pg) (fun _ _ _ _ _ _ => rfl) s t
@[simp] theorem monBin_advance (t : Nat) (pg v : Nat) : monBin (advance s t) pg v = monBin s pg v := advance_keep (fun u => monBin u pg v) (fun _ _ _ _ _ _ => rfl) s t
@[simp] theorem monKind_advance (t : Nat) (pg : Nat) : monKind (advance s t) pg = monKind s pg := advance_keep (fun u => monKind u pg) (fun _ _ _ _ _ _ => rfl) s t
@[simp] theorem reserveOf_advance (t : Nat) (p : Nat) : reserveOf (advance s t) p = reserveOf s p := advance_keep (fun u => reserveOf u p) (fun _ _ _ _ _ _ => rfl) s t
@[simp] theorem headroomOf_advance (t : Nat) (p : Nat) : headroomOf (advance s t) p = headroomOf s p := advance_keep (fun u => headroomOf u p) (fun _ _ _ _ _ _ => rfl) s t
@[simp] theorem shmaxOf_advance (t : Nat) (p : Nat) : shmaxOf (advance s t) p = shmaxOf s p := advance_keep (fun u => shmaxOf u p) (fun _ _ _ _ _ _ => rfl) s t
@[simp] theorem halfDuplex_advance (t : Nat) (p : Nat) : halfDuplex (advance s t) p = halfDuplex s p := advance_keep (fun u => halfDuplex u p) (fun _ _ _ _ _ _ => rfl) s t
@[simp] theorem takesBp_advance (t : Nat) (p : Nat) : takesBp (advance s t) p = takesBp s p := advance_keep (fun u => takesBp u p) (fun _ _ _ _ _ _ => rfl) s t
@[simp] theorem allPlots_advance (t : Nat) : allPlots (advance s t) = allPlots s := advance_keep (fun u => allPlots u) (fun _ _ _ _ _ _ => rfl) s t
@[simp] theorem areaUse_advance (t : Nat) (p : Nat) (a : Area) : areaUse (advance s t) p a = areaUse s p a := advance_keep (fun u => areaUse u p a) (fun _ _ _ _ _ _ => rfl) s t
@[simp] theorem areaAll_advance (t : Nat) (a : Area) : areaAll (advance s t) a = areaAll s a := advance_keep (fun u => areaAll u a) (fun _ _ _ _ _ _ => rfl) s t
@[simp] theorem usable_advance (t : Nat) : usable (advance s t) = usable s := advance_keep (fun u => usable u) (fun _ _ _ _ _ _ => rfl) s t
@[simp] theorem committedPlots_advance (t : Nat) : committedPlots (advance s t) = committedPlots s := advance_keep (fun u => committedPlots u) (fun _ _ _ _ _ _ => rfl) s t
@[simp] theorem poolSize_advance (t : Nat) : poolSize (advance s t) = poolSize s := advance_keep (fun u => poolSize u) (fun _ _ _ _ _ _ => rfl) s t
@[simp] theorem overcommit_advance (t : Nat) : overcommit (advance s t) = overcommit s := advance_keep (fun u => overcommit u) (fun _ _ _ _ _ _ => rfl) s t
@[simp] theorem poolFree_advance (t : Nat) : poolFree (advance s t) = poolFree s := advance_keep (fun u => poolFree u) (fun _ _ _ _ _ _ => rfl) s t
@[simp] theorem chargeArea_advance (t : Nat) (p : Nat) : chargeArea (advance s t) p = chargeArea s p := advance_keep (fun u => chargeArea u p) (fun _ _ _ _ _ _ => rfl) s t
@[simp] theorem rowsTaken_advance (t : Nat) (b : Nat) : rowsTaken (advance s t) b = rowsTaken s b := advance_keep (fun u => rowsTaken u b) (fun _ _ _ _ _ _ => rfl) s t
@[simp] theorem bankFree_advance (t : Nat) (b : Nat) : bankFree (advance s t) b = bankFree s b := advance_keep (fun u => bankFree u b) (fun _ _ _ _ _ _ => rfl) s t
@[simp] theorem bankFor_advance (t : Nat) (b0 k : Nat) : bankFor (advance s t) b0 k = bankFor s b0 k := advance_keep (fun u => bankFor u b0 k) (fun _ _ _ _ _ _ => rfl) s t
@[simp] theorem bestBank_advance (t : Nat) : bestBank (advance s t) = bestBank s := advance_keep (fun u => bestBank u) (fun _ _ _ _ _ _ => rfl) s t
@[simp] theorem freeRow_advance (t : Nat) (b draw : Nat) : freeRow (advance s t) b draw = freeRow s b draw := advance_keep (fun u => freeRow u b draw) (fun _ _ _ _ _ _ => rfl) s t
@[simp] theorem getFrame_advance (t : Nat) (id : Nat) : getFrame (advance s t) id = getFrame s id := advance_keep (fun u => getFrame u id) (fun _ _ _ _ _ _ => rfl) s t
@[simp] theorem hasFrame_advance (t : Nat) (id : Nat) : hasFrame (advance s t) id = hasFrame s id := advance_keep (fun u => hasFrame u id) (fun _ _ _ _ _ _ => rfl) s t
@[simp] theorem outQueue_advance (t : Nat) (o : Nat) : outQueue (advance s t) o = outQueue s o := advance_keep (fun u => outQueue u o) (fun _ _ _ _ _ _ => rfl) s t
@[simp] theorem outState_advance (t : Nat) (o : Nat) : outState (advance s t) o = outState s o := advance_keep (fun u => outState u o) (fun _ _ _ _ _ _ => rfl) s t
@[simp] theorem liveCopies_advance (t : Nat) (id : Nat) : liveCopies (advance s t) id = liveCopies s id := advance_keep (fun u => liveCopies u id) (fun _ _ _ _ _ _ => rfl) s t
@[simp] theorem heldCopies_advance (t : Nat) (id : Nat) : heldCopies (advance s t) id = heldCopies s id := advance_keep (fun u => heldCopies u id) (fun _ _ _ _ _ _ => rfl) s t
@[simp] theorem outstanding_advance (t : Nat) (id : Nat) : outstanding (advance s t) id = outstanding s id := advance_keep (fun u => outstanding u id) (fun _ _ _ _ _ _ => rfl) s t
@[simp] theorem queuedPlots_advance (t : Nat) (o : Nat) : queuedPlots (advance s t) o = queuedPlots s o := advance_keep (fun u => queuedPlots u o) (fun _ _ _ _ _ _ => rfl) s t
@[simp] theorem entriesUsed_advance (t : Nat) : entriesUsed (advance s t) = entriesUsed s := advance_keep (fun u => entriesUsed u) (fun _ _ _ _ _ _ => rfl) s t
@[simp] theorem entriesFree_advance (t : Nat) : entriesFree (advance s t) = entriesFree s := advance_keep (fun u => entriesFree u) (fun _ _ _ _ _ _ => rfl) s t
@[simp] theorem useOf_advance (t : Nat) (p : Nat) : useOf (advance s t) p = useOf s p := advance_keep (fun u => useOf u p) (fun _ _ _ _ _ _ => rfl) s t
@[simp] theorem limitOf_advance (t : Nat) (p : Nat) : limitOf (advance s t) p = limitOf s p := advance_keep (fun u => limitOf u p) (fun _ _ _ _ _ _ => rfl) s t
@[simp] theorem classUse_advance (t : Nat) (p c : Nat) : classUse (advance s t) p c = classUse s p c := advance_keep (fun u => classUse u p c) (fun _ _ _ _ _ _ => rfl) s t
@[simp] theorem greedyClasses_advance (t : Nat) (p : Nat) : greedyClasses (advance s t) p = greedyClasses s p := advance_keep (fun u => greedyClasses u p) (fun _ _ _ _ _ _ => rfl) s t
@[simp] theorem fcMode_advance (t : Nat) (p : Nat) : fcMode (advance s t) p = fcMode s p := advance_keep (fun u => fcMode u p) (fun _ _ _ _ _ _ => rfl) s t
@[simp] theorem ownAddress_advance (t : Nat) (p : Nat) : ownAddress (advance s t) p = ownAddress s p := advance_keep (fun u => ownAddress u p) (fun _ _ _ _ _ _ => rfl) s t
@[simp] theorem quantaOf_advance (t : Nat) (p : Nat) : quantaOf (advance s t) p = quantaOf s p := advance_keep (fun u => quantaOf u p) (fun _ _ _ _ _ _ => rfl) s t
@[simp] theorem controlFrame_advance (t : Nat) (p op : Nat) (body : List Byte) : controlFrame (advance s t) p op body = controlFrame s p op body := advance_keep (fun u => controlFrame u p op body) (fun _ _ _ _ _ _ => rfl) s t
@[simp] theorem getMac_advance (t : Nat) (p : Nat) : getMac (advance s t) p = getMac s p := advance_keep (fun u => getMac u p) (fun _ _ _ _ _ _ => rfl) s t
@[simp] theorem bitTicks_advance (t : Nat) (p n : Nat) : bitTicks (advance s t) p n = bitTicks s p n := advance_keep (fun u => bitTicks u p n) (fun _ _ _ _ _ _ => rfl) s t
@[simp] theorem clState_advance (t : Nat) (c : Nat) : clState (advance s t) c = clState s c := advance_keep (fun u => clState u c) (fun _ _ _ _ _ _ => rfl) s t
@[simp] theorem clusterOf_advance (t : Nat) (p : Nat) : clusterOf (advance s t) p = clusterOf s p := advance_keep (fun u => clusterOf u p) (fun _ _ _ _ _ _ => rfl) s t
@[simp] theorem chanAsleep_advance (t : Nat) (p : Nat) : chanAsleep (advance s t) p = chanAsleep s p := advance_keep (fun u => chanAsleep u p) (fun _ _ _ _ _ _ => rfl) s t
@[simp] theorem pairState_advance (t : Nat) : pairState (advance s t) = pairState s := advance_keep (fun u => pairState u) (fun _ _ _ _ _ _ => rfl) s t
@[simp] theorem pairQuiet_advance (t : Nat) : pairQuiet (advance s t) = pairQuiet s := advance_keep (fun u => pairQuiet u) (fun _ _ _ _ _ _ => rfl) s t
@[simp] theorem plcaOn_advance (t : Nat) (p : Nat) : plcaOn (advance s t) p = plcaOn s p := advance_keep (fun u => plcaOn u p) (fun _ _ _ _ _ _ => rfl) s t
@[simp] theorem fcBlocked_advance (t : Nat) (p : Nat) : fcBlocked (advance s t) p = fcBlocked s p := advance_keep (fun u => fcBlocked u p) (fun _ _ _ _ _ _ => rfl) s t
@[simp] theorem readyAt_advance (t : Nat) (c : Copy) : readyAt (advance s t) c = readyAt s c := advance_keep (fun u => readyAt u c) (fun _ _ _ _ _ _ => rfl) s t
@[simp] theorem notBegun_advance (t : Nat) (o : Nat) : notBegun (advance s t) o = notBegun s o := advance_keep (fun u => notBegun u o) (fun _ _ _ _ _ _ => rfl) s t
@[simp] theorem firstClass_advance (t : Nat) (p : Nat) (bytes : List Byte) : firstClass (advance s t) p bytes = firstClass s p bytes := advance_keep (fun u => firstClass u p bytes) (fun _ _ _ _ _ _ => rfl) s t
@[simp] theorem getStream_advance (t : Nat) (n : Nat) : getStream (advance s t) n = getStream s n := advance_keep (fun u => getStream u n) (fun _ _ _ _ _ _ => rfl) s t
@[simp] theorem gateEntry_advance (t : Nat) (i j k : Nat) : gateEntry (advance s t) i j k = gateEntry s i j k := advance_keep (fun u => gateEntry u i j k) (fun _ _ _ _ _ _ => rfl) s t
@[simp] theorem gateCycleNs_advance (t : Nat) (i : Nat) : gateCycleNs (advance s t) i = gateCycleNs s i := advance_keep (fun u => gateCycleNs u i) (fun _ _ _ _ _ _ => rfl) s t
@[simp] theorem gateIdle_advance (t : Nat) (i : Nat) : gateIdle (advance s t) i = gateIdle s i := advance_keep (fun u => gateIdle u i) (fun _ _ _ _ _ _ => rfl) s t
@[simp] theorem getGate_advance (t : Nat) (i : Nat) : getGate (advance s t) i = getGate s i := advance_keep (fun u => getGate u i) (fun _ _ _ _ _ _ => rfl) s t
@[simp] theorem cycleAt_advance (t : Nat) (i t1 : Nat) : cycleAt (advance s t) i t1 = cycleAt s i t1 := advance_keep (fun u => cycleAt u i t1) (fun _ _ _ _ _ _ => rfl) s t
@[simp] theorem portSpeed_advance (t : Nat) (o : Nat) : portSpeed (advance s t) o = portSpeed s o := advance_keep (fun u => portSpeed u o) (fun _ _ _ _ _ _ => rfl) s t
@[simp] theorem lineRate_advance (t : Nat) (p : Nat) : lineRate (advance s t) p = lineRate s p := advance_keep (fun u => lineRate u p) (fun _ _ _ _ _ _ => rfl) s t
@[simp] theorem cutPermitted_advance (t : Nat) (o : Nat) (c : Copy) : cutPermitted (advance s t) o c = cutPermitted s o c := advance_keep (fun u => cutPermitted u o c) (fun _ _ _ _ _ _ => rfl) s t
@[simp] theorem readable_advance (t : Nat) (o : Nat) (c : Copy) : readable (advance s t) o c = readable s o c := advance_keep (fun u => readable u o c) (fun _ _ _ _ _ _ => rfl) s t
@[simp] theorem headOf_advance (t : Nat) (o i c : Nat) : headOf (advance s t) o i c = headOf s o i c := advance_keep (fun u => headOf u o i c) (fun _ _ _ _ _ _ => rfl) s t
@[simp] theorem linkProbe_advance (t : Nat) (c : Copy) : linkProbe (advance s t) c = linkProbe s c := advance_keep (fun u => linkProbe u c) (fun _ _ _ _ _ _ => rfl) s t
@[simp] theorem linkCredit_advance (t : Nat) (o : Nat) (c : Copy) : linkCredit (advance s t) o c = linkCredit s o c := advance_keep (fun u => linkCredit u o c) (fun _ _ _ _ _ _ => rfl) s t
@[simp] theorem pausedFor_advance (t : Nat) (o c : Nat) : pausedFor (advance s t) o c = pausedFor s o c := advance_keep (fun u => pausedFor u o c) (fun _ _ _ _ _ _ => rfl) s t
@[simp] theorem canHasRoom_advance (t : Nat) (n i c : Nat) : canHasRoom (advance s t) n i c = canHasRoom s n i c := advance_keep (fun u => canHasRoom u n i c) (fun _ _ _ _ _ _ => rfl) s t
@[simp] theorem ringHasRoom_advance (t : Nat) (ring : Nat) : ringHasRoom (advance s t) ring = ringHasRoom s ring := advance_keep (fun u => ringHasRoom u ring) (fun _ _ _ _ _ _ => rfl) s t
@[simp] theorem linHasRoom_advance (t : Nat) (m i c : Nat) : linHasRoom (advance s t) m i c = linHasRoom s m i c := advance_keep (fun u => linHasRoom u m i c) (fun _ _ _ _ _ _ => rfl) s t
@[simp] theorem cellAccepts_advance (t : Nat) (o i c : Nat) : cellAccepts (advance s t) o i c = cellAccepts s o i c := advance_keep (fun u => cellAccepts u o i c) (fun _ _ _ _ _ _ => rfl) s t
@[simp] theorem maxAge_advance (t : Nat) (c : Nat) : maxAge (advance s t) c = maxAge s c := advance_keep (fun u => maxAge u c) (fun _ _ _ _ _ _ => rfl) s t
@[simp] theorem secyGrowth_advance (t : Nat) (o : Nat) : secyGrowth (advance s t) o = secyGrowth s o := advance_keep (fun u => secyGrowth u o) (fun _ _ _ _ _ _ => rfl) s t
@[simp] theorem writtenLen_advance (t : Nat) (o : Nat) (c : Copy) : writtenLen (advance s t) o c = writtenLen s o c := advance_keep (fun u => writtenLen u o c) (fun _ _ _ _ _ _ => rfl) s t
@[simp] theorem guardLen_advance (t : Nat) (o : Nat) (c : Copy) : guardLen (advance s t) o c = guardLen s o c := advance_keep (fun u => guardLen u o c) (fun _ _ _ _ _ _ => rfl) s t
@[simp] theorem isStrict_advance (t : Nat) (o c : Nat) : isStrict (advance s t) o c = isStrict s o c := advance_keep (fun u => isStrict u o c) (fun _ _ _ _ _ _ => rfl) s t
@[simp] theorem quantumOf_advance (t : Nat) (o c : Nat) : quantumOf (advance s t) o c = quantumOf s o c := advance_keep (fun u => quantumOf u o c) (fun _ _ _ _ _ _ => rfl) s t
@[simp] theorem costOf_advance (t : Nat) (c : Copy) : costOf (advance s t) c = costOf s c := advance_keep (fun u => costOf u c) (fun _ _ _ _ _ _ => rfl) s t
@[simp] theorem bridgeAt_advance (t : Nat) (r i : Nat) : bridgeAt (advance s t) r i = bridgeAt s r i := advance_keep (fun u => bridgeAt u r i) (fun _ _ _ _ _ _ => rfl) s t
@[simp] theorem bridgeFind_advance (t : Nat) (r mac vid : Nat) : bridgeFind (advance s t) r mac vid = bridgeFind s r mac vid := advance_keep (fun u => bridgeFind u r mac vid) (fun _ _ _ _ _ _ => rfl) s t
@[simp] theorem bridgeFree_advance (t : Nat) (r mac vid : Nat) : bridgeFree (advance s t) r mac vid = bridgeFree s r mac vid := advance_keep (fun u => bridgeFree u r mac vid) (fun _ _ _ _ _ _ => rfl) s t
@[simp] theorem trackerOf_advance (t : Nat) (r mac vid : Nat) : trackerOf (advance s t) r mac vid = trackerOf s r mac vid := advance_keep (fun u => trackerOf u r mac vid) (fun _ _ _ _ _ _ => rfl) s t
@[simp] theorem moveWindow_advance (t : Nat) (r : Nat) : moveWindow (advance s t) r = moveWindow s r := advance_keep (fun u => moveWindow u r) (fun _ _ _ _ _ _ => rfl) s t
@[simp] theorem pinTime_advance (t : Nat) (r : Nat) : pinTime (advance s t) r = pinTime s r := advance_keep (fun u => pinTime u r) (fun _ _ _ _ _ _ => rfl) s t
@[simp] theorem parked_advance (t : Nat) (r : Nat) : parked (advance s t) r = parked s r := advance_keep (fun u => parked u r) (fun _ _ _ _ _ _ => rfl) s t
@[simp] theorem learnedNow_advance (t : Nat) (r : Nat) : learnedNow (advance s t) r = learnedNow s r := advance_keep (fun u => learnedNow u r) (fun _ _ _ _ _ _ => rfl) s t
@[simp] theorem tplWord_advance (t : Nat) (pg t1 w : Nat) : tplWord (advance s t) pg t1 w = tplWord s pg t1 w := advance_keep (fun u => tplWord u pg t1 w) (fun _ _ _ _ _ _ => rfl) s t
@[simp] theorem tplType_advance (t : Nat) (pg t1 : Nat) : tplType (advance s t) pg t1 = tplType s pg t1 := advance_keep (fun u => tplType u pg t1) (fun _ _ _ _ _ _ => rfl) s t
@[simp] theorem tplHlen_advance (t : Nat) (pg t1 : Nat) : tplHlen (advance s t) pg t1 = tplHlen s pg t1 := advance_keep (fun u => tplHlen u pg t1) (fun _ _ _ _ _ _ => rfl) s t
@[simp] theorem tplCsum_advance (t : Nat) (pg t1 : Nat) : tplCsum (advance s t) pg t1 = tplCsum s pg t1 := advance_keep (fun u => tplCsum u pg t1) (fun _ _ _ _ _ _ => rfl) s t
@[simp] theorem tplBus_advance (t : Nat) (pg t1 : Nat) : tplBus (advance s t) pg t1 = tplBus s pg t1 := advance_keep (fun u => tplBus u pg t1) (fun _ _ _ _ _ _ => rfl) s t
@[simp] theorem liveOf_advance (t : Nat) (h code i : Nat) : liveOf (advance s t) h code i = liveOf s h code i := advance_keep (fun u => liveOf u h code i) (fun _ _ _ _ _ _ => rfl) s t
@[simp] theorem isQuar_advance (t : Nat) (h code i : Nat) : isQuar (advance s t) h code i = isQuar s h code i := advance_keep (fun u => isQuar u h code i) (fun _ _ _ _ _ _ => rfl) s t
@[simp] theorem sparesLeft_advance (t : Nat) (h code : Nat) : sparesLeft (advance s t) h code = sparesLeft s h code := advance_keep (fun u => sparesLeft u h code) (fun _ _ _ _ _ _ => rfl) s t
@[simp] theorem actsQuar_advance (t : Nat) (h code i : Nat) (bad : List (Nat × Nat)) : actsQuar (advance s t) h code i bad = actsQuar s h code i bad := advance_keep (fun u => actsQuar u h code i bad) (fun _ _ _ _ _ _ => rfl) s t
@[simp] theorem quarNow_advance (t : Nat) (h : Nat) : quarNow (advance s t) h = quarNow s h := advance_keep (fun u => quarNow u h) (fun _ _ _ _ _ _ => rfl) s t
@[simp] theorem cltFld_advance (t : Nat) (p hi lo : Nat) : cltFld (advance s t) p hi lo = cltFld s p hi lo := advance_keep (fun u => cltFld u p hi lo) (fun _ _ _ _ _ _ => rfl) s t
@[simp] theorem splitMax_advance (t : Nat) (r : Nat) : splitMax (advance s t) r = splitMax s r := advance_keep (fun u => splitMax u r) (fun _ _ _ _ _ _ => rfl) s t
@[simp] theorem soadPort_advance (t : Nat) (r udp : Nat) : soadPort (advance s t) r udp = soadPort s r udp := advance_keep (fun u => soadPort u r udp) (fun _ _ _ _ _ _ => rfl) s t
@[simp] theorem cutItems_advance (t : Nat) (p : Nat) (h : Head) : cutItems (advance s t) p h = cutItems s p h := advance_keep (fun u => cutItems u p h) (fun _ _ _ _ _ _ => rfl) s t
@[simp] theorem hedgeKey_advance (t : Nat) (p : Nat) (h : Head) (it : Item) : hedgeKey (advance s t) p h it = hedgeKey s p h it := advance_keep (fun u => hedgeKey u p h it) (fun _ _ _ _ _ _ => rfl) s t
@[simp] theorem liveEntries_advance (t : Nat) (pg t1 : Nat) : liveEntries (advance s t) pg t1 = liveEntries s pg t1 := advance_keep (fun u => liveEntries u pg t1) (fun _ _ _ _ _ _ => rfl) s t
@[simp] theorem matchRule_advance (t : Nat) (r : Nat) (hk : List Nat) : matchRule (advance s t) r hk = matchRule s r hk := advance_keep (fun u => matchRule u r hk) (fun _ _ _ _ _ _ => rfl) s t
@[simp] theorem groupOutputs_advance (t : Nat) (e : TEntry) : groupOutputs (advance s t) e = groupOutputs s e := advance_keep (fun u => groupOutputs u e) (fun _ _ _ _ _ _ => rfl) s t
@[simp] theorem resolve_advance (t : Nat) (r : Nat) (group : Bool) (dest : Nat) (bad : List (Nat × Nat)) : resolve (advance s t) r group dest bad = resolve s r group dest bad := advance_keep (fun u => resolve u r group dest bad) (fun _ _ _ _ _ _ => rfl) s t
@[simp] theorem dataPath_advance (t : Nat) (d : Nat) : dataPath (advance s t) d = dataPath s d := advance_keep (fun u => dataPath u d) (fun _ _ _ _ _ _ => rfl) s t
@[simp] theorem polGet_advance (t : Nat) (r i : Nat) : polGet (advance s t) r i = polGet s r i := advance_keep (fun u => polGet u r i) (fun _ _ _ _ _ _ => rfl) s t
@[simp] theorem portClass_advance (t : Nat) (p : Nat) (h : Head) : portClass (advance s t) p h = portClass s p h := advance_keep (fun u => portClass u p h) (fun _ _ _ _ _ _ => rfl) s t
@[simp] theorem pipelineRuns_advance (t : Nat) (r : Nat) : pipelineRuns (advance s t) r = pipelineRuns s r := advance_keep (fun u => pipelineRuns u r) (fun _ _ _ _ _ _ => rfl) s t
@[simp] theorem holdTime_advance (t : Nat) (o : Nat) : holdTime (advance s t) o = holdTime s o := advance_keep (fun u => holdTime u o) (fun _ _ _ _ _ _ => rfl) s t
@[simp] theorem downCond_advance (t : Nat) (o : Nat) : downCond (advance s t) o = downCond s o := advance_keep (fun u => downCond u o) (fun _ _ _ _ _ _ => rfl) s t
@[simp] theorem allPaused_advance (t : Nat) (o : Nat) : allPaused (advance s t) o = allPaused s o := advance_keep (fun u => allPaused u o) (fun _ _ _ _ _ _ => rfl) s t
@[simp] theorem lighterLink_advance (t : Nat) : lighterLink (advance s t) = lighterLink s := advance_keep (fun u => lighterLink u) (fun _ _ _ _ _ _ => rfl) s t
@[simp] theorem profileDir_advance (t : Nat) (k : Nat) : profileDir (advance s t) k = profileDir s k := advance_keep (fun u => profileDir u k) (fun _ _ _ _ _ _ => rfl) s t
@[simp] theorem isSecured_advance (t : Nat) (sec : Nat) : isSecured (advance s t) sec = isSecured s sec := advance_keep (fun u => isSecured u sec) (fun _ _ _ _ _ _ => rfl) s t
@[simp] theorem takenCopies_advance (t : Nat) (v : Verdict) : takenCopies (advance s t) v = takenCopies s v := advance_keep (fun u => takenCopies u v) (fun _ _ _ _ _ _ => rfl) s t
@[simp] theorem entriesShort_advance (t : Nat) (v : Verdict) : entriesShort (advance s t) v = entriesShort s v := advance_keep (fun u => entriesShort u v) (fun _ _ _ _ _ _ => rfl) s t
@[simp] theorem getSlot_advance (t : Nat) (i : Nat) : getSlot (advance s t) i = getSlot s i := advance_keep (fun u => getSlot u i) (fun _ _ _ _ _ _ => rfl) s t
@[simp] theorem anyFault_advance (t : Nat) (slots : List (Nat × Bool)) : anyFault (advance s t) slots = anyFault s slots := advance_keep (fun u => anyFault u slots) (fun _ _ _ _ _ _ => rfl) s t
@[simp] theorem getTx_advance (t : Nat) (l : Nat) : getTx (advance s t) l = getTx s l := advance_keep (fun u => getTx u l) (fun _ _ _ _ _ _ => rfl) s t
@[simp] theorem txIsLin_advance (t : Nat) (e : TEntry) : txIsLin (advance s t) e = txIsLin s e := advance_keep (fun u => txIsLin u e) (fun _ _ _ _ _ _ => rfl) s t
@[simp] theorem postponing_advance (t : Nat) : postponing (advance s t) = postponing s := advance_keep (fun u => postponing u) (fun _ _ _ _ _ _ => rfl) s t
@[simp] theorem mirrorMuted_advance (t : Nat) (mirror : Bool) : mirrorMuted (advance s t) mirror = mirrorMuted s mirror := advance_keep (fun u => mirrorMuted u mirror) (fun _ _ _ _ _ _ => rfl) s t
@[simp] theorem getRx_advance (t : Nat) (l : Nat) : getRx (advance s t) l = getRx s l := advance_keep (fun u => getRx u l) (fun _ _ _ _ _ _ => rfl) s t
@[simp] theorem mbItem_advance (t : Nat) (c : Copy) : mbItem (advance s t) c = mbItem s c := advance_keep (fun u => mbItem u c) (fun _ _ _ _ _ _ => rfl) s t
@[simp] theorem pullWaits_advance (t : Nat) : pullWaits (advance s t) = pullWaits s := advance_keep (fun u => pullWaits u) (fun _ _ _ _ _ _ => rfl) s t
@[simp] theorem nextLayout_advance (t : Nat) : nextLayout (advance s t) = nextLayout s := advance_keep (fun u => nextLayout u) (fun _ _ _ _ _ _ => rfl) s t
@[simp] theorem bothWait_advance (t : Nat) : bothWait (advance s t) = bothWait s := advance_keep (fun u => bothWait u) (fun _ _ _ _ _ _ => rfl) s t
@[simp] theorem containerGoes_advance (t : Nat) (c : Nat) (ce : TEntry) : containerGoes (advance s t) c ce = containerGoes s c ce := advance_keep (fun u => containerGoes u c ce) (fun _ _ _ _ _ _ => rfl) s t
@[simp] theorem isDirectory_advance (t : Nat) (l : Nat) : isDirectory (advance s t) l = isDirectory s l := advance_keep (fun u => isDirectory u l) (fun _ _ _ _ _ _ => rfl) s t
@[simp] theorem deadlineDue_advance (t : Nat) (l : Nat) : deadlineDue (advance s t) l = deadlineDue s l := advance_keep (fun u => deadlineDue u l) (fun _ _ _ _ _ _ => rfl) s t
@[simp] theorem periodDue_advance (t : Nat) (l : Nat) : periodDue (advance s t) l = periodDue s l := advance_keep (fun u => periodDue u l) (fun _ _ _ _ _ _ => rfl) s t
@[simp] theorem ssCount_advance (t : Nat) : ssCount (advance s t) = ssCount s := advance_keep (fun u => ssCount u) (fun _ _ _ _ _ _ => rfl) s t
@[simp] theorem ssSlot_advance (t : Nat) : ssSlot (advance s t) = ssSlot s := advance_keep (fun u => ssSlot u) (fun _ _ _ _ _ _ => rfl) s t
@[simp] theorem ssPuts_advance (t : Nat) (base n : Nat) : ssPuts (advance s t) base n = ssPuts s base n := advance_keep (fun u => ssPuts u base n) (fun _ _ _ _ _ _ => rfl) s t
@[simp] theorem members_advance (t : Nat) (c : Nat) : members (advance s t) c = members s c := advance_keep (fun u => members u c) (fun _ _ _ _ _ _ => rfl) s t
@[simp] theorem chanFallow_advance (t : Nat) (p : Nat) : chanFallow (advance s t) p = chanFallow s p := advance_keep (fun u => chanFallow u p) (fun _ _ _ _ _ _ => rfl) s t
@[simp] theorem muted_advance (t : Nat) (p : Nat) : muted (advance s t) p = muted s p := advance_keep (fun u => muted u p) (fun _ _ _ _ _ _ => rfl) s t
@[simp] theorem clReq_advance (t : Nat) (c : Nat) : clReq (advance s t) c = clReq s c := advance_keep (fun u => clReq u c) (fun _ _ _ _ _ _ => rfl) s t
@[simp] theorem getCl_advance (t : Nat) (c : Nat) : getCl (advance s t) c = getCl s c := advance_keep (fun u => getCl u c) (fun _ _ _ _ _ _ => rfl) s t
@[simp] theorem clNmTimeout_advance (t : Nat) (c : Nat) : clNmTimeout (advance s t) c = clNmTimeout s c := advance_keep (fun u => clNmTimeout u c) (fun _ _ _ _ _ _ => rfl) s t
@[simp] theorem clRepeat_advance (t : Nat) (c : Nat) : clRepeat (advance s t) c = clRepeat s c := advance_keep (fun u => clRepeat u c) (fun _ _ _ _ _ _ => rfl) s t
@[simp] theorem clWait_advance (t : Nat) (c : Nat) : clWait (advance s t) c = clWait s c := advance_keep (fun u => clWait u c) (fun _ _ _ _ _ _ => rfl) s t
@[simp] theorem clCycle_advance (t : Nat) (c : Nat) : clCycle (advance s t) c = clCycle s c := advance_keep (fun u => clCycle u c) (fun _ _ _ _ _ _ => rfl) s t
@[simp] theorem getLin_advance (t : Nat) (m : Nat) : getLin (advance s t) m = getLin s m := advance_keep (fun u => getLin u m) (fun _ _ _ _ _ _ => rfl) s t
@[simp] theorem filtOf_advance (t : Nat) (p : Nat) : filtOf (advance s t) p = filtOf s p := advance_keep (fun u => filtOf u p) (fun _ _ _ _ _ _ => rfl) s t
@[simp] theorem chanListens_advance (t : Nat) (p : Nat) : chanListens (advance s t) p = chanListens s p := advance_keep (fun u => chanListens u p) (fun _ _ _ _ _ _ => rfl) s t
@[simp] theorem trxWanted_advance (t : Nat) (p : Nat) : trxWanted (advance s t) p = trxWanted s p := advance_keep (fun u => trxWanted u p) (fun _ _ _ _ _ _ => rfl) s t
@[simp] theorem getCan_advance (t : Nat) (n : Nat) : getCan (advance s t) n = getCan s n := advance_keep (fun u => getCan u n) (fun _ _ _ _ _ _ => rfl) s t
@[simp] theorem canTakes_advance (t : Nat) (p : Nat) : canTakes (advance s t) p = canTakes s p := advance_keep (fun u => canTakes u p) (fun _ _ _ _ _ _ => rfl) s t
@[simp] theorem regionQuiet_advance (t : Nat) (r : Nat) : regionQuiet (advance s t) r = regionQuiet s r := advance_keep (fun u => regionQuiet u r) (fun _ _ _ _ _ _ => rfl) s t
@[simp] theorem parkable_advance (t : Nat) (r : Nat) : parkable (advance s t) r = parkable s r := advance_keep (fun u => parkable u r) (fun _ _ _ _ _ _ => rfl) s t
@[simp] theorem clustersAsleep_advance (t : Nat) : clustersAsleep (advance s t) = clustersAsleep s := advance_keep (fun u => clustersAsleep u) (fun _ _ _ _ _ _ => rfl) s t
@[simp] theorem kaLimit_advance (t : Nat) : kaLimit (advance s t) = kaLimit s := advance_keep (fun u => kaLimit u) (fun _ _ _ _ _ _ => rfl) s t
@[simp] theorem clusterMap_advance (t : Nat) (lo hi : Nat) : clusterMap (advance s t) lo hi = clusterMap s lo hi := advance_keep (fun u => clusterMap u lo hi) (fun _ _ _ _ _ _ => rfl) s t
@[simp] theorem kaSource_advance (t : Nat) (p ident : Nat) (data : List Byte) : kaSource (advance s t) p ident data = kaSource s p ident data := advance_keep (fun u => kaSource u p ident data) (fun _ _ _ _ _ _ => rfl) s t
@[simp] theorem canCounts_advance (t : Nat) (p : Nat) (ide : Bool) (ident : Nat) : canCounts (advance s t) p ide ident = canCounts s p ide ident := advance_keep (fun u => canCounts u p ide ident) (fun _ _ _ _ _ _ => rfl) s t
@[simp] theorem winSelected_advance (t : Nat) (k : Nat) (rising : Bool) (heldUs : Nat) : winSelected (advance s t) k rising heldUs = winSelected s k rising heldUs := advance_keep (fun u => winSelected u k rising heldUs) (fun _ _ _ _ _ _ => rfl) s t
@[simp] theorem unparkAsked_advance (t : Nat) (r : Nat) : unparkAsked (advance s t) r = unparkAsked s r := advance_keep (fun u => unparkAsked u r) (fun _ _ _ _ _ _ => rfl) s t
@[simp] theorem canMode_advance (t : Nat) (n : Nat) : canMode (advance s t) n = canMode s n := advance_keep (fun u => canMode u n) (fun _ _ _ _ _ _ => rfl) s t
@[simp] theorem canActs_advance (t : Nat) (n : Nat) : canActs (advance s t) n = canActs s n := advance_keep (fun u => canActs u n) (fun _ _ _ _ _ _ => rfl) s t
@[simp] theorem fdEn_advance (t : Nat) (n : Nat) : fdEn (advance s t) n = fdEn s n := advance_keep (fun u => fdEn u n) (fun _ _ _ _ _ _ => rfl) s t
@[simp] theorem brsEn_advance (t : Nat) (n : Nat) : brsEn (advance s t) n = brsEn s n := advance_keep (fun u => brsEn u n) (fun _ _ _ _ _ _ => rfl) s t
@[simp] theorem canOnBus_advance (t : Nat) (n : Nat) : canOnBus (advance s t) n = canOnBus s n := advance_keep (fun u => canOnBus u n) (fun _ _ _ _ _ _ => rfl) s t
@[simp] theorem canPassive_advance (t : Nat) (n : Nat) : canPassive (advance s t) n = canPassive s n := advance_keep (fun u => canPassive u n) (fun _ _ _ _ _ _ => rfl) s t
@[simp] theorem tdcOn_advance (t : Nat) (n : Nat) : tdcOn (advance s t) n = tdcOn s n := advance_keep (fun u => tdcOn u n) (fun _ _ _ _ _ _ => rfl) s t
@[simp] theorem objW_advance (t : Nat) (n i w : Nat) : objW (advance s t) n i w = objW s n i w := advance_keep (fun u => objW u n i w) (fun _ _ _ _ _ _ => rfl) s t
@[simp] theorem objBit_advance (t : Nat) (n i w b : Nat) : objBit (advance s t) n i w b = objBit s n i w b := advance_keep (fun u => objBit u n i w b) (fun _ _ _ _ _ _ => rfl) s t
@[simp] theorem objSend_advance (t : Nat) (n i : Nat) : objSend (advance s t) n i = objSend s n i := advance_keep (fun u => objSend u n i) (fun _ _ _ _ _ _ => rfl) s t
@[simp] theorem objRouter_advance (t : Nat) (n i : Nat) : objRouter (advance s t) n i = objRouter s n i := advance_keep (fun u => objRouter u n i) (fun _ _ _ _ _ _ => rfl) s t
@[simp] theorem objRecv_advance (t : Nat) (n i : Nat) : objRecv (advance s t) n i = objRecv s n i := advance_keep (fun u => objRecv u n i) (fun _ _ _ _ _ _ => rfl) s t
@[simp] theorem objPending_advance (t : Nat) (n i : Nat) : objPending (advance s t) n i = objPending s n i := advance_keep (fun u => objPending u n i) (fun _ _ _ _ _ _ => rfl) s t
@[simp] theorem objHdr_advance (t : Nat) (n i : Nat) : objHdr (advance s t) n i = objHdr s n i := advance_keep (fun u => objHdr u n i) (fun _ _ _ _ _ _ => rfl) s t
@[simp] theorem objLen_advance (t : Nat) (n i : Nat) : objLen (advance s t) n i = objLen s n i := advance_keep (fun u => objLen u n i) (fun _ _ _ _ _ _ => rfl) s t
@[simp] theorem objData_advance (t : Nat) (n i : Nat) : objData (advance s t) n i = objData s n i := advance_keep (fun u => objData u n i) (fun _ _ _ _ _ _ => rfl) s t
@[simp] theorem objInfo_advance (t : Nat) (n : Nat) : objInfo (advance s t) n = objInfo s n := advance_keep (fun u => objInfo u n) (fun _ _ _ _ _ _ => rfl) s t
@[simp] theorem objMap_advance (t : Nat) (n w b : Nat) : objMap (advance s t) n w b = objMap s n w b := advance_keep (fun u => objMap u n w b) (fun _ _ _ _ _ _ => rfl) s t
@[simp] theorem objSel_advance (t : Nat) (n : Nat) : objSel (advance s t) n = objSel s n := advance_keep (fun u => objSel u n) (fun _ _ _ _ _ _ => rfl) s t
@[simp] theorem objRead_advance (t : Nat) (n w : Nat) : objRead (advance s t) n w = objRead s n w := advance_keep (fun u => objRead u n w) (fun _ _ _ _ _ _ => rfl) s t
@[simp] theorem objHard_advance (t : Nat) (n i : Nat) : objHard (advance s t) n i = objHard s n i := advance_keep (fun u => objHard u n i) (fun _ _ _ _ _ _ => rfl) s t
@[simp] theorem objMatches_advance (t : Nat) (n i : Nat) (h : CanHdr) : objMatches (advance s t) n i h = objMatches s n i h := advance_keep (fun u => objMatches u n i h) (fun _ _ _ _ _ _ => rfl) s t
@[simp] theorem canFrameTicks_advance (t : Nat) (n : Nat) (h : CanHdr) (data : List Byte) : canFrameTicks (advance s t) n h data = canFrameTicks s n h data := advance_keep (fun u => canFrameTicks u n h data) (fun _ _ _ _ _ _ => rfl) s t
@[simp] theorem objCompetes_advance (t : Nat) (n i : Nat) : objCompetes (advance s t) n i = objCompetes s n i := advance_keep (fun u => objCompetes u n i) (fun _ _ _ _ _ _ => rfl) s t
@[simp] theorem objBefore_advance (t : Nat) (n i j : Nat) : objBefore (advance s t) n i j = objBefore s n i j := advance_keep (fun u => objBefore u n i j) (fun _ _ _ _ _ _ => rfl) s t
@[simp] theorem objBest_advance (t : Nat) (n : Nat) : objBest (advance s t) n = objBest s n := advance_keep (fun u => objBest u n) (fun _ _ _ _ _ _ => rfl) s t
@[simp] theorem canMaySend_advance (t : Nat) (n : Nat) : canMaySend (advance s t) n = canMaySend s n := advance_keep (fun u => canMaySend u n) (fun _ _ _ _ _ _ => rfl) s t
@[simp] theorem objLimits_advance (t : Nat) (n i : Nat) : objLimits (advance s t) n i = objLimits s n i := advance_keep (fun u => objLimits u n i) (fun _ _ _ _ _ _ => rfl) s t
@[simp] theorem objFree_advance (t : Nat) (n : Nat) : objFree (advance s t) n = objFree s n := advance_keep (fun u => objFree u n) (fun _ _ _ _ _ _ => rfl) s t
@[simp] theorem spareActive_advance (t : Nat) (n : Nat) : spareActive (advance s t) n = spareActive s n := advance_keep (fun u => spareActive u n) (fun _ _ _ _ _ _ => rfl) s t
@[simp] theorem linCommander_advance (t : Nat) (m : Nat) : linCommander (advance s t) m = linCommander s m := advance_keep (fun u => linCommander u m) (fun _ _ _ _ _ _ => rfl) s t
@[simp] theorem linBitNs_advance (t : Nat) (m : Nat) : linBitNs (advance s t) m = linBitNs s m := advance_keep (fun u => linBitNs u m) (fun _ _ _ _ _ _ => rfl) s t
@[simp] theorem linExtra_advance (t : Nat) (m : Nat) : linExtra (advance s t) m = linExtra s m := advance_keep (fun u => linExtra u m) (fun _ _ _ _ _ _ => rfl) s t
@[simp] theorem linHeadBits_advance (t : Nat) (m : Nat) : linHeadBits (advance s t) m = linHeadBits s m := advance_keep (fun u => linHeadBits u m) (fun _ _ _ _ _ _ => rfl) s t
@[simp] theorem linEnhanced_advance (t : Nat) (m i : Nat) : linEnhanced (advance s t) m i = linEnhanced s m i := advance_keep (fun u => linEnhanced u m i) (fun _ _ _ _ _ _ => rfl) s t
@[simp] theorem linCheck_advance (t : Nat) (m i : Nat) (data : List Byte) : linCheck (advance s t) m i data = linCheck s m i data := advance_keep (fun u => linCheck u m i data) (fun _ _ _ _ _ _ => rfl) s t
@[simp] theorem linLen_advance (t : Nat) (m i : Nat) : linLen (advance s t) m i = linLen s m i := advance_keep (fun u => linLen u m i) (fun _ _ _ _ _ _ => rfl) s t
@[simp] theorem linDir_advance (t : Nat) (m i : Nat) : linDir (advance s t) m i = linDir s m i := advance_keep (fun u => linDir u m i) (fun _ _ _ _ _ _ => rfl) s t
@[simp] theorem linSrc_advance (t : Nat) (m i : Nat) : linSrc (advance s t) m i = linSrc s m i := advance_keep (fun u => linSrc u m i) (fun _ _ _ _ _ _ => rfl) s t
@[simp] theorem linBufData_advance (t : Nat) (m i : Nat) : linBufData (advance s t) m i = linBufData s m i := advance_keep (fun u => linBufData u m i) (fun _ _ _ _ _ _ => rfl) s t
@[simp] theorem linDominant_advance (t : Nat) (m : Nat) : linDominant (advance s t) m = linDominant s m := advance_keep (fun u => linDominant u m) (fun _ _ _ _ _ _ => rfl) s t
@[simp] theorem linHears_advance (t : Nat) (m : Nat) : linHears (advance s t) m = linHears s m := advance_keep (fun u => linHears u m) (fun _ _ _ _ _ _ => rfl) s t
@[simp] theorem linMaySend_advance (t : Nat) (m : Nat) : linMaySend (advance s t) m = linMaySend s m := advance_keep (fun u => linMaySend u m) (fun _ _ _ _ _ _ => rfl) s t
@[simp] theorem linLimitNs_advance (t : Nat) (m : Nat) (f : LinFrame) : linLimitNs (advance s t) m f = linLimitNs s m f := advance_keep (fun u => linLimitNs u m f) (fun _ _ _ _ _ _ => rfl) s t
@[simp] theorem linSlot_advance (t : Nat) (m t1 i : Nat) : linSlot (advance s t) m t1 i = linSlot s m t1 i := advance_keep (fun u => linSlot u m t1 i) (fun _ _ _ _ _ _ => rfl) s t
@[simp] theorem linNextTable_advance (t : Nat) (m : Nat) : linNextTable (advance s t) m = linNextTable s m := advance_keep (fun u => linNextTable u m) (fun _ _ _ _ _ _ => rfl) s t
@[simp] theorem slotDue_advance (t : Nat) (m : Nat) : slotDue (advance s t) m = slotDue s m := advance_keep (fun u => slotDue u m) (fun _ _ _ _ _ _ => rfl) s t
@[simp] theorem sporadic_advance (t : Nat) (m w : Nat) : sporadic (advance s t) m w = sporadic s m w := advance_keep (fun u => sporadic u m w) (fun _ _ _ _ _ _ => rfl) s t
@[simp] theorem ethUp_advance (t : Nat) (p : Nat) : ethUp (advance s t) p = ethUp s p := advance_keep (fun u => ethUp u p) (fun _ _ _ _ _ _ => rfl) s t
@[simp] theorem macLive_advance (t : Nat) (p : Nat) : macLive (advance s t) p = macLive s p := advance_keep (fun u => macLive u p) (fun _ _ _ _ _ _ => rfl) s t
@[simp] theorem macHears_advance (t : Nat) (p : Nat) : macHears (advance s t) p = macHears s p := advance_keep (fun u => macHears u p) (fun _ _ _ _ _ _ => rfl) s t
@[simp] theorem csma_advance (t : Nat) (p : Nat) : csma (advance s t) p = csma s p := advance_keep (fun u => csma u p) (fun _ _ _ _ _ _ => rfl) s t
@[simp] theorem macsecOn_advance (t : Nat) (p : Nat) : macsecOn (advance s t) p = macsecOn s p := advance_keep (fun u => macsecOn u p) (fun _ _ _ _ _ _ => rfl) s t
@[simp] theorem ethModes_advance (t : Nat) (p speed : Nat) (half : Bool) : ethModes (advance s t) p speed half = ethModes s p speed half := advance_keep (fun u => ethModes u p speed half) (fun _ _ _ _ _ _ => rfl) s t
@[simp] theorem maxLen_advance (t : Nat) (p : Nat) : maxLen (advance s t) p = maxLen s p := advance_keep (fun u => maxLen u p) (fun _ _ _ _ _ _ => rfl) s t
@[simp] theorem ownAddr_advance (t : Nat) (p da : Nat) : ownAddr (advance s t) p da = ownAddr s p da := advance_keep (fun u => ownAddr u p da) (fun _ _ _ _ _ _ => rfl) s t
@[simp] theorem addrAccepts_advance (t : Nat) (p da : Nat) : addrAccepts (advance s t) p da = addrAccepts s p da := advance_keep (fun u => addrAccepts u p da) (fun _ _ _ _ _ _ => rfl) s t
@[simp] theorem headNeed_advance (t : Nat) (p : Nat) (own : Bool) (bs : List Byte) : headNeed (advance s t) p own bs = headNeed s p own bs := advance_keep (fun u => headNeed u p own bs) (fun _ _ _ _ _ _ => rfl) s t
@[simp] theorem earlyHead_advance (t : Nat) (p : Nat) (h : Head) : earlyHead (advance s t) p h = earlyHead s p h := advance_keep (fun u => earlyHead u p h) (fun _ _ _ _ _ _ => rfl) s t
@[simp] theorem headReady_advance (t : Nat) (p n : Nat) (h : Head) : headReady (advance s t) p n h = headReady s p n h := advance_keep (fun u => headReady u p n h) (fun _ _ _ _ _ _ => rfl) s t
@[simp] theorem t1sSource_advance (t : Nat) (p : Nat) (bs : List Byte) : t1sSource (advance s t) p bs = t1sSource s p bs := advance_keep (fun u => t1sSource u p bs) (fun _ _ _ _ _ _ => rfl) s t
@[simp] theorem badOn_advance (t : Nat) (p : Nat) : badOn (advance s t) p = badOn s p := advance_keep (fun u => badOn u p) (fun _ _ _ _ _ _ => rfl) s t
@[simp] theorem rxOutcome_advance (t : Nat) (p len : Nat) (abort code fcs : Bool) : rxOutcome (advance s t) p len abort code fcs = rxOutcome s p len abort code fcs := advance_keep (fun u => rxOutcome u p len abort code fcs) (fun _ _ _ _ _ _ => rfl) s t
@[simp] theorem badFlagsOf_advance (t : Nat) (p len : Nat) (code fcs : Bool) : badFlagsOf (advance s t) p len code fcs = badFlagsOf s p len code fcs := advance_keep (fun u => badFlagsOf u p len code fcs) (fun _ _ _ _ _ _ => rfl) s t
@[simp] theorem tplHdr_advance (t : Nat) (pg t1 : Nat) : tplHdr (advance s t) pg t1 = tplHdr s pg t1 := advance_keep (fun u => tplHdr u pg t1) (fun _ _ _ _ _ _ => rfl) s t
@[simp] theorem tplStream_advance (t : Nat) (pg t1 : Nat) : tplStream (advance s t) pg t1 = tplStream s pg t1 := advance_keep (fun u => tplStream u pg t1) (fun _ _ _ _ _ _ => rfl) s t
@[simp] theorem ethWrites_advance (t : Nat) (p : Nat) (c : Copy) : ethWrites (advance s t) p c = ethWrites s p c := advance_keep (fun u => ethWrites u p c) (fun _ _ _ _ _ _ => rfl) s t
@[simp] theorem macMaySend_advance (t : Nat) (p : Nat) : macMaySend (advance s t) p = macMaySend s p := advance_keep (fun u => macMaySend u p) (fun _ _ _ _ _ _ => rfl) s t
@[simp] theorem upHold_advance (t : Nat) (p : Nat) : upHold (advance s t) p = upHold s p := advance_keep (fun u => upHold u p) (fun _ _ _ _ _ _ => rfl) s t
@[simp] theorem fcObeys_advance (t : Nat) (p : Nat) : fcObeys (advance s t) p = fcObeys s p := advance_keep (fun u => fcObeys u p) (fun _ _ _ _ _ _ => rfl) s t
@[simp] theorem plcaId_advance (t : Nat) (p : Nat) : plcaId (advance s t) p = plcaId s p := advance_keep (fun u => plcaId u p) (fun _ _ _ _ _ _ => rfl) s t
@[simp] theorem lcState_advance (t : Nat) : lcState (advance s t) = lcState s := advance_keep (fun u => lcState u) (fun _ _ _ _ _ _ => rfl) s t
@[simp] theorem lcRoot_advance (t : Nat) : lcRoot (advance s t) = lcRoot s := advance_keep (fun u => lcRoot u) (fun _ _ _ _ _ _ => rfl) s t
@[simp] theorem keyFor_advance (t : Nat) (slot flag : Nat) : keyFor (advance s t) slot flag = keyFor s slot flag := advance_keep (fun u => keyFor u slot flag) (fun _ _ _ _ _ _ => rfl) s t
@[simp] theorem drbgState_advance (t : Nat) : drbgState (advance s t) = drbgState s := advance_keep (fun u => drbgState u) (fun _ _ _ _ _ _ => rfl) s t
@[simp] theorem storeKey_advance (t : Nat) : storeKey (advance s t) = storeKey s := advance_keep (fun u => storeKey u) (fun _ _ _ _ _ _ => rfl) s t
@[simp] theorem recordKey_advance (t : Nat) (slot : Nat) (r : KeyRec) : recordKey (advance s t) slot r = recordKey s slot r := advance_keep (fun u => recordKey u slot r) (fun _ _ _ _ _ _ => rfl) s t
@[simp] theorem fvOf_advance (t : Nat) (k : Nat) : fvOf (advance s t) k = fvOf s k := advance_keep (fun u => fvOf u k) (fun _ _ _ _ _ _ => rfl) s t
@[simp] theorem fvHold_advance (t : Nat) (k : Nat) : fvHold (advance s t) k = fvHold s k := advance_keep (fun u => fvHold u k) (fun _ _ _ _ _ _ => rfl) s t
@[simp] theorem fvExhausted_advance (t : Nat) (k : Nat) : fvExhausted (advance s t) k = fvExhausted s k := advance_keep (fun u => fvExhausted u k) (fun _ _ _ _ _ _ => rfl) s t
@[simp] theorem secyEntry_advance (t : Nat) (p : Nat) : secyEntry (advance s t) p = secyEntry s p := advance_keep (fun u => secyEntry u p) (fun _ _ _ _ _ _ => rfl) s t
@[simp] theorem saKey_advance (t : Nat) (e a : TEntry) (flag : Nat) : saKey (advance s t) e a flag = saKey s e a flag := advance_keep (fun u => saKey u e a flag) (fun _ _ _ _ _ _ => rfl) s t
@[simp] theorem laneServes_advance (t : Nat) (i : Nat) : laneServes (advance s t) i = laneServes s i := advance_keep (fun u => laneServes u i) (fun _ _ _ _ _ _ => rfl) s t
@[simp] theorem itemPdu_advance (t : Nat) (it : LaneItem) : itemPdu (advance s t) it = itemPdu s it := advance_keep (fun u => itemPdu u it) (fun _ _ _ _ _ _ => rfl) s t
@[simp] theorem nextPn_advance (t : Nat) (j : Nat) : nextPn (advance s t) j = nextPn s j := advance_keep (fun u => nextPn u j) (fun _ _ _ _ _ _ => rfl) s t
@[simp] theorem pnExhausted_advance (t : Nat) (j : Nat) : pnExhausted (advance s t) j = pnExhausted s j := advance_keep (fun u => pnExhausted u j) (fun _ _ _ _ _ _ => rfl) s t
@[simp] theorem txAssoc_advance (t : Nat) (p : Nat) : txAssoc (advance s t) p = txAssoc s p := advance_keep (fun u => txAssoc u p) (fun _ _ _ _ _ _ => rfl) s t
@[simp] theorem flightPoison_advance (t : Nat) (p : Nat) : flightPoison (advance s t) p = flightPoison s p := advance_keep (fun u => flightPoison u p) (fun _ _ _ _ _ _ => rfl) s t
@[simp] theorem mayDispatch_advance (t : Nat) (it : LaneItem) : mayDispatch (advance s t) it = mayDispatch s it := advance_keep (fun u => mayDispatch u it) (fun _ _ _ _ _ _ => rfl) s t
@[simp] theorem nextItem_advance (t : Nat) : nextItem (advance s t) = nextItem s := advance_keep (fun u => nextItem u) (fun _ _ _ _ _ _ => rfl) s t
@[simp] theorem bestLane_advance (t : Nat) : bestLane (advance s t) = bestLane s := advance_keep (fun u => bestLane u) (fun _ _ _ _ _ _ => rfl) s t
@[simp] theorem itemBlocks_advance (t : Nat) (it : LaneItem) : itemBlocks (advance s t) it = itemBlocks s it := advance_keep (fun u => itemBlocks u it) (fun _ _ _ _ _ _ => rfl) s t
@[simp] theorem itemStream_advance (t : Nat) (it : LaneItem) : itemStream (advance s t) it = itemStream s it := advance_keep (fun u => itemStream u it) (fun _ _ _ _ _ _ => rfl) s t
@[simp] theorem profileStreams_advance (t : Nat) (i : Nat) : profileStreams (advance s t) i = profileStreams s i := advance_keep (fun u => profileStreams u i) (fun _ _ _ _ _ _ => rfl) s t
@[simp] theorem rootSpoilt_advance (t : Nat) (target : Nat) : rootSpoilt (advance s t) target = rootSpoilt s target := advance_keep (fun u => rootSpoilt u target) (fun _ _ _ _ _ _ => rfl) s t
@[simp] theorem burnFails_advance (t : Nat) (target : Nat) (burnOk : Bool) : burnFails (advance s t) target burnOk = burnFails s target burnOk := advance_keep (fun u => burnFails u target burnOk) (fun _ _ _ _ _ _ => rfl) s t
@[simp] theorem lcPending_advance (t : Nat) : lcPending (advance s t) = lcPending s := advance_keep (fun u => lcPending u) (fun _ _ _ _ _ _ => rfl) s t
@[simp] theorem keySlotSel_advance (t : Nat) : keySlotSel (advance s t) = keySlotSel s := advance_keep (fun u => keySlotSel u) (fun _ _ _ _ _ _ => rfl) s t
@[simp] theorem keyUsageSel_advance (t : Nat) : keyUsageSel (advance s t) = keyUsageSel s := advance_keep (fun u => keyUsageSel u) (fun _ _ _ _ _ _ => rfl) s t
@[simp] theorem key256Sel_advance (t : Nat) : key256Sel (advance s t) = key256Sel s := advance_keep (fun u => key256Sel u) (fun _ _ _ _ _ _ => rfl) s t
@[simp] theorem keyPersistSel_advance (t : Nat) : keyPersistSel (advance s t) = keyPersistSel s := advance_keep (fun u => keyPersistSel u) (fun _ _ _ _ _ _ => rfl) s t
@[simp] theorem keyBarred_advance (t : Nat) : keyBarred (advance s t) = keyBarred s := advance_keep (fun u => keyBarred u) (fun _ _ _ _ _ _ => rfl) s t
@[simp] theorem kdfBytes_advance (t : Nat) (base n : Nat) : kdfBytes (advance s t) base n = kdfBytes s base n := advance_keep (fun u => kdfBytes u base n) (fun _ _ _ _ _ _ => rfl) s t
@[simp] theorem kdfLabel_advance (t : Nat) : kdfLabel (advance s t) = kdfLabel s := advance_keep (fun u => kdfLabel u) (fun _ _ _ _ _ _ => rfl) s t
@[simp] theorem kdfCtx_advance (t : Nat) : kdfCtx (advance s t) = kdfCtx s := advance_keep (fun u => kdfCtx u) (fun _ _ _ _ _ _ => rfl) s t
@[simp] theorem keyCommitBarred_advance (t : Nat) : keyCommitBarred (advance s t) = keyCommitBarred s := advance_keep (fun u => keyCommitBarred u) (fun _ _ _ _ _ _ => rfl) s t
@[simp] theorem tpTable_advance (t : Nat) (pg : Nat) : tpTable (advance s t) pg = tpTable s pg := advance_keep (fun u => tpTable u pg) (fun _ _ _ _ _ _ => rfl) s t
@[simp] theorem tpCopy_advance (t : Nat) (pg : Nat) : tpCopy (advance s t) pg = tpCopy s pg := advance_keep (fun u => tpCopy u pg) (fun _ _ _ _ _ _ => rfl) s t
@[simp] theorem tpIndex_advance (t : Nat) (pg : Nat) : tpIndex (advance s t) pg = tpIndex s pg := advance_keep (fun u => tpIndex u pg) (fun _ _ _ _ _ _ => rfl) s t
@[simp] theorem tpData_advance (t : Nat) (pg n : Nat) : tpData (advance s t) pg n = tpData s pg n := advance_keep (fun u => tpData u pg n) (fun _ _ _ _ _ _ => rfl) s t
@[simp] theorem pendMax_advance (t : Nat) (pg : Nat) : pendMax (advance s t) pg = pendMax s pg := advance_keep (fun u => pendMax u pg) (fun _ _ _ _ _ _ => rfl) s t
@[simp] theorem wideLocked_advance (t : Nat) (a : Nat) (k : WideKind) : wideLocked (advance s t) a k = wideLocked s a k := advance_keep (fun u => wideLocked u a k) (fun _ _ _ _ _ _ => rfl) s t
@[simp] theorem mbxError_advance (t : Nat) (req a : Nat) (c : MbxCmd) : mbxError (advance s t) req a c = mbxError s req a c := advance_keep (fun u => mbxError u req a c) (fun _ _ _ _ _ _ => rfl) s t
@[simp] theorem mbxNumber_advance (t : Nat) (n words : Nat) : mbxNumber (advance s t) n words = mbxNumber s n words := advance_keep (fun u => mbxNumber u n words) (fun _ _ _ _ _ _ => rfl) s t
@[simp] theorem pairOn_advance (t : Nat) : pairOn (advance s t) = pairOn s := advance_keep (fun u => pairOn u) (fun _ _ _ _ _ _ => rfl) s t
@[simp] theorem pairLink_advance (t : Nat) : pairLink (advance s t) = pairLink s := advance_keep (fun u => pairLink u) (fun _ _ _ _ _ _ => rfl) s t
@[simp] theorem leaseMs_advance (t : Nat) : leaseMs (advance s t) = leaseMs s := advance_keep (fun u => leaseMs u) (fun _ _ _ _ _ _ => rfl) s t
@[simp] theorem peerLeaseMs_advance (t : Nat) : peerLeaseMs (advance s t) = peerLeaseMs s := advance_keep (fun u => peerLeaseMs u) (fun _ _ _ _ _ _ => rfl) s t
@[simp] theorem inContact_advance (t : Nat) : inContact (advance s t) = inContact s := advance_keep (fun u => inContact u) (fun _ _ _ _ _ _ => rfl) s t
@[simp] theorem inSync_advance (t : Nat) : inSync (advance s t) = inSync s := advance_keep (fun u => inSync u) (fun _ _ _ _ _ _ => rfl) s t
@[simp] theorem activeOut_advance (t : Nat) : activeOut (advance s t) = activeOut s := advance_keep (fun u => activeOut u) (fun _ _ _ _ _ _ => rfl) s t
@[simp] theorem guardTime_advance (t : Nat) : guardTime (advance s t) = guardTime s := advance_keep (fun u => guardTime u) (fun _ _ _ _ _ _ => rfl) s t
@[simp] theorem conflictOf_advance (t : Nat) : conflictOf (advance s t) = conflictOf s := advance_keep (fun u => conflictOf u) (fun _ _ _ _ _ _ => rfl) s t
@[simp] theorem receivedForm_advance (t : Nat) (c : Copy) : receivedForm (advance s t) c = receivedForm s c := advance_keep (fun u => receivedForm u c) (fun _ _ _ _ _ _ => rfl) s t
@[simp] theorem linkMay_advance (t : Nat) (k : Nat) : linkMay (advance s t) k = linkMay s k := advance_keep (fun u => linkMay u k) (fun _ _ _ _ _ _ => rfl) s t
@[simp] theorem itemFrame_advance (t : Nat) (k : Nat) (c : Copy) : itemFrame (advance s t) k c = itemFrame s k c := advance_keep (fun u => itemFrame u k c) (fun _ _ _ _ _ _ => rfl) s t
@[simp] theorem linkPasses_advance (t : Nat) (k : Nat) (bs : List Byte) : linkPasses (advance s t) k bs = linkPasses s k bs := advance_keep (fun u => linkPasses u k bs) (fun _ _ _ _ _ _ => rfl) s t
@[simp] theorem channelsOf_advance (t : Nat) (c : Nat) : channelsOf (advance s t) c = channelsOf s c := advance_keep (fun u => channelsOf u c) (fun _ _ _ _ _ _ => rfl) s t
@[simp] theorem bankBytes_advance (t : Nat) (b : Nat) : bankBytes (advance s t) b = bankBytes s b := advance_keep (fun u => bankBytes u b) (fun _ _ _ _ _ _ => rfl) s t
@[simp] theorem bankHeader_advance (t : Nat) (b : Nat) : bankHeader (advance s t) b = bankHeader s b := advance_keep (fun u => bankHeader u b) (fun _ _ _ _ _ _ => rfl) s t
@[simp] theorem headerTagGood_advance (t : Nat) (h : List Byte) : headerTagGood (advance s t) h = headerTagGood s h := advance_keep (fun u => headerTagGood u h) (fun _ _ _ _ _ _ => rfl) s t
@[simp] theorem imageTagGood_advance (t : Nat) (bs : List Byte) : imageTagGood (advance s t) bs = imageTagGood s bs := advance_keep (fun u => imageTagGood u bs) (fun _ _ _ _ _ _ => rfl) s t
@[simp] theorem versionGood_advance (t : Nat) (h : List Byte) : versionGood (advance s t) h = versionGood s h := advance_keep (fun u => versionGood u h) (fun _ _ _ _ _ _ => rfl) s t
@[simp] theorem tagKeyBad_advance (t : Nat) (h : List Byte) : tagKeyBad (advance s t) h = tagKeyBad s h := advance_keep (fun u => tagKeyBad u h) (fun _ _ _ _ _ _ => rfl) s t
@[simp] theorem headerError_advance (t : Nat) (h : List Byte) : headerError (advance s t) h = headerError s h := advance_keep (fun u => headerError u h) (fun _ _ _ _ _ _ => rfl) s t
@[simp] theorem lockBits_advance (t : Nat) (a : Nat) : lockBits (advance s t) a = lockBits s a := advance_keep (fun u => lockBits u a) (fun _ _ _ _ _ _ => rfl) s t
@[simp] theorem actualCost_advance (t : Nat) (regs : List (Nat × Nat)) : actualCost (advance s t) regs = actualCost s regs := advance_keep (fun u => actualCost u regs) (fun _ _ _ _ _ _ => rfl) s t
@[simp] theorem imageCrc_advance (t : Nat) (regs : List (Nat × Nat)) : imageCrc (advance s t) regs = imageCrc s regs := advance_keep (fun u => imageCrc u regs) (fun _ _ _ _ _ _ => rfl) s t
@[simp] theorem bankState_advance (t : Nat) (b : Nat) : bankState (advance s t) b = bankState s b := advance_keep (fun u => bankState u b) (fun _ _ _ _ _ _ => rfl) s t
@[simp] theorem runBank_advance (t : Nat) : runBank (advance s t) = runBank s := advance_keep (fun u => runBank u) (fun _ _ _ _ _ _ => rfl) s t
@[simp] theorem inTrial_advance (t : Nat) : inTrial (advance s t) = inTrial s := advance_keep (fun u => inTrial u) (fun _ _ _ _ _ _ => rfl) s t
@[simp] theorem inactiveBank_advance (t : Nat) : inactiveBank (advance s t) = inactiveBank s := advance_keep (fun u => inactiveBank u) (fun _ _ _ _ _ _ => rfl) s t
@[simp] theorem fallingBack_advance (t : Nat) : fallingBack (advance s t) = fallingBack s := advance_keep (fun u => fallingBack u) (fun _ _ _ _ _ _ => rfl) s t
@[simp] theorem verifiedCost_advance (t : Nat) : verifiedCost (advance s t) = verifiedCost s := advance_keep (fun u => verifiedCost u) (fun _ _ _ _ _ _ => rfl) s t
@[simp] theorem turnCost_advance (t : Nat) (bs : List Byte) : turnCost (advance s t) bs = turnCost s bs := advance_keep (fun u => turnCost u bs) (fun _ _ _ _ _ _ => rfl) s t
@[simp] theorem sameFormat_advance (t : Nat) (a b : Nat) : sameFormat (advance s t) a b = sameFormat s a b := advance_keep (fun u => sameFormat u a b) (fun _ _ _ _ _ _ => rfl) s t
@[simp] theorem setId_advance (t : Nat) : setId (advance s t) = setId s := advance_keep (fun u => setId u) (fun _ _ _ _ _ _ => rfl) s t
@[simp] theorem setLen_advance (t : Nat) : setLen (advance s t) = setLen s := advance_keep (fun u => setLen u) (fun _ _ _ _ _ _ => rfl) s t
@[simp] theorem setRecord_advance (t : Nat) (id : Nat) : setRecord (advance s t) id = setRecord s id := advance_keep (fun u => setRecord u id) (fun _ _ _ _ _ _ => rfl) s t
@[simp] theorem loadable_advance (t : Nat) (unreadable : List Nat) (b : Nat) : loadable (advance s t) unreadable b = loadable s unreadable b := advance_keep (fun u => loadable u unreadable b) (fun _ _ _ _ _ _ => rfl) s t
@[simp] theorem imageSlots_advance (t : Nat) (bs : List Byte) : imageSlots (advance s t) bs = imageSlots s bs := advance_keep (fun u => imageSlots u bs) (fun _ _ _ _ _ _ => rfl) s t
@[simp] theorem ringSize_advance (t : Nat) (a : Nat) : ringSize (advance s t) a = ringSize s a := advance_keep (fun u => ringSize u a) (fun _ _ _ _ _ _ => rfl) s t
@[simp] theorem ringHead_advance (t : Nat) (a : Nat) : ringHead (advance s t) a = ringHead s a := advance_keep (fun u => ringHead u a) (fun _ _ _ _ _ _ => rfl) s t
@[simp] theorem ringTail_advance (t : Nat) (a : Nat) : ringTail (advance s t) a = ringTail s a := advance_keep (fun u => ringTail u a) (fun _ _ _ _ _ _ => rfl) s t
@[simp] theorem descAddr_advance (t : Nat) (a i : Nat) : descAddr (advance s t) a i = descAddr s a i := advance_keep (fun u => descAddr u a i) (fun _ _ _ _ _ _ => rfl) s t
@[simp] theorem pcieUp_advance (t : Nat) : pcieUp (advance s t) = pcieUp s := advance_keep (fun u => pcieUp u) (fun _ _ _ _ _ _ => rfl) s t
@[simp] theorem tailBad_advance (t : Nat) (a idx : Nat) : tailBad (advance s t) a idx = tailBad s a idx := advance_keep (fun u => tailBad u a idx) (fun _ _ _ _ _ _ => rfl) s t
@[simp] theorem txMay_advance (t : Nat) (n : Nat) : txMay (advance s t) n = txMay s n := advance_keep (fun u => txMay u n) (fun _ _ _ _ _ _ => rfl) s t
@[simp] theorem txBegun_advance (t : Nat) (n : Nat) : txBegun (advance s t) n = txBegun s n := advance_keep (fun u => txBegun u n) (fun _ _ _ _ _ _ => rfl) s t
@[simp] theorem txAsking_advance (t : Nat) : txAsking (advance s t) = txAsking s := advance_keep (fun u => txAsking u) (fun _ _ _ _ _ _ => rfl) s t
@[simp] theorem txGranted_advance (t : Nat) (n : Nat) : txGranted (advance s t) n = txGranted s n := advance_keep (fun u => txGranted u n) (fun _ _ _ _ _ _ => rfl) s t
@[simp] theorem stallTime_advance (t : Nat) : stallTime (advance s t) = stallTime s := advance_keep (fun u => stallTime u) (fun _ _ _ _ _ _ => rfl) s t
@[simp] theorem copyKind_advance (t : Nat) (c : Copy) : copyKind (advance s t) c = copyKind s c := advance_keep (fun u => copyKind u c) (fun _ _ _ _ _ _ => rfl) s t
@[simp] theorem copyFlags_advance (t : Nat) (n : Nat) (c : Copy) (trunc : Bool) : copyFlags (advance s t) n c trunc = copyFlags s n c trunc := advance_keep (fun u => copyFlags u n c trunc) (fun _ _ _ _ _ _ => rfl) s t
@[simp] theorem copyDesc_advance (t : Nat) (n : Nat) (c : Copy) (len : Nat) (trunc : Bool) : copyDesc (advance s t) n c len trunc = copyDesc s n c len trunc := advance_keep (fun u => copyDesc u n c len trunc) (fun _ _ _ _ _ _ => rfl) s t
@[simp] theorem holdoff_advance (t : Nat) (n : Nat) : holdoff (advance s t) n = holdoff s n := advance_keep (fun u => holdoff u n) (fun _ _ _ _ _ _ => rfl) s t
@[simp] theorem trigsOf_advance (t : Nat) (pg : Nat) : trigsOf (advance s t) pg = trigsOf s pg := advance_keep (fun u => trigsOf u pg) (fun _ _ _ _ _ _ => rfl) s t
@[simp] theorem activeRegs_advance (t : Nat) : activeRegs (advance s t) = activeRegs s := advance_keep (fun u => activeRegs u) (fun _ _ _ _ _ _ => rfl) s t
@[simp] theorem imageMode_advance (t : Nat) (n : Nat) : imageMode (advance s t) n = imageMode s n := advance_keep (fun u => imageMode u n) (fun _ _ _ _ _ _ => rfl) s t
@[simp] theorem rowHeld_advance (t : Nat) (b row : Nat) : rowHeld (advance s t) b row = rowHeld s b row := advance_keep (fun u => rowHeld u b row) (fun _ _ _ _ _ _ => rfl) s t
@[simp] theorem popGuard_advance (t : Nat) : popGuard (advance s t) = popGuard s := advance_keep (fun u => popGuard u) (fun _ _ _ _ _ _ => rfl) s t
@[simp] theorem harrowTables_advance (t : Nat) (h : Nat) : harrowTables (advance s t) h = harrowTables s h := advance_keep (fun u => harrowTables u h) (fun _ _ _ _ _ _ => rfl) s t
@[simp] theorem harrowSize_advance (t : Nat) (h code : Nat) : harrowSize (advance s t) h code = harrowSize s h code := advance_keep (fun u => harrowSize u h code) (fun _ _ _ _ _ _ => rfl) s t
@[simp] theorem harrowAt_advance (t : Nat) (h : Nat) : harrowAt (advance s t) h = harrowAt s h := advance_keep (fun u => harrowAt u h) (fun _ _ _ _ _ _ => rfl) s t
@[simp] theorem paceWarn_advance (t : Nat) : paceWarn (advance s t) = paceWarn s := advance_keep (fun u => paceWarn u) (fun _ _ _ _ _ _ => rfl) s t
@[simp] theorem paceHealth_advance (t : Nat) (v : Nat) : paceHealth (advance s t) v = paceHealth s v := advance_keep (fun u => paceHealth u v) (fun _ _ _ _ _ _ => rfl) s t
@[simp] theorem monPeriod_advance (t : Nat) (pg : Nat) : monPeriod (advance s t) pg = monPeriod s pg := advance_keep (fun u => monPeriod u pg) (fun _ _ _ _ _ _ => rfl) s t
@[simp] theorem getSup_advance (t : Nat) (d : Nat) : getSup (advance s t) d = getSup s d := advance_keep (fun u => getSup u d) (fun _ _ _ _ _ _ => rfl) s t
@[simp] theorem powerReq_advance (t : Nat) : powerReq (advance s t) = powerReq s := advance_keep (fun u => powerReq u) (fun _ _ _ _ _ _ => rfl) s t
@[simp] theorem pgoodFails_advance (t : Nat) (d : Nat) : pgoodFails (advance s t) d = pgoodFails s d := advance_keep (fun u => pgoodFails u d) (fun _ _ _ _ _ _ => rfl) s t
@[simp] theorem keptRegs_advance (t : Nat) : keptRegs (advance s t) = keptRegs s := advance_keep (fun u => keptRegs u) (fun _ _ _ _ _ _ => rfl) s t
@[simp] theorem bootCause_advance (t : Nat) : bootCause (advance s t) = bootCause s := advance_keep (fun u => bootCause u) (fun _ _ _ _ _ _ => rfl) s t
@[simp] theorem keptSelects_advance (t : Nat) (k : Nat) (rising : Bool) (heldUs : Nat) : keptSelects (advance s t) k rising heldUs = keptSelects s k rising heldUs := advance_keep (fun u => keptSelects u k rising heldUs) (fun _ _ _ _ _ _ => rfl) s t
@[simp] theorem furSlot_advance (t : Nat) (kind pg off : Nat) : furSlot (advance s t) kind pg off = furSlot s kind pg off := advance_keep (fun u => furSlot u kind pg off) (fun _ _ _ _ _ _ => rfl) s t
@[simp] theorem usedNow_advance (t : Nat) (p : Nat) : usedNow (advance s t) p = usedNow s p := advance_keep (fun u => usedNow u p) (fun _ _ _ _ _ _ => rfl) s t
@[simp] theorem canAct_advance (t : Nat) (n : Nat) : canAct (advance s t) n = canAct s n := advance_keep (fun u => canAct u n) (fun _ _ _ _ _ _ => rfl) s t
@[simp] theorem supStat_advance (t : Nat) (d low : Nat) : supStat (advance s t) d low = supStat s d low := advance_keep (fun u => supStat u d low) (fun _ _ _ _ _ _ => rfl) s t
@[simp] theorem objRetained_advance (t : Nat) (a : Nat) : objRetained (advance s t) a = objRetained s a := advance_keep (fun u => objRetained u a) (fun _ _ _ _ _ _ => rfl) s t
@[simp] theorem measured_advance (t : Nat) (a : Nat) : measured (advance s t) a = measured s a := advance_keep (fun u => measured u a) (fun _ _ _ _ _ _ => rfl) s t
@[simp] theorem isPop_advance (t : Nat) (a : Nat) : isPop (advance s t) a = isPop s a := advance_keep (fun u => isPop u a) (fun _ _ _ _ _ _ => rfl) s t
@[simp] theorem holdsUp_advance (t : Nat) (req : Nat) : holdsUp (advance s t) req = holdsUp s req := advance_keep (fun u => holdsUp u req) (fun _ _ _ _ _ _ => rfl) s t
@[simp] theorem pf1Touches_advance (t : Nat) (a v : Nat) : pf1Touches (advance s t) a v = pf1Touches s a v := advance_keep (fun u => pf1Touches u a v) (fun _ _ _ _ _ _ => rfl) s t
@[simp] theorem pf1Value_advance (t : Nat) (a v : Nat) : pf1Value (advance s t) a v = pf1Value s a v := advance_keep (fun u => pf1Value u a v) (fun _ _ _ _ _ _ => rfl) s t
@[simp] theorem gapTime_advance (t : Nat) : gapTime (advance s t) = gapTime s := advance_keep (fun u => gapTime u) (fun _ _ _ _ _ _ => rfl) s t
@[simp] theorem snapsFull_advance (t : Nat) (j : Instr) : snapsFull (advance s t) j = snapsFull s j := advance_keep (fun u => snapsFull u j) (fun _ _ _ _ _ _ => rfl) s t
@[simp] theorem waitsFor_advance (t : Nat) (i j : Instr) : waitsFor (advance s t) i j = waitsFor s i j := advance_keep (fun u => waitsFor u i j) (fun _ _ _ _ _ _ => rfl) s t
@[simp] theorem egrStops_advance (t : Nat) : egrStops (advance s t) = egrStops s := advance_keep (fun u => egrStops u) (fun _ _ _ _ _ _ => rfl) s t
@[simp] theorem answers_advance (t : Nat) (a : Nat) : answers (advance s t) a = answers s a := advance_keep (fun u => answers u a) (fun _ _ _ _ _ _ => rfl) s t
@[simp] theorem hasFurrow_advance (t : Nat) (pg : Nat) : hasFurrow (advance s t) pg = hasFurrow s pg := advance_keep (fun u => hasFurrow u pg) (fun _ _ _ _ _ _ => rfl) s t
@[simp] theorem hasPop_advance (t : Nat) (pg : Nat) : hasPop (advance s t) pg = hasPop s pg := advance_keep (fun u => hasPop u pg) (fun _ _ _ _ _ _ => rfl) s t
@[simp] theorem busPort_advance (t : Nat) (p : Nat) : busPort (advance s t) p = busPort s p := advance_keep (fun u => busPort u p) (fun _ _ _ _ _ _ => rfl) s t
@[simp] theorem plotInput_advance (t : Nat) (p : Nat) : plotInput (advance s t) p = plotInput s p := advance_keep (fun u => plotInput u p) (fun _ _ _ _ _ _ => rfl) s t
@[simp] theorem linkPresent_advance (t : Nat) (k : Nat) : linkPresent (advance s t) k = linkPresent s k := advance_keep (fun u => linkPresent u k) (fun _ _ _ _ _ _ => rfl) s t

end Sys2Proof.Machine
end

