-- ==== Sys2Proof/Laws/KeepsBase.lean ====
section
/-! SUPPORT. What Laws/Keeps.lean says, of the shared register, furrow, link, error and table operations. -/
namespace Sys2Proof.Machine

/-! ## Machine/Ops.lean -/

theorem keeps_setFld {a s : State} {x1} {x2} {x3} {x4} (h : Keeps a s) : Keeps a (setFld s x1 x2 x3 x4) := by
  unfold setFld
  exact keeps_wr h

theorem keeps_setBit {a s : State} {x1} {x2} (h : Keeps a s) : Keeps a (setBit s x1 x2) := by
  unfold setBit
  extract_lets +onlyGivenNames v0
  have h1 : Keeps a v0 := keeps_setFld h
  clear_value v0
  exact keeps_update h1

theorem keeps_clrBit {a s : State} {x1} {x2} (h : Keeps a s) : Keeps a (clrBit s x1 x2) := by
  unfold clrBit
  exact keeps_setFld h

theorem keeps_putBit {a s : State} {x1} {x2} {x3} (h : Keeps a s) : Keeps a (putBit s x1 x2 x3) := by
  unfold putBit
  exact keeps_setFld h

theorem keeps_addSat {a s : State} {x1} {x2} (h : Keeps a s) : Keeps a (addSat s x1 x2) := by
  unfold addSat
  exact keeps_wr h

theorem keeps_incSat {a s : State} {x1} (h : Keeps a s) : Keeps a (incSat s x1) := by
  unfold incSat
  exact keeps_addSat h

theorem keeps_incFld {a s : State} {x1} {x2} {x3} (h : Keeps a s) : Keeps a (incFld s x1 x2 x3) := by
  unfold incFld
  exact keeps_setFld h

theorem keeps_syncWord {a s : State} {x1} {x2} {x3} (h : Keeps a s) : Keeps a (syncWord s x1 x2 x3) := by
  unfold syncWord
  extract_lets +onlyGivenNames v0
  clear_value v0
  exact keeps_update h

theorem keeps_wrWide {a s : State} {x1} {x2} (h : Keeps a s) : Keeps a (wrWide s x1 x2) :=
  keeps_stores h (fun w => ⟨w.1, mapCanon_mapPut w.2.1 _ _, w.2.2⟩) rfl rfl rfl rfl rfl rfl rfl

theorem keeps_addStat {a s : State} {x1} {x2} (h : Keeps a s) : Keeps a (addStat s x1 x2) := by
  unfold addStat
  exact keeps_wrWide h

theorem keeps_handled {a s : State} {x1} (h : Keeps a s) : Keeps a (handled s x1) := by
  unfold handled
  extract_lets +onlyGivenNames v0
  clear_value v0
  exact keeps_update h

theorem keeps_drawWords {a s : State} {x1} (h : Keeps a s) : Keeps a (drawWords s x1).2 := by
  induction x1 generalizing s with
  | zero => exact h
  | succ n ih => exact ih (keeps_drawNat h)

theorem keeps_putField {a s : State} {x1} {x2} (h : Keeps a s) : Keeps a (putField s x1 x2) := by
  unfold putField
  extract_lets +onlyGivenNames v0
  have h1 : Keeps a v0 := keeps_setFld h
  clear_value v0
  exact keeps_ite (keeps_syncWord h1) h1

theorem keeps_cmdSettle {a s : State} {x1} (h : Keeps a s) : Keeps a (cmdSettle s x1) := by
  unfold cmdSettle
  split
  · exact keeps_ite (keeps_foldl (keeps_update h) fun s0 _ h1 => keeps_putField h1) h
  · exact h

theorem keeps_cmdAwait {a s : State} {x1} (h : Keeps a s) : Keeps a (cmdAwait s x1) := by
  unfold cmdAwait
  split
  · exact keeps_cmdSettle (keeps_advance h)
  · exact h

theorem keeps_cmdStart {a s : State} {x1} {x2} {x3} (h : Keeps a s) : Keeps a (cmdStart s x1 x2 x3) := by
  unfold cmdStart
  split
  · rename_i x0 x1 x2 e3
    have h4 := keeps_snd e3 (keeps_drawNat h)
    extract_lets +onlyGivenNames v5
    clear_value v5
    exact keeps_update h4

theorem keeps_settlePage {a s : State} {x1} (h : Keeps a s) : Keeps a (settlePage s x1) := by
  unfold settlePage
  split
  · exact keeps_cmdSettle h
  · exact h

/-! ## Machine/Furrow.lean -/

theorem keeps_putFur {a s : State} {x1} {x2} (h : Keeps a s) : Keeps a (putFur s x1 x2) := by
  unfold putFur
  exact keeps_update h

theorem keeps_noteFill {a s : State} {x1} (h : Keeps a s) : Keeps a (noteFill s x1) := by
  unfold noteFill
  split
  · exact keeps_wr h
  · exact h

theorem keeps_furWrite {a s : State} {x1} {x2} (h : Keeps a s) : Keeps a (furWrite s x1 x2) := by
  unfold furWrite
  extract_lets +onlyGivenNames v0
  clear_value v0
  extract_lets +onlyGivenNames v1
  clear_value v1
  extract_lets +onlyGivenNames v2
  clear_value v2
  exact keeps_noteFill (keeps_putFur h)

/-! ## Machine/LinkTx.lean -/

theorem keeps_putLnk {a s : State} {x1} {x2} (h : Keeps a s) : Keeps a (putLnk s x1 x2) := by
  unfold putLnk
  exact keeps_update h

theorem keeps_sendControlFrame {a s : State} {x1} {x2} {x3} {x4} {x5} (h : Keeps a s) :
    Keeps a (sendControlFrame s x1 x2 x3 x4 x5) := by
  unfold sendControlFrame
  exact keeps_send h

theorem keeps_noteReplay {a s : State} {x1} (h : Keeps a s) : Keeps a (noteReplay s x1) := by
  unfold noteReplay
  exact keeps_setFld h

theorem keeps_sendSequenced {a s : State} {x1} {x2} {x3} (h : Keeps a s) : Keeps a (sendSequenced s x1 x2 x3) := by
  unfold sendSequenced
  exact keeps_send h

theorem keeps_linkSend {a s : State} {x1} {x2} (h : Keeps a s) : Keeps a (linkSend s x1 x2) := by
  unfold linkSend
  extract_lets +onlyGivenNames v0
  clear_value v0
  extract_lets +onlyGivenNames v1
  clear_value v1
  extract_lets +onlyGivenNames v2
  clear_value v2
  extract_lets +onlyGivenNames v3
  have h4 : Keeps a v3 := keeps_sendSequenced (keeps_putLnk h)
  clear_value v3
  exact keeps_handled (keeps_noteReplay (keeps_addStat h4))

theorem keeps_creditBack {a s : State} {x1} {x2} {x3} (h : Keeps a s) : Keeps a (creditBack s x1 x2 x3) := by
  unfold creditBack
  extract_lets +onlyGivenNames v0
  clear_value v0
  exact keeps_putLnk h

theorem keeps_relayLeft {a s : State} {x1} {x2} (h : Keeps a s) : Keeps a (relayLeft s x1 x2) := by
  unfold relayLeft
  exact keeps_creditBack h

theorem keeps_creditsDrawn {a s : State} {x1} (h : Keeps a s) : Keeps a (creditsDrawn s x1) := by
  unfold creditsDrawn
  refine keeps_forEach ?_ fun s2 x4 h3 => ?_
  · exact h
  · split
    · rename_i x5 x6 x7 e8
      have h9 := keeps_snd e8 (keeps_drawNat h3)
      exact keeps_putLnk h9

theorem keeps_creditGrant {a s : State} {x1} {x2} (h : Keeps a s) : Keeps a (creditGrant s x1 x2) := by
  unfold creditGrant
  extract_lets +onlyGivenNames v0
  clear_value v0
  extract_lets +onlyGivenNames v1
  clear_value v1
  extract_lets +onlyGivenNames v2
  clear_value v2
  exact keeps_ite h (keeps_sendControlFrame (keeps_putLnk h))

theorem keeps_creditServe {a s : State} {x1} (h : Keeps a s) : Keeps a (creditServe s x1) := by
  unfold creditServe
  exact keeps_ite (keeps_forEach h fun s0 _ h1 => keeps_creditGrant h1) h

theorem keeps_relayTake {a s : State} {x1} (h : Keeps a s) : Keeps a (relayTake s x1) := by
  unfold relayTake
  extract_lets +onlyGivenNames v0
  clear_value v0
  extract_lets +onlyGivenNames v1
  clear_value v1
  extract_lets +onlyGivenNames v2
  clear_value v2
  exact keeps_noteFill (keeps_putFur (keeps_putLnk h))

theorem keeps_relaySend {a s : State} {x1} {x2} (h : Keeps a s) : Keeps a (relaySend s x1 x2) := by
  unfold relaySend
  extract_lets +onlyGivenNames v0
  have h1 : Keeps a v0 := keeps_relayTake h
  clear_value v0
  exact keeps_ite (keeps_relayLeft (keeps_incSat h1)) (keeps_relayLeft (keeps_linkSend h1))

theorem keeps_serveLink {a s : State} {x0} {x2} (h : Keeps a s) : Keeps a (serveLink x0 s x2) := by
  induction x0 generalizing s x2 with
  | zero =>
    unfold serveLink
    exact h
  | succ n ih =>
    unfold serveLink
    extract_lets +onlyGivenNames v0
    clear_value v0
    split
    · refine keeps_ite ?_ ?_
      · exact ih (keeps_linkSend (keeps_putLnk h))
      · split
        · exact keeps_ite (ih (keeps_relaySend h)) h
        · exact h
    · exact keeps_ite (ih (keeps_relaySend h)) h
    · exact h

theorem keeps_linkGo {a s : State} {x1} (h : Keeps a s) : Keeps a (linkGo s x1) := by
  unfold linkGo
  exact keeps_serveLink h

theorem keeps_offerService {a s : State} {x1} {x2} (h : Keeps a s) : Keeps a (offerService s x1 x2) := by
  unfold offerService
  extract_lets +onlyGivenNames v0
  clear_value v0
  exact keeps_linkGo (keeps_putLnk h)

theorem keeps_sendService {a s : State} {x1} (h : Keeps a s) : Keeps a (sendService s x1) := by
  unfold sendService
  exact keeps_offerService h

theorem keeps_sendResponse {a s : State} {x1} {x2} {x3} {x4} (h : Keeps a s) : Keeps a (sendResponse s x1 x2 x3 x4) := by
  unfold sendResponse
  exact keeps_sendService h

/-! ## Machine/Errors.lean -/

theorem keeps_popHead {a s : State} {x1} (h : Keeps a s) : Keeps a (popHead s x1).2 := by
  unfold popHead
  extract_lets +onlyGivenNames v0
  clear_value v0
  split
  · extract_lets +onlyGivenNames v1
    have h2 : Keeps a v1 := keeps_putFur h
    clear_value v1
    extract_lets +onlyGivenNames v3
    have h4 : Keeps a v3 := by
      unfold v3
      refine keeps_foldl ?_ fun s9 x11 h10 => ?_
      · exact h2
      · split
        · exact keeps_ite (keeps_wr h10) h10
    clear_value v3
    exact h4
  · exact h

theorem keeps_completeRead {a s : State} {x1} {x2} (h : Keeps a s) : Keeps a (completeRead s x1 x2) := by
  unfold completeRead
  split
  · exact keeps_sendResponse (keeps_update h)
  · exact keeps_update h

theorem keeps_servePop {a s : State} {x1} (h : Keeps a s) : Keeps a (servePop s x1) := by
  unfold servePop
  split
  · refine keeps_ite ?_ ?_
    · exact h
    · split
      · rename_i x0 x1 x2 x3 x4 x5 e6
        have h7 := keeps_snd e6 (keeps_popHead h)
        exact keeps_completeRead (keeps_update h7)
  · exact h

theorem keeps_furPump {a s : State} {x0} {x2} (h : Keeps a s) : Keeps a (furPump x0 s x2) := by
  induction x0 generalizing s x2 with
  | zero =>
    unfold furPump
    exact h
  | succ n ih =>
    unfold furPump
    extract_lets +onlyGivenNames v0
    have h1 : Keeps a v0 := keeps_servePop h
    clear_value v0
    extract_lets +onlyGivenNames v2
    clear_value v2
    exact keeps_ite (ih h1) (ih (keeps_noteFill (keeps_putFur h1)))

theorem keeps_furSettle {a s : State} {x1} (h : Keeps a s) : Keeps a (furSettle s x1) := by
  unfold furSettle
  extract_lets +onlyGivenNames v0
  clear_value v0
  exact keeps_furPump h

theorem keeps_furPush {a s : State} {x1} {x2} (h : Keeps a s) : Keeps a (furPush s x1 x2) := by
  unfold furPush
  extract_lets +onlyGivenNames v0
  clear_value v0
  exact keeps_furSettle (keeps_putFur h)

theorem keeps_furRewind {a s : State} {x1} (h : Keeps a s) : Keeps a (furRewind s x1) := by
  unfold furRewind
  split
  · exact keeps_incSat (keeps_setBit h)
  · exact h

theorem keeps_issueHub {a s : State} {x1} (h : Keeps a s) : Keeps a (issueHub s x1) := by
  unfold issueHub
  refine keeps_ite ?_ ?_
  · exact keeps_update h
  · extract_lets +onlyGivenNames v0
    clear_value v0
    exact keeps_ite (keeps_sendService h) h

theorem keeps_hubActs {a s : State} {x1} (h : Keeps a s) : Keeps a (hubActs s x1) := by
  unfold hubActs
  extract_lets +onlyGivenNames v0
  have h1 : Keeps a v0 := keeps_ite (keeps_setBit h) h
  clear_value v0
  refine keeps_ite ?_ ?_
  · extract_lets +onlyGivenNames v2
    clear_value v2
    extract_lets +onlyGivenNames v3
    clear_value v3
    extract_lets +onlyGivenNames v4
    clear_value v4
    extract_lets +onlyGivenNames v5
    have h6 : Keeps a v5 := keeps_ite h1 (keeps_issueHub h1)
    clear_value v5
    exact keeps_setBit h6
  · exact h1

theorem keeps_captureRec {a s : State} {x1} {x2} {x3} {x4} {x5} {x6} (h : Keeps a s) :
    Keeps a (captureRec s x1 x2 x3 x4 x5 x6) := by
  unfold captureRec
  extract_lets +onlyGivenNames v0
  clear_value v0
  extract_lets +onlyGivenNames v1
  clear_value v1
  extract_lets +onlyGivenNames v2
  clear_value v2
  extract_lets +onlyGivenNames v3
  have h4 : Keeps a v3 := keeps_update h
  clear_value v3
  extract_lets +onlyGivenNames v5
  have h6 : Keeps a v5 := keeps_ite (keeps_ite (keeps_wr h4) h4) (keeps_wr (keeps_wr h4))
  clear_value v5
  extract_lets +onlyGivenNames v7
  have h8 : Keeps a v7 := keeps_ite h6 (keeps_update h6)
  clear_value v7
  extract_lets +onlyGivenNames v9
  have h10 : Keeps a v9 := keeps_wr (keeps_wr h8)
  clear_value v9
  extract_lets +onlyGivenNames v11
  have h12 : Keeps a v11 := keeps_incSat h10
  clear_value v11
  exact keeps_ite (keeps_hubActs h12) h12

theorem keeps_hubLog {a s : State} {x1} {x2} {x3} {x4} {x5} {x6} (h : Keeps a s) :
    Keeps a (hubLog s x1 x2 x3 x4 x5 x6) := by
  unfold hubLog
  refine keeps_ite ?_ ?_
  · extract_lets +onlyGivenNames v0
    clear_value v0
    extract_lets +onlyGivenNames v1
    clear_value v1
    exact keeps_ite (keeps_setBit (keeps_incSat h)) (keeps_furPush h)
  · exact h

theorem keeps_escPut {a s : State} {x1} {x2} (h : Keeps a s) : Keeps a (escPut s x1 x2) := by
  unfold escPut
  refine keeps_ite ?_ ?_
  · extract_lets +onlyGivenNames v0
    have h1 : Keeps a v0 := keeps_ite (keeps_incSat h) h
    clear_value v0
    extract_lets +onlyGivenNames v2
    clear_value v2
    exact keeps_update h1
  · exact h

theorem keeps_escalate {a s : State} {x0} (h : Keeps a s) : Keeps a (escalate x0 s) := by
  induction x0 generalizing s with
  | zero =>
    unfold escalate
    exact h
  | succ n ih =>
    unfold escalate
    split
    · exact h
    · extract_lets +onlyGivenNames v0
      clear_value v0
      exact ih (keeps_escPut (keeps_captureRec (keeps_update h)))

theorem keeps_escServe {a s : State} (h : Keeps a s) : Keeps a (escServe s) := by
  unfold escServe
  exact keeps_escalate h

theorem keeps_raiseRec {a s : State} {x1} {x2} {x3} {x4} {x5} {x6} (h : Keeps a s) :
    Keeps a (raiseRec s x1 x2 x3 x4 x5 x6) := by
  unfold raiseRec
  extract_lets +onlyGivenNames v0
  have h1 : Keeps a v0 := keeps_captureRec h
  clear_value v0
  extract_lets +onlyGivenNames v2
  have h3 : Keeps a v2 := keeps_hubLog h1
  clear_value v2
  extract_lets +onlyGivenNames v4
  clear_value v4
  exact keeps_escPut h3

theorem keeps_raisePlain {a s : State} {x1} {x2} {x3} (h : Keeps a s) : Keeps a (raisePlain s x1 x2 x3) := by
  unfold raisePlain
  exact keeps_raiseRec h

theorem keeps_operMinute {a s : State} (h : Keeps a s) : Keeps a (operMinute s) := by
  unfold operMinute
  refine keeps_ite ?_ ?_
  · extract_lets +onlyGivenNames v0
    clear_value v0
    exact keeps_wr (keeps_update h)
  · exact h

theorem keeps_ledgerClear {a s : State} {x1} {x2} (h : Keeps a s) : Keeps a (ledgerClear s x1 x2) := by
  unfold ledgerClear
  split
  · exact keeps_update h
  · exact h

theorem keeps_ledgerCount {a s : State} {x1} {x2} {x3} (h : Keeps a s) : Keeps a (ledgerCount s x1 x2 x3).2 := by
  unfold ledgerCount
  extract_lets +onlyGivenNames v0
  clear_value v0
  split
  · extract_lets +onlyGivenNames v1
    clear_value v1
    dsimp -zeta only
    exact keeps_update h
  · extract_lets +onlyGivenNames v2
    clear_value v2
    split
    · rename_i x3 x4 x5 x6 x7 e8
      have h9 := keeps_snd e8 (keeps_drawNat h)
      split
      · dsimp -zeta only
        exact keeps_update h9
      · extract_lets +onlyGivenNames v10
        have h11 : Keeps a v10 := keeps_setBit (keeps_incSat h9)
        clear_value v10
        dsimp -zeta only
        exact keeps_update h11

theorem keeps_classFault {a s : State} {x1} {x2} {x3} {x4} (h : Keeps a s) : Keeps a (classFault s x1 x2 x3 x4).2 := by
  unfold classFault
  split
  · rename_i x0 x1 x2 e3
    have h4 := keeps_snd e3 (keeps_ledgerCount h)
    exact h4

theorem keeps_noteRoster {a s : State} (h : Keeps a s) : Keeps a (noteRoster s) := by
  unfold noteRoster
  exact keeps_setFld h

theorem keeps_rosterAdd {a s : State} {x1} {x2} {x3} {x4} {x5} (h : Keeps a s) :
    Keeps a (rosterAdd s x1 x2 x3 x4 x5) := by
  unfold rosterAdd
  extract_lets +onlyGivenNames v0
  clear_value v0
  split
  · rename_i x1 x2 x3 e4
    have h5 := keeps_snd e4 (keeps_drawNat h)
    split
    · exact keeps_noteRoster (keeps_update h5)
    · exact keeps_raisePlain (keeps_setBit (keeps_update h5))

theorem keeps_retire {a s : State} {x1} {x2} {x3} {x4} {x5} (h : Keeps a s) : Keeps a (retire s x1 x2 x3 x4 x5) := by
  unfold retire
  extract_lets +onlyGivenNames v0
  have h1 : Keeps a v0 := keeps_ite (keeps_clrBit h) h
  clear_value v0
  exact keeps_raiseRec (keeps_rosterAdd (keeps_ledgerClear h1))

theorem keeps_noSpare {a s : State} {x1} {x2} {x3} (h : Keeps a s) : Keeps a (noSpare s x1 x2 x3) := by
  unfold noSpare
  exact keeps_raiseRec h

theorem keeps_permanentRec {a s : State} {x1} {x2} {x3} {x4} (h : Keeps a s) : Keeps a (permanentRec s x1 x2 x3 x4) := by
  unfold permanentRec
  exact keeps_raiseRec (keeps_classFault h)

theorem keeps_seedFault {a s : State} {x1} (h : Keeps a s) : Keeps a (seedFault s x1) := by
  unfold seedFault
  split
  · rename_i x0 x1 x2 e3
    have h4 := keeps_snd e3 (keeps_classFault h)
    extract_lets +onlyGivenNames v5
    have h6 : Keeps a v5 := keeps_raiseRec h4
    clear_value v5
    exact keeps_ite (keeps_noSpare h6) h6

/-! ## Machine/Registers.lean -/

theorem keeps_lockViolation {a s : State} {x1} {x2} (h : Keeps a s) : Keeps a (lockViolation s x1 x2) := by
  unfold lockViolation
  extract_lets +onlyGivenNames v0
  clear_value v0
  extract_lets +onlyGivenNames v1
  have h2 : Keeps a v1 := keeps_incSat h
  clear_value v1
  extract_lets +onlyGivenNames v3
  have h4 : Keeps a v3 := keeps_ite h2 (keeps_wr h2)
  clear_value v3
  exact keeps_raiseRec h4

theorem keeps_qRefused {a s : State} {x1} (h : Keeps a s) : Keeps a (qRefused s x1) := by
  unfold qRefused
  extract_lets +onlyGivenNames v0
  clear_value v0
  extract_lets +onlyGivenNames v1
  have h2 : Keeps a v1 := keeps_ite h (keeps_setFld h)
  clear_value v1
  exact keeps_setBit h2

theorem keeps_canLook {a s : State} {x1} (h : Keeps a s) : Keeps a (canLook s x1) := by
  unfold canLook
  split
  · refine keeps_ite ?_ ?_
    · split
      · rename_i x0 x1 x2 x3 x4 x5 x6 x7 e8
        have h9 := keeps_snd e8 (keeps_drawNat h)
        exact keeps_ite (keeps_update h9) h9
    · exact h
  · exact h

theorem keeps_lookAll {a s : State} {x1} (h : Keeps a s) : Keeps a (lookAll s x1) := by
  unfold lookAll
  exact keeps_forEach h fun s0 _ h1 => keeps_canLook h1

theorem keeps_canQuiet {a s : State} {x1} (h : Keeps a s) : Keeps a (canQuiet s x1) := by
  unfold canQuiet
  split
  · exact keeps_ite (keeps_update h) h
  · exact h

theorem keeps_pendB {a s : State} {x1} (h : Keeps a s) : Keeps a (pendB s x1) := by
  unfold pendB
  refine keeps_forEach ?_ fun s2 x4 h3 => ?_
  · exact h
  · extract_lets +onlyGivenNames v5
    have h6 : Keeps a v5 := keeps_canLook h3
    clear_value v5
    exact keeps_ite (keeps_update h6) h6

theorem keeps_softWord {a s : State} {x1} {x2} {x3} (h : Keeps a s) : Keeps a (softWord s x1 x2 x3) := by
  unfold softWord
  extract_lets +onlyGivenNames v0
  clear_value v0
  extract_lets +onlyGivenNames v1
  clear_value v1
  extract_lets +onlyGivenNames v2
  clear_value v2
  extract_lets +onlyGivenNames v3
  have h4 : Keeps a v3 := keeps_ite (keeps_pendB h) h
  clear_value v3
  extract_lets +onlyGivenNames v5
  have h6 : Keeps a v5 := keeps_syncWord (keeps_wr h4)
  clear_value v5
  extract_lets +onlyGivenNames v7
  have h8 : Keeps a v7 := keeps_ite (keeps_lockViolation h6) h6
  clear_value v7
  exact keeps_ite (keeps_qRefused h8) h8

theorem keeps_partialWrite {a s : State} {x1} (h : Keeps a s) : Keeps a (partialWrite s x1) := by
  unfold partialWrite
  exact keeps_ite h (keeps_raiseRec h)

theorem keeps_clearRC {a s : State} {x1} (h : Keeps a s) : Keeps a (clearRC s x1) := by
  unfold clearRC
  exact keeps_wr h

theorem keeps_bTake {a s : State} {x1} (h : Keeps a s) : Keeps a (bTake s x1) := by
  unfold bTake
  exact keeps_update h

theorem keeps_restartRegs {a s : State} {x1} (h : Keeps a s) : Keeps a (restartRegs s x1) := by
  unfold restartRegs
  extract_lets +onlyGivenNames v0
  clear_value v0
  exact keeps_foldl h fun s1 _ h2 => keeps_wr h2

theorem keeps_restartFurrow {a s : State} {x1} (h : Keeps a s) : Keeps a (restartFurrow s x1) := by
  unfold restartFurrow
  extract_lets +onlyGivenNames v0
  have h1 : Keeps a v0 := keeps_update h
  clear_value v0
  extract_lets +onlyGivenNames v2
  clear_value v2
  extract_lets +onlyGivenNames v3
  have h4 : Keeps a v3 := keeps_putFur h1
  clear_value v3
  extract_lets +onlyGivenNames v5
  clear_value v5
  extract_lets +onlyGivenNames v6
  have h7 : Keeps a v6 := keeps_update h4
  clear_value v6
  exact keeps_furSettle (keeps_forEach h7 fun s8 _ h9 => keeps_completeRead h9)

theorem keeps_cfgOpen {a s : State} (h : Keeps a s) : Keeps a (cfgOpen s) := by
  unfold cfgOpen
  exact keeps_ite h (keeps_setBit (keeps_update h))

theorem keeps_cfgStart {a s : State} (h : Keeps a s) : Keeps a (cfgStart s) := by
  unfold cfgStart
  exact keeps_update h

theorem keeps_cfgClose {a s : State} (h : Keeps a s) : Keeps a (cfgClose s) := by
  unfold cfgClose
  exact keeps_clrBit h

theorem keeps_cfgPassWith {a s : State} {x1} (h : Keeps a s) : Keeps a (cfgPassWith s x1) := by
  unfold cfgPassWith
  extract_lets +onlyGivenNames v0
  clear_value v0
  extract_lets +onlyGivenNames v1
  have h2 : Keeps a v1 := keeps_wrWide h
  clear_value v1
  extract_lets +onlyGivenNames v3
  have h4 : Keeps a v3 := keeps_ite (keeps_ite (keeps_setBit h2) (keeps_raisePlain (keeps_incSat (keeps_setBit
      (keeps_clrBit h2))))) h2
  clear_value v3
  exact keeps_update h4

theorem keeps_cfgPassEnd {a s : State} (h : Keeps a s) : Keeps a (cfgPassEnd s) := by
  unfold cfgPassEnd
  exact keeps_cfgPassWith h

theorem keeps_windowOver {a s : State} (h : Keeps a s) : Keeps a (windowOver s) := by
  unfold windowOver
  exact keeps_ite (keeps_raisePlain (keeps_setBit (keeps_update h))) h

theorem keeps_windowRejudge {a s : State} (h : Keeps a s) : Keeps a (windowRejudge s) := by
  unfold windowRejudge
  exact keeps_ite (keeps_windowOver h) h

theorem keeps_cfgAdopt {a s : State} {x1} (h : Keeps a s) : Keeps a (cfgAdopt s x1) := by
  unfold cfgAdopt
  exact keeps_setBit (keeps_cfgClose (keeps_wrWide (keeps_update h)))

/-! ## Machine/Tables.lean -/

theorem keeps_tPut {a s : State} {x1} {x2} {x3} {x4} {x5} (h : Keeps a s) : Keeps a (tPut s x1 x2 x3 x4 x5) :=
  keeps_stores h (fun w => ⟨w.1, w.2.1, mapCanon_mapPut w.2.2.1 _ _, w.2.2.2⟩) rfl rfl rfl rfl rfl rfl rfl

theorem keeps_setQuar {a s : State} {x1} {x2} {x3} (h : Keeps a s) : Keeps a (setQuar s x1 x2 x3) := by
  unfold setQuar
  exact keeps_ite h (keeps_update h)

theorem keeps_clrQuar {a s : State} {x1} {x2} {x3} (h : Keeps a s) : Keeps a (clrQuar s x1 x2 x3) := by
  unfold clrQuar
  exact keeps_update h

theorem keeps_tNotePending {a s : State} {x1} {x2} {x3} {x4} (h : Keeps a s) : Keeps a (tNotePending s x1 x2 x3 x4) := by
  unfold tNotePending
  split
  · exact keeps_ite h (keeps_update h)
  · exact keeps_update h

theorem keeps_tPutBoth {a s : State} {x1} {x2} {x3} {x4} (h : Keeps a s) : Keeps a (tPutBoth s x1 x2 x3 x4) := by
  unfold tPutBoth
  extract_lets +onlyGivenNames v0
  have h1 : Keeps a v0 := keeps_tPut h
  clear_value v0
  split
  · exact keeps_ite (keeps_tPut h1) h1
  · exact h1

end Sys2Proof.Machine
end

