-- ==== Sys2Proof/Laws/KeepsSwitch.lean ====
section
/-! SUPPORT. What Laws/Keeps.lean says, of the switch, lookup and output operations. -/
namespace Sys2Proof.Machine

/-! ## Machine/Samples.lean -/

theorem keeps_noteBusy {a s : State} {x1} {x2} (h : Keeps a s) : Keeps a (noteBusy s x1 x2) := by
  unfold noteBusy
  extract_lets +onlyGivenNames v0
  clear_value v0
  exact keeps_update h

theorem keeps_monTake {a s : State} {x1} {x2} (h : Keeps a s) : Keeps a (monTake s x1 x2) := by
  unfold monTake
  extract_lets +onlyGivenNames v0
  clear_value v0
  extract_lets +onlyGivenNames v1
  clear_value v1
  extract_lets +onlyGivenNames v2
  clear_value v2
  exact keeps_update h

theorem keeps_latency {a s : State} {x1} {x2} {x3} (h : Keeps a s) : Keeps a (latency s x1 x2 x3) := by
  unfold latency
  exact keeps_forEach h fun s0 _ h1 => keeps_ite (keeps_monTake h1) h1

/-! ## Machine/Switch.lean -/

theorem keeps_takePlot {a s t : State} {y} {x1} {x2} {x3} (e : takePlot s x1 x2 x3 = some (y, t)) (h : Keeps a s) :
    Keeps a t := by
  unfold takePlot at e
  split at e
  · injection e with e
    exact keeps_snd e (keeps_drawNat h)
  · cases e

theorem keeps_putFrame {a s : State} {x1} {x2} (h : Keeps a s) : Keeps a (putFrame s x1 x2) :=
  keeps_stores h (fun w => ⟨w.1, w.2.1, w.2.2.1, w.2.2.2.1, mapRising_mapSet w.2.2.2.2 _ _⟩) rfl rfl rfl rfl rfl rfl rfl

theorem keeps_putQueue {a s : State} {x1} {x2} (h : Keeps a s) : Keeps a (putQueue s x1 x2) := by
  unfold putQueue
  exact keeps_update h

theorem keeps_putMac {a s : State} {x1} {x2} (h : Keeps a s) : Keeps a (putMac s x1 x2) := by
  unfold putMac
  exact keeps_update h

theorem keeps_plcaUsed {a s : State} {x1} (h : Keeps a s) : Keeps a (plcaUsed s x1) := by
  unfold plcaUsed
  extract_lets +onlyGivenNames v0
  clear_value v0
  exact keeps_ite (keeps_putMac h) h

theorem keeps_fcSend {a s : State} {x1} {x2} {x3} (h : Keeps a s) : Keeps a (fcSend s x1 x2 x3) := by
  unfold fcSend
  extract_lets +onlyGivenNames v0
  clear_value v0
  extract_lets +onlyGivenNames v1
  clear_value v1
  extract_lets +onlyGivenNames v2
  have h3 : Keeps a v2 := keeps_setFld h
  clear_value v2
  refine keeps_plcaUsed ?_
  refine keeps_send ?_
  extract_lets +onlyGivenNames v4
  have h5 : Keeps a v4 := keeps_incSat h3
  clear_value v4
  exact keeps_update h5

theorem keeps_serveControl {a s : State} {x1} (h : Keeps a s) : Keeps a (serveControl s x1) := by
  unfold serveControl
  exact keeps_forEach h fun s0 _ h1 => keeps_ite h1 (keeps_fcSend (keeps_putMac h1))

theorem keeps_sendControl {a s : State} {x1} {x2} {x3} (h : Keeps a s) : Keeps a (sendControl s x1 x2 x3) := by
  unfold sendControl
  exact keeps_ite (keeps_serveControl (keeps_putMac h)) h

theorem keeps_pauseSend {a s : State} {x1} {x2} {x3} {x4} {x5} (h : Keeps a s) :
    Keeps a (pauseSend s x1 x2 x3 x4 x5) := by
  unfold pauseSend
  exact keeps_ite (keeps_ite (keeps_sendControl h) (keeps_ite (keeps_sendControl h) h)) h

theorem keeps_assertXoff {a s : State} {x1} (h : Keeps a s) : Keeps a (assertXoff s x1) := by
  unfold assertXoff
  extract_lets +onlyGivenNames v0
  clear_value v0
  refine keeps_ite ?_ ?_
  · exact h
  · extract_lets +onlyGivenNames v1
    clear_value v1
    refine keeps_pauseSend ?_
    extract_lets +onlyGivenNames v2
    have h3 : Keeps a v2 := keeps_setBit h
    clear_value v2
    exact keeps_update h3

theorem keeps_evalXoff {a s : State} {x1} (h : Keeps a s) : Keeps a (evalXoff s x1) := by
  unfold evalXoff
  extract_lets +onlyGivenNames v0
  clear_value v0
  extract_lets +onlyGivenNames v1
  clear_value v1
  extract_lets +onlyGivenNames v2
  clear_value v2
  extract_lets +onlyGivenNames v3
  clear_value v3
  extract_lets +onlyGivenNames v4
  clear_value v4
  extract_lets +onlyGivenNames v5
  clear_value v5
  refine keeps_ite ?_ ?_
  · exact keeps_assertXoff h
  · refine keeps_ite ?_ ?_
    · refine keeps_pauseSend ?_
      extract_lets +onlyGivenNames v6
      have h7 : Keeps a v6 := keeps_clrBit h
      clear_value v6
      exact keeps_update h7
    · refine keeps_ite ?_ ?_
      · extract_lets +onlyGivenNames v8
        clear_value v8
        exact keeps_pauseSend (keeps_update h)
      · exact h

theorem keeps_evalAll {a s : State} (h : Keeps a s) : Keeps a (evalAll s) := by
  unfold evalAll
  exact keeps_forEach h fun s0 _ h1 => keeps_evalXoff h1

theorem keeps_dropFrame {a s : State} {x1} (h : Keeps a s) : Keeps a (dropFrame s x1) :=
  keeps_evalAll (keeps_stores h (fun w => ⟨w.1, w.2.1, w.2.2.1, w.2.2.2.1, mapRising_mapDel w.2.2.2.2 _⟩)
    rfl rfl rfl rfl rfl rfl rfl)

theorem keeps_dropRest {a s : State} {x1} {x2} (h : Keeps a s) : Keeps a (dropRest s x1 x2) := by
  unfold dropRest
  refine keeps_ite ?_ ?_
  · extract_lets +onlyGivenNames v0
    have h1 : Keeps a v0 := keeps_update h
    clear_value v0
    extract_lets +onlyGivenNames v2
    clear_value v2
    exact keeps_ite (keeps_putMac h1) (keeps_ite (keeps_putLnk h1) h1)
  · exact h

theorem keeps_freeIfDone {a s : State} {x1} (h : Keeps a s) : Keeps a (freeIfDone s x1) := by
  unfold freeIfDone
  extract_lets +onlyGivenNames v0
  clear_value v0
  exact keeps_ite (keeps_dropFrame (keeps_dropRest h)) h

theorem keeps_clearHeads {a s : State} {x1} (h : Keeps a s) : Keeps a (clearHeads s x1) := by
  unfold clearHeads
  extract_lets +onlyGivenNames v0
  clear_value v0
  exact keeps_forEach (keeps_update h) fun s1 _ h2 => keeps_freeIfDone (keeps_putFrame h2)

theorem keeps_heldMove {a s : State} {x1} (h : Keeps a s) : Keeps a (heldMove s x1) := by
  unfold heldMove
  extract_lets +onlyGivenNames v0
  clear_value v0
  exact keeps_ite (keeps_evalAll (keeps_putFrame h)) h

theorem keeps_discardCopies {a s : State} {x1} {x2} {x3} (h : Keeps a s) : Keeps a (discardCopies s x1 x2 x3) := by
  unfold discardCopies
  extract_lets +onlyGivenNames v0
  clear_value v0
  extract_lets +onlyGivenNames v1
  have h2 : Keeps a v1 := keeps_putQueue h
  clear_value v1
  extract_lets +onlyGivenNames v3
  have h4 : Keeps a v3 := keeps_addStat h2
  clear_value v3
  exact keeps_forEach h4 fun s5 _ h6 => keeps_heldMove (keeps_freeIfDone h6)

theorem keeps_tsPlace {a s : State} {x1} {x2} (h : Keeps a s) : Keeps a (tsPlace s x1 x2) := by
  unfold tsPlace
  extract_lets +onlyGivenNames v0
  clear_value v0
  extract_lets +onlyGivenNames v1
  clear_value v1
  refine keeps_ite ?_ ?_
  · extract_lets +onlyGivenNames v2
    have h3 : Keeps a v2 := keeps_incSat h
    clear_value v2
    extract_lets +onlyGivenNames v4
    have h5 : Keeps a v4 := keeps_ite h3 (keeps_setBit (keeps_setFld h3))
    clear_value v4
    exact keeps_setBit h5
  · extract_lets +onlyGivenNames v6
    clear_value v6
    exact keeps_setFld (keeps_putMac h)

theorem keeps_tsFails {a s : State} {x1} (h : Keeps a s) : Keeps a (tsFails s x1) := by
  unfold tsFails
  extract_lets +onlyGivenNames v0
  clear_value v0
  exact keeps_putMac h

theorem keeps_laneGone {a s : State} {x1} (h : Keeps a s) : Keeps a (laneGone s x1) := by
  unfold laneGone
  extract_lets +onlyGivenNames v0
  clear_value v0
  exact keeps_update h

theorem keeps_macFlightOver {a s : State} {x1} (h : Keeps a s) : Keeps a (macFlightOver s x1) := by
  unfold macFlightOver
  extract_lets +onlyGivenNames v0
  clear_value v0
  extract_lets +onlyGivenNames v1
  have h2 : Keeps a v1 := by
    unfold v1
    split
    · exact keeps_noteBusy h
    · exact h
  clear_value v1
  exact keeps_laneGone (keeps_putMac h2)

theorem keeps_endFlight {a s : State} {x1} (h : Keeps a s) : Keeps a (endFlight s x1) := by
  unfold endFlight
  split
  · exact keeps_heldMove (keeps_update h)
  · exact h

theorem keeps_flightOver {a s : State} {x1} (h : Keeps a s) : Keeps a (flightOver s x1) := by
  unfold flightOver
  split
  · extract_lets +onlyGivenNames v0
    have h1 : Keeps a v0 := keeps_ite (keeps_macFlightOver h) (keeps_ite (keeps_putFur h) h)
    clear_value v0
    extract_lets +onlyGivenNames v2
    have h3 : Keeps a v2 := keeps_freeIfDone (keeps_endFlight (keeps_update h1))
    clear_value v2
    exact keeps_ite (keeps_serveControl h3) h3
  · exact h

theorem keeps_stompFlight {a s : State} {x1} (h : Keeps a s) : Keeps a (stompFlight s x1) := by
  unfold stompFlight
  split
  · exact h
  · refine keeps_ite ?_ ?_
    · exact keeps_flightOver h
    · extract_lets +onlyGivenNames v0
      clear_value v0
      split
      · rename_i x1 x2 x3 x4 x5 x6 e7
        have h8 := keeps_snd e7 (keeps_drawNat (keeps_addStat (keeps_ite (keeps_tsFails h) h)))
        extract_lets +onlyGivenNames v9
        have h10 : Keeps a v9 := keeps_ite (keeps_send h8) (keeps_send h8)
        clear_value v9
        exact keeps_flightOver h10

theorem keeps_withdraw {a s : State} {x1} (h : Keeps a s) : Keeps a (withdraw s x1) := by
  unfold withdraw
  extract_lets +onlyGivenNames v0
  clear_value v0
  extract_lets +onlyGivenNames v1
  have h2 : Keeps a v1 := keeps_ite (keeps_putFrame h) h
  clear_value v1
  extract_lets +onlyGivenNames v3
  have h4 : Keeps a v3 := keeps_update h2
  clear_value v3
  extract_lets +onlyGivenNames v5
  have h6 : Keeps a v5 := keeps_forEach h4 fun s7 _ h8 => keeps_putQueue h8
  clear_value v5
  exact keeps_forEach h6 fun s9 _ h10 => keeps_stompFlight h10

theorem keeps_rewindFrame {a s : State} {x1} {x2} (h : Keeps a s) : Keeps a (rewindFrame s x1 x2) := by
  unfold rewindFrame
  extract_lets +onlyGivenNames v0
  clear_value v0
  extract_lets +onlyGivenNames v1
  have h2 : Keeps a v1 := keeps_ite (keeps_putFrame h) h
  clear_value v1
  exact keeps_dropFrame (keeps_withdraw (keeps_dropRest h2))

theorem keeps_rewindItem {a s : State} {x1} {x2} (h : Keeps a s) : Keeps a (rewindItem s x1 x2) := by
  unfold rewindItem
  exact keeps_ite h (keeps_rewindFrame h)

theorem keeps_countExhausted {a s : State} {x1} (h : Keeps a s) : Keeps a (countExhausted s x1) := by
  unfold countExhausted
  exact keeps_addStat (keeps_setBit h)

theorem keeps_exhaust {a s : State} {x1} {x2} (h : Keeps a s) : Keeps a (exhaust s x1 x2) := by
  unfold exhaust
  refine keeps_countExhausted ?_
  split
  · exact keeps_rewindFrame h
  · exact h

theorem keeps_exhaustItem {a s : State} {x1} {x2} (h : Keeps a s) : Keeps a (exhaustItem s x1 x2) := by
  unfold exhaustItem
  refine keeps_countExhausted ?_
  split
  · exact keeps_rewindItem h
  · exact h

theorem keeps_plotArrives {a s : State} {x1} {x2} {x3} (h : Keeps a s) : Keeps a (plotArrives s x1 x2 x3) := by
  unfold plotArrives
  extract_lets +onlyGivenNames s1
  have h1 : Keeps a s1 := keeps_ite (keeps_update h) h
  refine keeps_ite (s := s1) h1 ?_
  extract_lets +onlyGivenNames cur f0 f b0
  clear_value b0
  split
  · extract_lets +onlyGivenNames s2
    have h2 : Keeps a s2 := keeps_exhaust h1
    clear_value s2
    exact keeps_ite h2 (keeps_update h2)
  · rename_i e
    exact keeps_evalAll (keeps_update (keeps_putFrame (keeps_takePlot e h1)))

theorem keeps_placeItem {a s t : State} {y} {x1} {x2} {x3} (e : placeItem s x1 x2 x3 = some (y, t)) (h : Keeps a s) : Keeps a t := by
  unfold placeItem at e
  extract_lets +onlyGivenNames b0 r at e
  have hr : ∀ p t, r = some (p, t) → Keeps a t := by
    unfold r
    refine List.foldlRecOn _ _ (motive := fun r => ∀ p t, r = some (p, t) → Keeps a t) (by rintro p t ⟨⟩; exact h) ?_
    intro r ih k _ p t e
    match r, ih with
    | none, _ => cases e
    | some (pls, s1), ih =>
      dsimp only at e
      split at e
      · rename_i pl s2 e2
        cases e
        exact keeps_takePlot e2 (keeps_putFrame (ih _ _ rfl))
      · cases e
  clear_value r
  split at e
  · cases e
    exact keeps_evalAll (keeps_update (keeps_putFrame (hr _ _ rfl)))
  · cases e

theorem keeps_putStream {a s : State} {x1} {x2} (h : Keeps a s) : Keeps a (putStream s x1 x2) := by
  unfold putStream
  exact keeps_update h

theorem keeps_hintWake {a s : State} {x1} (h : Keeps a s) : Keeps a (hintWake s x1) := by
  unfold hintWake
  exact keeps_ite (keeps_update h) h

theorem keeps_enqueue {a s : State} {x1} {x2} (h : Keeps a s) : Keeps a (enqueue s x1 x2) := by
  unfold enqueue
  exact keeps_putQueue h

theorem keeps_offerCopy {a s : State} {x1} {x2} (h : Keeps a s) : Keeps a (offerCopy s x1 x2) := by
  unfold offerCopy
  extract_lets +onlyGivenNames v0
  clear_value v0
  exact keeps_ite (keeps_enqueue h) (keeps_ite (keeps_hintWake (keeps_enqueue h)) (keeps_addStat h))

theorem keeps_freeItem {a s : State} {x1} (h : Keeps a s) : Keeps a (freeItem s x1) := by
  unfold freeItem
  exact keeps_forEach h fun s0 _ h1 => keeps_heldMove (keeps_freeIfDone h1)

theorem keeps_placeRelease {a s : State} {x1} (h : Keeps a s) : Keeps a (placeRelease s x1) := by
  unfold placeRelease
  exact keeps_freeItem (keeps_forEach h fun s0 _ h1 => keeps_offerCopy h1)

theorem keeps_lackEntries {a s : State} {x1} {x2} (h : Keeps a s) : Keeps a (lackEntries s x1 x2) := by
  unfold lackEntries
  extract_lets +onlyGivenNames v0
  have h1 : Keeps a v0 := keeps_assertXoff (keeps_setBit h)
  clear_value v0
  exact keeps_ite (keeps_update h1) (keeps_forEach (keeps_countExhausted h1) fun s2 _ h3 => keeps_rewindItem h3)

theorem keeps_releaseItem {a s : State} {x1} (h : Keeps a s) : Keeps a (releaseItem s x1) := by
  unfold releaseItem
  extract_lets +onlyGivenNames v0
  have h1 : Keeps a v0 := by
    unfold v0
    split
    · exact keeps_update h
    · exact h
  clear_value v0
  split
  · exact h1
  · exact keeps_ite (keeps_lackEntries h1) (keeps_ite (keeps_update h1) (keeps_placeRelease h1))

theorem keeps_serveReleases {a s : State} {x0} (h : Keeps a s) : Keeps a (serveReleases x0 s) := by
  induction x0 generalizing s with
  | zero =>
    unfold serveReleases
    exact h
  | succ n ih =>
    unfold serveReleases
    split
    · exact h
    · exact keeps_ite (ih (keeps_placeRelease (keeps_update h))) h

theorem keeps_releaseAll {a s : State} {x1} (h : Keeps a s) : Keeps a (releaseAll s x1) := by
  unfold releaseAll
  exact keeps_forEach h fun s0 _ h1 => keeps_releaseItem h1

theorem keeps_reseqArrive {a s : State} {x1} {x2} {x3} {x4} (h : Keeps a s) : Keeps a (reseqArrive s x1 x2 x3 x4) := by
  unfold reseqArrive
  extract_lets +onlyGivenNames v0
  clear_value v0
  split
  · extract_lets +onlyGivenNames v1
    have h2 : Keeps a v1 := keeps_releaseAll h
    clear_value v1
    split
    · extract_lets +onlyGivenNames v3
      have h4 : Keeps a v3 := keeps_putStream h2
      clear_value v3
      extract_lets +onlyGivenNames v5
      have h6 : Keeps a v5 := keeps_ite (keeps_incSat h4) h4
      clear_value v5
      extract_lets +onlyGivenNames v7
      have h8 : Keeps a v7 := keeps_ite (keeps_addSat h6) h6
      clear_value v7
      extract_lets +onlyGivenNames v9
      have h10 : Keeps a v9 := keeps_releaseAll h8
      clear_value v9
      exact keeps_ite (keeps_forEach h10 fun s11 _ h12 => keeps_freeIfDone h12) h10

theorem keeps_reseqVoid {a s : State} {x1} {x2} {x3} (h : Keeps a s) : Keeps a (reseqVoid s x1 x2 x3) := by
  unfold reseqVoid
  exact keeps_incSat (keeps_reseqArrive h)

theorem keeps_reseqGap {a s : State} {x1} (h : Keeps a s) : Keeps a (reseqGap s x1) := by
  unfold reseqGap
  extract_lets +onlyGivenNames v0
  clear_value v0
  refine keeps_ite ?_ ?_
  · split
    · exact keeps_releaseAll (keeps_incSat (keeps_addSat (keeps_putStream h)))
  · exact h

theorem keeps_reseqReset {a s : State} {x1} (h : Keeps a s) : Keeps a (reseqReset s x1) := by
  unfold reseqReset
  split
  · exact keeps_releaseAll (keeps_putStream h)

theorem keeps_gateStart {a s : State} {x1} (h : Keeps a s) : Keeps a (gateStart s x1) := by
  unfold gateStart
  refine keeps_ite ?_ ?_
  · split
    · extract_lets +onlyGivenNames v0
      clear_value v0
      exact keeps_putBit (keeps_update h)
    · exact h
  · exact h

theorem keeps_gateNext {a s : State} {x1} (h : Keeps a s) : Keeps a (gateNext s x1) := by
  unfold gateNext
  split
  · split
    · exact keeps_ite (keeps_update h) h
    · exact h
  · exact h

theorem keeps_gatesCut {a s : State} (h : Keeps a s) : Keeps a (gatesCut s) := by
  unfold gatesCut
  exact keeps_update h

theorem keeps_pickInput {a s : State} {x1} {x2} (h : Keeps a s) : Keeps a (pickInput s x1 x2).2 := by
  unfold pickInput
  extract_lets +onlyGivenNames v0
  clear_value v0
  split
  · exact h
  · split
    · rename_i x1 x2 x3 x4 x5 e6
      have h7 := keeps_snd e6 (keeps_drawNat h)
      exact h7

theorem keeps_drr {a s : State} {x0} {x2} {x3} {x4} {x5} (h : Keeps a s) : Keeps a (drr x0 s x2 x3 x4 x5).2 := by
  induction x0 generalizing s x2 x3 x4 x5 with
  | zero =>
    unfold drr
    exact h
  | succ n ih =>
    unfold drr
    extract_lets +onlyGivenNames v0
    clear_value v0
    split
    · dsimp -zeta only
      exact keeps_update h
    · split
      · extract_lets +onlyGivenNames v1
        have h2 : Keeps a v1 := keeps_update h
        clear_value v1
        exact ih h2
      · exact h

theorem keeps_settleInputs {a s : State} {x1} {x2} (h : Keeps a s) : Keeps a (settleInputs s x1 x2) := by
  unfold settleInputs
  refine keeps_forEach ?_ fun s2 x4 h3 => ?_
  · exact h
  · refine keeps_ite ?_ ?_
    · exact h3
    · split
      · rename_i x5 x6 x7 e8
        have h9 := keeps_snd e8 (keeps_drawNat h3)
        exact keeps_update h9

theorem keeps_idleDeficits {a s : State} (h : Keeps a s) : Keeps a (idleDeficits s) := by
  unfold idleDeficits
  exact keeps_update h

theorem keeps_pickClass {a s : State} {x1} (h : Keeps a s) : Keeps a (pickClass s x1).2 := by
  unfold pickClass
  extract_lets +onlyGivenNames v0
  clear_value v0
  extract_lets +onlyGivenNames v1
  have h2 : Keeps a v1 := keeps_update h
  clear_value v1
  split
  · exact h2
  · split
    · exact h2
    · extract_lets +onlyGivenNames v3
      have h4 : Keeps a v3 := keeps_settleInputs h2
      clear_value v3
      split
      · exact keeps_drr h4
      · split
        · rename_i x5 x6 x7 x8 x9 x10 x11 x12 e13
          have h14 := keeps_snd e13 (keeps_drawNat h4)
          exact keeps_drr h14

theorem keeps_dequeue {a s : State} {x1} {x2} (h : Keeps a s) : Keeps a (dequeue s x1 x2) := by
  unfold dequeue
  exact keeps_putQueue h

theorem keeps_ageHeads {a s : State} {x0} {x2} (h : Keeps a s) : Keeps a (ageHeads x0 s x2) := by
  induction x0 generalizing s x2 with
  | zero =>
    unfold ageHeads
    exact h
  | succ n ih =>
    unfold ageHeads
    split
    · exact ih (keeps_heldMove (keeps_freeIfDone (keeps_addStat (keeps_dequeue h))))
    · exact h

theorem keeps_selectOne {a s : State} {x0} {x2} (h : Keeps a s) : Keeps a (selectOne x0 s x2) := by
  induction x0 generalizing s x2 with
  | zero =>
    unfold selectOne
    exact h
  | succ n ih =>
    unfold selectOne
    split
    · rename_i x0 x1 x2 e3
      have h4 := keeps_snd e3 (keeps_pickClass h)
      split
      · rename_i x5 x6 x7 e8
        have h9 := keeps_snd e8 (keeps_pickInput h4)
        split
        · extract_lets +onlyGivenNames v10
          have h11 : Keeps a v10 := keeps_dequeue h9
          clear_value v10
          refine keeps_ite ?_ ?_
          · exact ih (keeps_freeIfDone (keeps_addStat h11))
          · refine keeps_ite ?_ ?_
            · exact ih (keeps_freeIfDone (keeps_incSat h11))
            · extract_lets +onlyGivenNames v12
              clear_value v12
              exact keeps_update h11
        · exact h9
      · rename_i x13 x14 e15
        have h16 := keeps_snd e15 (keeps_pickInput h4)
        exact h16
    · rename_i x17 x18 e19
      have h20 := keeps_snd e19 (keeps_pickClass h)
      exact h20

theorem keeps_selectAt {a s : State} {x1} (h : Keeps a s) : Keeps a (selectAt s x1) := by
  unfold selectAt
  exact keeps_selectOne h

theorem keeps_remedyRow {a s : State} {x1} {x2} (h : Keeps a s) : Keeps a (remedyRow s x1 x2) := by
  unfold remedyRow
  extract_lets +onlyGivenNames v0
  clear_value v0
  extract_lets +onlyGivenNames v1
  have h2 : Keeps a v1 := keeps_ite (keeps_setBit h) h
  clear_value v1
  extract_lets +onlyGivenNames v3
  clear_value v3
  refine keeps_ite ?_ ?_
  · exact keeps_retire (keeps_setFld h2)
  · extract_lets +onlyGivenNames v4
    have h5 : Keeps a v4 := keeps_update h2
    clear_value v4
    extract_lets +onlyGivenNames v6
    have h7 : Keeps a v6 := keeps_setFld h5
    clear_value v6
    exact keeps_evalAll (keeps_retire h7)

theorem keeps_rowTested {a s : State} {x1} {x2} {x3} (h : Keeps a s) : Keeps a (rowTested s x1 x2 x3) := by
  unfold rowTested
  extract_lets +onlyGivenNames v0
  clear_value v0
  extract_lets +onlyGivenNames v1
  have h2 : Keeps a v1 := keeps_update h
  clear_value v1
  split
  · rename_i x3 x4 x5 e6
    have h7 := keeps_snd e6 (keeps_classFault h2)
    refine keeps_ite ?_ ?_
    · extract_lets +onlyGivenNames v8
      have h9 : Keeps a v8 := keeps_ite h7 (keeps_raiseRec h7)
      clear_value v8
      exact keeps_remedyRow h9
    · exact h7

/-! ## Machine/Learn.lean -/

theorem keeps_learnEvent {a s : State} {x1} {x2} {x3} (h : Keeps a s) : Keeps a (learnEvent s x1 x2 x3) := by
  unfold learnEvent
  extract_lets +onlyGivenNames v0
  clear_value v0
  refine keeps_ite ?_ ?_
  · extract_lets +onlyGivenNames v1
    clear_value v1
    extract_lets +onlyGivenNames v2
    clear_value v2
    refine keeps_ite ?_ ?_
    · exact keeps_incSat (keeps_update h)
    · extract_lets +onlyGivenNames v3
      have h4 : Keeps a v3 := keeps_ite (keeps_furPush (keeps_update h)) h
      clear_value v3
      exact keeps_furPush h4
  · exact h

theorem keeps_entryEvent {a s : State} {x1} {x2} {x3} {x4} {x5} {x6} {x7} (h : Keeps a s) :
    Keeps a (entryEvent s x1 x2 x3 x4 x5 x6 x7) := by
  unfold entryEvent
  exact keeps_learnEvent h

theorem keeps_shortEvent {a s : State} {x1} {x2} {x3} (h : Keeps a s) : Keeps a (shortEvent s x1 x2 x3) := by
  unfold shortEvent
  exact keeps_learnEvent h

theorem keeps_putBridge {a s : State} {x1} {x2} {x3} (h : Keeps a s) : Keeps a (putBridge s x1 x2 x3) := by
  unfold putBridge
  exact keeps_tPut h

theorem keeps_removeBridge {a s : State} {x1} {x2} (h : Keeps a s) : Keeps a (removeBridge s x1 x2) := by
  unfold removeBridge
  extract_lets +onlyGivenNames v0
  clear_value v0
  extract_lets +onlyGivenNames v1
  have h2 : Keeps a v1 := keeps_putBridge h
  clear_value v1
  exact keeps_ite (keeps_update h2) h2

theorem keeps_applyMove {a s : State} {x1} {x2} {x3} (h : Keeps a s) : Keeps a (applyMove s x1 x2 x3) := by
  unfold applyMove
  extract_lets +onlyGivenNames v0
  clear_value v0
  extract_lets +onlyGivenNames v1
  have h2 : Keeps a v1 := keeps_putBridge h
  clear_value v1
  exact keeps_entryEvent (keeps_incSat h2)

theorem keeps_stationMove {a s : State} {x1} {x2} {x3} (h : Keeps a s) : Keeps a (stationMove s x1 x2 x3) := by
  unfold stationMove
  extract_lets +onlyGivenNames v0
  clear_value v0
  extract_lets +onlyGivenNames v1
  clear_value v1
  extract_lets +onlyGivenNames v2
  clear_value v2
  refine keeps_ite ?_ ?_
  · exact keeps_applyMove h
  · split
    · refine keeps_ite ?_ ?_
      · exact keeps_applyMove (keeps_update h)
      · refine keeps_ite ?_ ?_
        · exact keeps_applyMove (keeps_update h)
        · extract_lets +onlyGivenNames v3
          have h4 : Keeps a v3 := keeps_update h
          clear_value v3
          extract_lets +onlyGivenNames v5
          have h6 : Keeps a v5 := keeps_putBridge h4
          clear_value v5
          exact keeps_entryEvent (keeps_incSat h6)
    · split
      · exact keeps_applyMove (keeps_update h)
      · exact keeps_applyMove (keeps_incSat h)

theorem keeps_learnApplied {a s : State} {x1} {x2} (h : Keeps a s) : Keeps a (learnApplied s x1 x2) := by
  unfold learnApplied
  split
  · split
    · extract_lets +onlyGivenNames v0
      clear_value v0
      extract_lets +onlyGivenNames v1
      have h2 : Keeps a v1 := keeps_putBridge h
      clear_value v1
      exact keeps_entryEvent (keeps_incSat h2)
    · exact keeps_entryEvent (keeps_incSat h)
  · extract_lets +onlyGivenNames v3
    clear_value v3
    refine keeps_ite ?_ ?_
    · extract_lets +onlyGivenNames v4
      have h5 : Keeps a v4 := keeps_putBridge h
      clear_value v4
      exact keeps_ite (keeps_incSat h5) h5
    · exact keeps_ite (keeps_putBridge h) (keeps_stationMove h)

theorem keeps_learnBus {a s : State} {x1} (h : Keeps a s) : Keeps a (learnBus s x1) := by
  unfold learnBus
  refine keeps_forEach ?_ fun s2 x4 h3 => ?_
  · exact h
  · extract_lets +onlyGivenNames v5
    clear_value v5
    exact keeps_ite (keeps_incSat h3) (keeps_update h3)

theorem keeps_endPin {a s : State} {x1} {x2} (h : Keeps a s) : Keeps a (endPin s x1 x2) := by
  unfold endPin
  split
  · refine keeps_ite ?_ ?_
    · extract_lets +onlyGivenNames v0
      have h1 : Keeps a v0 := keeps_update h
      clear_value v0
      split
      · extract_lets +onlyGivenNames v2
        clear_value v2
        exact keeps_entryEvent (keeps_putBridge h1)
      · exact h1
    · exact h
  · exact h

theorem keeps_applyLearn {a s : State} {x1} {x2} (h : Keeps a s) : Keeps a (applyLearn s x1 x2) := by
  unfold applyLearn
  extract_lets +onlyGivenNames v0
  have h1 : Keeps a v0 := by
    unfold v0
    split
    · exact keeps_ite (keeps_endPin h) h
    · exact h
  clear_value v0
  exact keeps_learnApplied h1

theorem keeps_learnHead {a s : State} {x1} (h : Keeps a s) : Keeps a (learnHead s x1) := by
  unfold learnHead
  split
  · exact keeps_handled (keeps_applyLearn (keeps_update h))
  · exact h

theorem keeps_unpinAll {a s : State} {x1} (h : Keeps a s) : Keeps a (unpinAll s x1) := by
  unfold unpinAll
  exact keeps_forEach h fun s0 _ h1 => keeps_endPin h1

theorem keeps_flushWhere {a s : State} {x1} {x2} (h : Keeps a s) : Keeps a (flushWhere s x1 x2) := by
  unfold flushWhere
  exact keeps_forEach h fun s0 _ h1 => keeps_incSat (keeps_removeBridge h1)

theorem keeps_flushSel {a s : State} {x1} (h : Keeps a s) : Keeps a (flushSel s x1) := by
  unfold flushSel
  extract_lets +onlyGivenNames v0
  clear_value v0
  exact keeps_flushWhere h

theorem keeps_downFlush {a s : State} {x1} (h : Keeps a s) : Keeps a (downFlush s x1) := by
  unfold downFlush
  exact keeps_ite (keeps_forEach h fun s0 _ h1 => keeps_ite (keeps_flushWhere h1) h1) h

theorem keeps_ageEntry {a s : State} {x1} {x2} (h : Keeps a s) : Keeps a (ageEntry s x1 x2) := by
  unfold ageEntry
  extract_lets +onlyGivenNames v0
  clear_value v0
  exact keeps_ite h (keeps_ite (keeps_putBridge h) (keeps_ite (keeps_putBridge h) (keeps_entryEvent (keeps_incSat
      (keeps_removeBridge h)))))

theorem keeps_dedupEntry {a s : State} {x1} {x2} (h : Keeps a s) : Keeps a (dedupEntry s x1 x2) := by
  unfold dedupEntry
  extract_lets +onlyGivenNames v0
  clear_value v0
  refine keeps_ite ?_ ?_
  · exact h
  · extract_lets +onlyGivenNames v1
    clear_value v1
    extract_lets +onlyGivenNames v2
    clear_value v2
    split
    · extract_lets +onlyGivenNames v3
      clear_value v3
      refine keeps_ite ?_ ?_
      · exact keeps_incSat h
      · extract_lets +onlyGivenNames v4
        clear_value v4
        extract_lets +onlyGivenNames v5
        clear_value v5
        exact keeps_entryEvent (keeps_incSat (keeps_removeBridge h))
    · exact h

theorem keeps_ageVisit {a s : State} {x1} (h : Keeps a s) : Keeps a (ageVisit s x1) := by
  unfold ageVisit
  refine keeps_ite ?_ ?_
  · exact h
  · extract_lets +onlyGivenNames v0
    clear_value v0
    extract_lets +onlyGivenNames v1
    have h2 : Keeps a v1 := keeps_dedupEntry (keeps_ageEntry h)
    clear_value v1
    refine keeps_ite ?_ ?_
    · extract_lets +onlyGivenNames v3
      clear_value v3
      exact keeps_shortEvent (keeps_update h2)
    · exact keeps_update h2

/-! ## Machine/Harrow.lean -/

theorem keeps_putLive {a s : State} {x1} {x2} {x3} {x4} (h : Keeps a s) : Keeps a (putLive s x1 x2 x3 x4) := by
  unfold putLive
  split
  · exact keeps_ite (keeps_update h) (keeps_tPut h)

theorem keeps_harrowRecord {a s : State} {x1} {x2} {x3} {x4} {x5} (h : Keeps a s) :
    Keeps a (harrowRecord s x1 x2 x3 x4 x5) := by
  unfold harrowRecord
  split
  · exact keeps_raiseRec h

theorem keeps_harrowEvent {a s : State} {x1} {x2} {x3} {x4} (h : Keeps a s) : Keeps a (harrowEvent s x1 x2 x3 x4) := by
  unfold harrowEvent
  exact keeps_ite (keeps_shortEvent h) h

theorem keeps_harrowCount {a s : State} {x1} {x2} (h : Keeps a s) : Keeps a (harrowCount s x1 x2) := by
  unfold harrowCount
  exact keeps_ite h (keeps_incSat h)

theorem keeps_harrowCapture {a s : State} {x1} {x2} {x3} (h : Keeps a s) : Keeps a (harrowCapture s x1 x2 x3) := by
  unfold harrowCapture
  extract_lets +onlyGivenNames v0
  clear_value v0
  exact keeps_ite (keeps_ite h (keeps_wr h)) (keeps_ite (keeps_ite h (keeps_wr h)) (keeps_ite h (keeps_wr h)))

theorem keeps_markUnspared {a s : State} {x1} {x2} {x3} (h : Keeps a s) : Keeps a (markUnspared s x1 x2 x3) := by
  unfold markUnspared
  refine keeps_ite ?_ ?_
  · exact h
  · extract_lets +onlyGivenNames v0
    clear_value v0
    exact keeps_update h

theorem keeps_retireEntry {a s : State} {x1} {x2} {x3} {x4} (h : Keeps a s) : Keeps a (retireEntry s x1 x2 x3 x4) := by
  unfold retireEntry
  split
  · extract_lets +onlyGivenNames v0
    clear_value v0
    extract_lets +onlyGivenNames v1
    clear_value v1
    extract_lets +onlyGivenNames v2
    clear_value v2
    refine keeps_ite ?_ ?_
    · extract_lets +onlyGivenNames v3
      have h4 : Keeps a v3 := keeps_setFld h
      clear_value v3
      exact keeps_harrowEvent (keeps_retire (keeps_setBit h4))
    · extract_lets +onlyGivenNames v5
      have h6 : Keeps a v5 := keeps_harrowEvent (keeps_setBit h)
      clear_value v5
      exact keeps_ite (keeps_retire h6) (keeps_noSpare (keeps_markUnspared h6))

theorem keeps_quarantine {a s : State} {x1} {x2} {x3} (h : Keeps a s) : Keeps a (quarantine s x1 x2 x3) := by
  unfold quarantine
  extract_lets +onlyGivenNames v0
  clear_value v0
  extract_lets +onlyGivenNames v1
  clear_value v1
  extract_lets +onlyGivenNames v2
  have h3 : Keeps a v2 := keeps_update h
  clear_value v2
  extract_lets +onlyGivenNames v4
  have h5 : Keeps a v4 := keeps_harrowCapture (keeps_setBit (keeps_harrowCount h3))
  clear_value v4
  extract_lets +onlyGivenNames v6
  have h7 : Keeps a v6 := keeps_harrowEvent h5
  clear_value v6
  split
  · rename_i x8 x9 x10 e11
    have h12 := keeps_snd e11 (keeps_classFault h7)
    extract_lets +onlyGivenNames v13
    have h14 : Keeps a v13 := keeps_harrowRecord h12
    clear_value v13
    exact keeps_ite (keeps_retireEntry h14) h14

theorem keeps_repaired {a s : State} {x1} {x2} {x3} {x4} (h : Keeps a s) : Keeps a (repaired s x1 x2 x3 x4) := by
  unfold repaired
  extract_lets +onlyGivenNames v0
  clear_value v0
  extract_lets +onlyGivenNames v1
  clear_value v1
  extract_lets +onlyGivenNames v2
  have h3 : Keeps a v2 := keeps_ite (keeps_setBit (keeps_harrowCount h)) h
  clear_value v2
  split
  · rename_i x4 x5 x6 e7
    have h8 := keeps_snd e7 (keeps_classFault h3)
    extract_lets +onlyGivenNames v9
    have h10 : Keeps a v9 := keeps_harrowRecord h8
    clear_value v9
    exact keeps_ite (keeps_retireEntry h10) h10

theorem keeps_judge {a s : State} {x1} {x2} {x3} {x4} {x5} {x6} (h : Keeps a s) :
    Keeps a (judge s x1 x2 x3 x4 x5 x6) := by
  unfold judge
  split
  · exact keeps_ite h (keeps_ite (keeps_quarantine h) (keeps_ite (keeps_quarantine h) (keeps_ite (keeps_repaired
      (keeps_putLive h)) (keeps_ite (keeps_repaired (keeps_tPut h)) (keeps_ite h (keeps_quarantine h))))))

theorem keeps_polParity {a s : State} {x1} {x2} {x3} (h : Keeps a s) : Keeps a (polParity s x1 x2 x3) := by
  unfold polParity
  extract_lets +onlyGivenNames v0
  clear_value v0
  extract_lets +onlyGivenNames v1
  have h2 : Keeps a v1 := keeps_update h
  clear_value v1
  extract_lets +onlyGivenNames v3
  have h4 : Keeps a v3 := keeps_harrowEvent h2
  clear_value v3
  exact keeps_repaired h4

theorem keeps_bridgeParity {a s : State} {x1} {x2} {x3} (h : Keeps a s) : Keeps a (bridgeParity s x1 x2 x3) := by
  unfold bridgeParity
  extract_lets +onlyGivenNames v0
  have h1 : Keeps a v0 := keeps_harrowEvent (keeps_removeBridge h)
  clear_value v0
  split
  · rename_i x2 x3 x4 e5
    have h6 := keeps_snd e5 (keeps_classFault h1)
    extract_lets +onlyGivenNames v7
    have h8 : Keeps a v7 := keeps_harrowRecord h6
    clear_value v7
    exact keeps_ite (keeps_retireEntry h8) h8

theorem keeps_gateParity {a s : State} {x1} {x2} (h : Keeps a s) : Keeps a (gateParity s x1 x2) := by
  unfold gateParity
  refine keeps_ite ?_ ?_
  · extract_lets +onlyGivenNames v0
    have h1 : Keeps a v0 := keeps_ite h (keeps_update h)
    clear_value v0
    extract_lets +onlyGivenNames v2
    have h3 : Keeps a v2 := keeps_harrowEvent h1
    clear_value v2
    split
    · rename_i x4 x5 x6 e7
      have h8 := keeps_snd e7 (keeps_classFault h3)
      extract_lets +onlyGivenNames v9
      have h10 : Keeps a v9 := keeps_harrowRecord h8
      clear_value v9
      exact keeps_ite (keeps_retireEntry h10) h10
  · exact h

theorem keeps_flagEntry {a s : State} {x1} {x2} {x3} (h : Keeps a s) : Keeps a (flagEntry s x1 x2 x3) := by
  unfold flagEntry
  exact keeps_ite h (keeps_update h)

theorem keeps_noteBad {a s : State} {x1} {x2} {x3} {x4} (h : Keeps a s) : Keeps a (noteBad s x1 x2 x3 x4) := by
  unfold noteBad
  exact keeps_forEach h fun s0 _ h1 => keeps_flagEntry h1

/-! ## Machine/Lookup.lean -/

theorem keeps_hedge {a s : State} {x1} {x2} {x3} (h : Keeps a s) : Keeps a (hedge s x1 x2 x3).2.2 := by
  unfold hedge
  extract_lets +onlyGivenNames v0
  clear_value v0
  extract_lets +onlyGivenNames v1
  have h2 : Keeps a v1 := keeps_handled (keeps_noteBad h)
  clear_value v1
  split
  · extract_lets +onlyGivenNames v3
    have h4 : Keeps a v3 := keeps_wr h2
    clear_value v3
    extract_lets +onlyGivenNames v5
    have h6 : Keeps a v5 := keeps_foldl h4 fun s7 _ h8 => keeps_ite (keeps_addStat h8) h8
    clear_value v5
    split
    · dsimp -zeta only
      exact keeps_addStat h6
    · extract_lets +onlyGivenNames v9
      clear_value v9
      split
      · dsimp -zeta only
        exact keeps_incSat h6
      · split
        · dsimp -zeta only
          exact keeps_incSat h6
        · exact h6
  · extract_lets +onlyGivenNames v10
    have h11 : Keeps a v10 := keeps_incSat (keeps_wr h2)
    clear_value v10
    split
    · dsimp -zeta only
      exact keeps_incSat h11
    · exact h11

theorem keeps_badDest {a s : State} {x1} (h : Keeps a s) : Keeps a (badDest s x1) := by
  unfold badDest
  exact keeps_incSat h

theorem keeps_formCopies {a s : State} {x1} {x2} {x3} {x4} (h : Keeps a s) : Keeps a (formCopies s x1 x2 x3 x4).2 := by
  unfold formCopies
  refine keeps_foldl_snd ?_ fun s0 x2 h1 => ?_
  · exact h
  · split
    · exact h1
    · dsimp -zeta only
      exact keeps_badDest h1

theorem keeps_forward {a s : State} {x1} {x2} {x3} {x4} {x5} {x6} {x7} {x8} (h : Keeps a s) :
    Keeps a (forward s x1 x2 x3 x4 x5 x6 x7 x8).2.2.2 := by
  unfold forward
  split
  · split
    · exact h
    · dsimp -zeta only
      exact keeps_ite (keeps_incSat h) h
  · extract_lets +onlyGivenNames v0
    have h1 : Keeps a v0 := keeps_ite (keeps_noteBad h) h
    clear_value v0
    split
    · dsimp -zeta only
      exact keeps_addStat h1
    · dsimp -zeta only
      exact keeps_badDest h1
    · extract_lets +onlyGivenNames v2
      clear_value v2
      split
      · rename_i x3 x4 x5 x6 x7 x8 x9 e10
        have h11 := keeps_snd e10 (keeps_formCopies h1)
        exact h11

theorem keeps_routeLookup {a s : State} {x1} {x2} {x3} {x4} {x5} (h : Keeps a s) :
    Keeps a (routeLookup s x1 x2 x3 x4 x5).2 := by
  unfold routeLookup
  extract_lets +onlyGivenNames v0
  clear_value v0
  extract_lets +onlyGivenNames v1
  clear_value v1
  extract_lets +onlyGivenNames v2
  have h3 : Keeps a v2 := keeps_noteBad h
  clear_value v2
  extract_lets +onlyGivenNames v4
  clear_value v4
  extract_lets +onlyGivenNames v5
  have h6 : Keeps a v5 := keeps_ite (keeps_incSat h3) h3
  clear_value v5
  split
  · extract_lets +onlyGivenNames v7
    have h8 : Keeps a v7 := keeps_incSat h6
    clear_value v7
    split
    · exact h8
    · exact h8
  · split
    · dsimp -zeta only
      exact keeps_incSat h6
    · extract_lets +onlyGivenNames v9
      clear_value v9
      extract_lets +onlyGivenNames v10
      clear_value v10
      extract_lets +onlyGivenNames v11
      clear_value v11
      extract_lets +onlyGivenNames v12
      clear_value v12
      extract_lets +onlyGivenNames v13
      clear_value v13
      extract_lets +onlyGivenNames v14
      clear_value v14
      extract_lets +onlyGivenNames v15
      clear_value v15
      extract_lets +onlyGivenNames v16
      clear_value v16
      extract_lets +onlyGivenNames v17
      clear_value v17
      extract_lets +onlyGivenNames v18
      have h19 : ∀ s, Keeps a s → Keeps a (v18 s).2.2.2 := by
        intro s h19'
        unfold v18
        exact keeps_forward h19'
      clear_value v18
      split
      · split
        · rename_i x20 x21 x22 x23 x24 x25 x26 x27 x28 x29 e30
          have h31 := keeps_fourth e30 (h19 _ h6)
          exact h31
      · exact h6
      · split
        · rename_i x32 x33 x34 x35 x36 x37 x38 x39 x40 x41 e42
          have h43 := keeps_fourth e42 (h19 _ h6)
          exact h43
      · dsimp -zeta only
        exact keeps_incSat h6

theorem keeps_sourceLookup {a s : State} {x1} {x2} {x3} {x4} {x5} {x6} (h : Keeps a s) :
    Keeps a (sourceLookup s x1 x2 x3 x4 x5 x6).2.2 := by
  unfold sourceLookup
  extract_lets +onlyGivenNames v0
  clear_value v0
  extract_lets +onlyGivenNames v1
  clear_value v1
  extract_lets +onlyGivenNames v2
  clear_value v2
  extract_lets +onlyGivenNames v3
  clear_value v3
  split
  · dsimp -zeta only
    exact keeps_incSat h
  · extract_lets +onlyGivenNames v4
    clear_value v4
    extract_lets +onlyGivenNames v5
    have h6 : Keeps a v5 := keeps_ite (keeps_incSat h) h
    clear_value v5
    split
    · exact h6
    · extract_lets +onlyGivenNames v7
      clear_value v7
      extract_lets +onlyGivenNames v8
      have h9 : Keeps a v8 := keeps_putBridge h6
      clear_value v8
      extract_lets +onlyGivenNames v10
      clear_value v10
      split
      · extract_lets +onlyGivenNames v11
        have h12 : Keeps a v11 := keeps_incSat h9
        clear_value v11
        exact h12
      · exact h9

theorem keeps_bridgeLookup {a s : State} {x1} {x2} {x3} {x4} {x5} (h : Keeps a s) :
    Keeps a (bridgeLookup s x1 x2 x3 x4 x5).2 := by
  unfold bridgeLookup
  extract_lets +onlyGivenNames v0
  clear_value v0
  extract_lets +onlyGivenNames v1
  clear_value v1
  extract_lets +onlyGivenNames v2
  clear_value v2
  extract_lets +onlyGivenNames v3
  clear_value v3
  extract_lets +onlyGivenNames v4
  have h5 : Keeps a v4 := keeps_noteBad h
  clear_value v4
  split
  · dsimp -zeta only
    exact keeps_addStat h5
  · split
    · dsimp -zeta only
      exact keeps_incSat h5
    · extract_lets +onlyGivenNames v6
      clear_value v6
      extract_lets +onlyGivenNames v7
      clear_value v7
      extract_lets +onlyGivenNames v8
      have h9 : Keeps a v8 := keeps_noteBad h5
      clear_value v8
      split
      · dsimp -zeta only
        exact keeps_incSat h9
      · split
        · rename_i x10 x11 x12 x13 x14 x15 x16 x17 x18 e19
          have h20 := keeps_thd e19 (keeps_sourceLookup h9)
          split
          · exact h20
          · extract_lets +onlyGivenNames v21
            clear_value v21
            extract_lets +onlyGivenNames v22
            clear_value v22
            extract_lets +onlyGivenNames v23
            have h24 : Keeps a v23 := keeps_ite (keeps_incSat h20) h20
            clear_value v23
            split
            · rename_i x25 x26 x27 x28 x29 e30
              have h31 : Keeps a x29 := by
                refine keeps_thd e30 ?_
                split
                · split
                  · exact h24
                  · extract_lets +onlyGivenNames v32
                    clear_value v32
                    dsimp -zeta only
                    exact keeps_ite (keeps_putBridge h24) h24
                · exact h24
              split
              · rename_i x33 x34 x35 x36 x37 e38
                have h39 := keeps_fourth e38 (keeps_forward h31)
                exact h39

theorem keeps_chargeBucket {a s : State} {x1} {x2} {x3} {x4} {x5} (h : Keeps a s) :
    Keeps a (chargeBucket s x1 x2 x3 x4 x5).2 := by
  unfold chargeBucket
  extract_lets +onlyGivenNames v0
  clear_value v0
  extract_lets +onlyGivenNames v1
  clear_value v1
  split
  · dsimp -zeta only
    exact keeps_update h
  · extract_lets +onlyGivenNames v2
    have h3 : Keeps a v2 := keeps_update h
    clear_value v2
    split
    · dsimp -zeta only
      exact keeps_addStat h3
    · dsimp -zeta only
      exact keeps_addStat h3

theorem keeps_charge {a s : State} {x1} {x2} {x3} {x4} {x5} (h : Keeps a s) : Keeps a (charge s x1 x2 x3 x4 x5).2 := by
  unfold charge
  extract_lets +onlyGivenNames v0
  have h1 : Keeps a v0 := keeps_handled (keeps_noteBad h)
  clear_value v0
  split
  · dsimp -zeta only
    exact keeps_addStat h1
  · extract_lets +onlyGivenNames v2
    have h3 : Keeps a v2 := keeps_ite (keeps_polParity h1) h1
    clear_value v2
    split
    · exact h3
    · extract_lets +onlyGivenNames v4
      clear_value v4
      split
      · exact h3
      · exact keeps_chargeBucket h3

theorem keeps_noteCharge {a s : State} {x1} {x2} {x3} (h : Keeps a s) : Keeps a (noteCharge s x1 x2 x3) := by
  unfold noteCharge
  split
  · exact keeps_ite (keeps_putFrame h) h
  · exact h

theorem keeps_judgeItem {a s : State} {x1} {x2} {x3} {x4} (h : Keeps a s) : Keeps a (judgeItem s x1 x2 x3 x4).2.2 := by
  unfold judgeItem
  extract_lets +onlyGivenNames v0
  clear_value v0
  extract_lets +onlyGivenNames v1
  clear_value v1
  split
  · rename_i x2 x3 x4 x5 e6
    have h7 := keeps_thd e6 (keeps_hedge h)
    split
    · rename_i x8 x9 x10 e11
      have h12 : Keeps a x10 := by
        refine keeps_snd e11 ?_
        split
        · exact h7
        · split
          · exact h7
          · split
            · extract_lets +onlyGivenNames v13
              clear_value v13
              extract_lets +onlyGivenNames v14
              clear_value v14
              extract_lets +onlyGivenNames v15
              clear_value v15
              split
              · rename_i x16 x17 x18 x19 x20 x21 x22 x23 e24
                have h25 := keeps_fourth e24 (keeps_forward h7)
                exact h25
            · split
              · exact keeps_bridgeLookup (keeps_handled h7)
              · exact keeps_routeLookup (keeps_handled h7)
      extract_lets +onlyGivenNames v26
      clear_value v26
      split
      · exact h12
      · extract_lets +onlyGivenNames v27
        clear_value v27
        extract_lets +onlyGivenNames v28
        clear_value v28
        extract_lets +onlyGivenNames v29
        clear_value v29
        extract_lets +onlyGivenNames v30
        clear_value v30
        extract_lets +onlyGivenNames v31
        clear_value v31
        extract_lets +onlyGivenNames v32
        clear_value v32
        split
        · exact h12
        · split
          · rename_i x33 x34 x35 x36 x37 e38
            have h39 := keeps_snd e38 (keeps_charge h12)
            dsimp -zeta only
            exact keeps_noteCharge h39
          · rename_i x40 x41 x42 x43 x44 x45 e46
            have h47 := keeps_snd e46 (keeps_charge h12)
            exact h47
          · rename_i x48 x49 x50 x51 x52 e53
            have h54 := keeps_snd e53 (keeps_charge h12)
            exact h54

theorem keeps_issueLearn {a s : State} {x1} {x2} (h : Keeps a s) : Keeps a (issueLearn s x1 x2) := by
  unfold issueLearn
  split
  · exact keeps_ite (keeps_learnBus h) (keeps_putFrame h)
  · exact keeps_learnBus h

theorem keeps_announce {a s : State} {x1} {x2} (h : Keeps a s) : Keeps a (announce s x1 x2).2 := by
  unfold announce
  extract_lets +onlyGivenNames v0
  clear_value v0
  split
  · dsimp -zeta only
    exact keeps_incSat h
  · dsimp -zeta only
    exact keeps_update h

theorem keeps_busItem {a s : State} {x1} {x2} {x3} (h : Keeps a s) : Keeps a (busItem s x1 x2 x3).2 := by
  unfold busItem
  extract_lets +onlyGivenNames v0
  clear_value v0
  extract_lets +onlyGivenNames v1
  clear_value v1
  split
  · dsimp -zeta only
    extract_lets +onlyGivenNames v2
    have h3 : Keeps a v2 := keeps_furRewind h
    clear_value v2
    exact keeps_update h3
  · split
    · rename_i x4 x5 x6 x7 e8
      have h9 := keeps_snd e8 (keeps_announce h)
      dsimp -zeta only
      exact keeps_ite (keeps_furPush h9) h9

theorem keeps_takeBusItem {a s : State} {x1} (h : Keeps a s) : Keeps a (takeBusItem s x1).2 := by
  unfold takeBusItem
  split
  · extract_lets +onlyGivenNames v0
    clear_value v0
    split
    · dsimp -zeta only
      exact keeps_putFur h
    · exact h
  · exact h

theorem keeps_pipelineItem {a s : State} {x1} {x2} (h : Keeps a s) : Keeps a (pipelineItem s x1 x2) := by
  unfold pipelineItem
  extract_lets +onlyGivenNames v0
  clear_value v0
  extract_lets +onlyGivenNames v1
  clear_value v1
  split
  · exact h
  · refine keeps_ite ?_ ?_
    · exact h
    · extract_lets +onlyGivenNames v2
      have h3 : Keeps a v2 := keeps_handled (keeps_update h)
      clear_value v2
      split
      · rename_i x4 x5 x6 x7 x8 x9 x10 e11
        have h12 := keeps_snd e11 (keeps_takeBusItem h3)
        extract_lets +onlyGivenNames v13
        clear_value v13
        split
        · extract_lets +onlyGivenNames v14
          have h15 : Keeps a v14 := keeps_ite (keeps_addSat h12) h12
          clear_value v14
          extract_lets +onlyGivenNames v16
          clear_value v16
          extract_lets +onlyGivenNames v17
          have h18 : Keeps a v17 := keeps_ite (keeps_addSat h15) h15
          clear_value v17
          extract_lets +onlyGivenNames v19
          have h20 : Keeps a v19 := by
            unfold v19
            refine keeps_forEach ?_ fun s25 x27 h26 => ?_
            · exact h18
            · split
              · rename_i x28 x29 x30 x31 x32 x33 x34 x35 x36 e37
                have h38 := keeps_thd e37 (keeps_judgeItem h26)
                extract_lets +onlyGivenNames v39
                have h40 : Keeps a v39 := by
                  unfold v39
                  split
                  · exact keeps_issueLearn h38
                  · exact h38
                clear_value v39
                split
                · exact keeps_update h40
                · exact h40
          clear_value v19
          extract_lets +onlyGivenNames v41
          have h42 : Keeps a v41 := keeps_ite (keeps_raisePlain h20) h20
          clear_value v41
          split
          · exact keeps_freeIfDone (keeps_putFrame h42)
          · exact h42

/-! ## Machine/Outputs.lean -/

theorem keeps_flushOutput {a s : State} {x1} (h : Keeps a s) : Keeps a (flushOutput s x1) := by
  unfold flushOutput
  exact keeps_discardCopies h

theorem keeps_outputDown {a s : State} {x1} (h : Keeps a s) : Keeps a (outputDown s x1) := by
  unfold outputDown
  refine keeps_ite ?_ ?_
  · exact keeps_ite (keeps_hintWake h) h
  · extract_lets +onlyGivenNames v0
    have h1 : Keeps a v0 := keeps_downFlush (keeps_update h)
    clear_value v0
    refine keeps_ite ?_ ?_
    · exact keeps_flushOutput (keeps_setFld h1)
    · extract_lets +onlyGivenNames v2
      have h3 : Keeps a v2 := keeps_setFld h1
      clear_value v2
      extract_lets +onlyGivenNames v4
      clear_value v4
      extract_lets +onlyGivenNames v5
      have h6 : Keeps a v5 := keeps_forEach h3 fun s7 _ h8 => keeps_heldMove h8
      clear_value v5
      exact keeps_ite h6 (keeps_hintWake h6)

theorem keeps_outputUp {a s : State} {x1} (h : Keeps a s) : Keeps a (outputUp s x1) := by
  unfold outputUp
  refine keeps_ite ?_ ?_
  · exact h
  · extract_lets +onlyGivenNames v0
    have h1 : Keeps a v0 := keeps_setFld (keeps_update h)
    clear_value v0
    exact keeps_ageHeads h1

theorem keeps_refreshOutput {a s : State} {x1} (h : Keeps a s) : Keeps a (refreshOutput s x1) := by
  unfold refreshOutput
  exact keeps_ite h (keeps_ite (keeps_outputDown h) (keeps_outputUp h))

theorem keeps_refreshAll {a s : State} (h : Keeps a s) : Keeps a (refreshAll s) := by
  unfold refreshAll
  exact keeps_forEach h fun s0 _ h1 => keeps_refreshOutput h1

theorem keeps_holdOver {a s : State} {x1} (h : Keeps a s) : Keeps a (holdOver s x1) := by
  unfold holdOver
  exact keeps_ite (keeps_flushOutput (keeps_setFld h)) h

theorem keeps_noteStuck {a s : State} {x1} (h : Keeps a s) : Keeps a (noteStuck s x1) := by
  unfold noteStuck
  refine keeps_ite ?_ ?_
  · split
    · exact keeps_ite (keeps_refreshOutput (keeps_clrBit h)) h
    · exact keeps_update h
  · extract_lets +onlyGivenNames v0
    have h1 : Keeps a v0 := keeps_update h
    clear_value v0
    exact keeps_ite (keeps_refreshOutput (keeps_clrBit h1)) h1

theorem keeps_stuckOver {a s : State} {x1} (h : Keeps a s) : Keeps a (stuckOver s x1) := by
  unfold stuckOver
  split
  · exact keeps_ite (keeps_refreshOutput (keeps_setBit h)) h
  · exact h

theorem keeps_nextNumber {a s : State} {x1} {x2} (h : Keeps a s) : Keeps a (nextNumber s x1 x2).2.2 := by
  unfold nextNumber
  split
  · dsimp -zeta only
    exact keeps_update h
  · dsimp -zeta only
    exact keeps_update h

theorem keeps_numberCopies {a s : State} {x1} (h : Keeps a s) : Keeps a (numberCopies s x1).2 := by
  unfold numberCopies
  refine keeps_foldl_snd ?_ fun s0 x2 h1 => ?_
  · exact h
  · split
    · split
      · rename_i x3 x4 x5 x6 x7 e8
        have h9 := keeps_thd e8 (keeps_nextNumber h1)
        exact h9
    · exact h1

theorem keeps_placeCopies {a s : State} {x1} {x2} {x3} (h : Keeps a s) : Keeps a (placeCopies s x1 x2 x3) := by
  unfold placeCopies
  split
  · exact keeps_update h
  · split
    · exact keeps_reseqArrive h
    · exact keeps_forEach h fun s0 _ h1 => keeps_offerCopy h1

theorem keeps_afterPlacing {a s : State} {x1} {x2} (h : Keeps a s) : Keeps a (afterPlacing s x1 x2) := by
  unfold afterPlacing
  extract_lets +onlyGivenNames v0
  have h1 : Keeps a v0 := keeps_forEach h fun s2 _ h3 => keeps_noteStuck h3
  clear_value v0
  exact keeps_heldMove (keeps_freeIfDone h1)

theorem keeps_placeVerdict {a s t : State} {y} {x1} {x2} (e : placeVerdict s x1 x2 = some (y, t)) (h : Keeps a s) :
    Keeps a t :=
  keeps_placeItem e h

theorem keeps_admitItem {a s : State} {x1} (h : Keeps a s) : Keeps a (admitItem s x1) := by
  unfold admitItem
  refine keeps_ite ?_ ?_
  · extract_lets +onlyGivenNames s1
    have h1 : Keeps a s1 := keeps_incSat h
    clear_value s1
    split
    · exact keeps_freeIfDone h1
    · exact h1
  · extract_lets +onlyGivenNames cs lost s1
    have h1 : Keeps a s1 := keeps_ite (keeps_addStat h) h
    clear_value s1
    refine keeps_ite ?_ (keeps_ite (keeps_exhaustItem (keeps_assertXoff (keeps_setBit h1))) ?_)
    · split
      · exact keeps_freeIfDone h1
      · exact h1
    · extract_lets +onlyGivenNames placed
      have hp : ∀ i t, placed = some (i, t) → Keeps a t := by
        unfold placed
        intro i t e
        split at e
        · cases e
          exact keeps_evalXoff (keeps_putFrame h1)
        · exact keeps_placeVerdict e h1
      clear_value placed
      split
      · exact keeps_exhaust h1
      · rename_i i s2
        have h2 := hp i s2 rfl
        extract_lets +onlyGivenNames copies
        clear_value copies
        split
        rename_i c s3 e
        exact keeps_afterPlacing (keeps_placeCopies (keeps_snd e (keeps_numberCopies h2)))

theorem keeps_holdShort {a s : State} {x1} {x2} {x3} (h : Keeps a s) : Keeps a (holdShort s x1 x2 x3) := by
  unfold holdShort
  extract_lets +onlyGivenNames v0
  have h1 : Keeps a v0 := keeps_assertXoff (keeps_setBit h)
  clear_value v0
  refine keeps_ite ?_ ?_
  · exact h1
  · split
    · rename_i x2 x3 x4 e5
      have h6 := keeps_placeVerdict e5 h1
      exact keeps_update h6
    · exact keeps_exhaustItem (keeps_update h1)

theorem keeps_admission {a s : State} {x1} (h : Keeps a s) : Keeps a (admission s x1) := by
  unfold admission
  split
  · exact h
  · exact keeps_ite h (keeps_ite (keeps_holdShort h) (keeps_handled (keeps_admitItem (keeps_update h))))

end Sys2Proof.Machine
end

