-- ==== Sys2Proof/Laws/KeepsBuses.lean ====
section
/-! SUPPORT. What Laws/Keeps.lean says, of the router and the bus interfaces. -/
namespace Sys2Proof.Machine

/-! ## Machine/Router.lean -/

theorem keeps_putSlot {a s : State} {x1} {x2} (h : Keeps a s) : Keeps a (putSlot s x1 x2) :=
  keeps_stores h (fun w => ⟨w.1, w.2.1, w.2.2.1, mapCanon_mapPut w.2.2.2.1 _ _, w.2.2.2.2⟩) rfl rfl rfl rfl rfl rfl rfl

theorem keeps_writeSlot {a s : State} {x1} {x2} {x3} (h : Keeps a s) : Keeps a (writeSlot s x1 x2 x3) := by
  unfold writeSlot
  exact keeps_ite h (keeps_putSlot h)

theorem keeps_slotParity {a s : State} {x1} {x2} (h : Keeps a s) : Keeps a (slotParity s x1 x2) := by
  unfold slotParity
  refine keeps_ite ?_ ?_
  · exact h
  · extract_lets +onlyGivenNames v0
    clear_value v0
    extract_lets +onlyGivenNames v1
    have h2 : Keeps a v1 := keeps_setFld (keeps_incSat h)
    clear_value v1
    extract_lets +onlyGivenNames v3
    clear_value v3
    extract_lets +onlyGivenNames v4
    have h5 : Keeps a v4 := keeps_putSlot h2
    clear_value v4
    split
    · rename_i x6 x7 x8 e9
      have h10 := keeps_snd e9 (keeps_classFault h5)
      extract_lets +onlyGivenNames v11
      have h12 : Keeps a v11 := keeps_putBit h10
      clear_value v11
      extract_lets +onlyGivenNames v13
      have h14 : Keeps a v13 := keeps_raiseRec h12
      clear_value v13
      refine keeps_ite ?_ ?_
      · extract_lets +onlyGivenNames v15
        clear_value v15
        exact keeps_ite (keeps_retire (keeps_setFld h14)) (keeps_noSpare (keeps_update h14))
      · exact h14

theorem keeps_slotFaults {a s : State} {x1} (h : Keeps a s) : Keeps a (slotFaults s x1) := by
  unfold slotFaults
  exact keeps_forEach h fun s0 _ h1 => keeps_slotParity h1

theorem keeps_layoutErr {a s : State} (h : Keeps a s) : Keeps a (layoutErr s) := by
  unfold layoutErr
  exact keeps_setBit (keeps_incSat h)

theorem keeps_quarSkip {a s : State} {x1} {x2} {x3} (h : Keeps a s) : Keeps a (quarSkip s x1 x2 x3) := by
  unfold quarSkip
  exact keeps_noteBad (keeps_incSat h)

theorem keeps_putTx {a s : State} {x1} {x2} (h : Keeps a s) : Keeps a (putTx s x1 x2) := by
  unfold putTx
  exact keeps_update h

theorem keeps_makePending {a s : State} {x1} {x2} (h : Keeps a s) : Keeps a (makePending s x1 x2) := by
  unfold makePending
  extract_lets +onlyGivenNames v0
  clear_value v0
  extract_lets +onlyGivenNames v1
  have h2 : Keeps a v1 := keeps_putTx h
  clear_value v1
  extract_lets +onlyGivenNames v3
  have h4 : Keeps a v3 := keeps_update h2
  clear_value v3
  exact keeps_ite (keeps_incSat h4) h4

theorem keeps_sendNow {a s : State} {x1} {x2} {x3} (h : Keeps a s) : Keeps a (sendNow s x1 x2 x3) := by
  unfold sendNow
  refine keeps_ite ?_ ?_
  · extract_lets +onlyGivenNames v0
    clear_value v0
    extract_lets +onlyGivenNames v1
    have h2 : Keeps a v1 := keeps_putTx h
    clear_value v1
    extract_lets +onlyGivenNames v3
    clear_value v3
    split
    · refine keeps_ite ?_ ?_
      · exact h2
      · extract_lets +onlyGivenNames v4
        clear_value v4
        exact keeps_ite (keeps_incSat h2) (keeps_ite (keeps_incSat (keeps_putTx h2)) (keeps_makePending h2))
    · exact h2
  · exact keeps_makePending h

theorem keeps_sendRequest {a s : State} {x1} {x2} {x3} (h : Keeps a s) : Keeps a (sendRequest s x1 x2 x3) := by
  unfold sendRequest
  split
  · exact h
  · refine keeps_ite ?_ ?_
    · exact h
    · extract_lets +onlyGivenNames v0
      clear_value v0
      exact keeps_ite (keeps_incSat h) (keeps_ite (keeps_incSat (keeps_putTx h)) (keeps_sendNow h))

theorem keeps_trigger {a s : State} {x1} {x2} (h : Keeps a s) : Keeps a (trigger s x1 x2) := by
  unfold trigger
  split
  · exact h
  · split
    · exact h
    · exact keeps_ite (keeps_sendRequest h) h
    · exact keeps_sendRequest h

theorem keeps_mbSend {a s : State} (h : Keeps a s) : Keeps a (mbSend s) := by
  unfold mbSend
  exact keeps_sendRequest h

theorem keeps_mirrorOut {a s : State} {x1} (h : Keeps a s) : Keeps a (mirrorOut s x1) := by
  unfold mirrorOut
  refine keeps_ite ?_ ?_
  · extract_lets +onlyGivenNames v0
    clear_value v0
    exact keeps_offerService h
  · exact h

theorem keeps_fireTriggers {a s : State} {x1} {x2} {x3} (h : Keeps a s) : Keeps a (fireTriggers s x1 x2 x3) := by
  unfold fireTriggers
  refine keeps_forEach ?_ fun s2 x4 h3 => ?_
  · exact h
  · extract_lets +onlyGivenNames v5
    clear_value v5
    refine keeps_ite ?_ ?_
    · exact keeps_layoutErr h3
    · refine keeps_ite ?_ ?_
      · exact keeps_quarSkip h3
      · split
        · exact keeps_trigger h3
        · exact h3

theorem keeps_writeSignal {a s : State} {x1} {x2} {x3} {x4} {x5} (h : Keeps a s) :
    Keeps a (writeSignal s x1 x2 x3 x4 x5) := by
  unfold writeSignal
  extract_lets +onlyGivenNames v0
  clear_value v0
  refine keeps_ite ?_ ?_
  · exact h
  · extract_lets +onlyGivenNames v1
    clear_value v1
    extract_lets +onlyGivenNames v2
    have h3 : Keeps a v2 := by
      unfold v2
      refine keeps_forEach ?_ fun s8 x10 h9 => ?_
      · exact h
      · split
        · exact keeps_writeSlot h9
    clear_value v2
    extract_lets +onlyGivenNames v11
    have h12 : Keeps a v11 := by
      unfold v11
      refine keeps_ite ?_ ?_
      · refine keeps_forEach ?_ fun s19 x21 h20 => ?_
        · exact h3
        · split
          · exact keeps_mirrorOut h20
      · exact h3
    clear_value v11
    exact keeps_fireTriggers h12

theorem keeps_unpackEntry {a s : State} {x1} {x2} {x3} (h : Keeps a s) : Keeps a (unpackEntry s x1 x2 x3) := by
  unfold unpackEntry
  refine keeps_ite ?_ ?_
  · exact keeps_layoutErr h
  · refine keeps_ite ?_ ?_
    · exact keeps_quarSkip h
    · split
      · exact h
      · extract_lets +onlyGivenNames v0
        clear_value v0
        extract_lets +onlyGivenNames v1
        clear_value v1
        extract_lets +onlyGivenNames v2
        clear_value v2
        extract_lets +onlyGivenNames v3
        clear_value v3
        refine keeps_ite ?_ ?_
        · exact keeps_layoutErr h
        · extract_lets +onlyGivenNames v4
          clear_value v4
          extract_lets +onlyGivenNames v5
          clear_value v5
          split
          · exact keeps_layoutErr h
          · extract_lets +onlyGivenNames v6
            clear_value v6
            refine keeps_ite ?_ ?_
            · exact keeps_incSat h
            · refine keeps_ite ?_ ?_
              · exact keeps_incSat h
              · split
                · exact keeps_quarSkip h
                · exact keeps_writeSignal h
                · exact h

theorem keeps_putRx {a s : State} {x1} {x2} (h : Keeps a s) : Keeps a (putRx s x1 x2) := by
  unfold putRx
  exact keeps_update h

theorem keeps_rxArm {a s : State} {x1} (h : Keeps a s) : Keeps a (rxArm s x1) := by
  unfold rxArm
  split
  · exact keeps_putRx h
  · exact h

theorem keeps_txForget {a s : State} {x1} (h : Keeps a s) : Keeps a (txForget s x1) := by
  unfold txForget
  extract_lets +onlyGivenNames v0
  have h1 : Keeps a v0 := keeps_update h
  clear_value v0
  exact keeps_putTx h1

theorem keeps_rxStateParity {a s : State} {x1} (h : Keeps a s) : Keeps a (rxStateParity s x1) := by
  unfold rxStateParity
  exact keeps_rxArm (keeps_putRx h)

theorem keeps_txStateParity {a s : State} {x1} (h : Keeps a s) : Keeps a (txStateParity s x1) := by
  unfold txStateParity
  exact keeps_putTx (keeps_txForget h)

theorem keeps_stateParity {a s : State} {x1} {x2} (h : Keeps a s) : Keeps a (stateParity s x1 x2) := by
  unfold stateParity
  exact keeps_incSat (keeps_ite (keeps_rxStateParity h) (keeps_txStateParity h))

theorem keeps_stateFaults {a s : State} {x1} (h : Keeps a s) : Keeps a (stateFaults s x1) := by
  unfold stateFaults
  exact keeps_forEach h fun s0 _ h1 => keeps_stateParity h1

theorem keeps_e2eRecord {a s : State} {x1} {x2} {x3} (h : Keeps a s) : Keeps a (e2eRecord s x1 x2 x3) := by
  unfold e2eRecord
  split
  · exact h
  · extract_lets +onlyGivenNames v0
    clear_value v0
    extract_lets +onlyGivenNames v1
    clear_value v1
    extract_lets +onlyGivenNames v2
    have h3 : Keeps a v2 := keeps_putRx h
    clear_value v2
    extract_lets +onlyGivenNames v4
    have h5 : Keeps a v4 := keeps_ite (keeps_incSat h3) (keeps_ite (keeps_incSat h3) (keeps_ite (keeps_incSat h3) h3))
    clear_value v4
    exact keeps_ite (keeps_setBit h5) h5

theorem keeps_takeLayout {a s : State} {x1} {x2} {x3} (h : Keeps a s) : Keeps a (takeLayout s x1 x2 x3).2 := by
  unfold takeLayout
  split
  · dsimp -zeta only
    exact keeps_layoutErr h
  · split
    · dsimp -zeta only
      exact keeps_quarSkip h
    · extract_lets +onlyGivenNames v0
      clear_value v0
      extract_lets +onlyGivenNames v1
      have h2 : Keeps a v1 := keeps_putRx h
      clear_value v1
      dsimp -zeta only
      exact keeps_ite (keeps_e2eRecord h2) h2

theorem keeps_unpackPdu {a s : State} {x1} {x2} {x3} (h : Keeps a s) : Keeps a (unpackPdu s x1 x2 x3) := by
  unfold unpackPdu
  split
  · rename_i x0 x1 x2 e3
    have h4 := keeps_snd e3 (keeps_takeLayout h)
    exact keeps_forEach h4 fun s5 _ h6 => keeps_unpackEntry h6
  · rename_i x7 x8 e9
    have h10 := keeps_snd e9 (keeps_takeLayout h)
    exact h10

theorem keeps_splitFrom {a s : State} {x0} {x2} {x3} {x4} {x5} (h : Keeps a s) :
    Keeps a (splitFrom x0 s x2 x3 x4 x5) := by
  induction x0 generalizing s x2 x3 x4 x5 with
  | zero =>
    unfold splitFrom
    exact h
  | succ n ih =>
    unfold splitFrom
    extract_lets +onlyGivenNames v0
    clear_value v0
    refine keeps_ite ?_ ?_
    · exact h
    · extract_lets +onlyGivenNames v1
      clear_value v1
      extract_lets +onlyGivenNames v2
      clear_value v2
      refine keeps_ite ?_ ?_
      · exact h
      · refine keeps_ite ?_ ?_
        · exact keeps_raisePlain h
        · extract_lets +onlyGivenNames v3
          have h4 : Keeps a v3 := by
            unfold v3
            split
            · exact keeps_unpackPdu h
            · exact keeps_quarSkip h
            · exact h
          clear_value v3
          exact ih h4

theorem keeps_splitContainer {a s : State} {x1} {x2} {x3} (h : Keeps a s) : Keeps a (splitContainer s x1 x2 x3) := by
  unfold splitContainer
  split
  · rename_i x0 x1 x2 e3
    have h4 := keeps_snd e3 (keeps_takeLayout h)
    exact keeps_ite (keeps_layoutErr h4) (keeps_splitFrom h4)
  · rename_i x5 x6 e7
    have h8 := keeps_snd e7 (keeps_takeLayout h)
    exact h8

theorem keeps_mbUnpack {a s : State} {x1} {x2} (h : Keeps a s) : Keeps a (mbUnpack s x1 x2) := by
  unfold mbUnpack
  extract_lets +onlyGivenNames v0
  clear_value v0
  split
  · exact h
  · refine keeps_ite ?_ ?_
    · exact h
    · extract_lets +onlyGivenNames v1
      have h2 : Keeps a v1 := keeps_furSettle (keeps_handled (keeps_putFur (keeps_update h)))
      clear_value v1
      extract_lets +onlyGivenNames v3
      have h4 : Keeps a v3 := keeps_stateFaults h2
      clear_value v3
      refine keeps_ite ?_ ?_
      · exact keeps_setBit (keeps_incSat h4)
      · extract_lets +onlyGivenNames v5
        have h6 : Keeps a v5 := keeps_slotFaults h4
        clear_value v5
        split
        · extract_lets +onlyGivenNames v7
          have h8 : Keeps a v7 := keeps_ite (keeps_addStat h6) h6
          clear_value v7
          exact keeps_ite (keeps_splitContainer h8) (keeps_unpackPdu h8)

theorem keeps_packLayout {a s : State} {x1} {x2} (h : Keeps a s) : Keeps a (packLayout s x1 x2).2.2 := by
  unfold packLayout
  extract_lets +onlyGivenNames v0
  clear_value v0
  extract_lets +onlyGivenNames v1
  clear_value v1
  extract_lets +onlyGivenNames v2
  have h3 : Keeps a v2 := keeps_forEach h fun s4 _ h5 => keeps_layoutErr h5
  clear_value v2
  split
  · dsimp -zeta only
    exact keeps_quarSkip h3
  · dsimp -zeta only
    exact keeps_update h3

theorem keeps_txSent {a s : State} {x1} {x2} (h : Keeps a s) : Keeps a (txSent s x1 x2) := by
  unfold txSent
  extract_lets +onlyGivenNames v0
  clear_value v0
  extract_lets +onlyGivenNames v1
  clear_value v1
  exact keeps_putTx (keeps_update h)

theorem keeps_memberSent {a s : State} {x1} {x2} (h : Keeps a s) : Keeps a (memberSent s x1 x2) := by
  unfold memberSent
  extract_lets +onlyGivenNames v0
  clear_value v0
  exact keeps_ite (keeps_putTx h) (keeps_txSent h)

theorem keeps_packMember {a s : State} {x1} {x2} {x3} {x4} {x5} (h : Keeps a s) :
    Keeps a (packMember s x1 x2 x3 x4 x5).2 := by
  unfold packMember
  split
  · exact h
  · split
    · rename_i x0 x1 x2 x3 x4 e5
      have h6 := keeps_thd e5 (keeps_packLayout h)
      dsimp -zeta only
      exact keeps_memberSent h6
    · rename_i x7 x8 x9 x10 e11
      have h12 := keeps_thd e11 (keeps_packLayout h)
      exact h12

theorem keeps_packMembers {a s : State} {x1} {x2} {x3} (h : Keeps a s) : Keeps a (packMembers s x1 x2 x3).2 := by
  unfold packMembers
  extract_lets +onlyGivenNames v0
  clear_value v0
  refine keeps_foldl_snd ?_ fun s1 x3 h2 => ?_
  · exact h
  · extract_lets +onlyGivenNames v4
    have h5 : Keeps a v4 := h2
    clear_value v4
    split
    · dsimp -zeta only
      exact keeps_layoutErr h5
    · split
      · dsimp -zeta only
        exact keeps_layoutErr h5
      · split
        · dsimp -zeta only
          exact keeps_quarSkip h5
        · split
          · exact keeps_packMember h5
          · exact h2

theorem keeps_packBytes {a s : State} {x1} {x2} {x3} (h : Keeps a s) : Keeps a (packBytes s x1 x2 x3).2.2 := by
  unfold packBytes
  split
  · split
    · rename_i x0 x1 x2 x3 e4
      have h5 := keeps_snd e4 (keeps_packMembers h)
      split
      · exact h5
      · exact h5
  · exact keeps_packLayout h

theorem keeps_txCopies {a s : State} {x1} (h : Keeps a s) : Keeps a (txCopies s x1).2 := by
  unfold txCopies
  extract_lets +onlyGivenNames v0
  clear_value v0
  extract_lets +onlyGivenNames v1
  clear_value v1
  extract_lets +onlyGivenNames v2
  clear_value v2
  extract_lets +onlyGivenNames v3
  clear_value v3
  split
  · rename_i x4 x5 x6 x7 e8
    have h9 : Keeps a x7 := by
      refine keeps_thd e8 ?_
      split
      · split
        · exact h
        · dsimp -zeta only
          exact keeps_ite (keeps_incSat h) h
      · split
        · exact h
        · dsimp -zeta only
          exact keeps_layoutErr h
    extract_lets +onlyGivenNames v10
    clear_value v10
    extract_lets +onlyGivenNames v11
    have h12 : Keeps a v11 := keeps_ite (keeps_layoutErr h9) h9
    clear_value v11
    refine keeps_foldl_snd ?_ fun s13 x15 h14 => ?_
    · exact h12
    · split
      · exact h14
      · dsimp -zeta only
        exact keeps_layoutErr h14

theorem keeps_mbPack {a s : State} {x1} {x2} (h : Keeps a s) : Keeps a (mbPack s x1 x2) := by
  unfold mbPack
  refine keeps_ite ?_ ?_
  · exact h
  · extract_lets +onlyGivenNames v0
    have h1 : Keeps a v0 := keeps_stateFaults h
    clear_value v0
    split
    · exact h1
    · extract_lets +onlyGivenNames v2
      have h3 : Keeps a v2 := keeps_handled (keeps_update h1)
      clear_value v2
      split
      · exact keeps_putTx h3
      · refine keeps_ite ?_ ?_
        · exact keeps_quarSkip (keeps_putTx h3)
        · extract_lets +onlyGivenNames v4
          clear_value v4
          extract_lets +onlyGivenNames v5
          have h6 : Keeps a v5 := keeps_slotFaults h3
          clear_value v5
          split
          · rename_i x7 x8 x9 x10 x11 x12 x13 x14 x15 e16
            have h17 := keeps_thd e16 (keeps_packBytes h6)
            exact keeps_putTx h17
          · rename_i x18 x19 x20 x21 x22 x23 x24 x25 x26 x27 e28
            have h29 := keeps_thd e28 (keeps_packBytes h6)
            extract_lets +onlyGivenNames v30
            have h31 : Keeps a v30 := keeps_addStat (keeps_txSent h29)
            clear_value v30
            split
            · rename_i x32 x33 x34 e35
              have h36 := keeps_snd e35 (keeps_txCopies h31)
              exact keeps_ite h36 (keeps_admitItem h36)

theorem keeps_pullLayout {a s : State} {x1} {x2} {x3} (h : Keeps a s) : Keeps a (pullLayout s x1 x2 x3).2 := by
  unfold pullLayout
  split
  · exact h
  · extract_lets +onlyGivenNames v0
    have h1 : Keeps a v0 := keeps_stateFaults h
    clear_value v0
    split
    · exact h1
    · split
      · dsimp -zeta only
        exact keeps_quarSkip h1
      · split
        · dsimp -zeta only
          exact keeps_layoutErr h1
        · extract_lets +onlyGivenNames v2
          clear_value v2
          extract_lets +onlyGivenNames v3
          have h4 : Keeps a v3 := keeps_slotFaults h1
          clear_value v3
          split
          · rename_i x5 x6 x7 x8 x9 x10 x11 x12 x13 e14
            have h15 := keeps_thd e14 (keeps_packLayout h4)
            exact h15
          · rename_i x16 x17 x18 x19 x20 x21 x22 x23 x24 x25 e26
            have h27 := keeps_thd e26 (keeps_packLayout h4)
            split
            · exact h27
            · dsimp -zeta only
              exact keeps_addStat (keeps_txSent h27)

theorem keeps_substitute {a s : State} {x1} {x2} (h : Keeps a s) : Keeps a (substitute s x1 x2) := by
  unfold substitute
  refine keeps_ite ?_ ?_
  · exact keeps_layoutErr h
  · refine keeps_ite ?_ ?_
    · exact keeps_quarSkip h
    · split
      · exact h
      · extract_lets +onlyGivenNames v0
        clear_value v0
        extract_lets +onlyGivenNames v1
        clear_value v1
        refine keeps_ite ?_ ?_
        · exact keeps_layoutErr h
        · extract_lets +onlyGivenNames v2
          clear_value v2
          extract_lets +onlyGivenNames v3
          clear_value v3
          split
          · exact keeps_writeSignal h
          · exact keeps_writeSignal h
          · exact h

theorem keeps_deadlineTimeout {a s : State} {x1} {x2} (h : Keeps a s) : Keeps a (deadlineTimeout s x1 x2) := by
  unfold deadlineTimeout
  refine keeps_ite ?_ ?_
  · exact keeps_noteBad h
  · refine keeps_ite ?_ ?_
    · split
      · extract_lets +onlyGivenNames v0
        have h1 : Keeps a v0 := keeps_ite h (keeps_forEach h fun s2 _ h3 => keeps_substitute h3)
        clear_value v0
        extract_lets +onlyGivenNames v4
        clear_value v4
        extract_lets +onlyGivenNames v5
        have h6 : Keeps a v5 := keeps_putRx h1
        clear_value v5
        exact keeps_setBit (keeps_incSat h6)
      · exact h
    · exact h

theorem keeps_deferralEnd {a s : State} {x1} (h : Keeps a s) : Keeps a (deferralEnd s x1) := by
  unfold deferralEnd
  extract_lets +onlyGivenNames v0
  clear_value v0
  refine keeps_ite ?_ ?_
  · split
    · exact keeps_sendNow (keeps_putTx h)
    · exact keeps_putTx h
  · exact h

theorem keeps_repetitionDue {a s : State} {x1} (h : Keeps a s) : Keeps a (repetitionDue s x1) := by
  unfold repetitionDue
  extract_lets +onlyGivenNames v0
  clear_value v0
  refine keeps_ite ?_ ?_
  · split
    · exact keeps_sendRequest (keeps_putTx h)
    · exact keeps_putTx h
  · exact h

theorem keeps_periodicSend {a s : State} {x1} (h : Keeps a s) : Keeps a (periodicSend s x1) := by
  unfold periodicSend
  exact keeps_ite (keeps_sendRequest (keeps_putTx h)) h

theorem keeps_drillWork {a s : State} {x1} (h : Keeps a s) : Keeps a (drillWork s x1) := by
  unfold drillWork
  extract_lets +onlyGivenNames v0
  clear_value v0
  extract_lets +onlyGivenNames v1
  have h2 : Keeps a v1 := keeps_forEach h fun s3 _ h4 => keeps_deadlineTimeout h4
  clear_value v1
  extract_lets +onlyGivenNames v5
  clear_value v5
  extract_lets +onlyGivenNames v6
  have h7 : Keeps a v6 := keeps_forEach h2 fun s8 _ h9 => keeps_deferralEnd h9
  clear_value v6
  extract_lets +onlyGivenNames v10
  have h11 : Keeps a v10 := keeps_forEach h7 fun s12 _ h13 => keeps_repetitionDue h13
  clear_value v10
  extract_lets +onlyGivenNames v14
  have h15 : Keeps a v14 := keeps_forEach h11 fun s16 _ h17 => keeps_periodicSend h17
  clear_value v14
  extract_lets +onlyGivenNames v18
  clear_value v18
  exact keeps_ite (keeps_setFld h15) h15

theorem keeps_drillTick {a s : State} {x1} {x2} (h : Keeps a s) : Keeps a (drillTick s x1 x2) := by
  unfold drillTick
  extract_lets +onlyGivenNames v0
  clear_value v0
  extract_lets +onlyGivenNames v1
  clear_value v1
  extract_lets +onlyGivenNames v2
  have h3 : Keeps a v2 := keeps_handled (keeps_advance (keeps_update h))
  clear_value v2
  extract_lets +onlyGivenNames v4
  have h5 : Keeps a v4 := keeps_ite (keeps_mirrorOut h3) h3
  clear_value v4
  exact keeps_ite (keeps_drillWork (keeps_slotFaults (keeps_stateFaults h5))) h5

theorem keeps_rxChanged {a s : State} {x1} (h : Keeps a s) : Keeps a (rxChanged s x1) := by
  unfold rxChanged
  exact keeps_rxArm (keeps_putRx h)

theorem keeps_rxTurned {a s : State} {x1} {x2} (h : Keeps a s) : Keeps a (rxTurned s x1 x2) := by
  unfold rxTurned
  exact keeps_rxArm (keeps_ite h (keeps_putRx h))

theorem keeps_txWritten {a s : State} {x1} {x2} {x3} (h : Keeps a s) : Keeps a (txWritten s x1 x2 x3) := by
  unfold txWritten
  exact keeps_ite h (keeps_putTx h)

theorem keeps_mbRestart {a s : State} (h : Keeps a s) : Keeps a (mbRestart s) := by
  unfold mbRestart
  extract_lets +onlyGivenNames v0
  have h1 : Keeps a v0 := keeps_forEach h fun s2 _ h3 => keeps_txForget h3
  clear_value v0
  exact keeps_forEach (keeps_update h1) fun s4 _ h5 => keeps_rxArm h5

theorem keeps_ssRefuse {a s : State} {x1} (h : Keeps a s) : Keeps a (ssRefuse s x1) := by
  unfold ssRefuse
  exact keeps_setBit (keeps_setFld h)

theorem keeps_ssAccept {a s : State} (h : Keeps a s) : Keeps a (ssAccept s) := by
  unfold ssAccept
  exact keeps_clrBit (keeps_setFld h)

theorem keeps_ssReadNow {a s : State} {x1} (h : Keeps a s) : Keeps a (ssReadNow s x1) := by
  unfold ssReadNow
  refine keeps_ite ?_ ?_
  · exact keeps_ssRefuse h
  · extract_lets +onlyGivenNames v0
    have h1 : Keeps a v0 := keeps_slotFaults (keeps_ssAccept h)
    clear_value v0
    exact keeps_cmdStart h1

theorem keeps_ssWriteNow {a s : State} {x1} (h : Keeps a s) : Keeps a (ssWriteNow s x1) := by
  unfold ssWriteNow
  refine keeps_ite ?_ ?_
  · exact keeps_ite (keeps_lockViolation (keeps_ssRefuse h)) (keeps_ssRefuse h)
  · refine keeps_ite ?_ ?_
    · exact keeps_lockViolation (keeps_ssRefuse h)
    · extract_lets +onlyGivenNames v0
      clear_value v0
      extract_lets +onlyGivenNames v1
      have h2 : Keeps a v1 := keeps_forEach (keeps_ssAccept h) fun s3 _ h4 => keeps_writeSlot h4
      clear_value v1
      exact keeps_cmdStart h2

theorem keeps_ssPort {a s : State} {f : State → State} (h : Keeps a s) (k : ∀ s, Keeps a s → Keeps a (f s)) :
    Keeps a (ssPort s f) := by
  unfold ssPort
  exact keeps_ite (keeps_ssRefuse (keeps_cmdSettle h)) (k _ (keeps_cmdSettle h))

theorem keeps_ssRead {a s : State} {x1} (h : Keeps a s) : Keeps a (ssRead s x1) := by
  unfold ssRead
  exact keeps_ssPort h fun s0 h1 => keeps_ssReadNow h1

theorem keeps_ssWrite {a s : State} {x1} (h : Keeps a s) : Keeps a (ssWrite s x1) := by
  unfold ssWrite
  exact keeps_ssPort h fun s0 h1 => keeps_ssWriteNow h1

/-! ## Machine/Wake.lean -/

theorem keeps_putCl {a s : State} {x1} {x2} (h : Keeps a s) : Keeps a (putCl s x1 x2) := by
  unfold putCl
  exact keeps_update h

theorem keeps_putLin {a s : State} {x1} {x2} (h : Keeps a s) : Keeps a (putLin s x1 x2) := by
  unfold putLin
  exact keeps_update h

theorem keeps_linEdge {a s : State} {x1} {x2} (h : Keeps a s) : Keeps a (linEdge s x1 x2) := by
  unfold linEdge
  exact keeps_putLin h

theorem keeps_putCan {a s : State} {x1} {x2} (h : Keeps a s) : Keeps a (putCan s x1 x2) := by
  unfold putCan
  exact keeps_update h

theorem keeps_canLeave {a s : State} {x1} (h : Keeps a s) : Keeps a (canLeave s x1) := by
  unfold canLeave
  exact keeps_ite (keeps_putCan h) h

theorem keeps_fwStart {a s : State} {x1} (h : Keeps a s) : Keeps a (fwStart s x1) := by
  unfold fwStart
  exact keeps_ite (keeps_setBit (keeps_update h)) h

theorem keeps_refreshTrx {a s : State} {x1} (h : Keeps a s) : Keeps a (refreshTrx s x1) := by
  unfold refreshTrx
  split
  · extract_lets +onlyGivenNames v0
    have h1 : Keeps a v0 := keeps_ite (keeps_linEdge h) h
    clear_value v0
    extract_lets +onlyGivenNames v2
    have h3 : Keeps a v2 := keeps_send (keeps_update h1)
    clear_value v2
    extract_lets +onlyGivenNames v4
    have h5 : Keeps a v4 := keeps_ite h (keeps_ite (keeps_ite (keeps_canLeave h3) (keeps_fwStart h3)) h3)
    clear_value v4
    exact keeps_ite (keeps_ite h5 (keeps_update h5)) (keeps_update h5)

theorem keeps_refreshMembers {a s : State} {x1} (h : Keeps a s) : Keeps a (refreshMembers s x1) := by
  unfold refreshMembers
  exact keeps_forEach h fun s0 _ h1 => keeps_refreshTrx (keeps_refreshOutput h1)

theorem keeps_policersFull {a s : State} {x1} (h : Keeps a s) : Keeps a (policersFull s x1) := by
  unfold policersFull
  exact keeps_forEach h fun s0 _ h1 => keeps_update h1

theorem keeps_noteFrom {a s : State} {x1} {x2} (h : Keeps a s) : Keeps a (noteFrom s x1 x2) := by
  unfold noteFrom
  exact keeps_ite (keeps_ite h (keeps_update h)) (keeps_update h)

theorem keeps_noteHeld {a s : State} (h : Keeps a s) : Keeps a (noteHeld s) := by
  unfold noteHeld
  extract_lets +onlyGivenNames v0
  have h1 : Keeps a v0 := keeps_forEach h fun s2 _ h3 => keeps_noteFrom h3
  clear_value v0
  exact keeps_noteFrom h1

theorem keeps_notePark {a s : State} (h : Keeps a s) : Keeps a (notePark s) := by
  unfold notePark
  extract_lets +onlyGivenNames v0
  clear_value v0
  exact keeps_noteHeld (keeps_ite (keeps_setFld h) h)

theorem keeps_unpark {a s : State} {x1} (h : Keeps a s) : Keeps a (unpark s x1) := by
  unfold unpark
  extract_lets +onlyGivenNames v0
  have h1 : Keeps a v0 := keeps_update h
  clear_value v0
  exact keeps_ite (keeps_notePark (keeps_policersFull (keeps_wr (keeps_clrBit h1)))) h1

theorem keeps_regionPark {a s : State} {x1} (h : Keeps a s) : Keeps a (regionPark s x1) := by
  unfold regionPark
  refine keeps_ite ?_ ?_
  · extract_lets +onlyGivenNames v0
    have h1 : Keeps a v0 := keeps_wr (keeps_update h)
    clear_value v0
    exact keeps_notePark (keeps_incSat (keeps_setBit h1))
  · exact h

theorem keeps_refreshHolding {a s : State} {x1} (h : Keeps a s) : Keeps a (refreshHolding s x1) := by
  unfold refreshHolding
  extract_lets +onlyGivenNames v0
  clear_value v0
  exact keeps_update h

theorem keeps_noteLedger {a s : State} (h : Keeps a s) : Keeps a (noteLedger s) := by
  unfold noteLedger
  exact keeps_setFld h

theorem keeps_kaUpdate {a s : State} {x1} {x2} {x3} (h : Keeps a s) : Keeps a (kaUpdate s x1 x2 x3) := by
  unfold kaUpdate
  extract_lets +onlyGivenNames v0
  clear_value v0
  split
  · extract_lets +onlyGivenNames v1
    clear_value v1
    exact keeps_update h
  · split
    · extract_lets +onlyGivenNames v2
      clear_value v2
      exact keeps_noteLedger (keeps_update h)
    · exact keeps_setBit (keeps_incSat h)

theorem keeps_kaFlag {a s : State} {x1} (h : Keeps a s) : Keeps a (kaFlag s x1) := by
  unfold kaFlag
  split
  · extract_lets +onlyGivenNames v0
    have h1 : Keeps a v0 := keeps_refreshHolding h
    clear_value v0
    split
    · refine keeps_ite ?_ ?_
      · extract_lets +onlyGivenNames v2
        have h3 : Keeps a v2 := keeps_update h1
        clear_value v2
        extract_lets +onlyGivenNames v4
        have h5 : Keeps a v4 := keeps_setBit (keeps_incSat h3)
        clear_value v4
        exact keeps_ite h5 (keeps_setBit (keeps_setFld h5))
      · exact h1
    · exact h1
  · exact h

theorem keeps_mirrorCluster {a s : State} {x1} (h : Keeps a s) : Keeps a (mirrorCluster s x1) := by
  unfold mirrorCluster
  exact keeps_mirrorOut h

theorem keeps_markLin {a s : State} {x1} {x2} (h : Keeps a s) : Keeps a (markLin s x1 x2) := by
  unfold markLin
  exact keeps_ite (keeps_forEach h fun s0 _ h1 => keeps_update h1) h

theorem keeps_setCluster {a s : State} {x1} {x2} (h : Keeps a s) : Keeps a (setCluster s x1 x2) := by
  unfold setCluster
  exact keeps_noteHeld (keeps_mirrorCluster (keeps_refreshHolding (keeps_refreshMembers (keeps_clrBit (keeps_setFld
      (keeps_markLin h))))))

theorem keeps_nmStart {a s : State} {x1} (h : Keeps a s) : Keeps a (nmStart s x1) := by
  unfold nmStart
  exact keeps_putCl h

theorem keeps_nmSend {a s : State} {x1} (h : Keeps a s) : Keeps a (nmSend s x1) := by
  unfold nmSend
  refine keeps_ite ?_ ?_
  · extract_lets +onlyGivenNames v0
    clear_value v0
    extract_lets +onlyGivenNames v1
    have h2 : Keeps a v1 := keeps_putCl h
    clear_value v1
    exact keeps_nmStart (keeps_sendRequest h2)
  · exact h

theorem keeps_enterRepeat {a s : State} {x1} (h : Keeps a s) : Keeps a (enterRepeat s x1) := by
  unfold enterRepeat
  extract_lets +onlyGivenNames v0
  clear_value v0
  extract_lets +onlyGivenNames v1
  have h2 : Keeps a v1 := keeps_putCl h
  clear_value v1
  exact keeps_nmSend (keeps_nmStart (keeps_setCluster h2))

theorem keeps_enterPrepare {a s : State} {x1} (h : Keeps a s) : Keeps a (enterPrepare s x1) := by
  unfold enterPrepare
  exact keeps_setCluster (keeps_putCl h)

theorem keeps_enterReady {a s : State} {x1} (h : Keeps a s) : Keeps a (enterReady s x1) := by
  unfold enterReady
  extract_lets +onlyGivenNames v0
  have h1 : Keeps a v0 := keeps_setCluster h
  clear_value v0
  exact keeps_ite (keeps_enterPrepare h1) h1

theorem keeps_wakeSource {a s : State} {x1} {x2} {x3} {x4} (h : Keeps a s) : Keeps a (wakeSource s x1 x2 x3 x4) := by
  unfold wakeSource
  exact keeps_wr h

theorem keeps_unparkMembers {a s : State} {x1} (h : Keeps a s) : Keeps a (unparkMembers s x1) := by
  unfold unparkMembers
  exact keeps_forEach h fun s0 _ h1 => keeps_unpark h1

theorem keeps_wakeLin {a s : State} {x1} {x2} {x3} (h : Keeps a s) : Keeps a (wakeLin s x1 x2 x3) := by
  unfold wakeLin
  exact keeps_forEach h fun s0 _ h1 => keeps_ite h1 (keeps_update h1)

theorem keeps_wakeOne {a s : State} {x1} {x2} {x3} {x4} (h : Keeps a s) : Keeps a (wakeOne s x1 x2 x3 x4).2 := by
  unfold wakeOne
  split
  · exact h
  · split
    · split
      · exact h
      · extract_lets +onlyGivenNames v0
        have h1 : Keeps a v0 := keeps_wakeSource (keeps_setBit h)
        clear_value v0
        dsimp -zeta only
        exact keeps_enterRepeat (keeps_wakeLin (keeps_unparkMembers h1))
    · split
      · extract_lets +onlyGivenNames v2
        have h3 : Keeps a v2 := keeps_incSat (keeps_setBit (keeps_wakeSource h))
        clear_value v2
        dsimp -zeta only
        exact keeps_enterRepeat h3
      · exact h

theorem keeps_wakeCluster {a s : State} {x1} {x2} {x3} {x4} (h : Keeps a s) : Keeps a (wakeCluster s x1 x2 x3 x4) := by
  unfold wakeCluster
  split
  · rename_i x0 x1 x2 e3
    have h4 := keeps_snd e3 (keeps_wakeOne h)
    exact keeps_ite (keeps_forEach h4 fun s5 _ h6 => keeps_wakeOne h6) h4

theorem keeps_serveHints {a s : State} (h : Keeps a s) : Keeps a (serveHints s) := by
  unfold serveHints
  extract_lets +onlyGivenNames v0
  clear_value v0
  refine keeps_forEach ?_ fun s3 x5 h4 => ?_
  · exact keeps_update h
  · split
    · exact keeps_ite (keeps_wakeCluster h4) h4
    · exact h4

theorem keeps_clRequest {a s : State} {x1} (h : Keeps a s) : Keeps a (clRequest s x1) := by
  unfold clRequest
  extract_lets +onlyGivenNames v0
  have h1 : Keeps a v0 := keeps_setBit h
  clear_value v0
  extract_lets +onlyGivenNames v2
  have h3 : Keeps a v2 := keeps_ite h1 (keeps_ite (keeps_setCluster h1) (keeps_wakeCluster h1))
  clear_value v2
  exact keeps_serveHints (keeps_mirrorCluster h3)

theorem keeps_clRelease {a s : State} {x1} (h : Keeps a s) : Keeps a (clRelease s x1) := by
  unfold clRelease
  extract_lets +onlyGivenNames v0
  have h1 : Keeps a v0 := keeps_clrBit h
  clear_value v0
  extract_lets +onlyGivenNames v2
  have h3 : Keeps a v2 := keeps_ite (keeps_enterReady h1) (keeps_refreshHolding h1)
  clear_value v2
  exact keeps_serveHints (keeps_mirrorCluster h3)

theorem keeps_repeatExpiry {a s : State} {x1} (h : Keeps a s) : Keeps a (repeatExpiry s x1) := by
  unfold repeatExpiry
  extract_lets +onlyGivenNames v0
  clear_value v0
  exact keeps_ite (keeps_serveHints (keeps_ite (keeps_setCluster h) (keeps_enterReady h))) h

theorem keeps_nmTimerExpiry {a s : State} {x1} (h : Keeps a s) : Keeps a (nmTimerExpiry s x1) := by
  unfold nmTimerExpiry
  exact keeps_ite (keeps_serveHints (keeps_enterPrepare h)) h

theorem keeps_nmCycle {a s : State} {x1} (h : Keeps a s) : Keeps a (nmCycle s x1) := by
  unfold nmCycle
  extract_lets +onlyGivenNames v0
  clear_value v0
  exact keeps_ite (keeps_nmSend h) h

theorem keeps_waitExpiry {a s : State} {x1} (h : Keeps a s) : Keeps a (waitExpiry s x1) := by
  unfold waitExpiry
  extract_lets +onlyGivenNames v0
  clear_value v0
  exact keeps_ite (keeps_forEach (keeps_setBit h) fun s1 _ h2 => keeps_refreshTrx h2) h

theorem keeps_sleepCommit {a s : State} {x1} (h : Keeps a s) : Keeps a (sleepCommit s x1) := by
  unfold sleepCommit
  refine keeps_ite ?_ ?_
  · extract_lets +onlyGivenNames v0
    have h1 : Keeps a v0 := keeps_update h
    clear_value v0
    exact keeps_setCluster (keeps_setBit h1)
  · exact h

theorem keeps_linReport {a s : State} {x1} (h : Keeps a s) : Keeps a (linReport s x1) := by
  unfold linReport
  split
  · extract_lets +onlyGivenNames v0
    clear_value v0
    extract_lets +onlyGivenNames v1
    have h2 : Keeps a v1 := keeps_putCl h
    clear_value v1
    exact keeps_ite (keeps_enterPrepare h2) h2
  · exact h

theorem keeps_remoteNm {a s : State} {x1} {x2} (h : Keeps a s) : Keeps a (remoteNm s x1 x2) := by
  unfold remoteNm
  split
  · refine keeps_ite ?_ ?_
    · exact h
    · extract_lets +onlyGivenNames v0
      have h1 : Keeps a v0 := keeps_kaUpdate (keeps_nmStart h)
      clear_value v0
      exact keeps_ite (keeps_wakeOne h1) (keeps_refreshHolding h1)
  · exact h

theorem keeps_validFrame {a s : State} {x1} (h : Keeps a s) : Keeps a (validFrame s x1) := by
  unfold validFrame
  extract_lets +onlyGivenNames v0
  have h1 : Keeps a v0 := keeps_clrBit h
  clear_value v0
  extract_lets +onlyGivenNames v2
  have h3 : Keeps a v2 := keeps_update h1
  clear_value v2
  exact keeps_ite (keeps_refreshTrx (keeps_clrBit h3)) h3

theorem keeps_comfailJudge {a s : State} {x1} (h : Keeps a s) : Keeps a (comfailJudge s x1) := by
  unfold comfailJudge
  exact keeps_ite h (keeps_clrBit h)

theorem keeps_comfail {a s : State} {x1} {x2} (h : Keeps a s) : Keeps a (comfail s x1 x2) := by
  unfold comfail
  split
  · exact keeps_ite (keeps_ite h (keeps_setBit (keeps_setBit (keeps_setBit h)))) (keeps_comfailJudge (keeps_clrBit h))
  · exact keeps_ite h (keeps_clrBit h)

theorem keeps_wakeReport {a s : State} {x1} {x2} (h : Keeps a s) : Keeps a (wakeReport s x1 x2) := by
  unfold wakeReport
  extract_lets +onlyGivenNames v0
  clear_value v0
  extract_lets +onlyGivenNames v1
  have h2 : Keeps a v1 := keeps_incSat (keeps_setBit h)
  clear_value v1
  split
  · extract_lets +onlyGivenNames v3
    clear_value v3
    extract_lets +onlyGivenNames v4
    have h5 : Keeps a v4 := keeps_wakeCluster h2
    clear_value v4
    exact keeps_ite (keeps_fwStart (keeps_update h5)) h5
  · exact h2

theorem keeps_fwExpiry {a s : State} {x1} (h : Keeps a s) : Keeps a (fwExpiry s x1) := by
  unfold fwExpiry
  split
  · extract_lets +onlyGivenNames v0
    clear_value v0
    refine keeps_ite ?_ ?_
    · extract_lets +onlyGivenNames v1
      have h2 : Keeps a v1 := keeps_clrBit (keeps_update h)
      clear_value v1
      extract_lets +onlyGivenNames v3
      have h4 : Keeps a v3 := keeps_incSat (keeps_setBit h2)
      clear_value v3
      extract_lets +onlyGivenNames v5
      have h6 : Keeps a v5 := keeps_incFld h4
      clear_value v5
      extract_lets +onlyGivenNames v7
      clear_value v7
      exact keeps_ite (keeps_refreshTrx (keeps_setBit (keeps_setBit h6))) h6
    · exact h
  · exact h

theorem keeps_fwHour {a s : State} (h : Keeps a s) : Keeps a (fwHour s) := by
  unfold fwHour
  exact keeps_forEach h fun s0 _ h1 => keeps_setFld h1

theorem keeps_winReport {a s : State} {x1} {x2} (h : Keeps a s) : Keeps a (winReport s x1 x2) := by
  unfold winReport
  extract_lets +onlyGivenNames v0
  have h1 : Keeps a v0 := keeps_setBit h
  clear_value v0
  exact keeps_forEach h1 fun s2 _ h3 => keeps_wakeCluster h3

theorem keeps_wakeRestart {a s : State} {x1} (h : Keeps a s) : Keeps a (wakeRestart s x1) := by
  unfold wakeRestart
  extract_lets +onlyGivenNames v0
  have h1 : Keeps a v0 := keeps_update h
  clear_value v0
  exact keeps_forEach h1 fun s2 _ h3 => keeps_comfailJudge h3

theorem keeps_clustersAtActive {a s : State} (h : Keeps a s) : Keeps a (clustersAtActive s) := by
  unfold clustersAtActive
  extract_lets +onlyGivenNames v0
  clear_value v0
  extract_lets +onlyGivenNames v1
  have h2 : Keeps a v1 := keeps_update h
  clear_value v1
  extract_lets +onlyGivenNames v3
  have h4 : Keeps a v3 := keeps_forEach h2
      fun s5 _ h6 => keeps_ite (keeps_ite (keeps_enterRepeat h6) (keeps_refreshMembers (keeps_setFld (keeps_markLin h6)))) h6
  clear_value v3
  extract_lets +onlyGivenNames v7
  have h8 : Keeps a v7 := keeps_forEach h4 fun s9 _ h10 => keeps_refreshTrx h10
  clear_value v7
  exact keeps_forEach h8 fun s11 _ h12 => keeps_ite (keeps_winReport h12) (keeps_wakeReport h12)

theorem keeps_clusterMirrored {a s : State} {x1} {x2} {x3} (h : Keeps a s) : Keeps a (clusterMirrored s x1 x2 x3) := by
  unfold clusterMirrored
  extract_lets +onlyGivenNames v0
  have h1 : Keeps a v0 := keeps_putBit h
  clear_value v0
  refine keeps_ite ?_ ?_
  · exact h1
  · extract_lets +onlyGivenNames v2
    have h3 : Keeps a v2 := keeps_ite (keeps_unparkMembers h1) h1
    clear_value v2
    split
    · exact keeps_enterRepeat h3
    · exact keeps_enterPrepare h3
    · exact keeps_setCluster h3

/-! ## Machine/Can.lean -/

theorem keeps_setCanMode {a s : State} {x1} {x2} (h : Keeps a s) : Keeps a (setCanMode s x1 x2) := by
  unfold setCanMode
  extract_lets +onlyGivenNames v0
  clear_value v0
  extract_lets +onlyGivenNames v1
  have h2 : Keeps a v1 := keeps_setFld (keeps_update h)
  clear_value v1
  exact keeps_fwStart (keeps_refreshTrx (keeps_refreshOutput h2))

theorem keeps_noteCounts {a s : State} {x1} {x2} (h : Keeps a s) : Keeps a (noteCounts s x1 x2) := by
  unfold noteCounts
  extract_lets +onlyGivenNames v0
  clear_value v0
  extract_lets +onlyGivenNames v1
  have h2 : Keeps a v1 := keeps_wr h
  clear_value v1
  extract_lets +onlyGivenNames v3
  have h4 : Keeps a v3 := keeps_setFld h2
  clear_value v3
  exact keeps_ite (keeps_setBit h4) h4

theorem keeps_setCounts {a s : State} {x1} {x2} {x3} (h : Keeps a s) : Keeps a (setCounts s x1 x2 x3) := by
  unfold setCounts
  refine keeps_ite ?_ ?_
  · extract_lets +onlyGivenNames v0
    clear_value v0
    exact keeps_noteCounts (keeps_putCan h)
  · exact h

theorem keeps_canRun {a s : State} {x1} (h : Keeps a s) : Keeps a (canRun s x1) := by
  unfold canRun
  extract_lets +onlyGivenNames v0
  clear_value v0
  extract_lets +onlyGivenNames v1
  clear_value v1
  extract_lets +onlyGivenNames v2
  clear_value v2
  extract_lets +onlyGivenNames v3
  clear_value v3
  extract_lets +onlyGivenNames v4
  clear_value v4
  extract_lets +onlyGivenNames v5
  clear_value v5
  exact keeps_fwStart (keeps_refreshOutput (keeps_canLeave (keeps_putBit h)))

theorem keeps_objStore {a s : State} {x1} {x2} {x3} {x4} {x5} (h : Keeps a s) : Keeps a (objStore s x1 x2 x3 x4 x5) := by
  unfold objStore
  extract_lets +onlyGivenNames v0
  clear_value v0
  extract_lets +onlyGivenNames v1
  have h2 : Keeps a v1 := keeps_wr (keeps_wr h)
  clear_value v1
  exact keeps_forEach h2 fun s3 _ h4 => keeps_wr h4

theorem keeps_objEnd {a s : State} {x1} {x2} {x3} (h : Keeps a s) : Keeps a (objEnd s x1 x2 x3) := by
  unfold objEnd
  extract_lets +onlyGivenNames v0
  clear_value v0
  extract_lets +onlyGivenNames v1
  have h2 : Keeps a v1 := keeps_putCan h
  clear_value v1
  refine keeps_ite ?_ ?_
  · exact h2
  · extract_lets +onlyGivenNames v3
    clear_value v3
    extract_lets +onlyGivenNames v4
    have h5 : Keeps a v4 := keeps_setBit (keeps_clrBit (keeps_clrBit h2))
    clear_value v4
    extract_lets +onlyGivenNames v6
    clear_value v6
    extract_lets +onlyGivenNames v7
    have h8 : Keeps a v7 := keeps_update h5
    clear_value v7
    exact keeps_ite (keeps_ite h8 (keeps_addStat h8)) (keeps_setBit h8)

theorem keeps_objPend {a s : State} {x1} {x2} (h : Keeps a s) : Keeps a (objPend s x1 x2) := by
  unfold objPend
  extract_lets +onlyGivenNames v0
  clear_value v0
  extract_lets +onlyGivenNames v1
  have h2 : Keeps a v1 := keeps_wr (keeps_setBit h)
  clear_value v1
  extract_lets +onlyGivenNames v3
  have h4 : Keeps a v3 := keeps_ite (keeps_setBit h2) h2
  clear_value v3
  exact keeps_update h4

theorem keeps_objRequest {a s : State} {x1} {x2} (h : Keeps a s) : Keeps a (objRequest s x1 x2) := by
  unfold objRequest
  refine keeps_ite ?_ ?_
  · exact h
  · extract_lets +onlyGivenNames v0
    have h1 : Keeps a v0 := keeps_objPend h
    clear_value v0
    exact keeps_ite (keeps_objEnd h1) (keeps_ite (keeps_objEnd (keeps_incSat h1)) h1)

theorem keeps_objCancel {a s : State} {x1} {x2} (h : Keeps a s) : Keeps a (objCancel s x1 x2) := by
  unfold objCancel
  refine keeps_ite ?_ ?_
  · exact h
  · refine keeps_ite ?_ ?_
    · extract_lets +onlyGivenNames v0
      clear_value v0
      exact keeps_putCan h
    · exact keeps_objEnd h

theorem keeps_objCommand {a s : State} {x1} {x2} {x3} (h : Keeps a s) : Keeps a (objCommand s x1 x2 x3) := by
  unfold objCommand
  extract_lets +onlyGivenNames v0
  clear_value v0
  extract_lets +onlyGivenNames v1
  have h2 : Keeps a v1 := keeps_setFld h
  clear_value v1
  extract_lets +onlyGivenNames v3
  clear_value v3
  extract_lets +onlyGivenNames v4
  clear_value v4
  exact keeps_ite h2 (keeps_ite (keeps_objRequest h2) (keeps_ite (keeps_objCancel h2) h2))

theorem keeps_objWrite {a s : State} {x1} {x2} {x3} {x4} (h : Keeps a s) : Keeps a (objWrite s x1 x2 x3 x4) := by
  unfold objWrite
  extract_lets +onlyGivenNames v0
  clear_value v0
  extract_lets +onlyGivenNames v1
  clear_value v1
  split
  · exact h
  · extract_lets +onlyGivenNames v2
    clear_value v2
    extract_lets +onlyGivenNames v3
    clear_value v3
    refine keeps_ite ?_ ?_
    · refine keeps_ite ?_ ?_
      · exact h
      · refine keeps_ite ?_ ?_
        · exact keeps_lockViolation (keeps_ite (keeps_qRefused h) h)
        · refine keeps_ite ?_ ?_
          · exact keeps_ite (keeps_qRefused h) (keeps_wr h)
          · extract_lets +onlyGivenNames v4
            have h5 : Keeps a v4 := keeps_canLook h
            clear_value v4
            extract_lets +onlyGivenNames v6
            have h7 : Keeps a v6 := keeps_ite (keeps_update h5) h5
            clear_value v6
            exact keeps_wr h7
    · exact keeps_ite (keeps_objCommand h) (keeps_ite h (keeps_ite h (keeps_syncWord (keeps_wr h))))

theorem keeps_objOffer {a s : State} {x1} {x2} {x3} {x4} (h : Keeps a s) : Keeps a (objOffer s x1 x2 x3 x4) := by
  unfold objOffer
  split
  · exact h
  · exact keeps_ite (keeps_setBit (keeps_incSat (keeps_setBit h))) (keeps_setBit (keeps_objStore h))

theorem keeps_canDeliver {a s : State} {x1} {x2} {x3} {x4} (h : Keeps a s) : Keeps a (canDeliver s x1 x2 x3 x4) := by
  unfold canDeliver
  extract_lets +onlyGivenNames v0
  have h1 : Keeps a v0 := keeps_ite (keeps_busItem h) h
  clear_value v0
  exact keeps_objOffer h1

theorem keeps_loneEnds {a s : State} {x1} (h : Keeps a s) : Keeps a (loneEnds s x1) := by
  unfold loneEnds
  extract_lets +onlyGivenNames v0
  clear_value v0
  extract_lets +onlyGivenNames v1
  have h2 : Keeps a v1 := keeps_putCan h
  clear_value v1
  exact keeps_ite (keeps_comfail (keeps_clrBit h2)) h2

theorem keeps_noteError {a s : State} {x1} {x2} {x3} (h : Keeps a s) : Keeps a (noteError s x1 x2 x3) := by
  unfold noteError
  refine keeps_ite ?_ ?_
  · exact h
  · extract_lets +onlyGivenNames v0
    have h1 : Keeps a v0 := keeps_setFld h
    clear_value v0
    exact keeps_ite (keeps_incSat h1) h1

theorem keeps_canSpent {a s : State} {x1} (h : Keeps a s) : Keeps a (canSpent s x1) := by
  unfold canSpent
  exact keeps_noteBusy h

theorem keeps_canRxError {a s : State} {x1} {x2} {x3} {x4} {x5} (h : Keeps a s) :
    Keeps a (canRxError s x1 x2 x3 x4 x5) := by
  unfold canRxError
  split
  · rename_i x0 x1 x2 e3
    have h4 := keeps_snd e3 (keeps_drawNat h)
    extract_lets +onlyGivenNames v5
    have h6 : Keeps a v5 := keeps_noteBusy h4
    clear_value v5
    extract_lets +onlyGivenNames v7
    have h8 : Keeps a v7 := keeps_noteError (keeps_canQuiet h6)
    clear_value v7
    extract_lets +onlyGivenNames v9
    have h10 : Keeps a v9 := keeps_ite (keeps_send h8) h8
    clear_value v9
    extract_lets +onlyGivenNames v11
    have h12 : Keeps a v11 := keeps_ite (keeps_furRewind h10) h10
    clear_value v11
    extract_lets +onlyGivenNames v13
    clear_value v13
    extract_lets +onlyGivenNames v14
    have h15 : Keeps a v14 := keeps_setCounts h12
    clear_value v14
    exact keeps_ite (keeps_putCan h15) h15

theorem keeps_recAfter {a s : State} {x1} (h : Keeps a s) : Keeps a (recAfter s x1) := by
  unfold recAfter
  extract_lets +onlyGivenNames v0
  clear_value v0
  refine keeps_ite ?_ ?_
  · split
    · rename_i x1 x2 x3 e4
      have h5 := keeps_snd e4 (keeps_drawNat h)
      exact keeps_setCounts h5
  · exact keeps_setCounts h

theorem keeps_canReceived {a s : State} {x1} {x2} {x3} (h : Keeps a s) : Keeps a (canReceived s x1 x2 x3) := by
  unfold canReceived
  extract_lets +onlyGivenNames v0
  have h1 : Keeps a v0 := keeps_canQuiet h
  clear_value v0
  refine keeps_ite ?_ ?_
  · exact keeps_ite (keeps_putCan (keeps_setBit (keeps_incSat h1))) (keeps_canRxError h1)
  · extract_lets +onlyGivenNames v2
    have h3 : Keeps a v2 := keeps_handled (keeps_noteBusy h1)
    clear_value v2
    extract_lets +onlyGivenNames v4
    have h5 : Keeps a v4 := keeps_ite (keeps_send h3) h3
    clear_value v4
    extract_lets +onlyGivenNames v6
    have h7 : Keeps a v6 := keeps_addStat (keeps_loneEnds (keeps_recAfter h5))
    clear_value v6
    extract_lets +onlyGivenNames v8
    have h9 : Keeps a v8 := keeps_validFrame h7
    clear_value v8
    extract_lets +onlyGivenNames v10
    have h11 : Keeps a v10 := keeps_ite (keeps_remoteNm h9) h9
    clear_value v10
    exact keeps_serveHints (keeps_canDeliver h11)

theorem keeps_fmtRefuse {a s : State} {x1} {x2} (h : Keeps a s) : Keeps a (fmtRefuse s x1 x2) := by
  unfold fmtRefuse
  exact keeps_objEnd (keeps_incSat h)

theorem keeps_canSelect {a s : State} {x0} {x2} (h : Keeps a s) : Keeps a (canSelect x0 s x2) := by
  induction x0 generalizing s x2 with
  | zero =>
    unfold canSelect
    exact h
  | succ n ih =>
    unfold canSelect
    split
    · exact h
    · exact keeps_ite (ih (keeps_fmtRefuse h)) (keeps_setFld (keeps_putCan h))

theorem keeps_objOff {a s : State} {x1} (h : Keeps a s) : Keeps a (objOff s x1) := by
  unfold objOff
  exact keeps_setFld (keeps_putCan h)

theorem keeps_canArbLoss {a s : State} {x1} (h : Keeps a s) : Keeps a (canArbLoss s x1) := by
  unfold canArbLoss
  split
  · exact h
  · extract_lets +onlyGivenNames v0
    have h1 : Keeps a v0 := keeps_incSat (keeps_objOff h)
    clear_value v0
    extract_lets +onlyGivenNames v2
    clear_value v2
    extract_lets +onlyGivenNames v3
    have h4 : Keeps a v3 := keeps_putCan h1
    clear_value v3
    extract_lets +onlyGivenNames v5
    clear_value v5
    extract_lets +onlyGivenNames v6
    have h7 : Keeps a v6 := keeps_setFld h4
    clear_value v6
    extract_lets +onlyGivenNames v8
    clear_value v8
    exact keeps_ite (keeps_objEnd h7) (keeps_ite (keeps_objEnd h7) h7)

theorem keeps_tdcMeasure {a s : State} {x1} {x2} {x3} (h : Keeps a s) : Keeps a (tdcMeasure s x1 x2 x3) := by
  unfold tdcMeasure
  extract_lets +onlyGivenNames v0
  clear_value v0
  refine keeps_ite ?_ ?_
  · extract_lets +onlyGivenNames v1
    clear_value v1
    split
    · refine keeps_ite ?_ ?_
      · extract_lets +onlyGivenNames v2
        have h3 : Keeps a v2 := keeps_wr h
        clear_value v2
        exact keeps_ite (keeps_setBit h3) h3
      · exact keeps_setBit h
    · exact keeps_setBit h
  · exact h

theorem keeps_objClear {a s : State} {x1} {x2} {x3} (h : Keeps a s) : Keeps a (objClear s x1 x2 x3) := by
  unfold objClear
  exact keeps_forEach h fun s0 _ h1 => keeps_ite (keeps_objEnd h1) h1

theorem keeps_canHeld {a s : State} {x1} (h : Keeps a s) : Keeps a (canHeld s x1) := by
  unfold canHeld
  extract_lets +onlyGivenNames v0
  have h1 : Keeps a v0 := keeps_objClear (keeps_setBit (keeps_setCanMode h))
  clear_value v0
  extract_lets +onlyGivenNames v2
  clear_value v2
  extract_lets +onlyGivenNames v3
  have h4 : Keeps a v3 := keeps_putCan h1
  clear_value v3
  exact keeps_raisePlain h4

theorem keeps_canBusOff {a s : State} {x1} (h : Keeps a s) : Keeps a (canBusOff s x1) := by
  unfold canBusOff
  extract_lets +onlyGivenNames v0
  clear_value v0
  extract_lets +onlyGivenNames v1
  clear_value v1
  extract_lets +onlyGivenNames v2
  clear_value v2
  extract_lets +onlyGivenNames v3
  clear_value v3
  extract_lets +onlyGivenNames v4
  have h5 : Keeps a v4 := keeps_putCan h
  clear_value v4
  extract_lets +onlyGivenNames v6
  have h7 : Keeps a v6 := keeps_setFld (keeps_setCanMode h5)
  clear_value v6
  extract_lets +onlyGivenNames v8
  have h9 : Keeps a v8 := keeps_setFld (keeps_incSat (keeps_setBit h7))
  clear_value v8
  extract_lets +onlyGivenNames v10
  have h11 : Keeps a v10 := keeps_forEach h9 fun s12 _ h13 => keeps_ite (keeps_setBit h13) h13
  clear_value v10
  exact keeps_ite (keeps_canHeld h11) h11

theorem keeps_canTecAdds {a s : State} {x1} {x2} (h : Keeps a s) : Keeps a (canTecAdds s x1 x2) := by
  unfold canTecAdds
  refine keeps_ite ?_ ?_
  · extract_lets +onlyGivenNames v0
    clear_value v0
    extract_lets +onlyGivenNames v1
    have h2 : Keeps a v1 := keeps_setCounts h
    clear_value v1
    exact keeps_ite (keeps_canBusOff h2) h2
  · exact h

theorem keeps_canTxError {a s : State} {x1} {x2} {x3} {x4} {x5} {x6} {x7} (h : Keeps a s) :
    Keeps a (canTxError s x1 x2 x3 x4 x5 x6 x7) := by
  unfold canTxError
  split
  · exact keeps_canTecAdds h
  · extract_lets +onlyGivenNames v0
    clear_value v0
    extract_lets +onlyGivenNames v1
    have h2 : Keeps a v1 := keeps_noteError h
    clear_value v1
    extract_lets +onlyGivenNames v3
    have h4 : Keeps a v3 := keeps_objOff (keeps_ite (keeps_tdcMeasure (keeps_canSpent h2)) (keeps_canSpent h2))
    clear_value v3
    extract_lets +onlyGivenNames v5
    clear_value v5
    extract_lets +onlyGivenNames v6
    have h7 : Keeps a v6 := keeps_ite (keeps_send h4) h4
    clear_value v6
    extract_lets +onlyGivenNames v8
    clear_value v8
    extract_lets +onlyGivenNames v9
    clear_value v9
    extract_lets +onlyGivenNames v10
    clear_value v10
    extract_lets +onlyGivenNames v11
    have h12 : Keeps a v11 := keeps_setCounts (keeps_putCan h7)
    clear_value v11
    extract_lets +onlyGivenNames v13
    have h14 : Keeps a v13 := keeps_ite (keeps_comfail (keeps_setBit (keeps_setBit h12))) h12
    clear_value v13
    refine keeps_ite ?_ ?_
    · extract_lets +onlyGivenNames v15
      clear_value v15
      extract_lets +onlyGivenNames v16
      have h17 : Keeps a v16 := keeps_canBusOff h14
      clear_value v16
      exact keeps_ite (keeps_objEnd h17) h17
    · extract_lets +onlyGivenNames v18
      clear_value v18
      extract_lets +onlyGivenNames v19
      have h20 : Keeps a v19 := keeps_setFld h14
      clear_value v19
      extract_lets +onlyGivenNames v21
      clear_value v21
      exact keeps_ite (keeps_objEnd h20) (keeps_ite (keeps_objEnd h20) h20)

theorem keeps_canTxDone {a s : State} {x1} {x2} (h : Keeps a s) : Keeps a (canTxDone s x1 x2) := by
  unfold canTxDone
  split
  · exact h
  · extract_lets +onlyGivenNames v0
    clear_value v0
    extract_lets +onlyGivenNames v1
    clear_value v1
    extract_lets +onlyGivenNames v2
    clear_value v2
    extract_lets +onlyGivenNames v3
    have h4 : Keeps a v3 := keeps_objOff (keeps_tdcMeasure (keeps_handled (keeps_canSpent h)))
    clear_value v3
    extract_lets +onlyGivenNames v5
    clear_value v5
    extract_lets +onlyGivenNames v6
    clear_value v6
    extract_lets +onlyGivenNames v7
    have h8 : Keeps a v7 := keeps_ite h4 (keeps_send h4)
    clear_value v7
    extract_lets +onlyGivenNames v9
    clear_value v9
    extract_lets +onlyGivenNames v10
    have h11 : Keeps a v10 := keeps_setCounts h8
    clear_value v10
    extract_lets +onlyGivenNames v12
    have h13 : Keeps a v12 := keeps_objEnd (keeps_addStat (keeps_loneEnds h11))
    clear_value v12
    exact keeps_ite (keeps_canDeliver h13) h13

theorem keeps_canFill {a s : State} {x1} (h : Keeps a s) : Keeps a (canFill s x1) := by
  unfold canFill
  split
  · exact h
  · extract_lets +onlyGivenNames v0
    clear_value v0
    extract_lets +onlyGivenNames v1
    clear_value v1
    extract_lets +onlyGivenNames v2
    have h3 : ∀ s, Keeps a s → Keeps a (v2 s) := by
      intro s h3'
      unfold v2
      exact keeps_freeIfDone (keeps_endFlight h3')
    clear_value v2
    refine keeps_ite ?_ ?_
    · exact h3 _ (keeps_incSat h)
    · refine keeps_ite ?_ ?_
      · exact h3 _ (keeps_incSat h)
      · split
        · exact h
        · extract_lets +onlyGivenNames v4
          clear_value v4
          extract_lets +onlyGivenNames v5
          clear_value v5
          extract_lets +onlyGivenNames v6
          clear_value v6
          extract_lets +onlyGivenNames v7
          clear_value v7
          extract_lets +onlyGivenNames v8
          have h9 : Keeps a v8 := keeps_latency (keeps_objPend (keeps_objStore h))
          clear_value v8
          extract_lets +onlyGivenNames v10
          have h11 : Keeps a v10 := keeps_update h9
          clear_value v10
          extract_lets +onlyGivenNames v12
          have h13 : Keeps a v12 := keeps_ite (keeps_objEnd h11) h11
          clear_value v12
          exact h3 _ h13

theorem keeps_canRecovered {a s : State} {x1} (h : Keeps a s) : Keeps a (canRecovered s x1) := by
  unfold canRecovered
  extract_lets +onlyGivenNames v0
  clear_value v0
  extract_lets +onlyGivenNames v1
  have h2 : Keeps a v1 := keeps_putCan h
  clear_value v1
  extract_lets +onlyGivenNames v3
  have h4 : Keeps a v3 := keeps_setFld (keeps_setBit h2)
  clear_value v3
  extract_lets +onlyGivenNames v5
  have h6 : Keeps a v5 := keeps_forEach h4 fun s7 _ h8 => keeps_clrBit h8
  clear_value v5
  extract_lets +onlyGivenNames v9
  have h10 : Keeps a v9 := keeps_ite (keeps_setCanMode h6) h6
  clear_value v9
  exact keeps_noteCounts h10

theorem keeps_canIntegrate {a s : State} {x1} (h : Keeps a s) : Keeps a (canIntegrate s x1) := by
  unfold canIntegrate
  extract_lets +onlyGivenNames v0
  clear_value v0
  refine keeps_ite ?_ ?_
  · exact h
  · refine keeps_ite ?_ ?_
    · extract_lets +onlyGivenNames v1
      clear_value v1
      exact keeps_ite (keeps_canRecovered h) (keeps_setFld h)
    · exact keeps_ite h (keeps_putCan h)

theorem keeps_canRestart {a s : State} {x1} (h : Keeps a s) : Keeps a (canRestart s x1) := by
  unfold canRestart
  extract_lets +onlyGivenNames v0
  clear_value v0
  extract_lets +onlyGivenNames v1
  clear_value v1
  extract_lets +onlyGivenNames v2
  have h3 : Keeps a v2 := keeps_objClear (keeps_putCan h)
  clear_value v2
  extract_lets +onlyGivenNames v4
  have h5 : Keeps a v4 := keeps_forEach h3 fun s6 _ h7 => keeps_wr h7
  clear_value v4
  extract_lets +onlyGivenNames v8
  clear_value v8
  extract_lets +onlyGivenNames v9
  have h10 : Keeps a v9 := keeps_putCan h5
  clear_value v9
  extract_lets +onlyGivenNames v11
  have h12 : Keeps a v11 := keeps_ite (keeps_setCanMode h10) h10
  clear_value v11
  extract_lets +onlyGivenNames v13
  have h14 : Keeps a v13 := keeps_comfail (keeps_setFld h12)
  clear_value v13
  exact keeps_clearHeads (keeps_noteCounts h14)

theorem keeps_canModeWrite {a s : State} {x1} {x2} {x3} (h : Keeps a s) : Keeps a (canModeWrite s x1 x2 x3) := by
  unfold canModeWrite
  extract_lets +onlyGivenNames v0
  clear_value v0
  extract_lets +onlyGivenNames v1
  clear_value v1
  exact keeps_ite h (keeps_softWord h)

theorem keeps_canToFallow {a s : State} {x1} {x2} (h : Keeps a s) : Keeps a (canToFallow s x1 x2) := by
  unfold canToFallow
  refine keeps_ite ?_ ?_
  · exact h
  · extract_lets +onlyGivenNames v0
    clear_value v0
    extract_lets +onlyGivenNames v1
    have h2 : Keeps a v1 := keeps_putCan h
    clear_value v1
    extract_lets +onlyGivenNames v3
    have h4 : Keeps a v3 := keeps_setBit (keeps_setCanMode (keeps_update h2))
    clear_value v3
    extract_lets +onlyGivenNames v5
    have h6 : Keeps a v5 := keeps_objClear h4
    clear_value v5
    exact keeps_refreshTrx (keeps_retire h6)

theorem keeps_canMoved {a s : State} {x1} (h : Keeps a s) : Keeps a (canMoved s x1) := by
  unfold canMoved
  extract_lets +onlyGivenNames v0
  clear_value v0
  extract_lets +onlyGivenNames v1
  clear_value v1
  extract_lets +onlyGivenNames v2
  have h3 : Keeps a v2 := keeps_putCan (keeps_update h)
  clear_value v2
  exact keeps_forEach h3 fun s4 _ h5 => keeps_objEnd h5

theorem keeps_canTakeover {a s : State} {x1} {x2} (h : Keeps a s) : Keeps a (canTakeover s x1 x2) := by
  unfold canTakeover
  refine keeps_ite ?_ ?_
  · exact h
  · refine keeps_ite ?_ ?_
    · exact keeps_canToFallow h
    · extract_lets +onlyGivenNames v0
      have h1 : Keeps a v0 := keeps_canMoved (keeps_wr h)
      clear_value v0
      exact keeps_retire (keeps_setBit h1)

theorem keeps_objParity {a s : State} {x1} {x2} (h : Keeps a s) : Keeps a (objParity s x1 x2) := by
  unfold objParity
  extract_lets +onlyGivenNames v0
  have h1 : Keeps a v0 := keeps_setBit h
  clear_value v0
  extract_lets +onlyGivenNames v2
  have h3 : Keeps a v2 := keeps_ite (keeps_objOff h1) h1
  clear_value v2
  exact keeps_objEnd h3

/-! ## Machine/Lin.lean -/

theorem keeps_linFrame {a s : State} {x1} {x2} (h : Keeps a s) : Keeps a (linFrame s x1 x2) := by
  unfold linFrame
  exact keeps_setBit (keeps_putLin h)

theorem keeps_linEnd {a s : State} {x1} (h : Keeps a s) : Keeps a (linEnd s x1) := by
  unfold linEnd
  extract_lets +onlyGivenNames v0
  have h1 : Keeps a v0 := by
    unfold v0
    split
    · exact keeps_handled (keeps_noteBusy h)
    · exact h
  clear_value v0
  exact keeps_clrBit (keeps_putLin h1)

theorem keeps_linError {a s : State} {x1} {x2} (h : Keeps a s) : Keeps a (linError s x1 x2) := by
  unfold linError
  exact keeps_setBit (keeps_incSat (keeps_setFld h))

theorem keeps_linNoData {a s : State} {x1} {x2} (h : Keeps a s) : Keeps a (linNoData s x1 x2) := by
  unfold linNoData
  extract_lets +onlyGivenNames v0
  clear_value v0
  split
  · exact keeps_ite (keeps_linFrame h) (keeps_linFrame (keeps_incSat h))
  · exact keeps_linFrame (keeps_incSat h)

theorem keeps_linReadyAgain {a s : State} {x1} {x2} (h : Keeps a s) : Keeps a (linReadyAgain s x1 x2) := by
  unfold linReadyAgain
  exact keeps_ite (keeps_putLin h) h

theorem keeps_linFirst {a s : State} {x1} {x2} (h : Keeps a s) : Keeps a (linFirst s x1 x2) := by
  unfold linFirst
  extract_lets +onlyGivenNames v0
  clear_value v0
  split
  · exact keeps_latency (keeps_putLin h)
  · exact h

theorem keeps_linTake {a s : State} {x1} {x2} (h : Keeps a s) : Keeps a (linTake s x1 x2) := by
  unfold linTake
  extract_lets +onlyGivenNames v0
  clear_value v0
  refine keeps_ite ?_ ?_
  · extract_lets +onlyGivenNames v1
    clear_value v1
    exact keeps_linFrame (keeps_linFirst (keeps_setBit (keeps_ite h (keeps_clrBit h))))
  · exact keeps_linNoData h

theorem keeps_linPublish {a s : State} {x1} {x2} (h : Keeps a s) : Keeps a (linPublish s x1 x2) := by
  unfold linPublish
  exact keeps_ite (keeps_linFrame h) (keeps_linTake h)

theorem keeps_linPull {a s : State} {x1} {x2} {x3} (h : Keeps a s) : Keeps a (linPull s x1 x2 x3) := by
  unfold linPull
  split
  · split
    · split
      · rename_i x0 x1 x2 x3 x4 x5 x6 x7 x8 e9
        have h10 := keeps_snd e9 (keeps_pullLayout h)
        exact keeps_linFrame h10
      · rename_i x11 x12 x13 x14 x15 x16 x17 x18 e19
        have h20 := keeps_snd e19 (keeps_pullLayout h)
        exact keeps_linNoData h20
    · exact h
  · exact h

theorem keeps_linRespond {a s : State} {x1} {x2} (h : Keeps a s) : Keeps a (linRespond s x1 x2) := by
  unfold linRespond
  split
  · exact keeps_linPublish h
  · exact keeps_linFrame h

theorem keeps_linStart {a s : State} {x1} (h : Keeps a s) : Keeps a (linStart s x1) := by
  unfold linStart
  extract_lets +onlyGivenNames v0
  have h1 : Keeps a v0 := keeps_ite h (keeps_update h)
  clear_value v0
  extract_lets +onlyGivenNames v2
  clear_value v2
  extract_lets +onlyGivenNames v3
  have h4 : Keeps a v3 := keeps_putLin h1
  clear_value v3
  exact keeps_setFld h4

theorem keeps_linHeader {a s : State} {x1} {x2} (h : Keeps a s) : Keeps a (linHeader s x1 x2) := by
  unfold linHeader
  extract_lets +onlyGivenNames v0
  have h1 : Keeps a v0 := keeps_addStat (keeps_send h)
  clear_value v0
  exact keeps_linEdge h1

theorem keeps_linSleep {a s : State} {x1} (h : Keeps a s) : Keeps a (linSleep s x1) := by
  unfold linSleep
  extract_lets +onlyGivenNames v0
  have h1 : Keeps a v0 := keeps_linHeader h
  clear_value v0
  extract_lets +onlyGivenNames v2
  clear_value v2
  extract_lets +onlyGivenNames v3
  have h4 : Keeps a v3 := keeps_clrBit (keeps_putLin h1)
  clear_value v3
  exact keeps_linFrame h4

theorem keeps_slotAct {a s : State} {x1} {x2} (h : Keeps a s) : Keeps a (slotAct s x1 x2) := by
  unfold slotAct
  extract_lets +onlyGivenNames v0
  clear_value v0
  split
  · exact keeps_linRespond (keeps_linHeader h)
  · exact keeps_linFrame (keeps_linHeader h)
  · split
    · exact keeps_linRespond (keeps_linHeader h)
    · exact h
  · exact keeps_ite (keeps_linTake (keeps_linHeader h)) h
  · exact keeps_linFrame (keeps_linHeader h)
  · exact keeps_linSleep h
  · exact h

theorem keeps_noteSlot {a s : State} {x1} {x2} (h : Keeps a s) : Keeps a (noteSlot s x1 x2) := by
  unfold noteSlot
  exact keeps_putBit (keeps_setFld (keeps_setFld h))

theorem keeps_linAwake {a s : State} {x1} (h : Keeps a s) : Keeps a (linAwake s x1) := by
  unfold linAwake
  split
  · exact keeps_ite h (keeps_ite (keeps_linStart h) (keeps_update h))
  · exact h

theorem keeps_linLate {a s : State} {x1} (h : Keeps a s) : Keeps a (linLate s x1) := by
  unfold linLate
  exact keeps_ite h (keeps_setBit (keeps_incSat (keeps_putLin h)))

theorem keeps_linPostpone {a s : State} {x1} (h : Keeps a s) : Keeps a (linPostpone s x1) := by
  unfold linPostpone
  exact keeps_ite h (keeps_setBit (keeps_incSat h))

theorem keeps_slotBegin {a s : State} {x1} {x2} {x3} {x4} (h : Keeps a s) : Keeps a (slotBegin s x1 x2 x3 x4) := by
  unfold slotBegin
  extract_lets +onlyGivenNames v0
  have h1 : Keeps a v0 := keeps_ite (keeps_clrBit h) h
  clear_value v0
  extract_lets +onlyGivenNames v2
  clear_value v2
  extract_lets +onlyGivenNames v3
  have h4 : Keeps a v3 := keeps_putLin h1
  clear_value v3
  extract_lets +onlyGivenNames v5
  have h6 : Keeps a v5 := keeps_clrBit (keeps_noteSlot h4)
  clear_value v5
  extract_lets +onlyGivenNames v7
  clear_value v7
  exact keeps_ite (keeps_putLin h6) (keeps_ite h6 (keeps_slotAct h6))

theorem keeps_slotOver {a s : State} {x1} (h : Keeps a s) : Keeps a (slotOver s x1) := by
  unfold slotOver
  extract_lets +onlyGivenNames v0
  clear_value v0
  exact keeps_ite (keeps_putLin h) h

theorem keeps_slotStart {a s : State} {x1} (h : Keeps a s) : Keeps a (slotStart s x1) := by
  unfold slotStart
  extract_lets +onlyGivenNames v0
  have h1 : Keeps a v0 := keeps_linAwake h
  clear_value v0
  extract_lets +onlyGivenNames v2
  clear_value v2
  extract_lets +onlyGivenNames v3
  clear_value v3
  refine keeps_ite ?_ ?_
  · exact h1
  · extract_lets +onlyGivenNames v4
    clear_value v4
    refine keeps_ite ?_ ?_
    · exact h1
    · refine keeps_ite ?_ ?_
      · exact keeps_linLate h1
      · extract_lets +onlyGivenNames v5
        have h6 : Keeps a v5 := keeps_ite (keeps_linLate h1) h1
        clear_value v5
        refine keeps_ite ?_ ?_
        · split
          · exact keeps_ite (keeps_ite (keeps_linPostpone h6) (keeps_linSleep h6)) h6
          · exact h6
        · refine keeps_ite ?_ ?_
          · exact keeps_linPostpone h6
          · extract_lets +onlyGivenNames v7
            clear_value v7
            split
            · exact keeps_slotBegin h6

theorem keeps_linHeaderIn {a s : State} {x1} {x2} {x3} (h : Keeps a s) : Keeps a (linHeaderIn s x1 x2 x3) := by
  unfold linHeaderIn
  refine keeps_ite ?_ ?_
  · exact h
  · extract_lets +onlyGivenNames v0
    have h1 : Keeps a v0 := keeps_update h
    clear_value v0
    extract_lets +onlyGivenNames v2
    have h3 : Keeps a v2 := keeps_ite (keeps_linEnd h1) h1
    clear_value v2
    extract_lets +onlyGivenNames v4
    clear_value v4
    extract_lets +onlyGivenNames v5
    have h6 : Keeps a v5 := keeps_linEdge (keeps_putLin h3)
    clear_value v5
    extract_lets +onlyGivenNames v7
    clear_value v7
    split
    · exact keeps_linError h6
    · refine keeps_ite ?_ ?_
      · exact keeps_linError h6
      · refine keeps_ite ?_ ?_
        · exact keeps_linError h6
        · extract_lets +onlyGivenNames v8
          clear_value v8
          extract_lets +onlyGivenNames v9
          clear_value v9
          extract_lets +onlyGivenNames v10
          clear_value v10
          exact keeps_ite (keeps_linFrame h6) (keeps_linRespond h6)

theorem keeps_linCollide {a s : State} {x1} {x2} {x3} (h : Keeps a s) : Keeps a (linCollide s x1 x2 x3) := by
  unfold linCollide
  split
  · exact keeps_ite (keeps_setBit (keeps_putLin h)) h
  · exact h

theorem keeps_linFail {a s : State} {x1} {x2} {x3} (h : Keeps a s) : Keeps a (linFail s x1 x2 x3) := by
  unfold linFail
  extract_lets +onlyGivenNames v0
  have h1 : Keeps a v0 := keeps_linError (keeps_linEnd h)
  clear_value v0
  extract_lets +onlyGivenNames v2
  have h3 : Keeps a v2 := keeps_ite (keeps_furRewind h1) h1
  clear_value v2
  exact keeps_linCollide h3

theorem keeps_linCommit {a s : State} {x1} {x2} {x3} {x4} (h : Keeps a s) : Keeps a (linCommit s x1 x2 x3 x4) := by
  unfold linCommit
  split
  · rename_i x0 x1 x2 e3
    have h4 := keeps_snd e3 (keeps_busItem h)
    exact keeps_ite (keeps_addStat h4) h4

theorem keeps_linSent {a s : State} {x1} {x2} (h : Keeps a s) : Keeps a (linSent s x1 x2) := by
  unfold linSent
  extract_lets +onlyGivenNames v0
  clear_value v0
  extract_lets +onlyGivenNames v1
  have h2 : Keeps a v1 := keeps_putLin h
  clear_value v1
  extract_lets +onlyGivenNames v3
  have h4 : Keeps a v3 := keeps_send h2
  clear_value v3
  extract_lets +onlyGivenNames v5
  have h6 : Keeps a v5 := keeps_addStat (keeps_linEnd h4)
  clear_value v5
  exact keeps_ite (keeps_serveHints (keeps_linCommit h6)) h6

theorem keeps_linGood {a s : State} {x1} {x2} {x3} (h : Keeps a s) : Keeps a (linGood s x1 x2 x3) := by
  unfold linGood
  extract_lets +onlyGivenNames v0
  have h1 : Keeps a v0 := keeps_linEnd h
  clear_value v0
  extract_lets +onlyGivenNames v2
  have h3 : Keeps a v2 := keeps_validFrame h1
  clear_value v2
  extract_lets +onlyGivenNames v4
  have h5 : Keeps a v4 := keeps_remoteNm h3
  clear_value v4
  exact keeps_ite (keeps_serveHints (keeps_linReport (keeps_setBit h5))) (keeps_ite (keeps_serveHints (keeps_linCommit h5))
      (keeps_serveHints h5))

theorem keeps_linTimeout {a s : State} {x1} {x2} (h : Keeps a s) : Keeps a (linTimeout s x1 x2) := by
  unfold linTimeout
  split
  · exact h
  · exact keeps_ite h (keeps_ite (keeps_ite (keeps_linFail h) (keeps_ite (keeps_linEnd h) (keeps_linFail h))) (keeps_linEnd h))

theorem keeps_linResponse {a s : State} {x1} {x2} {x3} (h : Keeps a s) : Keeps a (linResponse s x1 x2 x3) := by
  unfold linResponse
  split
  · exact h
  · extract_lets +onlyGivenNames v0
    have h1 : Keeps a v0 := keeps_linEdge h
    clear_value v0
    refine keeps_ite ?_ ?_
    · exact h1
    · refine keeps_ite ?_ ?_
      · exact keeps_linFail h1
      · refine keeps_ite ?_ ?_
        · exact keeps_ite (keeps_linFail h1) (keeps_linSent h1)
        · refine keeps_ite ?_ ?_
          · exact keeps_linEnd h1
          · refine keeps_ite ?_ ?_
            · exact keeps_linTimeout h1
            · refine keeps_ite ?_ ?_
              · exact keeps_linFail h1
              · refine keeps_ite ?_ ?_
                · exact h1
                · extract_lets +onlyGivenNames v2
                  clear_value v2
                  exact keeps_ite (keeps_linGood h1) (keeps_linFail h1)

theorem keeps_linCross {a s : State} {x1} {x2} (h : Keeps a s) : Keeps a (linCross s x1 x2) := by
  unfold linCross
  split
  · exact keeps_ite (keeps_ite (keeps_linEnd h) h) (keeps_ite (keeps_furRewind (keeps_linEnd h)) h)
  · exact h

theorem keeps_linFill {a s : State} {x1} (h : Keeps a s) : Keeps a (linFill s x1) := by
  unfold linFill
  extract_lets +onlyGivenNames v0
  clear_value v0
  split
  · exact h
  · extract_lets +onlyGivenNames v1
    clear_value v1
    extract_lets +onlyGivenNames v2
    clear_value v2
    extract_lets +onlyGivenNames v3
    have h4 : ∀ s, Keeps a s → Keeps a (v3 s) := by
      intro s h4'
      unfold v3
      exact keeps_freeIfDone (keeps_endFlight h4')
    clear_value v3
    refine keeps_ite ?_ ?_
    · exact h4 _ (keeps_incSat h)
    · refine keeps_ite ?_ ?_
      · exact h4 _ (keeps_incSat h)
      · refine keeps_ite ?_ ?_
        · exact h
        · extract_lets +onlyGivenNames v5
          clear_value v5
          extract_lets +onlyGivenNames v6
          clear_value v6
          extract_lets +onlyGivenNames v7
          have h8 : Keeps a v7 := keeps_ite (keeps_incSat h) h
          clear_value v7
          extract_lets +onlyGivenNames v9
          clear_value v9
          extract_lets +onlyGivenNames v10
          have h11 : Keeps a v10 := keeps_forEach h8 fun s12 _ h13 => keeps_wr h13
          clear_value v10
          extract_lets +onlyGivenNames v14
          clear_value v14
          exact h4 _ (keeps_putLin (keeps_setBit h11))

theorem keeps_linSwitch {a s : State} {x1} (h : Keeps a s) : Keeps a (linSwitch s x1) := by
  unfold linSwitch
  exact keeps_setBit h

theorem keeps_linPulse {a s : State} {x1} {x2} (h : Keeps a s) : Keeps a (linPulse s x1 x2) := by
  unfold linPulse
  extract_lets +onlyGivenNames v0
  clear_value v0
  extract_lets +onlyGivenNames v1
  have h2 : Keeps a v1 := keeps_send h
  clear_value v1
  exact keeps_putLin h2

theorem keeps_linWakePulse {a s : State} {x1} (h : Keeps a s) : Keeps a (linWakePulse s x1) := by
  unfold linWakePulse
  exact keeps_ite (keeps_linPulse h) h

theorem keeps_linWaitEnd {a s : State} {x1} (h : Keeps a s) : Keeps a (linWaitEnd s x1) := by
  unfold linWaitEnd
  extract_lets +onlyGivenNames v0
  clear_value v0
  extract_lets +onlyGivenNames v1
  clear_value v1
  refine keeps_ite ?_ ?_
  · exact h
  · refine keeps_ite ?_ ?_
    · exact keeps_putLin h
    · refine keeps_ite ?_ ?_
      · refine keeps_ite ?_ ?_
        · exact h
        · extract_lets +onlyGivenNames v2
          have h3 : Keeps a v2 := keeps_putLin (keeps_update h)
          clear_value v2
          exact keeps_linStart h3
      · exact keeps_ite (keeps_ite h (keeps_ite (keeps_putLin h) (keeps_linPulse h))) (keeps_ite h (keeps_linPulse h))

theorem keeps_linIdle {a s : State} {x1} (h : Keeps a s) : Keeps a (linIdle s x1) := by
  unfold linIdle
  extract_lets +onlyGivenNames v0
  clear_value v0
  refine keeps_ite ?_ ?_
  · extract_lets +onlyGivenNames v1
    clear_value v1
    extract_lets +onlyGivenNames v2
    have h3 : Keeps a v2 := keeps_setBit (keeps_putLin h)
    clear_value v2
    exact keeps_ite h3 (keeps_serveHints (keeps_linReport h3))
  · exact h

theorem keeps_linClearReady {a s : State} {x1} (h : Keeps a s) : Keeps a (linClearReady s x1) := by
  unfold linClearReady
  exact keeps_forEach h fun s0 _ h1 => keeps_ite (keeps_clrBit h1) h1

theorem keeps_linRun {a s : State} {x1} (h : Keeps a s) : Keeps a (linRun s x1) := by
  unfold linRun
  exact keeps_refreshOutput (keeps_linEdge (keeps_linStart h))

theorem keeps_linRestart {a s : State} {x1} (h : Keeps a s) : Keeps a (linRestart s x1) := by
  unfold linRestart
  extract_lets +onlyGivenNames v0
  clear_value v0
  extract_lets +onlyGivenNames v1
  clear_value v1
  extract_lets +onlyGivenNames v2
  have h3 : Keeps a v2 := keeps_linClearReady (keeps_putLin h)
  clear_value v2
  extract_lets +onlyGivenNames v4
  have h5 : Keeps a v4 := keeps_clrBit h3
  clear_value v4
  exact keeps_clearHeads (keeps_linStart h5)

theorem keeps_linToFallow {a s : State} {x1} {x2} (h : Keeps a s) : Keeps a (linToFallow s x1 x2) := by
  unfold linToFallow
  extract_lets +onlyGivenNames v0
  clear_value v0
  refine keeps_ite ?_ ?_
  · exact h
  · extract_lets +onlyGivenNames v1
    have h2 : Keeps a v1 := keeps_linClearReady (keeps_putLin h)
    clear_value v1
    extract_lets +onlyGivenNames v3
    have h4 : Keeps a v3 := keeps_setBit (keeps_setBit (keeps_update h2))
    clear_value v3
    extract_lets +onlyGivenNames v5
    have h6 : Keeps a v5 := keeps_clrBit (keeps_clrBit h4)
    clear_value v5
    extract_lets +onlyGivenNames v7
    have h8 : Keeps a v7 := keeps_update h6
    clear_value v7
    exact keeps_refreshTrx (keeps_refreshOutput (keeps_retire h8))

/-! ## Machine/Ethernet.lean -/

theorem keeps_tsTake {a s : State} {x1} (h : Keeps a s) : Keeps a (tsTake s x1).2 := by
  unfold tsTake
  extract_lets +onlyGivenNames v0
  clear_value v0
  split
  · exact h
  · dsimp -zeta only
    exact keeps_setFld (keeps_putMac h)

theorem keeps_rewindOpen {a s : State} {x1} (h : Keeps a s) : Keeps a (rewindOpen s x1) := by
  unfold rewindOpen
  split
  · exact keeps_dropFrame (keeps_withdraw h)
  · exact h

theorem keeps_furRewound {a s : State} {x1} {x2} (h : Keeps a s) : Keeps a (furRewound s x1 x2) := by
  unfold furRewound
  extract_lets +onlyGivenNames v0
  have h1 : Keeps a v0 := keeps_ite h (keeps_furWrite h)
  clear_value v0
  extract_lets +onlyGivenNames v2
  clear_value v2
  extract_lets +onlyGivenNames v3
  clear_value v3
  extract_lets +onlyGivenNames v4
  have h5 : Keeps a v4 := keeps_furRewind (keeps_putFur h1)
  clear_value v4
  exact keeps_furSettle (keeps_ite (keeps_rewindOpen h5) h5)

theorem keeps_furFull {a s : State} {x1} {x2} (h : Keeps a s) : Keeps a (furFull s x1 x2) := by
  unfold furFull
  extract_lets +onlyGivenNames v0
  clear_value v0
  refine keeps_ite ?_ ?_
  · extract_lets +onlyGivenNames v1
    have h2 : Keeps a v1 := keeps_furRewound h
    clear_value v1
    exact keeps_update h2
  · exact keeps_putFur h

theorem keeps_furCommit {a s : State} {x1} {x2} {x3} (h : Keeps a s) : Keeps a (furCommit s x1 x2 x3) := by
  unfold furCommit
  extract_lets +onlyGivenNames v0
  clear_value v0
  refine keeps_ite ?_ ?_
  · exact h
  · refine keeps_ite ?_ ?_
    · exact keeps_furRewound h
    · refine keeps_ite ?_ ?_
      · exact keeps_furFull h
      · extract_lets +onlyGivenNames v1
        clear_value v1
        extract_lets +onlyGivenNames v2
        clear_value v2
        extract_lets +onlyGivenNames v3
        clear_value v3
        exact keeps_furSettle (keeps_noteFill (keeps_putFur h))

theorem keeps_headRefused {a s : State} {x1} {x2} (h : Keeps a s) : Keeps a (headRefused s x1 x2) := by
  unfold headRefused
  exact keeps_rewindFrame h

theorem keeps_announceHead {a s : State} {x1} {x2} {x3} (h : Keeps a s) : Keeps a (announceHead s x1 x2 x3) := by
  unfold announceHead
  extract_lets +onlyGivenNames v0
  clear_value v0
  refine keeps_ite ?_ ?_
  · exact h
  · split
    · rename_i x1 x2 x3 e4
      have h5 := keeps_snd e4 (keeps_announce h)
      exact keeps_ite (keeps_putFrame h5) (keeps_headRefused h5)

theorem keeps_announceEarly {a s : State} {x1} (h : Keeps a s) : Keeps a (announceEarly s x1) := by
  unfold announceEarly
  split
  · exact keeps_announceHead h
  · exact h

theorem keeps_t1sHeard {a s : State} {x1} (h : Keeps a s) : Keeps a (t1sHeard s x1) := by
  unfold t1sHeard
  exact keeps_ite (keeps_remoteNm (keeps_validFrame h)) h

theorem keeps_macCross {a s : State} {x1} {x2} (h : Keeps a s) : Keeps a (macCross s x1 x2) := by
  unfold macCross
  extract_lets +onlyGivenNames v0
  have h1 : Keeps a v0 := keeps_furWrite h
  clear_value v0
  extract_lets +onlyGivenNames v2
  clear_value v2
  exact keeps_putFur h1

theorem keeps_macCrossed {a s : State} {x1} (h : Keeps a s) : Keeps a (macCrossed s x1) := by
  unfold macCrossed
  extract_lets +onlyGivenNames v0
  clear_value v0
  extract_lets +onlyGivenNames v1
  have h2 : Keeps a v1 := keeps_ite (keeps_update h) h
  clear_value v1
  exact keeps_putFur h2

theorem keeps_macRewind {a s : State} {x1} (h : Keeps a s) : Keeps a (macRewind s x1) := by
  unfold macRewind
  extract_lets +onlyGivenNames v0
  clear_value v0
  exact keeps_furRewind (keeps_putFur h)

theorem keeps_macOverrun {a s : State} {x1} (h : Keeps a s) : Keeps a (macOverrun s x1) := by
  unfold macOverrun
  extract_lets +onlyGivenNames v0
  have h1 : Keeps a v0 := keeps_macRewind (keeps_update h)
  clear_value v0
  split
  · exact keeps_rewindFrame h1
  · extract_lets +onlyGivenNames v2
    clear_value v2
    extract_lets +onlyGivenNames v3
    have h4 : Keeps a v3 := keeps_putMac h1
    clear_value v3
    exact keeps_ite h4 (keeps_update h4)

theorem keeps_addrDrop {a s : State} {x1} {x2} (h : Keeps a s) : Keeps a (addrDrop s x1 x2) := by
  unfold addrDrop
  exact keeps_incSat (keeps_macRewind (keeps_macCross (keeps_macCrossed h)))

theorem keeps_macsecOver {a s : State} {x1} (h : Keeps a s) : Keeps a (macsecOver s x1) := by
  unfold macsecOver
  exact keeps_putMac (keeps_furRewound h)

theorem keeps_macsecPlot {a s : State} {x1} {x2} {x3} (h : Keeps a s) : Keeps a (macsecPlot s x1 x2 x3) := by
  unfold macsecPlot
  extract_lets +onlyGivenNames v0
  clear_value v0
  extract_lets +onlyGivenNames v1
  clear_value v1
  extract_lets +onlyGivenNames v2
  clear_value v2
  extract_lets +onlyGivenNames v3
  have h4 : Keeps a v3 := keeps_ite (keeps_putFur (keeps_putMac h)) h
  clear_value v3
  exact keeps_ite h4 (keeps_ite (keeps_macsecOver (keeps_update h4)) (keeps_putMac (keeps_furWrite h4)))

theorem keeps_ethPlot {a s : State} {x1} {x2} {x3} (h : Keeps a s) : Keeps a (ethPlot s x1 x2 x3) := by
  unfold ethPlot
  refine keeps_ite ?_ ?_
  · exact keeps_ite (keeps_macsecPlot h) h
  · extract_lets +onlyGivenNames v0
    clear_value v0
    extract_lets +onlyGivenNames v1
    have h2 : Keeps a v1 := keeps_ite (keeps_macCrossed (keeps_putMac h)) h
    clear_value v1
    refine keeps_ite ?_ ?_
    · exact h2
    · refine keeps_ite ?_ ?_
      · exact keeps_putMac h2
      · refine keeps_ite ?_ ?_
        · exact keeps_putMac (keeps_addrDrop h2)
        · refine keeps_ite ?_ ?_
          · exact h2
          · extract_lets +onlyGivenNames v3
            clear_value v3
            extract_lets +onlyGivenNames v4
            clear_value v4
            exact keeps_ite h2 (keeps_ite (keeps_macOverrun h2) (keeps_announceEarly (keeps_plotArrives (keeps_macCross h2))))

theorem keeps_ethRest {a s : State} {x1} {x2} {x3} (h : Keeps a s) : Keeps a (ethRest s x1 x2 x3) := by
  unfold ethRest
  refine keeps_forEach ?_ fun s2 x4 h3 => ?_
  · exact h
  · split
    · exact keeps_ethPlot h3

theorem keeps_headWhole {a s : State} {x1} (h : Keeps a s) : Keeps a (headWhole s x1) := by
  unfold headWhole
  extract_lets +onlyGivenNames v0
  clear_value v0
  exact keeps_update h

theorem keeps_frameCommit {a s : State} {x1} {x2} {x3} (h : Keeps a s) : Keeps a (frameCommit s x1 x2 x3) := by
  unfold frameCommit
  extract_lets +onlyGivenNames v0
  clear_value v0
  extract_lets +onlyGivenNames v1
  have h2 : Keeps a v1 := keeps_putFrame (keeps_update h)
  clear_value v1
  refine keeps_ite ?_ ?_
  · extract_lets +onlyGivenNames v3
    have h4 : Keeps a v3 := keeps_headWhole h2
    clear_value v3
    extract_lets +onlyGivenNames v5
    have h6 : Keeps a v5 := by
      unfold v5
      split
      · exact keeps_learnBus h4
      · exact h4
    clear_value v5
    exact keeps_freeIfDone h6
  · split
    · rename_i x7 x8 x9 e10
      have h11 := keeps_snd e10 (keeps_announce h2)
      exact keeps_ite (keeps_putFrame h11) (keeps_dropFrame h11)

theorem keeps_badCounted {a s : State} {x1} (h : Keeps a s) : Keeps a (badCounted s x1) := by
  unfold badCounted
  exact keeps_setBit (keeps_addStat h)

theorem keeps_rxGood {a s : State} {x1} {x2} {x3} (h : Keeps a s) : Keeps a (rxGood s x1 x2 x3) := by
  unfold rxGood
  extract_lets +onlyGivenNames v0
  clear_value v0
  extract_lets +onlyGivenNames v1
  have h2 : Keeps a v1 := keeps_addStat (keeps_addStat h)
  clear_value v1
  exact keeps_ite (keeps_addStat h2) (keeps_ite (keeps_addStat h2) h2)

theorem keeps_refund {a s : State} {x1} (h : Keeps a s) : Keeps a (refund s x1) := by
  unfold refund
  extract_lets +onlyGivenNames v0
  clear_value v0
  exact keeps_update h

theorem keeps_badCommit {a s : State} {x1} {x2} {x3} {x4} (h : Keeps a s) : Keeps a (badCommit s x1 x2 x3 x4) := by
  unfold badCommit
  extract_lets +onlyGivenNames v0
  clear_value v0
  extract_lets +onlyGivenNames v1
  have h2 : Keeps a v1 := keeps_withdraw (keeps_badCounted (keeps_forEach h fun s3 _ h4 => keeps_refund h4))
  clear_value v1
  extract_lets +onlyGivenNames v5
  clear_value v5
  extract_lets +onlyGivenNames v6
  have h7 : Keeps a v6 := keeps_putFrame (keeps_update h2)
  clear_value v6
  extract_lets +onlyGivenNames v8
  clear_value v8
  extract_lets +onlyGivenNames v9
  clear_value v9
  extract_lets +onlyGivenNames v10
  clear_value v10
  exact keeps_freeIfDone (keeps_releaseItem h7)

theorem keeps_rxEnd {a s : State} {x1} {x2} {x3} {x4} {x5} {x6} (h : Keeps a s) :
    Keeps a (rxEnd s x1 x2 x3 x4 x5 x6) := by
  unfold rxEnd
  refine keeps_ite ?_ ?_
  · exact keeps_rxGood (keeps_frameCommit (keeps_macCrossed h))
  · extract_lets +onlyGivenNames v0
    have h1 : Keeps a v0 := keeps_incSat h
    clear_value v0
    exact keeps_ite (keeps_badCommit (keeps_macCrossed h1)) (keeps_rewindOpen (keeps_macRewind h1))

theorem keeps_rxLost {a s : State} {x1} {x2} {x3} (h : Keeps a s) : Keeps a (rxLost s x1 x2 x3) := by
  unfold rxLost
  extract_lets +onlyGivenNames v0
  clear_value v0
  extract_lets +onlyGivenNames v1
  have h2 : Keeps a v1 := keeps_putMac h
  clear_value v1
  extract_lets +onlyGivenNames v3
  have h4 : Keeps a v3 := keeps_update h2
  clear_value v3
  refine keeps_ite ?_ ?_
  · extract_lets +onlyGivenNames v5
    have h6 : Keeps a v5 := keeps_rxGood (keeps_macCrossed h4)
    clear_value v5
    split
    · exact keeps_learnBus h6
    · exact h6
  · extract_lets +onlyGivenNames v7
    have h8 : Keeps a v7 := keeps_incSat h4
    clear_value v7
    exact keeps_ite (keeps_badCounted (keeps_macCrossed h8)) (keeps_macRewind h8)

theorem keeps_rxSkipped {a s : State} {x1} {x2} (h : Keeps a s) : Keeps a (rxSkipped s x1 x2) := by
  unfold rxSkipped
  exact keeps_ite (keeps_macRewind (keeps_incSat h)) h

theorem keeps_macsecRx {a s : State} {x1} {x2} {x3} {x4} (h : Keeps a s) : Keeps a (macsecRx s x1 x2 x3 x4) := by
  unfold macsecRx
  extract_lets +onlyGivenNames v0
  clear_value v0
  refine keeps_rxGood ?_
  extract_lets +onlyGivenNames v1
  have h2 : Keeps a v1 := keeps_furCommit h
  clear_value v1
  exact keeps_update h2

theorem keeps_macsecReceived {a s : State} {x1} {x2} {x3} {x4} {x5} (h : Keeps a s) :
    Keeps a (macsecReceived s x1 x2 x3 x4 x5) := by
  unfold macsecReceived
  extract_lets +onlyGivenNames v0
  clear_value v0
  extract_lets +onlyGivenNames v1
  clear_value v1
  extract_lets +onlyGivenNames v2
  clear_value v2
  extract_lets +onlyGivenNames v3
  have h4 : Keeps a v3 := keeps_putMac h
  clear_value v3
  extract_lets +onlyGivenNames v5
  have h6 : ∀ s, Keeps a s → Keeps a (v5 s) := by
    intro s h6'
    unfold v5
    exact keeps_putFur h6'
  clear_value v5
  extract_lets +onlyGivenNames v7
  have h8 : ∀ s, Keeps a s → Keeps a (v7 s) := by
    intro s h8'
    unfold v7
    exact keeps_incSat h8'
  clear_value v7
  refine keeps_ite ?_ ?_
  · exact keeps_ite (keeps_rxGood h4) (h8 _ h4)
  · refine keeps_ite ?_ ?_
    · exact keeps_ite (h6 _ h4) (keeps_furRewound (h8 _ h4))
    · refine keeps_ite ?_ ?_
      · exact keeps_addrDrop (h6 _ h4)
      · refine keeps_ite ?_ ?_
        · exact keeps_macsecRx h4
        · refine keeps_ite ?_ ?_
          · extract_lets +onlyGivenNames v9
            clear_value v9
            extract_lets +onlyGivenNames v10
            have h11 : Keeps a v10 := by
              unfold v10
              refine keeps_forEach ?_ fun s16 x18 h17 => ?_
              · exact h6 _ (h8 _ h4)
              · split
                · exact keeps_plotArrives h17
            clear_value v10
            split
            · exact keeps_badCommit h11
            · exact h11
          · exact keeps_furRewound (h8 _ h4)

theorem keeps_ethReceived {a s : State} {x1} {x2} {x3} {x4} {x5} {x6} {x7} {x8} (h : Keeps a s) :
    Keeps a (ethReceived s x1 x2 x3 x4 x5 x6 x7 x8) := by
  unfold ethReceived
  extract_lets +onlyGivenNames v0
  clear_value v0
  refine keeps_ite ?_ ?_
  · exact h
  · refine keeps_ite ?_ ?_
    · exact keeps_macsecReceived (keeps_handled (keeps_noteBusy (keeps_ethRest h)))
    · extract_lets +onlyGivenNames v1
      have h2 : Keeps a v1 := keeps_handled (keeps_noteBusy (keeps_ethRest h))
      clear_value v1
      extract_lets +onlyGivenNames v3
      clear_value v3
      extract_lets +onlyGivenNames v4
      have h5 : Keeps a v4 := keeps_ite (keeps_t1sHeard h2) h2
      clear_value v4
      refine keeps_ite ?_ ?_
      · exact keeps_rxSkipped (keeps_putMac h5)
      · split
        · exact keeps_rxEnd h5
        · exact keeps_ite (keeps_rxLost h5) (keeps_ite (keeps_incSat h5) h5)

theorem keeps_ethWrite {a s : State} {x1} {x2} (h : Keeps a s) : Keeps a (ethWrite s x1 x2).2 := by
  unfold ethWrite
  extract_lets +onlyGivenNames v0
  clear_value v0
  extract_lets +onlyGivenNames v1
  clear_value v1
  extract_lets +onlyGivenNames v2
  clear_value v2
  extract_lets +onlyGivenNames v3
  clear_value v3
  split
  · exact h
  · extract_lets +onlyGivenNames v4
    clear_value v4
    extract_lets +onlyGivenNames v5
    clear_value v5
    split
    · split
      · exact h
      · exact h
    · split
      · extract_lets +onlyGivenNames v6
        clear_value v6
        extract_lets +onlyGivenNames v7
        clear_value v7
        extract_lets +onlyGivenNames v8
        clear_value v8
        extract_lets +onlyGivenNames v9
        clear_value v9
        dsimp -zeta only
        exact keeps_update h
      · exact h

theorem keeps_ethComplete {a s : State} {x1} {x2} (h : Keeps a s) : Keeps a (ethComplete s x1 x2) := by
  unfold ethComplete
  extract_lets +onlyGivenNames v0
  clear_value v0
  extract_lets +onlyGivenNames v1
  clear_value v1
  extract_lets +onlyGivenNames v2
  have h3 : Keeps a v2 := keeps_addStat (keeps_addStat h)
  clear_value v2
  extract_lets +onlyGivenNames v4
  have h5 : Keeps a v4 := keeps_send h3
  clear_value v4
  exact keeps_flightOver (keeps_plcaUsed (keeps_handled h5))

theorem keeps_outBytes {a s : State} {x1} {x2} (h : Keeps a s) : Keeps a (outBytes s x1 x2).2 := by
  unfold outBytes
  split
  · exact h
  · exact keeps_ethWrite h

theorem keeps_txEnds {a s : State} {x1} {x2} {x3} (h : Keeps a s) : Keeps a (txEnds s x1 x2 x3) := by
  unfold txEnds
  split
  · exact h
  · refine keeps_ite ?_ ?_
    · exact keeps_flightOver h
    · split
      · rename_i x0 x1 x2 x3 x4 x5 e6
        have h7 := keeps_snd e6 (keeps_outBytes h)
        extract_lets +onlyGivenNames v8
        have h9 : Keeps a v8 := keeps_incSat (keeps_tsFails h7)
        clear_value v8
        extract_lets +onlyGivenNames v10
        clear_value v10
        split
        · rename_i x11 x12 x13 e14
          have h15 : Keeps a x13 := by
            refine keeps_snd e14 ?_
            split
            · exact h9
            · exact keeps_drawNat h9
          extract_lets +onlyGivenNames v16
          clear_value v16
          extract_lets +onlyGivenNames v17
          have h18 : Keeps a v17 := keeps_ite (keeps_send h15) (keeps_send h15)
          clear_value v17
          exact keeps_flightOver (keeps_plcaUsed h18)

theorem keeps_ethFails {a s : State} {x1} (h : Keeps a s) : Keeps a (ethFails s x1) := by
  unfold ethFails
  exact keeps_txEnds h

theorem keeps_txAbort {a s : State} {x1} (h : Keeps a s) : Keeps a (txAbort s x1) := by
  unfold txAbort
  exact keeps_txEnds h

theorem keeps_macBegins {a s : State} {x1} (h : Keeps a s) : Keeps a (macBegins s x1) := by
  unfold macBegins
  split
  · exact h
  · extract_lets +onlyGivenNames v0
    clear_value v0
    extract_lets +onlyGivenNames v1
    clear_value v1
    refine keeps_ite ?_ ?_
    · exact h
    · refine keeps_ite ?_ ?_
      · exact keeps_flightOver (keeps_incSat h)
      · refine keeps_ite ?_ ?_
        · exact keeps_flightOver h
        · extract_lets +onlyGivenNames v2
          have h3 : Keeps a v2 := keeps_latency (keeps_putMac h)
          clear_value v2
          exact keeps_ite (keeps_tsPlace h3) h3

theorem keeps_macsBegin {a s : State} (h : Keeps a s) : Keeps a (macsBegin s) := by
  unfold macsBegin
  exact keeps_forEach h fun s0 _ h1 => keeps_macBegins h1

theorem keeps_ethSent {a s : State} {x1} {x2} {x3} (h : Keeps a s) : Keeps a (ethSent s x1 x2 x3) := by
  unfold ethSent
  split
  · exact h
  · extract_lets +onlyGivenNames v0
    clear_value v0
    refine keeps_ite ?_ ?_
    · exact h
    · refine keeps_ite ?_ ?_
      · exact keeps_stompFlight h
      · refine keeps_ite ?_ ?_
        · extract_lets +onlyGivenNames v1
          have h2 : Keeps a v1 := keeps_txEnds h
          clear_value v1
          exact keeps_update h2
        · refine keeps_ite ?_ ?_
          · exact h
          · split
            · rename_i x3 x4 x5 x6 x7 x8 e9
              have h10 := keeps_snd e9 (keeps_outBytes h)
              exact keeps_ethComplete h10
            · rename_i x11 x12 x13 x14 x15 e16
              have h17 := keeps_snd e16 (keeps_outBytes h)
              exact keeps_flightOver h17

theorem keeps_linkDown {a s : State} {x1} (h : Keeps a s) : Keeps a (linkDown s x1) := by
  unfold linkDown
  refine keeps_ite ?_ ?_
  · exact h
  · extract_lets +onlyGivenNames v0
    have h1 : Keeps a v0 := keeps_setBit (keeps_clrBit (keeps_clrBit h))
    clear_value v0
    extract_lets +onlyGivenNames v2
    clear_value v2
    extract_lets +onlyGivenNames v3
    have h4 : Keeps a v3 := keeps_putMac h1
    clear_value v3
    exact keeps_refreshOutput (keeps_txAbort h4)

theorem keeps_linkLapses {a s : State} {x1} (h : Keeps a s) : Keeps a (linkLapses s x1) := by
  unfold linkLapses
  exact keeps_ite h (keeps_clrBit (keeps_linkDown h))

theorem keeps_linkUp {a s : State} {x1} {x2} {x3} {x4} (h : Keeps a s) : Keeps a (linkUp s x1 x2 x3 x4) := by
  unfold linkUp
  extract_lets +onlyGivenNames v0
  have h1 : Keeps a v0 := keeps_ite (keeps_setBit h) h
  clear_value v0
  extract_lets +onlyGivenNames v2
  clear_value v2
  refine keeps_ite ?_ ?_
  · exact h1
  · split
    · extract_lets +onlyGivenNames v3
      have h4 : Keeps a v3 := keeps_putBit (keeps_setFld (keeps_setBit h1))
      clear_value v3
      exact keeps_refreshOutput (keeps_setBit h4)

theorem keeps_speedChange {a s : State} {x1} {x2} {x3} (h : Keeps a s) : Keeps a (speedChange s x1 x2 x3) := by
  unfold speedChange
  split
  · exact keeps_ite (keeps_putBit (keeps_setFld (keeps_linkDown h))) h

theorem keeps_pauseClass {a s : State} {x1} {x2} {x3} (h : Keeps a s) : Keeps a (pauseClass s x1 x2 x3) := by
  unfold pauseClass
  extract_lets +onlyGivenNames v0
  clear_value v0
  refine keeps_ite ?_ ?_
  · exact keeps_clrBit (keeps_putMac h)
  · extract_lets +onlyGivenNames v1
    clear_value v1
    exact keeps_setBit (keeps_putMac h)

theorem keeps_macControl {a s : State} {x1} {x2} (h : Keeps a s) : Keeps a (macControl s x1 x2) := by
  unfold macControl
  refine keeps_ite ?_ ?_
  · exact h
  · extract_lets +onlyGivenNames v0
    clear_value v0
    refine keeps_ite ?_ ?_
    · exact h
    · extract_lets +onlyGivenNames v1
      have h2 : Keeps a v1 := keeps_incSat h
      clear_value v1
      exact keeps_ite h2 (keeps_ite (keeps_noteStuck (keeps_forEach h2
          fun s3 _ h4 => keeps_pauseClass h4)) (keeps_ite h2 (keeps_noteStuck (keeps_forEach h2
              fun s5 _ h6 => keeps_ite (keeps_pauseClass h6) h6))))

theorem keeps_pauseEnd {a s : State} {x1} {x2} (h : Keeps a s) : Keeps a (pauseEnd s x1 x2) := by
  unfold pauseEnd
  split
  · exact keeps_ite (keeps_noteStuck (keeps_pauseClass h)) h
  · exact h

theorem keeps_pauseRefresh {a s : State} {x1} (h : Keeps a s) : Keeps a (pauseRefresh s x1) := by
  unfold pauseRefresh
  exact keeps_ite (keeps_sendControl h) h

theorem keeps_collision {a s : State} {x1} {x2} (h : Keeps a s) : Keeps a (collision s x1 x2) := by
  unfold collision
  refine keeps_ite ?_ ?_
  · exact h
  · extract_lets +onlyGivenNames v0
    clear_value v0
    extract_lets +onlyGivenNames v1
    have h2 : Keeps a v1 := keeps_send (keeps_incSat h)
    clear_value v1
    refine keeps_ite ?_ ?_
    · exact keeps_flightOver (keeps_incSat (keeps_tsFails h2))
    · extract_lets +onlyGivenNames v3
      clear_value v3
      extract_lets +onlyGivenNames v4
      clear_value v4
      refine keeps_ite ?_ ?_
      · exact keeps_flightOver (keeps_incSat (keeps_tsFails h2))
      · split
        · rename_i x5 x6 x7 e8
          have h9 := keeps_snd e8 (keeps_drawNat h2)
          extract_lets +onlyGivenNames v10
          clear_value v10
          extract_lets +onlyGivenNames v11
          have h12 : Keeps a v11 := keeps_noteBusy h9
          clear_value v11
          exact keeps_serveControl (keeps_putMac h12)

theorem keeps_backoffEnd {a s : State} {x1} (h : Keeps a s) : Keeps a (backoffEnd s x1) := by
  unfold backoffEnd
  split
  · exact keeps_ite (keeps_putMac h) h
  · exact h

theorem keeps_forcedJam {a s : State} {x1} (h : Keeps a s) : Keeps a (forcedJam s x1) := by
  unfold forcedJam
  exact keeps_ite (keeps_send (keeps_incSat h)) h

theorem keeps_plcaTurn {a s : State} {x1} {x2} (h : Keeps a s) : Keeps a (plcaTurn s x1 x2) := by
  unfold plcaTurn
  refine keeps_ite ?_ ?_
  · exact h
  · refine keeps_ite ?_ ?_
    · extract_lets +onlyGivenNames v0
      clear_value v0
      extract_lets +onlyGivenNames v1
      have h2 : Keeps a v1 := keeps_ite (keeps_send h) h
      clear_value v1
      exact keeps_serveControl (keeps_putMac h2)
    · exact keeps_ite (keeps_putMac h) h

theorem keeps_timeStep {a s : State} (h : Keeps a s) : Keeps a (timeStep s) := by
  unfold timeStep
  extract_lets +onlyGivenNames v0
  clear_value v0
  extract_lets +onlyGivenNames v1
  clear_value v1
  exact keeps_gatesCut (keeps_update h)

theorem keeps_timeCommit {a s : State} {x1} (h : Keeps a s) : Keeps a (timeCommit s x1) := by
  unfold timeCommit
  exact keeps_gatesCut (keeps_update h)

theorem keeps_macRestart {a s : State} {x1} (h : Keeps a s) : Keeps a (macRestart s x1) := by
  unfold macRestart
  extract_lets +onlyGivenNames v0
  have h1 : Keeps a v0 := keeps_putMac (keeps_txAbort (keeps_rewindOpen h))
  clear_value v0
  extract_lets +onlyGivenNames v2
  have h3 : Keeps a v2 := keeps_update h1
  clear_value v2
  extract_lets +onlyGivenNames v4
  have h5 : Keeps a v4 := keeps_clearHeads h3
  clear_value v4
  exact keeps_refreshOutput (keeps_update h5)

theorem keeps_macRun {a s : State} {x1} (h : Keeps a s) : Keeps a (macRun s x1) := by
  unfold macRun
  exact keeps_refreshOutput (keeps_putMac h)

theorem keeps_macToFallow {a s : State} {x1} {x2} (h : Keeps a s) : Keeps a (macToFallow s x1 x2) := by
  unfold macToFallow
  extract_lets +onlyGivenNames v0
  clear_value v0
  refine keeps_ite ?_ ?_
  · exact h
  · extract_lets +onlyGivenNames v1
    have h2 : Keeps a v1 := keeps_rewindOpen (keeps_linkDown h)
    clear_value v1
    extract_lets +onlyGivenNames v3
    have h4 : Keeps a v3 := keeps_setBit (keeps_setBit (keeps_update h2))
    clear_value v3
    extract_lets +onlyGivenNames v5
    have h6 : Keeps a v5 := keeps_retire h4
    clear_value v5
    extract_lets +onlyGivenNames v7
    clear_value v7
    extract_lets +onlyGivenNames v8
    have h9 : Keeps a v8 := keeps_refreshOutput (keeps_putMac h6)
    clear_value v8
    exact keeps_ite (keeps_refreshTrx h9) h9

end Sys2Proof.Machine
end

