-- ==== Sys2Proof/Laws/KeepsSecurity.lean ====
section
/-! SUPPORT. What Laws/Keeps.lean says, of the security unit, table ports, pairing and links. -/
namespace Sys2Proof.Machine

/-! ## Machine/Security.lean -/

theorem keeps_serviceWork {a s : State} {x1} {x2} (h : Keeps a s) : Keeps a (serviceWork s x1 x2) := by
  unfold serviceWork
  exact keeps_update h

theorem keeps_entropySeed {a s : State} (h : Keeps a s) : Keeps a (entropySeed s).2 := by
  unfold entropySeed
  extract_lets +onlyGivenNames v0
  have h1 : ∀ s, Keeps a s → Keeps a (v0 s).2 := by
    intro s h1'
    unfold v0
    exact keeps_drawBytes h1'
  clear_value v0
  extract_lets +onlyGivenNames v2
  clear_value v2
  split
  · rename_i x3 x4 x5 e6
    have h7 := keeps_snd e6 (h1 _ h)
    split
    · rename_i x8 x9 x10 e11
      have h12 := keeps_snd e11 (h1 _ h7)
      split
      · rename_i x13 x14 x15 e16
        have h17 := keeps_snd e16 (h1 _ h12)
        exact h17

theorem keeps_drbgSeed {a s : State} {x1} (h : Keeps a s) : Keeps a (drbgSeed s x1) := by
  unfold drbgSeed
  split
  · rename_i x0 x1 x2 e3
    have h4 := keeps_snd e3 (keeps_entropySeed h)
    extract_lets +onlyGivenNames v5
    clear_value v5
    extract_lets +onlyGivenNames v6
    clear_value v6
    exact keeps_update h4

theorem keeps_drbgRequest {a s : State} {x1} {x2} (h : Keeps a s) : Keeps a (drbgRequest s x1 x2).2 := by
  unfold drbgRequest
  extract_lets +onlyGivenNames v0
  have h1 : Keeps a v0 := keeps_ite (keeps_drbgSeed h) h
  clear_value v0
  extract_lets +onlyGivenNames v2
  clear_value v2
  extract_lets +onlyGivenNames v3
  clear_value v3
  extract_lets +onlyGivenNames v4
  clear_value v4
  dsimp -zeta only
  exact keeps_update h1

theorem keeps_keyLoad {a s : State} {x1} {x2} {x3} {x4} (h : Keeps a s) : Keeps a (keyLoad s x1 x2 x3 x4) := by
  unfold keyLoad
  extract_lets +onlyGivenNames v0
  clear_value v0
  exact keeps_update h

theorem keeps_keyParity {a s : State} {x1} (h : Keeps a s) : Keeps a (keyParity s x1) := by
  unfold keyParity
  extract_lets +onlyGivenNames v0
  clear_value v0
  extract_lets +onlyGivenNames v1
  have h2 : Keeps a v1 := keeps_incSat (keeps_update h)
  clear_value v1
  split
  · rename_i x3 x4 x5 e6
    have h7 := keeps_snd e6 (keeps_classFault h2)
    extract_lets +onlyGivenNames v8
    have h9 : Keeps a v8 := keeps_raiseRec h7
    clear_value v8
    refine keeps_ite ?_ ?_
    · exact keeps_retire (keeps_update h9)
    · split
      · split
        · exact keeps_serviceWork (keeps_keyLoad h9)
        · exact h9
      · exact h9

theorem keeps_putFv {a s : State} {x1} {x2} {x3} {x4} (h : Keeps a s) : Keeps a (putFv s x1 x2 x3 x4) := by
  unfold putFv
  exact keeps_tPut h

theorem keeps_setFv {a s : State} {x1} {x2} {x3} (h : Keeps a s) : Keeps a (setFv s x1 x2 x3) := by
  unfold setFv
  extract_lets +onlyGivenNames v0
  clear_value v0
  extract_lets +onlyGivenNames v1
  have h2 : Keeps a v1 := keeps_mirrorOut (keeps_putFv h)
  clear_value v1
  extract_lets +onlyGivenNames v3
  clear_value v3
  exact keeps_ite (keeps_update h2) h2

theorem keeps_saveFv {a s : State} {x1} (h : Keeps a s) : Keeps a (saveFv s x1) := by
  unfold saveFv
  split
  · extract_lets +onlyGivenNames v0
    clear_value v0
    exact keeps_ite (keeps_update h) h
  · exact h

theorem keeps_secFail {a s : State} {x1} {x2} (h : Keeps a s) : Keeps a (secFail s x1 x2) := by
  unfold secFail
  extract_lets +onlyGivenNames v0
  have h1 : Keeps a v0 := keeps_incSat h
  clear_value v0
  exact keeps_ite h1 (keeps_wr h1)

theorem keeps_laneBusy {a s : State} {x1} (h : Keeps a s) : Keeps a (laneBusy s x1) := by
  unfold laneBusy
  exact keeps_putBit h

theorem keeps_laneTake {a s t : State} {y} {x1} {x2} (e : laneTake s x1 x2 = some (y, t)) (h : Keeps a s) : Keeps a t := by
  unfold laneTake at e
  split at e
  · extract_lets +onlyGivenNames s1 at e
    have h1 : Keeps a s1 := keeps_laneBusy (keeps_update h)
    clear_value s1
    cases e
    exact keeps_ite h1 (keeps_handled h1)
  · cases e

theorem keeps_laneVoid {a s : State} {x1} (h : Keeps a s) : Keeps a (laneVoid s x1) := by
  unfold laneVoid
  refine keeps_ite ?_ ?_
  · exact keeps_update h
  · extract_lets +onlyGivenNames v0
    have h1 : Keeps a v0 := keeps_reseqVoid h
    clear_value v0
    split
    · exact keeps_ite (keeps_flightOver h1) (keeps_freeIfDone h1)
    · exact h1

theorem keeps_laneRelease {a s : State} {x1} {x2} {x3} (h : Keeps a s) : Keeps a (laneRelease s x1 x2 x3) := by
  unfold laneRelease
  extract_lets +onlyGivenNames v0
  clear_value v0
  extract_lets +onlyGivenNames v1
  have h2 : Keeps a v1 := keeps_reseqArrive h
  clear_value v1
  split
  · exact keeps_ite (keeps_afterPlacing h2) h2
  · exact h2

theorem keeps_maskSeed {a s : State} {x1} (h : Keeps a s) : Keeps a (maskSeed s x1) := by
  unfold maskSeed
  refine keeps_ite ?_ ?_
  · split
    · rename_i x0 x1 x2 e3
      have h4 := keeps_snd e3 (keeps_drbgRequest h)
      exact keeps_serviceWork (keeps_update h4)
  · extract_lets +onlyGivenNames v5
    clear_value v5
    exact keeps_update h

theorem keeps_laneBlocks {a s : State} {x1} {x2} (h : Keeps a s) : Keeps a (laneBlocks s x1 x2) := by
  unfold laneBlocks
  extract_lets +onlyGivenNames v0
  have h1 : Keeps a v0 := keeps_addStat h
  clear_value v0
  split
  · extract_lets +onlyGivenNames v2
    have h3 : Keeps a v2 := keeps_update h1
    clear_value v2
    exact keeps_ite (keeps_maskSeed h3) h3
  · exact h1

theorem keeps_laneHolds {a s : State} {x1} {x2} (h : Keeps a s) : Keeps a (laneHolds s x1 x2) := by
  unfold laneHolds
  exact keeps_furWrite h

theorem keeps_laneCommits {a s : State} {x1} (h : Keeps a s) : Keeps a (laneCommits s x1) := by
  unfold laneCommits
  extract_lets +onlyGivenNames v0
  have h1 : Keeps a v0 := keeps_furCommit h
  clear_value v0
  exact keeps_putFur h1

theorem keeps_laneRewinds {a s : State} {x1} (h : Keeps a s) : Keeps a (laneRewinds s x1) := by
  unfold laneRewinds
  extract_lets +onlyGivenNames v0
  have h1 : Keeps a v0 := keeps_furRewound h
  clear_value v0
  exact keeps_putFur h1

theorem keeps_laneFault {a s : State} {x1} {x2} (h : Keeps a s) : Keeps a (laneFault s x1 x2) := by
  unfold laneFault
  extract_lets +onlyGivenNames v0
  clear_value v0
  extract_lets +onlyGivenNames v1
  have h2 : Keeps a v1 := keeps_ite (keeps_laneRewinds h) h
  clear_value v1
  extract_lets +onlyGivenNames v3
  have h4 : Keeps a v3 := keeps_setBit (keeps_incSat h2)
  clear_value v3
  extract_lets +onlyGivenNames v5
  have h6 : Keeps a v5 := keeps_raiseRec h4
  clear_value v5
  exact keeps_laneVoid (keeps_update h6)

theorem keeps_lanePoison {a s : State} {x1} {x2} (h : Keeps a s) : Keeps a (lanePoison s x1 x2) := by
  unfold lanePoison
  exact keeps_laneVoid (keeps_incSat (keeps_ite (keeps_laneRewinds h) h))

theorem keeps_growFrame {a s t : State} {x0} {x2} (e : growFrame x0 s x2 = some t) (h : Keeps a s) : Keeps a t := by
  induction x0 generalizing s with
  | zero => cases e; exact h
  | succ n ih =>
    unfold growFrame at e
    extract_lets +onlyGivenNames f at e
    split at e
    · rename_i e2
      exact ih e (keeps_evalAll (keeps_putFrame (keeps_takePlot e2 h)))
    · cases e

theorem keeps_placeSecured {a s t : State} {y} {x1} {x2} (e : placeSecured s x1 x2 = some (y, t)) (h : Keeps a s) :
    Keeps a t := by
  unfold placeSecured at e
  split at e
  · extract_lets +onlyGivenNames f form at e
    split at e
    extract_lets +onlyGivenNames more at e
    split at e
    · rename_i e2
      cases e
      exact keeps_growFrame e2 (keeps_putFrame h)
    · cases e
  · cases e
    exact h

theorem keeps_laneExhausts {a s : State} {x1} (h : Keeps a s) : Keeps a (laneExhausts s x1) := by
  unfold laneExhausts
  refine keeps_laneVoid ?_
  split
  · exact keeps_countExhausted h
  · exact h

theorem keeps_secRefuse {a s : State} {x1} {x2} (h : Keeps a s) : Keeps a (secRefuse s x1 x2) := by
  unfold secRefuse
  exact keeps_laneVoid (keeps_secFail h)

theorem keeps_secKey {a s : State} {x1} {x2} {x3} (h : Keeps a s) : Keeps a (secKey s x1 x2 x3).2 := by
  unfold secKey
  extract_lets +onlyGivenNames v0
  clear_value v0
  split
  · split
    · dsimp -zeta only
      exact keeps_keyParity h
    · exact h
  · exact h

theorem keeps_secGenerate {a s : State} {x1} {x2} {x3} {x4} (h : Keeps a s) : Keeps a (secGenerate s x1 x2 x3 x4) := by
  unfold secGenerate
  extract_lets +onlyGivenNames v0
  clear_value v0
  refine keeps_ite ?_ ?_
  · exact keeps_secRefuse h
  · refine keeps_ite ?_ ?_
    · exact keeps_secRefuse (keeps_putFv h)
    · extract_lets +onlyGivenNames v1
      clear_value v1
      extract_lets +onlyGivenNames v2
      have h3 : Keeps a v2 := keeps_setFv h
      clear_value v2
      split
      · rename_i x4 x5 e6
        have h7 := keeps_snd e6 (keeps_secKey h3)
        exact keeps_secRefuse h7
      · rename_i x8 x9 x10 e11
        have h12 := keeps_snd e11 (keeps_secKey h3)
        extract_lets +onlyGivenNames v13
        clear_value v13
        extract_lets +onlyGivenNames v14
        have h15 : Keeps a v14 := keeps_laneBlocks h12
        clear_value v14
        split
        · rename_i x16 x17 x18 e19
          have h20 := keeps_placeSecured e19 h15
          exact keeps_laneRelease (keeps_addStat h20)
        · exact keeps_laneExhausts h15

theorem keeps_verifiedCopies {a s t : State} {y} {x1} {x2} {x3} (e : verifiedCopies s x1 x2 x3 = some (y, t)) (h : Keeps a s) :
    Keeps a t := by
  unfold verifiedCopies at e
  split at e
  · exact keeps_placeSecured e h
  · cases e
    exact h

theorem keeps_secVerify {a s : State} {x1} {x2} {x3} {x4} (h : Keeps a s) : Keeps a (secVerify s x1 x2 x3 x4) := by
  unfold secVerify
  extract_lets +onlyGivenNames v0
  clear_value v0
  extract_lets +onlyGivenNames v1
  clear_value v1
  refine keeps_ite ?_ ?_
  · exact keeps_secRefuse h
  · extract_lets +onlyGivenNames v2
    clear_value v2
    extract_lets +onlyGivenNames v3
    clear_value v3
    extract_lets +onlyGivenNames v4
    clear_value v4
    refine keeps_ite ?_ ?_
    · exact keeps_secRefuse h
    · split
      · rename_i x5 x6 e7
        have h8 := keeps_snd e7 (keeps_secKey h)
        exact keeps_secRefuse h8
      · rename_i x9 x10 x11 e12
        have h13 := keeps_snd e12 (keeps_secKey h)
        extract_lets +onlyGivenNames v14
        have h15 : Keeps a v14 := keeps_laneBlocks h13
        clear_value v14
        refine keeps_ite ?_ ?_
        · exact keeps_secRefuse h15
        · extract_lets +onlyGivenNames v16
          have h17 : Keeps a v16 := keeps_addStat (keeps_setFv h15)
          clear_value v16
          split
          · rename_i x18 x19 x20 e21
            have h22 := keeps_verifiedCopies e21 h17
            exact keeps_laneRelease h22
          · exact keeps_laneExhausts h17

theorem keeps_laneSecoc {a s : State} {x1} {x2} {x3} (h : Keeps a s) : Keeps a (laneSecoc s x1 x2 x3) := by
  unfold laneSecoc
  split
  · exact h
  · rename_i x0 x1 x2 e3
    have h4 := keeps_laneTake e3 h
    refine keeps_ite ?_ ?_
    · exact h
    · extract_lets +onlyGivenNames v5
      clear_value v5
      extract_lets +onlyGivenNames v6
      clear_value v6
      refine keeps_ite ?_ ?_
      · exact keeps_secRefuse (keeps_ite (keeps_flagEntry h4) h4)
      · split
        · exact keeps_laneRelease h4
        · extract_lets +onlyGivenNames v7
          clear_value v7
          exact keeps_ite (keeps_laneRelease h4) (keeps_ite h (keeps_ite (keeps_lanePoison h4) (keeps_ite
              (keeps_laneFault h4) (keeps_ite (keeps_secRefuse (keeps_putFv h4)) (keeps_ite (keeps_secRefuse h4) (keeps_ite
                  (keeps_secGenerate h4) (keeps_secVerify h4)))))))

theorem keeps_countSecy {a s : State} {x1} {x2} (h : Keeps a s) : Keeps a (countSecy s x1 x2) := by
  unfold countSecy
  exact keeps_addStat h

theorem keeps_putPn {a s : State} {x1} {x2} {x3} (h : Keeps a s) : Keeps a (putPn s x1 x2 x3) := by
  unfold putPn
  exact keeps_tPut h

theorem keeps_pnEvent {a s : State} {x1} {x2} (h : Keeps a s) : Keeps a (pnEvent s x1 x2) := by
  unfold pnEvent
  exact keeps_ite (keeps_setBit h) h

theorem keeps_advancePn {a s : State} {x1} {x2} (h : Keeps a s) : Keeps a (advancePn s x1 x2) := by
  unfold advancePn
  extract_lets +onlyGivenNames v0
  clear_value v0
  extract_lets +onlyGivenNames v1
  clear_value v1
  extract_lets +onlyGivenNames v2
  clear_value v2
  extract_lets +onlyGivenNames v3
  have h4 : Keeps a v3 := keeps_putPn h
  clear_value v3
  exact keeps_ite (keeps_pnEvent h4) h4

theorem keeps_macKey {a s : State} {x1} {x2} {x3} {x4} (h : Keeps a s) : Keeps a (macKey s x1 x2 x3 x4).2 := by
  unfold macKey
  split
  · split
    · dsimp -zeta only
      exact keeps_keyParity h
    · exact h
  · exact h

theorem keeps_txDrop {a s : State} {x1} (h : Keeps a s) : Keeps a (txDrop s x1) := by
  unfold txDrop
  exact keeps_laneVoid (keeps_countSecy h)

theorem keeps_secQuarDrop {a s : State} {x1} {x2} (h : Keeps a s) : Keeps a (secQuarDrop s x1 x2) := by
  unfold secQuarDrop
  refine keeps_laneVoid ?_
  refine keeps_incSat ?_
  split
  · exact keeps_flagEntry h
  · exact h

theorem keeps_laneProtect {a s : State} {x1} {x2} (h : Keeps a s) : Keeps a (laneProtect s x1 x2) := by
  unfold laneProtect
  split
  · exact h
  · rename_i x0 x1 x2 e3
    have h4 := keeps_laneTake e3 h
    refine keeps_ite ?_ ?_
    · exact h
    · extract_lets +onlyGivenNames v5
      clear_value v5
      extract_lets +onlyGivenNames v6
      clear_value v6
      extract_lets +onlyGivenNames v7
      clear_value v7
      refine keeps_ite ?_ ?_
      · exact keeps_lanePoison h4
      · refine keeps_ite ?_ ?_
        · exact keeps_laneFault h4
        · refine keeps_ite ?_ ?_
          · exact keeps_secQuarDrop h4
          · refine keeps_ite ?_ ?_
            · exact keeps_laneRelease (keeps_laneBlocks h4)
            · refine keeps_ite ?_ ?_
              · exact keeps_txDrop h4
              · refine keeps_ite ?_ ?_
                · exact keeps_laneRelease h4
                · refine keeps_ite ?_ ?_
                  · exact keeps_secQuarDrop h4
                  · refine keeps_ite ?_ ?_
                    · exact keeps_txDrop h4
                    · split
                      · rename_i x8 x9 e10
                        have h11 := keeps_snd e10 (keeps_macKey h4)
                        exact keeps_txDrop (keeps_incSat h11)
                      · rename_i x12 x13 x14 e15
                        have h16 := keeps_snd e15 (keeps_macKey h4)
                        extract_lets +onlyGivenNames v17
                        have h18 : Keeps a v17 := keeps_countSecy (keeps_laneBlocks h16)
                        clear_value v17
                        exact keeps_laneRelease h18

theorem keeps_rxDrop {a s : State} {x1} {x2} (h : Keeps a s) : Keeps a (rxDrop s x1 x2) := by
  unfold rxDrop
  exact keeps_laneVoid (keeps_countSecy h)

theorem keeps_rxValidate {a s : State} {x1} {x2} {x3} {x4} {x5} (h : Keeps a s) :
    Keeps a (rxValidate s x1 x2 x3 x4 x5) := by
  unfold rxValidate
  extract_lets +onlyGivenNames v0
  clear_value v0
  split
  · exact keeps_rxDrop h
  · exact keeps_secQuarDrop h
  · extract_lets +onlyGivenNames v1
    clear_value v1
    refine keeps_ite ?_ ?_
    · exact keeps_secQuarDrop h
    · refine keeps_ite ?_ ?_
      · exact keeps_secQuarDrop h
      · extract_lets +onlyGivenNames v2
        clear_value v2
        split
        · rename_i x3 x4 x5 x6 x7 e8
          have h9 := keeps_snd e8 (keeps_macKey h)
          exact keeps_rxDrop (keeps_incSat h9)
        · rename_i x10 x11 x12 x13 x14 x15 e16
          have h17 := keeps_snd e16 (keeps_macKey h)
          extract_lets +onlyGivenNames v18
          clear_value v18
          extract_lets +onlyGivenNames v19
          clear_value v19
          extract_lets +onlyGivenNames v20
          clear_value v20
          extract_lets +onlyGivenNames v21
          clear_value v21
          extract_lets +onlyGivenNames v22
          have h23 : Keeps a v22 := keeps_laneHolds (keeps_laneBlocks h17)
          clear_value v22
          exact keeps_ite (keeps_laneRelease (keeps_laneCommits h23)) (keeps_rxDrop (keeps_laneRewinds h23))

theorem keeps_laneReceive {a s : State} {x1} {x2} (h : Keeps a s) : Keeps a (laneReceive s x1 x2) := by
  unfold laneReceive
  split
  · exact h
  · rename_i x0 x1 x2 e3
    have h4 := keeps_laneTake e3 h
    refine keeps_ite ?_ ?_
    · exact h
    · extract_lets +onlyGivenNames v5
      clear_value v5
      extract_lets +onlyGivenNames v6
      clear_value v6
      refine keeps_ite ?_ ?_
      · exact keeps_lanePoison h4
      · refine keeps_ite ?_ ?_
        · exact keeps_laneFault h4
        · refine keeps_ite ?_ ?_
          · exact keeps_secQuarDrop h4
          · refine keeps_ite ?_ ?_
            · exact keeps_laneRelease (keeps_laneBlocks h4)
            · refine keeps_ite ?_ ?_
              · exact keeps_ite (keeps_rxDrop h4) (keeps_laneRelease (keeps_countSecy h4))
              · extract_lets +onlyGivenNames v7
                clear_value v7
                exact keeps_ite (keeps_rxDrop h4) (keeps_rxValidate h4)

theorem keeps_plainArrives {a s : State} {x1} (h : Keeps a s) : Keeps a (plainArrives s x1) := by
  unfold plainArrives
  extract_lets +onlyGivenNames v0
  clear_value v0
  extract_lets +onlyGivenNames v1
  have h2 : Keeps a v1 := by
    unfold v1
    refine keeps_forEach ?_ fun s7 x9 h8 => ?_
    · exact h
    · split
      · exact keeps_plotArrives h8
  clear_value v1
  split
  · extract_lets +onlyGivenNames v10
    clear_value v10
    extract_lets +onlyGivenNames v11
    have h12 : Keeps a v11 := keeps_frameCommit (keeps_putFrame h2)
    clear_value v11
    refine keeps_ite ?_ ?_
    · extract_lets +onlyGivenNames v13
      have h14 : Keeps a v13 := keeps_update h12
      clear_value v13
      exact keeps_putFrame h14
    · exact h12
  · exact keeps_update h2

theorem keeps_macDeliver {a s : State} {x1} (h : Keeps a s) : Keeps a (macDeliver s x1) := by
  unfold macDeliver
  refine keeps_ite ?_ ?_
  · exact keeps_ite (keeps_update h) h
  · split
    · exact keeps_plainArrives h
    · extract_lets +onlyGivenNames v0
      clear_value v0
      refine keeps_ite ?_ ?_
      · exact keeps_countSecy h
      · extract_lets +onlyGivenNames v1
        have h2 : Keeps a v1 := keeps_putPn h
        clear_value v1
        exact keeps_plainArrives (keeps_countSecy h2)

theorem keeps_serveMac {a s : State} (h : Keeps a s) : Keeps a (serveMac s) := by
  unfold serveMac
  extract_lets +onlyGivenNames v0
  clear_value v0
  exact keeps_forEach (keeps_update h) fun s1 _ h2 => keeps_macDeliver h2

theorem keeps_protectNext {a s : State} {x1} (h : Keeps a s) : Keeps a (protectNext s x1) := by
  unfold protectNext
  split
  · exact h
  · refine keeps_ite ?_ ?_
    · exact h
    · split
      · rename_i x0 x1 x2 x3 x4 e5
        have h6 := keeps_snd e5 (keeps_ethWrite h)
        exact keeps_flightOver h6
      · rename_i x7 x8 x9 x10 x11 x12 e13
        have h14 := keeps_snd e13 (keeps_ethWrite h)
        extract_lets +onlyGivenNames v15
        clear_value v15
        exact keeps_update h14

theorem keeps_takeNumber {a s : State} {x1} (h : Keeps a s) : Keeps a (takeNumber s x1).2.2 := by
  unfold takeNumber
  extract_lets +onlyGivenNames v0
  clear_value v0
  dsimp -zeta only
  exact keeps_update h

theorem keeps_leavesFurrow {a s : State} {x1} (h : Keeps a s) : Keeps a (leavesFurrow s x1).2 := by
  unfold leavesFurrow
  split
  · extract_lets +onlyGivenNames v0
    clear_value v0
    extract_lets +onlyGivenNames v1
    clear_value v1
    extract_lets +onlyGivenNames v2
    clear_value v2
    split
    · exact h
    · extract_lets +onlyGivenNames v3
      clear_value v3
      dsimp -zeta only
      exact keeps_furSettle (keeps_putFur h)
  · exact h

theorem keeps_dispatch {a s : State} (h : Keeps a s) : Keeps a (dispatch s) := by
  unfold dispatch
  split
  · refine keeps_ite ?_ ?_
    · exact h
    · split
      · rename_i x0 x1 x2 x3 x4 x5 x6 x7 x8 e9
        have h10 := keeps_snd e9 (keeps_leavesFurrow (keeps_update h))
        extract_lets +onlyGivenNames v11
        clear_value v11
        split
        · rename_i x12 x13 x14 x15 e16
          have h17 : Keeps a x15 := by
            refine keeps_thd e16 ?_
            split
            · exact h10
            · exact keeps_takeNumber h10
          extract_lets +onlyGivenNames v18
          clear_value v18
          extract_lets +onlyGivenNames v19
          clear_value v19
          extract_lets +onlyGivenNames v20
          clear_value v20
          extract_lets +onlyGivenNames v21
          clear_value v21
          extract_lets +onlyGivenNames v22
          have h23 : Keeps a v22 := by
            unfold v22
            split
            · exact keeps_advancePn h17
            · exact h17
          clear_value v22
          extract_lets +onlyGivenNames v24
          clear_value v24
          exact keeps_laneBusy (keeps_update h23)
  · exact h

theorem keeps_markStart {a s : State} {x1} (h : Keeps a s) : Keeps a (markStart s x1) := by
  unfold markStart
  extract_lets +onlyGivenNames v0
  clear_value v0
  exact keeps_update h

theorem keeps_secWritten {a s : State} {x1} {x2} {x3} (h : Keeps a s) : Keeps a (secWritten s x1 x2 x3) := by
  unfold secWritten
  refine keeps_ite ?_ ?_
  · exact keeps_saveFv (keeps_putFv h)
  · refine keeps_ite ?_ ?_
    · exact h
    · refine keeps_ite ?_ ?_
      · exact keeps_forEach h fun s12 _ h13 => keeps_markStart h13
      · refine keeps_ite ?_ ?_
        · exact keeps_forEach h fun s16 _ h17 => keeps_markStart h17
        · refine keeps_ite ?_ ?_
          · extract_lets +onlyGivenNames v18
            clear_value v18
            extract_lets +onlyGivenNames v19
            clear_value v19
            extract_lets +onlyGivenNames v20
            have h21 : Keeps a v20 := keeps_putPn h
            clear_value v20
            exact keeps_ite (keeps_pnEvent h21) h21
          · exact h

theorem keeps_secRestart {a s : State} (h : Keeps a s) : Keeps a (secRestart s) := by
  unfold secRestart
  exact keeps_update h

theorem keeps_keyRestart {a s : State} (h : Keeps a s) : Keeps a (keyRestart s) := by
  unfold keyRestart
  exact keeps_update h

theorem keeps_laneTested {a s : State} {x1} {x2} (h : Keeps a s) : Keeps a (laneTested s x1 x2) := by
  unfold laneTested
  extract_lets +onlyGivenNames v0
  clear_value v0
  refine keeps_ite ?_ ?_
  · exact h
  · extract_lets +onlyGivenNames v1
    have h2 : Keeps a v1 := keeps_clrBit (keeps_update h)
    clear_value v1
    split
    · rename_i x3 x4 x5 e6
      have h7 := keeps_snd e6 (keeps_classFault h2)
      refine keeps_ite ?_ ?_
      · extract_lets +onlyGivenNames v8
        have h9 : Keeps a v8 := keeps_ite h7 (keeps_raiseRec h7)
        clear_value v8
        extract_lets +onlyGivenNames v10
        clear_value v10
        extract_lets +onlyGivenNames v11
        have h12 : Keeps a v11 := keeps_setBit (keeps_update h9)
        clear_value v11
        exact keeps_retire (keeps_forEach (keeps_laneBusy h12) fun s13 _ h14 => keeps_laneVoid h14)
      · exact h7

theorem keeps_entropyFail {a s : State} {x1} (h : Keeps a s) : Keeps a (entropyFail s x1) := by
  unfold entropyFail
  extract_lets +onlyGivenNames v0
  clear_value v0
  extract_lets +onlyGivenNames v1
  have h2 : Keeps a v1 := keeps_setBit (keeps_setBit (keeps_clrBit h))
  clear_value v1
  extract_lets +onlyGivenNames v3
  have h4 : Keeps a v3 := keeps_incSat h2
  clear_value v3
  extract_lets +onlyGivenNames v5
  have h6 : Keeps a v5 := keeps_setFld h4
  clear_value v5
  refine keeps_ite ?_ ?_
  · extract_lets +onlyGivenNames v7
    have h8 : Keeps a v7 := keeps_update h6
    clear_value v7
    extract_lets +onlyGivenNames v9
    have h10 : Keeps a v9 := keeps_classFault h8
    clear_value v9
    exact keeps_noSpare (keeps_raiseRec h10)
  · extract_lets +onlyGivenNames v11
    have h12 : Keeps a v11 := keeps_raiseRec h6
    clear_value v11
    exact keeps_update h12

theorem keeps_drbgReady {a s : State} (h : Keeps a s) : Keeps a (drbgReady s) := by
  unfold drbgReady
  extract_lets +onlyGivenNames v0
  have h1 : Keeps a v0 := keeps_serviceWork (keeps_drbgSeed (keeps_setFld h))
  clear_value v0
  exact keeps_forEach h1 fun s2 _ h3 => keeps_maskSeed h3

theorem keeps_entropyStarted {a s : State} (h : Keeps a s) : Keeps a (entropyStarted s) := by
  unfold entropyStarted
  extract_lets +onlyGivenNames v0
  clear_value v0
  refine keeps_ite ?_ ?_
  · exact h
  · extract_lets +onlyGivenNames v1
    have h2 : Keeps a v1 := keeps_setBit (keeps_clrBit h)
    clear_value v1
    extract_lets +onlyGivenNames v3
    have h4 : Keeps a v3 := keeps_drbgReady h2
    clear_value v3
    refine keeps_ite ?_ ?_
    · extract_lets +onlyGivenNames v5
      have h6 : Keeps a v5 := keeps_update h4
      clear_value v5
      split
      · rename_i x7 x8 x9 e10
        have h11 := keeps_snd e10 (keeps_classFault h6)
        exact keeps_ite (keeps_noSpare h11) h11
    · exact h4

theorem keeps_entropyBits {a s : State} {x1} (h : Keeps a s) : Keeps a (entropyBits s x1) := by
  unfold entropyBits
  exact keeps_ite (keeps_entropyFail h) h

theorem keeps_entropyTested {a s : State} {x1} (h : Keeps a s) : Keeps a (entropyTested s x1) := by
  unfold entropyTested
  exact keeps_ite (keeps_ite (keeps_entropyBits h) h) (keeps_entropyStarted h)

theorem keeps_entropyStops {a s : State} (h : Keeps a s) : Keeps a (entropyStops s) := by
  unfold entropyStops
  exact keeps_setFld (keeps_clrBit (keeps_clrBit h))

theorem keeps_drbgReseed {a s : State} (h : Keeps a s) : Keeps a (drbgReseed s) := by
  unfold drbgReseed
  exact keeps_ite (keeps_serviceWork (keeps_drbgSeed h)) h

theorem keeps_drbgOut {a s : State} (h : Keeps a s) : Keeps a (drbgOut s).2 := by
  unfold drbgOut
  split
  · extract_lets +onlyGivenNames v0
    clear_value v0
    split
    · rename_i x1 x2 x3 x4 e5
      have h6 := keeps_snd e5 (keeps_drbgRequest h)
      dsimp -zeta only
      exact keeps_serviceWork h6
  · dsimp -zeta only
    exact keeps_setBit h

theorem keeps_lcRefuse {a s : State} {x1} (h : Keeps a s) : Keeps a (lcRefuse s x1) := by
  unfold lcRefuse
  exact keeps_setBit (keeps_setFld h)

theorem keeps_spoilRoot {a s : State} {x1} (h : Keeps a s) : Keeps a (spoilRoot s x1) := by
  unfold spoilRoot
  exact keeps_ite h (keeps_update h)

theorem keeps_lcGo {a s : State} {x1} {x2} (h : Keeps a s) : Keeps a (lcGo s x1 x2) := by
  unfold lcGo
  extract_lets +onlyGivenNames v0
  clear_value v0
  extract_lets +onlyGivenNames v1
  have h2 : Keeps a v1 := keeps_cmdSettle h
  clear_value v1
  extract_lets +onlyGivenNames v3
  clear_value v3
  extract_lets +onlyGivenNames v4
  clear_value v4
  extract_lets +onlyGivenNames v5
  have h6 : Keeps a v5 := keeps_wr h2
  clear_value v5
  refine keeps_ite ?_ ?_
  · exact keeps_lockViolation (keeps_lcRefuse h6)
  · refine keeps_ite ?_ ?_
    · exact keeps_lcRefuse h6
    · refine keeps_ite ?_ ?_
      · exact keeps_lcRefuse h6
      · refine keeps_ite ?_ ?_
        · exact keeps_lockViolation (keeps_lcRefuse h6)
        · refine keeps_ite ?_ ?_
          · exact keeps_lcRefuse h6
          · refine keeps_ite ?_ ?_
            · exact keeps_lcRefuse h6
            · extract_lets +onlyGivenNames v7
              have h8 : Keeps a v7 := keeps_clrBit (keeps_setFld h6)
              clear_value v7
              refine keeps_ite ?_ ?_
              · exact keeps_cmdStart (keeps_spoilRoot h8)
              · extract_lets +onlyGivenNames v9
                have h10 : Keeps a v9 := by
                  unfold v9
                  refine keeps_ite ?_ ?_
                  · exact keeps_update h8
                  · split
                    · rename_i x11 x12 x13 e14
                      have h15 := keeps_snd e14 (keeps_drbgRequest h8)
                      exact keeps_serviceWork (keeps_update h15)
                clear_value v9
                exact keeps_cmdStart h10

theorem keeps_lcBlown {a s : State} {x1} (h : Keeps a s) : Keeps a (lcBlown s x1) :=
  h.trans ⟨rfl, rfl, le_refl _, le_refl _, List.suffix_refl _, id, le_max_left _ _, le_refl _⟩

theorem keeps_lcCut {a s : State} (h : Keeps a s) : Keeps a (lcCut s) := by
  unfold lcCut
  extract_lets +onlyGivenNames v0
  clear_value v0
  refine keeps_ite ?_ ?_
  · split
    · rename_i x1 x2 x3 e4
      have h5 := keeps_snd e4 (keeps_drawNat h)
      exact keeps_ite (keeps_lcBlown h5) (keeps_ite (keeps_spoilRoot h5) (keeps_update h5))
  · exact keeps_lcBlown h

theorem keeps_keyRefuse {a s : State} {x1} (h : Keeps a s) : Keeps a (keyRefuse s x1) := by
  unfold keyRefuse
  exact keeps_setBit (keeps_setFld h)

theorem keeps_keyAccept {a s : State} (h : Keeps a s) : Keeps a (keyAccept s) := by
  unfold keyAccept
  exact keeps_clrBit (keeps_setFld h)

theorem keeps_keyRecord {a s : State} {x1} {x2} (h : Keeps a s) : Keeps a (keyRecord s x1 x2) := by
  unfold keyRecord
  split
  · extract_lets +onlyGivenNames v0
    clear_value v0
    exact keeps_update h
  · exact keeps_update h

theorem keeps_keyFill {a s : State} {x1} {x2} {x3} (h : Keeps a s) : Keeps a (keyFill s x1 x2 x3) := by
  unfold keyFill
  extract_lets +onlyGivenNames v0
  clear_value v0
  exact keeps_serviceWork (keeps_update h)

theorem keeps_keyPort {a s : State} {x} {f : State → State} (h : Keeps a s) (k : ∀ s, Keeps a s → Keeps a (f s)) :
    Keeps a (keyPort s x f) := by
  unfold keyPort
  exact keeps_ite (keeps_lockViolation (keeps_cmdSettle h)) (keeps_ite (keeps_keyRefuse (keeps_cmdSettle h)) (k _ (keeps_cmdSettle h)))

theorem keeps_keyGate {a s : State} {x} {f : State → State} (h : Keeps a s) (k : ∀ s, Keeps a s → Keeps a (f s)) :
    Keeps a (keyGate s x f) := by
  unfold keyGate
  exact keeps_keyPort h fun s h => keeps_ite (keeps_lockViolation (keeps_keyRefuse h)) (k s h)

theorem keeps_keyGenerate {a s : State} {x1} (h : Keeps a s) : Keeps a (keyGenerate s x1) := by
  unfold keyGenerate
  refine keeps_keyGate ?_ fun s2 h3 => ?_
  · exact h
  · refine keeps_ite ?_ ?_
    · exact keeps_keyRefuse h3
    · refine keeps_ite ?_ ?_
      · exact keeps_keyRefuse h3
      · extract_lets +onlyGivenNames v4
        clear_value v4
        split
        · rename_i x5 x6 x7 e8
          have h9 := keeps_snd e8 (keeps_drbgRequest h3)
          exact keeps_cmdStart (keeps_keyFill (keeps_keyAccept h9))

theorem keeps_keyDerive {a s : State} {x1} {x2} (h : Keeps a s) : Keeps a (keyDerive s x1 x2) := by
  unfold keyDerive
  refine keeps_keyGate ?_ fun s2 h3 => ?_
  · exact h
  · extract_lets +onlyGivenNames v4
    clear_value v4
    extract_lets +onlyGivenNames v5
    clear_value v5
    extract_lets +onlyGivenNames v6
    have h7 : ∀ y0, Keeps a (v6 y0) := by
      intro y0
      unfold v6
      exact keeps_cmdStart (keeps_keyFill (keeps_keyAccept h3))
    clear_value v6
    refine keeps_ite ?_ ?_
    · exact keeps_keyRefuse h3
    · refine keeps_ite ?_ ?_
      · refine keeps_ite ?_ ?_
        · exact keeps_keyRefuse h3
        · split
          · exact h7 _
          · exact keeps_keyRefuse h3
      · split
        · exact keeps_keyRefuse h3
        · exact keeps_ite (keeps_keyRefuse h3) (keeps_ite (keeps_keyRefuse (keeps_keyParity h3)) (h7 _))

theorem keeps_keyErase {a s : State} {x1} (h : Keeps a s) : Keeps a (keyErase s x1) := by
  unfold keyErase
  refine keeps_keyGate ?_ fun s2 h3 => ?_
  · exact h
  · extract_lets +onlyGivenNames v4
    clear_value v4
    extract_lets +onlyGivenNames v5
    have h6 : Keeps a v5 := keeps_update h3
    clear_value v5
    exact keeps_cmdStart (keeps_keyAccept h6)

theorem keeps_keyInfo {a s : State} {x1} (h : Keeps a s) : Keeps a (keyInfo s x1) := by
  unfold keyInfo
  refine keeps_keyPort ?_ fun s2 h3 => ?_
  · exact h
  · split
    · exact keeps_cmdStart (keeps_keyAccept h3)

theorem keeps_keyCommit {a s : State} {x1} (h : Keeps a s) : Keeps a (keyCommit s x1) := by
  unfold keyCommit
  extract_lets +onlyGivenNames v0
  clear_value v0
  extract_lets +onlyGivenNames v1
  clear_value v1
  extract_lets +onlyGivenNames v2
  clear_value v2
  exact keeps_serviceWork (keeps_setBit (keeps_update h))

theorem keeps_keySaved {a s : State} (h : Keeps a s) : Keeps a (keySaved s) := by
  unfold keySaved
  refine keeps_ite ?_ ?_
  · exact h
  · extract_lets +onlyGivenNames v0
    have h1 : Keeps a v0 := by
      unfold v0
      refine keeps_forEach ?_ fun s6 x8 h7 => ?_
      · exact h
      · split
        · exact keeps_keyRecord (keeps_update h7)
        · exact h7
    clear_value v0
    exact keeps_clrBit (keeps_update h1)

theorem keeps_keysAtBoot {a s : State} {x1} {x2} (h : Keeps a s) : Keeps a (keysAtBoot s x1 x2) := by
  unfold keysAtBoot
  refine keeps_ite ?_ ?_
  · exact h
  · extract_lets +onlyGivenNames v0
    have h1 : Keeps a v0 := keeps_ite (keeps_serviceWork h) h
    clear_value v0
    refine keeps_forEach ?_ fun s4 x6 h5 => ?_
    · exact h1
    · split
      · extract_lets +onlyGivenNames v7
        have h8 : Keeps a v7 := keeps_ite (keeps_seedFault h5) h5
        clear_value v7
        extract_lets +onlyGivenNames v9
        have h10 : Keeps a v9 := keeps_serviceWork h8
        clear_value v9
        refine keeps_ite ?_ ?_
        · exact keeps_incSat (keeps_update h10)
        · split
          · extract_lets +onlyGivenNames v11
            have h12 : Keeps a v11 := keeps_incSat h10
            clear_value v11
            split
            · rename_i x13 x14 x15 x16 x17 x18 x19 x20 e21
              have h22 := keeps_snd e21 (keeps_classFault h12)
              extract_lets +onlyGivenNames v23
              have h24 : Keeps a v23 := keeps_raiseRec h22
              clear_value v23
              exact keeps_ite (keeps_retire (keeps_update h24)) h24
          · exact keeps_ite h10 (keeps_incSat (keeps_keyLoad (keeps_serviceWork h10)))

theorem keeps_freshnessAtBoot {a s : State} {x1} (h : Keeps a s) : Keeps a (freshnessAtBoot s x1) := by
  unfold freshnessAtBoot
  refine keeps_ite ?_ ?_
  · exact h
  · refine keeps_forEach ?_ fun s4 x6 h5 => ?_
    · exact h
    · split
      · split
        · rename_i x7 x8 x9 x10 x11 x12 e13
          have h14 : Keeps a x12 := by
            refine keeps_snd e13 ?_
            split
            · exact keeps_drawNat (keeps_seedFault h5)
            · exact h5
          extract_lets +onlyGivenNames v15
          clear_value v15
          split
          · exact keeps_ite (keeps_ite (keeps_saveFv (keeps_putFv h14)) (keeps_ite (keeps_putFv h14) h14)) h14
          · exact h14

theorem keeps_serviceFront {a s : State} {x0} {x2} (h : Keeps a s) : Keeps a (serviceFront x0 s x2) := by
  induction x0 generalizing s x2 with
  | zero =>
    unfold serviceFront
    exact h
  | succ n ih =>
    unfold serviceFront
    split
    · exact keeps_ite (ih (keeps_laneBlocks (keeps_handled (keeps_laneBusy (keeps_update h))))) h
    · exact h

theorem keeps_serviceDispatch {a s : State} {x0} (h : Keeps a s) : Keeps a (serviceDispatch x0 s) := by
  induction x0 generalizing s with
  | zero =>
    unfold serviceDispatch
    exact h
  | succ n ih =>
    unfold serviceDispatch
    exact keeps_ite (ih (keeps_dispatch h)) h

theorem keeps_keyFilled {a s : State} (h : Keeps a s) : Keeps a (keyFilled s) := by
  unfold keyFilled
  split
  · exact keeps_ite h (keeps_keyRecord (keeps_update h))
  · exact h

theorem keeps_serveService {a s : State} (h : Keeps a s) : Keeps a (serveService s) := by
  unfold serveService
  extract_lets +onlyGivenNames v0
  have h1 : Keeps a v0 := keeps_ite (keeps_forEach (keeps_serviceDispatch h) fun s2 _ h3 => keeps_serviceFront h3) h
  clear_value v0
  exact keeps_keyFilled h1

theorem keeps_bootService {a s : State} (h : Keeps a s) : Keeps a (bootService s) := by
  unfold bootService
  extract_lets +onlyGivenNames v0
  have h1 : Keeps a v0 := keeps_update h
  clear_value v0
  refine keeps_forEach ?_ fun s4 x6 h5 => ?_
  · exact h1
  · split
    · exact keeps_laneBlocks h5
    · exact h5

/-! ## Machine/Cvu.lean -/

theorem keeps_cvClear {a s : State} {x1} (h : Keeps a s) : Keeps a (cvClear s x1) := by
  unfold cvClear
  exact keeps_wr (keeps_wr (keeps_wr (keeps_wr h)))

theorem keeps_cvRefuse {a s : State} {x1} {x2} (h : Keeps a s) : Keeps a (cvRefuse s x1 x2) := by
  unfold cvRefuse
  exact keeps_setBit (keeps_setFld h)

theorem keeps_cvFinish {a s : State} {x1} {x2} (h : Keeps a s) : Keeps a (cvFinish s x1 x2) := by
  unfold cvFinish
  extract_lets +onlyGivenNames v0
  clear_value v0
  extract_lets +onlyGivenNames v1
  clear_value v1
  extract_lets +onlyGivenNames v2
  have h3 : Keeps a v2 := keeps_wr (keeps_wr (keeps_update h))
  clear_value v2
  exact keeps_handled (keeps_bTake (keeps_setFld h3))

theorem keeps_cvEnd {a s : State} {x1} (h : Keeps a s) : Keeps a (cvEnd s x1) := by
  unfold cvEnd
  exact keeps_bTake (keeps_clrBit (keeps_update h))

theorem keeps_cvStart {a s : State} {x1} (h : Keeps a s) : Keeps a (cvStart s x1) := by
  unfold cvStart
  extract_lets +onlyGivenNames v0
  clear_value v0
  extract_lets +onlyGivenNames v1
  clear_value v1
  refine keeps_ite ?_ ?_
  · exact keeps_cvRefuse h
  · split
    · exact keeps_cvRefuse h
    · refine keeps_ite ?_ ?_
      · exact keeps_cvRefuse h
      · refine keeps_ite ?_ ?_
        · exact keeps_cvRefuse h
        · extract_lets +onlyGivenNames v2
          have h3 : Keeps a v2 := keeps_setBit (keeps_cvClear h)
          clear_value v2
          extract_lets +onlyGivenNames v4
          clear_value v4
          extract_lets +onlyGivenNames v5
          clear_value v5
          exact keeps_ite (keeps_cvFinish h3) (keeps_update h3)

theorem keeps_cvAbort {a s : State} {x1} (h : Keeps a s) : Keeps a (cvAbort s x1) := by
  unfold cvAbort
  extract_lets +onlyGivenNames v0
  clear_value v0
  exact keeps_ite (keeps_cvEnd (keeps_setFld (keeps_clrBit h))) h

theorem keeps_cvCommand {a s : State} {x1} {x2} (h : Keeps a s) : Keeps a (cvCommand s x1 x2) := by
  unfold cvCommand
  exact keeps_ite (keeps_cvRefuse h) (keeps_ite (keeps_cvRefuse h) (keeps_ite (keeps_cvStart h) (keeps_ite
      (keeps_cvAbort h) h)))

theorem keeps_cvData {a s : State} {x1} {x2} {x3} (h : Keeps a s) : Keeps a (cvData s x1 x2 x3) := by
  unfold cvData
  extract_lets +onlyGivenNames v0
  clear_value v0
  extract_lets +onlyGivenNames v1
  clear_value v1
  refine keeps_ite ?_ ?_
  · exact keeps_lockViolation h
  · extract_lets +onlyGivenNames v2
    have h3 : Keeps a v2 := keeps_wr h
    clear_value v2
    split
    · exact keeps_setBit h3
    · extract_lets +onlyGivenNames v4
      clear_value v4
      extract_lets +onlyGivenNames v5
      clear_value v5
      split
      · exact h3
      · extract_lets +onlyGivenNames v6
        clear_value v6
        extract_lets +onlyGivenNames v7
        have h8 : Keeps a v7 := keeps_wr (keeps_update h3)
        clear_value v7
        exact keeps_ite (keeps_cvFinish h8) h8

theorem keeps_cvRestart {a s : State} {x1} (h : Keeps a s) : Keeps a (cvRestart s x1) := by
  unfold cvRestart
  exact keeps_ite (keeps_update h) h

theorem keeps_cvFault {a s : State} {x1} (h : Keeps a s) : Keeps a (cvFault s x1) := by
  unfold cvFault
  extract_lets +onlyGivenNames v0
  clear_value v0
  extract_lets +onlyGivenNames v1
  have h2 : Keeps a v1 := keeps_cvRefuse (keeps_cvAbort h)
  clear_value v1
  split
  · rename_i x3 x4 x5 e6
    have h7 := keeps_snd e6 (keeps_classFault h2)
    extract_lets +onlyGivenNames v8
    have h9 : Keeps a v8 := keeps_raiseRec h7
    clear_value v8
    exact keeps_ite (keeps_retire (keeps_setBit (keeps_update h9))) h9

/-! ## Machine/TablePort.lean -/

theorem keeps_polWritten {a s : State} {x1} {x2} {x3} {x4} (h : Keeps a s) : Keeps a (polWritten s x1 x2 x3 x4) := by
  unfold polWritten
  extract_lets +onlyGivenNames v0
  clear_value v0
  extract_lets +onlyGivenNames v1
  clear_value v1
  extract_lets +onlyGivenNames v2
  clear_value v2
  exact keeps_ite (keeps_update h) (keeps_ite (keeps_update h) h)

theorem keeps_routeWritten {a s : State} {x1} {x2} (h : Keeps a s) : Keeps a (routeWritten s x1 x2) := by
  unfold routeWritten
  extract_lets +onlyGivenNames v0
  clear_value v0
  exact keeps_ite h (keeps_update h)

theorem keeps_liveWritten {a s : State} {x1} {x2} {x3} {x4} {x5} (h : Keeps a s) :
    Keeps a (liveWritten s x1 x2 x3 x4 x5) := by
  unfold liveWritten
  extract_lets +onlyGivenNames v0
  clear_value v0
  exact keeps_ite (keeps_polWritten h) (keeps_ite (keeps_routeWritten h) (keeps_ite (keeps_update h) (keeps_ite (keeps_ite
      (keeps_rxTurned h) (keeps_rxChanged h)) (keeps_ite (keeps_ite (keeps_txWritten h) (keeps_txForget h)) h))))

theorem keeps_clearQuar {a s : State} {x1} {x2} {x3} (h : Keeps a s) : Keeps a (clearQuar s x1 x2 x3) := by
  unfold clearQuar
  exact keeps_update h

theorem keeps_portPut {a s : State} {x1} {x2} {x3} {x4} {x5} {x6} (h : Keeps a s) :
    Keeps a (portPut s x1 x2 x3 x4 x5 x6) := by
  unfold portPut
  extract_lets +onlyGivenNames v0
  clear_value v0
  extract_lets +onlyGivenNames v1
  have h2 : Keeps a v1 := keeps_ite (keeps_putBridge (keeps_removeBridge h)) (keeps_tPut h)
  clear_value v1
  extract_lets +onlyGivenNames v3
  have h4 : Keeps a v3 := keeps_ite (keeps_tNotePending h2) h2
  clear_value v3
  extract_lets +onlyGivenNames v5
  have h6 : Keeps a v5 := keeps_ite (keeps_liveWritten (keeps_clearQuar h4)) h4
  clear_value v5
  exact keeps_ite (keeps_secWritten h6) h6

theorem keeps_tpRefuse {a s : State} {x1} {x2} (h : Keeps a s) : Keeps a (tpRefuse s x1 x2) := by
  unfold tpRefuse
  exact keeps_setBit (keeps_setFld h)

theorem keeps_tpAccept {a s : State} {x1} (h : Keeps a s) : Keeps a (tpAccept s x1) := by
  unfold tpAccept
  exact keeps_clrBit (keeps_setFld h)

theorem keeps_tpAct {a s : State} {x1} {x2} {x3} (h : Keeps a s) : Keeps a (tpAct s x1 x2 x3) := by
  unfold tpAct
  extract_lets +onlyGivenNames v0
  clear_value v0
  extract_lets +onlyGivenNames v1
  clear_value v1
  extract_lets +onlyGivenNames v2
  clear_value v2
  split
  · exact h
  · exact h
  · exact keeps_portPut h
  · exact keeps_ite (keeps_noteLedger (keeps_update h)) (keeps_ite (keeps_update h) (keeps_portPut h))

theorem keeps_tpCommand {a s : State} {x1} {x2} {x3} (h : Keeps a s) : Keeps a (tpCommand s x1 x2 x3) := by
  unfold tpCommand
  split
  · extract_lets +onlyGivenNames v0
    clear_value v0
    extract_lets +onlyGivenNames v1
    have h2 : Keeps a v1 := keeps_tpAct (keeps_tpAccept h)
    clear_value v1
    exact keeps_cmdStart h2
  · exact keeps_ite (keeps_lockViolation (keeps_tpRefuse h)) (keeps_tpRefuse h)
  · exact h

theorem keeps_tpWrite {a s : State} {x1} {x2} {x3} (h : Keeps a s) : Keeps a (tpWrite s x1 x2 x3) := by
  unfold tpWrite
  extract_lets +onlyGivenNames v0
  have h1 : Keeps a v0 := keeps_cmdSettle h
  clear_value v0
  refine keeps_ite ?_ ?_
  · exact h1
  · refine keeps_ite ?_ ?_
    · exact keeps_tpRefuse h1
    · split
      · exact keeps_tpCommand h1
      · exact keeps_tpCommand h1
      · exact keeps_tpCommand h1
      · exact keeps_tpCommand h1
      · exact keeps_tpRefuse h1

theorem keeps_pendOver {a s : State} {x1} {x2} {x3} (h : Keeps a s) : Keeps a (pendOver s x1 x2 x3) := by
  unfold pendOver
  split
  · refine keeps_ite ?_ ?_
    · extract_lets +onlyGivenNames v0
      have h1 : Keeps a v0 := keeps_update h
      clear_value v0
      exact keeps_raiseRec h1
    · exact h
  · exact h

/-! ## Machine/Mailbox.lean -/

theorem keeps_wideTake {a s : State} {x1} {x2} {x3} (h : Keeps a s) : Keeps a (wideTake s x1 x2 x3).2 := by
  unfold wideTake
  extract_lets +onlyGivenNames v0
  clear_value v0
  split
  · exact h
  · exact keeps_tsTake h
  · exact h
  · dsimp -zeta only
    exact keeps_ite (keeps_wrWide h) h
  · dsimp -zeta only
    exact keeps_ite (keeps_wrWide h) h
  · dsimp -zeta only
    exact keeps_ite (keeps_wrWide h) h

theorem keeps_widePut {a s : State} {x1} {x2} {x3} (h : Keeps a s) : Keeps a (widePut s x1 x2 x3) := by
  unfold widePut
  split
  · exact keeps_timeCommit h
  · exact keeps_setBit (keeps_wrWide h)
  · exact keeps_keyCommit h
  · exact h

theorem keeps_mbxAccept {a s : State} {x1} {x2} (h : Keeps a s) : Keeps a (mbxAccept s x1 x2) := by
  unfold mbxAccept
  extract_lets +onlyGivenNames v0
  clear_value v0
  exact keeps_setFld (keeps_setFld (keeps_setFld (keeps_setFld h)))

theorem keeps_mbxRefuse {a s : State} {x1} {x2} (h : Keeps a s) : Keeps a (mbxRefuse s x1 x2) := by
  unfold mbxRefuse
  exact keeps_setBit (keeps_setFld h)

theorem keeps_mbxCommand {a s : State} {x1} {x2} {x3} (h : Keeps a s) : Keeps a (mbxCommand s x1 x2 x3) := by
  unfold mbxCommand
  extract_lets +onlyGivenNames v0
  clear_value v0
  split
  · extract_lets +onlyGivenNames v1
    have h2 : Keeps a v1 := keeps_mbxAccept h
    clear_value v1
    refine keeps_ite ?_ ?_
    · exact keeps_cmdStart (keeps_widePut h2)
    · split
      · rename_i x3 x4 x5 x6 x7 x8 x9 x10 e11
        have h12 := keeps_snd e11 (keeps_wideTake h2)
        exact keeps_cmdStart h12
  · exact keeps_ite (keeps_lockViolation (keeps_mbxRefuse h)) (keeps_mbxRefuse h)
  · exact keeps_mbxRefuse h
  · exact h

theorem keeps_mbxWrite {a s : State} {x1} {x2} {x3} (h : Keeps a s) : Keeps a (mbxWrite s x1 x2 x3) := by
  unfold mbxWrite
  extract_lets +onlyGivenNames v0
  have h1 : Keeps a v0 := keeps_cmdSettle h
  clear_value v0
  refine keeps_ite ?_ ?_
  · exact h1
  · refine keeps_ite ?_ ?_
    · exact keeps_mbxRefuse h1
    · split
      · exact keeps_mbxCommand h1
      · exact keeps_mbxCommand h1
      · exact keeps_mbxCommand h1
      · exact keeps_mbxRefuse h1

theorem keeps_mbxDataRead {a s : State} {x1} {x2} (h : Keeps a s) : Keeps a (mbxDataRead s x1 x2) := by
  unfold mbxDataRead
  exact keeps_ite (keeps_clrBit h) h

/-! ## Machine/Pair.lean -/

theorem keeps_sendPair {a s : State} {x1} (h : Keeps a s) : Keeps a (sendPair s x1) := by
  unfold sendPair
  extract_lets +onlyGivenNames v0
  clear_value v0
  exact keeps_ite (keeps_offerService (keeps_update h)) h

theorem keeps_skipFreshness {a s : State} (h : Keeps a s) : Keeps a (skipFreshness s) := by
  unfold skipFreshness
  refine keeps_forEach ?_ fun s2 x4 h3 => ?_
  · exact h
  · split
    · exact keeps_ite (keeps_setFv h3) h3

theorem keeps_quietOutputs {a s : State} (h : Keeps a s) : Keeps a (quietOutputs s) := by
  unfold quietOutputs
  exact keeps_forEach h fun s0 _ h1 => keeps_ethFails h1

theorem keeps_pairOutputs {a s : State} (h : Keeps a s) : Keeps a (pairOutputs s) := by
  unfold pairOutputs
  exact keeps_refreshAll h

theorem keeps_pairEnter {a s : State} {x1} (h : Keeps a s) : Keeps a (pairEnter s x1) := by
  unfold pairEnter
  extract_lets +onlyGivenNames v0
  clear_value v0
  refine keeps_ite ?_ ?_
  · exact h
  · extract_lets +onlyGivenNames v1
    clear_value v1
    extract_lets +onlyGivenNames v2
    have h3 : Keeps a v2 := keeps_ite (keeps_forEach h fun s4 _ h5 => keeps_flushOutput (keeps_setFld h5)) h
    clear_value v2
    extract_lets +onlyGivenNames v6
    have h7 : Keeps a v6 := keeps_setFld h3
    clear_value v6
    extract_lets +onlyGivenNames v8
    clear_value v8
    extract_lets +onlyGivenNames v9
    have h10 : Keeps a v9 := keeps_update h7
    clear_value v9
    extract_lets +onlyGivenNames v11
    have h12 : Keeps a v11 := keeps_skipFreshness (keeps_incSat (keeps_setBit h10))
    clear_value v11
    extract_lets +onlyGivenNames v13
    have h14 : Keeps a v13 := keeps_ite (keeps_ite h12 (keeps_raisePlain h12)) (keeps_ite (keeps_setBit h10) h10)
    clear_value v13
    extract_lets +onlyGivenNames v15
    have h16 : Keeps a v15 := keeps_ite (keeps_quietOutputs h14) h14
    clear_value v15
    exact keeps_sendPair (keeps_pairOutputs h16)

theorem keeps_pairQuit {a s : State} {x1} (h : Keeps a s) : Keeps a (pairQuit s x1) := by
  unfold pairQuit
  exact keeps_ite (keeps_raisePlain (keeps_pairEnter h)) h

theorem keeps_pairEval {a s : State} (h : Keeps a s) : Keeps a (pairEval s) := by
  unfold pairEval
  refine keeps_ite ?_ ?_
  · exact h
  · extract_lets +onlyGivenNames v0
    clear_value v0
    split
    · exact keeps_ite h (keeps_ite (keeps_pairEnter h) (keeps_ite h (keeps_pairEnter h)))
    · exact keeps_ite (keeps_pairEnter h) (keeps_ite (keeps_pairEnter h) h)
    · exact keeps_ite (keeps_pairEnter h) h
    · exact h

theorem keeps_noteReclaim {a s : State} (h : Keeps a s) : Keeps a (noteReclaim s) := by
  unfold noteReclaim
  exact keeps_ite (keeps_ite h (keeps_update h)) (keeps_update h)

theorem keeps_refreshHealth {a s : State} (h : Keeps a s) : Keeps a (refreshHealth s) := by
  unfold refreshHealth
  extract_lets +onlyGivenNames v0
  clear_value v0
  extract_lets +onlyGivenNames v1
  have h2 : Keeps a v1 := keeps_ite (keeps_putBit h) h
  clear_value v1
  extract_lets +onlyGivenNames v3
  have h4 : Keeps a v3 := keeps_ite (keeps_pairQuit h2) h2
  clear_value v3
  exact keeps_noteReclaim h4

theorem keeps_pairAfter {a s : State} (h : Keeps a s) : Keeps a (pairAfter s) := by
  unfold pairAfter
  exact keeps_noteReclaim (keeps_pairEval h)

theorem keeps_pairEnable {a s : State} (h : Keeps a s) : Keeps a (pairEnable s) := by
  unfold pairEnable
  exact keeps_ite h (keeps_ite (keeps_ite (keeps_pairAfter (keeps_pairEnter h)) h) (keeps_ite h (keeps_pairEnter h)))

theorem keeps_leaseGrant {a s : State} (h : Keeps a s) : Keeps a (leaseGrant s) := by
  unfold leaseGrant
  refine keeps_ite ?_ ?_
  · exact h
  · extract_lets +onlyGivenNames v0
    clear_value v0
    extract_lets +onlyGivenNames v1
    clear_value v1
    extract_lets +onlyGivenNames v2
    clear_value v2
    extract_lets +onlyGivenNames v3
    clear_value v3
    extract_lets +onlyGivenNames v4
    clear_value v4
    extract_lets +onlyGivenNames v5
    clear_value v5
    extract_lets +onlyGivenNames v6
    clear_value v6
    extract_lets +onlyGivenNames v7
    have h8 : Keeps a v7 := keeps_setBit (keeps_update h)
    clear_value v7
    extract_lets +onlyGivenNames v9
    clear_value v9
    exact keeps_ite (keeps_noteReclaim (keeps_pairEnter h8)) (keeps_pairAfter h8)

theorem keeps_leaseExpire {a s : State} (h : Keeps a s) : Keeps a (leaseExpire s) := by
  unfold leaseExpire
  split
  · refine keeps_ite ?_ ?_
    · exact h
    · extract_lets +onlyGivenNames v0
      clear_value v0
      extract_lets +onlyGivenNames v1
      have h2 : Keeps a v1 := keeps_incSat (keeps_clrBit (keeps_update h))
      clear_value v1
      exact keeps_pairAfter (keeps_pairQuit h2)
  · exact h

theorem keeps_guardEnd {a s : State} (h : Keeps a s) : Keeps a (guardEnd s) := by
  unfold guardEnd
  split
  · exact keeps_ite (keeps_noteReclaim (keeps_pairEnter h)) h
  · exact h

theorem keeps_handover {a s : State} {x1} (h : Keeps a s) : Keeps a (handover s x1) := by
  unfold handover
  exact keeps_ite (keeps_pairAfter (keeps_pairQuit h)) h

theorem keeps_noteConflict {a s : State} (h : Keeps a s) : Keeps a (noteConflict s) := by
  unfold noteConflict
  extract_lets +onlyGivenNames v0
  clear_value v0
  refine keeps_ite ?_ ?_
  · exact keeps_clrBit h
  · extract_lets +onlyGivenNames v1
    have h2 : Keeps a v1 := keeps_ite h (keeps_raisePlain (keeps_setBit (keeps_setBit h)))
    clear_value v1
    extract_lets +onlyGivenNames v3
    clear_value v3
    extract_lets +onlyGivenNames v4
    clear_value v4
    exact keeps_ite (keeps_pairEnter h2) h2

theorem keeps_pairHeard {a s : State} {x1} {x2} {x3} {x4} (h : Keeps a s) : Keeps a (pairHeard s x1 x2 x3 x4) := by
  unfold pairHeard
  refine keeps_ite ?_ ?_
  · exact h
  · extract_lets +onlyGivenNames v0
    clear_value v0
    extract_lets +onlyGivenNames v1
    clear_value v1
    extract_lets +onlyGivenNames v2
    have h3 : Keeps a v2 := keeps_putBit (keeps_setFld (keeps_setBit (keeps_update h)))
    clear_value v2
    exact keeps_pairAfter (keeps_noteConflict h3)

theorem keeps_contactLost {a s : State} (h : Keeps a s) : Keeps a (contactLost s) := by
  unfold contactLost
  refine keeps_ite ?_ ?_
  · extract_lets +onlyGivenNames v0
    clear_value v0
    extract_lets +onlyGivenNames v1
    clear_value v1
    exact keeps_pairAfter (keeps_noteConflict (keeps_setBit (keeps_clrBit (keeps_update h))))
  · exact h

theorem keeps_contactTimeout {a s : State} (h : Keeps a s) : Keeps a (contactTimeout s) := by
  unfold contactTimeout
  split
  · exact keeps_ite (keeps_contactLost h) h
  · exact h

theorem keeps_pairBeat {a s : State} (h : Keeps a s) : Keeps a (pairBeat s) := by
  unfold pairBeat
  exact keeps_ite (keeps_sendPair h) h

theorem keeps_reclaimHold {a s : State} (h : Keeps a s) : Keeps a (reclaimHold s) := by
  unfold reclaimHold
  split
  · exact keeps_ite (keeps_sendPair (keeps_setBit (keeps_update h))) h
  · exact h

theorem keeps_leaseToggle {a s : State} (h : Keeps a s) : Keeps a (leaseToggle s) := by
  unfold leaseToggle
  refine keeps_ite ?_ ?_
  · extract_lets +onlyGivenNames v0
    clear_value v0
    extract_lets +onlyGivenNames v1
    clear_value v1
    exact keeps_send (keeps_update h)
  · exact h

theorem keeps_mirrorAll {a s : State} (h : Keeps a s) : Keeps a (mirrorAll s) := by
  unfold mirrorAll
  extract_lets +onlyGivenNames v0
  clear_value v0
  extract_lets +onlyGivenNames v1
  have h2 : Keeps a v1 := by
    unfold v1
    refine keeps_forEach ?_ fun s7 x9 h8 => ?_
    · exact h
    · split
      · refine keeps_ite ?_ ?_
        · refine keeps_forEach ?_ fun s14 x16 h15 => ?_
          · exact h8
          · extract_lets +onlyGivenNames v17
            clear_value v17
            exact keeps_mirrorOut h15
        · exact h8
  clear_value v1
  extract_lets +onlyGivenNames v18
  have h19 : Keeps a v18 := by
    unfold v18
    refine keeps_forEach ?_ fun s24 x26 h25 => ?_
    · exact h2
    · split
      · exact keeps_mirrorOut h25
  clear_value v18
  extract_lets +onlyGivenNames v27
  have h28 : Keeps a v27 := keeps_forEach h19 fun s29 _ h30 => keeps_mirrorCluster h30
  clear_value v27
  exact keeps_mirrorOut (keeps_mirrorOut h28)

theorem keeps_mirrorIn {a s : State} {x1} {x2} {x3} {x4} (h : Keeps a s) : Keeps a (mirrorIn s x1 x2 x3 x4) := by
  unfold mirrorIn
  refine keeps_ite ?_ ?_
  · exact h
  · split
    · exact keeps_writeSlot h
    · exact keeps_saveFv (keeps_putFv h)
    · exact keeps_clusterMirrored h
    · exact keeps_update h
    · exact keeps_noteReclaim (keeps_setBit (keeps_setBit h))

theorem keeps_pairRestart {a s : State} (h : Keeps a s) : Keeps a (pairRestart s) := by
  unfold pairRestart
  extract_lets +onlyGivenNames v0
  clear_value v0
  extract_lets +onlyGivenNames v1
  clear_value v1
  extract_lets +onlyGivenNames v2
  have h3 : Keeps a v2 := keeps_wr (keeps_update h)
  clear_value v2
  extract_lets +onlyGivenNames v4
  have h5 : Keeps a v4 := keeps_refreshHealth (keeps_pairOutputs h3)
  clear_value v4
  exact keeps_pairEnable h5

/-! ## Machine/Links.lean -/

theorem keeps_linkLose {a s : State} {x1} (h : Keeps a s) : Keeps a (linkLose s x1) := by
  unfold linkLose
  refine keeps_ite ?_ ?_
  · exact h
  · extract_lets +onlyGivenNames v0
    clear_value v0
    extract_lets +onlyGivenNames v1
    have h2 : Keeps a v1 := keeps_addSat h
    clear_value v1
    extract_lets +onlyGivenNames v3
    clear_value v3
    extract_lets +onlyGivenNames v4
    have h5 : Keeps a v4 := keeps_putLnk (keeps_clrBit h2)
    clear_value v4
    extract_lets +onlyGivenNames v6
    have h7 : Keeps a v6 := keeps_noteReplay (keeps_rewindOpen (keeps_update h5))
    clear_value v6
    extract_lets +onlyGivenNames v8
    have h9 : Keeps a v8 := keeps_refreshOutput (keeps_flightOver h7)
    clear_value v8
    exact keeps_ite (keeps_contactLost h9) h9

theorem keeps_linkTrain {a s : State} {x1} {x2} (h : Keeps a s) : Keeps a (linkTrain s x1 x2) := by
  unfold linkTrain
  refine keeps_ite ?_ ?_
  · exact h
  · extract_lets +onlyGivenNames v0
    have h1 : Keeps a v0 := keeps_setFld h
    clear_value v0
    refine keeps_ite ?_ ?_
    · exact keeps_ite h1 (keeps_raisePlain (keeps_setBit h1))
    · extract_lets +onlyGivenNames v2
      clear_value v2
      extract_lets +onlyGivenNames v3
      clear_value v3
      extract_lets +onlyGivenNames v4
      have h5 : Keeps a v4 := keeps_putLnk (keeps_setBit (keeps_clrBit h1))
      clear_value v4
      extract_lets +onlyGivenNames v6
      have h7 : Keeps a v6 := keeps_linkGo (keeps_refreshOutput (keeps_creditServe (keeps_creditsDrawn h5)))
      clear_value v6
      exact keeps_ite (keeps_ite (keeps_mirrorAll h7) (keeps_clrBit h7)) h7

theorem keeps_clashRetry {a s : State} {x1} {x2} (h : Keeps a s) : Keeps a (clashRetry s x1 x2) := by
  unfold clashRetry
  exact keeps_ite (keeps_linkTrain h) h

theorem keeps_linkToFallow {a s : State} {x1} {x2} (h : Keeps a s) : Keeps a (linkToFallow s x1 x2) := by
  unfold linkToFallow
  extract_lets +onlyGivenNames v0
  clear_value v0
  refine keeps_ite ?_ ?_
  · exact h
  · extract_lets +onlyGivenNames v1
    have h2 : Keeps a v1 := keeps_setBit (keeps_update h)
    clear_value v1
    exact keeps_refreshOutput (keeps_retire h2)

theorem keeps_linkRetrain {a s : State} {x1} {x2} (h : Keeps a s) : Keeps a (linkRetrain s x1 x2) := by
  unfold linkRetrain
  extract_lets +onlyGivenNames v0
  have h1 : Keeps a v0 := keeps_linkLose h
  clear_value v0
  extract_lets +onlyGivenNames v2
  have h3 : Keeps a v2 := keeps_raisePlain (keeps_incSat h1)
  clear_value v2
  exact keeps_ite h3 (keeps_linkToFallow (keeps_permanentRec h3))

theorem keeps_linkCover {a s : State} {x1} {x2} (h : Keeps a s) : Keeps a (linkCover s x1 x2) := by
  unfold linkCover
  extract_lets +onlyGivenNames v0
  clear_value v0
  exact keeps_ite (keeps_noteReplay (keeps_putLnk h)) h

theorem keeps_resend {a s : State} {x1} (h : Keeps a s) : Keeps a (resend s x1) := by
  unfold resend
  extract_lets +onlyGivenNames v0
  clear_value v0
  refine keeps_ite ?_ ?_
  · exact h
  · extract_lets +onlyGivenNames v1
    have h2 : Keeps a v1 := keeps_putLnk (keeps_incSat h)
    clear_value v1
    exact keeps_forEach h2 fun s3 _ h4 => keeps_sendSequenced h4

theorem keeps_linkAck {a s : State} {x1} {x2} (h : Keeps a s) : Keeps a (linkAck s x1 x2) := by
  unfold linkAck
  exact keeps_ite (keeps_linkGo (keeps_linkCover h)) h

theorem keeps_linkNak {a s : State} {x1} {x2} (h : Keeps a s) : Keeps a (linkNak s x1 x2) := by
  unfold linkNak
  exact keeps_ite (keeps_linkGo (keeps_resend (keeps_linkCover (keeps_incSat h)))) h

theorem keeps_replayTimeout {a s : State} {x1} (h : Keeps a s) : Keeps a (replayTimeout s x1) := by
  unfold replayTimeout
  extract_lets +onlyGivenNames v0
  clear_value v0
  exact keeps_ite (keeps_resend h) h

theorem keeps_linkCreditIn {a s : State} {x1} {x2} {x3} {x4} (h : Keeps a s) : Keeps a (linkCreditIn s x1 x2 x3 x4) := by
  unfold linkCreditIn
  refine keeps_ite ?_ ?_
  · extract_lets +onlyGivenNames v0
    clear_value v0
    extract_lets +onlyGivenNames v1
    clear_value v1
    exact keeps_noteStuck (keeps_linkGo (keeps_putLnk h))
  · exact h

theorem keeps_serviceDone {a s : State} {x1} (h : Keeps a s) : Keeps a (serviceDone s x1) := by
  unfold serviceDone
  extract_lets +onlyGivenNames v0
  clear_value v0
  extract_lets +onlyGivenNames v1
  clear_value v1
  exact keeps_sendControlFrame (keeps_putLnk h)

theorem keeps_linkData {a s : State} {x1} (h : Keeps a s) : Keeps a (linkData s x1) := by
  unfold linkData
  split
  · extract_lets +onlyGivenNames v0
    clear_value v0
    exact keeps_ite (keeps_stompFlight h) (keeps_ite (keeps_flightOver (keeps_linkSend h)) h)
  · exact h

theorem keeps_linkAborts {a s : State} {x1} (h : Keeps a s) : Keeps a (linkAborts s x1) := by
  unfold linkAborts
  exact keeps_ite (keeps_flightOver (keeps_send h)) h

theorem keeps_serveLinks {a s : State} (h : Keeps a s) : Keeps a (serveLinks s) := by
  unfold serveLinks
  extract_lets +onlyGivenNames v0
  have h1 : Keeps a v0 := keeps_linkData (keeps_linkData h)
  clear_value v0
  exact keeps_creditServe (keeps_creditServe h1)

theorem keeps_relayOn {a s : State} {x1} {x2} (h : Keeps a s) : Keeps a (relayOn s x1 x2) := by
  unfold relayOn
  refine keeps_ite ?_ ?_
  · exact keeps_ite (keeps_incSat h) (keeps_offerService h)
  · extract_lets +onlyGivenNames v0
    clear_value v0
    exact keeps_ite (keeps_relayLeft (keeps_incSat h)) (keeps_linkGo (keeps_furPush (keeps_putLnk h)))

theorem keeps_relayExpiry {a s : State} {x1} (h : Keeps a s) : Keeps a (relayExpiry s x1) := by
  unfold relayExpiry
  extract_lets +onlyGivenNames v0
  clear_value v0
  split
  · exact keeps_ite (keeps_linkGo (keeps_relayLeft (keeps_incSat (keeps_relayTake h)))) h
  · exact h

theorem keeps_linkCrossed {a s : State} {x1} (h : Keeps a s) : Keeps a (linkCrossed s x1) := by
  unfold linkCrossed
  exact keeps_putFur h

theorem keeps_linkFails {a s : State} {x1} (h : Keeps a s) : Keeps a (linkFails s x1) := by
  unfold linkFails
  extract_lets +onlyGivenNames v0
  have h1 : Keeps a v0 := keeps_rewindOpen (keeps_linkCrossed (keeps_update h))
  clear_value v0
  extract_lets +onlyGivenNames v2
  clear_value v2
  extract_lets +onlyGivenNames v3
  clear_value v3
  extract_lets +onlyGivenNames v4
  have h5 : Keeps a v4 := keeps_putLnk h1
  clear_value v4
  refine keeps_ite ?_ ?_
  · exact h5
  · extract_lets +onlyGivenNames v6
    have h7 : Keeps a v6 := keeps_incSat (keeps_incSat (keeps_putLnk h5))
    clear_value v6
    exact keeps_sendControlFrame h7

theorem keeps_linkGood {a s : State} {x1} (h : Keeps a s) : Keeps a (linkGood s x1) := by
  unfold linkGood
  extract_lets +onlyGivenNames v0
  clear_value v0
  extract_lets +onlyGivenNames v1
  clear_value v1
  extract_lets +onlyGivenNames v2
  have h3 : Keeps a v2 := keeps_handled (keeps_addStat (keeps_putLnk (keeps_linkCrossed h)))
  clear_value v2
  exact keeps_sendControlFrame h3

theorem keeps_linkCross {a s : State} {x1} {x2} (h : Keeps a s) : Keeps a (linkCross s x1 x2) := by
  unfold linkCross
  extract_lets +onlyGivenNames v0
  clear_value v0
  extract_lets +onlyGivenNames v1
  clear_value v1
  exact keeps_putFur h

theorem keeps_linkPlot {a s : State} {x1} {x2} {x3} (h : Keeps a s) : Keeps a (linkPlot s x1 x2 x3) := by
  unfold linkPlot
  refine keeps_ite ?_ ?_
  · exact h
  · extract_lets +onlyGivenNames v0
    clear_value v0
    extract_lets +onlyGivenNames v1
    clear_value v1
    extract_lets +onlyGivenNames v2
    clear_value v2
    extract_lets +onlyGivenNames v3
    clear_value v3
    extract_lets +onlyGivenNames v4
    have h5 : Keeps a v4 := keeps_ite (keeps_putLnk (keeps_linkCrossed h)) h
    clear_value v4
    extract_lets +onlyGivenNames v6
    have h7 : Keeps a v6 := keeps_linkCross h5
    clear_value v6
    split
    · exact h7
    · extract_lets +onlyGivenNames v8
      have h9 : Keeps a v8 := keeps_plotArrives h7
      clear_value v8
      split
      · extract_lets +onlyGivenNames v10
        clear_value v10
        extract_lets +onlyGivenNames v11
        clear_value v11
        extract_lets +onlyGivenNames v12
        have h13 : Keeps a v12 := keeps_putFrame h9
        clear_value v12
        exact keeps_ite (keeps_announceHead h13) h13
      · exact h9

theorem keeps_linkEnter {a s : State} {x1} {x2} (h : Keeps a s) : Keeps a (linkEnter s x1 x2) := by
  unfold linkEnter
  extract_lets +onlyGivenNames v0
  clear_value v0
  extract_lets +onlyGivenNames v1
  have h2 : Keeps a v1 := keeps_creditBack h
  clear_value v1
  extract_lets +onlyGivenNames v3
  clear_value v3
  extract_lets +onlyGivenNames v4
  clear_value v4
  extract_lets +onlyGivenNames v5
  clear_value v5
  extract_lets +onlyGivenNames v6
  have h7 : Keeps a v6 := keeps_putLnk h2
  clear_value v6
  extract_lets +onlyGivenNames v8
  clear_value v8
  extract_lets +onlyGivenNames v9
  have h10 : Keeps a v9 := by
    unfold v9
    refine keeps_forEach ?_ fun s15 x17 h16 => ?_
    · exact h7
    · split
      · exact keeps_plotArrives h16
  clear_value v9
  split
  · extract_lets +onlyGivenNames v18
    clear_value v18
    extract_lets +onlyGivenNames v19
    have h20 : Keeps a v19 := keeps_putLnk (keeps_update h10)
    clear_value v19
    split
    · exact keeps_learnBus h20
    · exact h20
  · extract_lets +onlyGivenNames v21
    clear_value v21
    extract_lets +onlyGivenNames v22
    have h23 : Keeps a v22 := keeps_putFrame (keeps_update h10)
    clear_value v22
    refine keeps_ite ?_ ?_
    · extract_lets +onlyGivenNames v24
      have h25 : Keeps a v24 := keeps_headWhole h23
      clear_value v24
      refine keeps_freeIfDone ?_
      split
      · exact keeps_learnBus h25
      · exact h25
    · split
      · rename_i x26 x27 x28 x29 x30 x31 e32
        have h33 := keeps_snd e32 (keeps_announce h23)
        exact keeps_ite h33 (keeps_dropFrame h33)

theorem keeps_intFrame {a s : State} {x1} (h : Keeps a s) : Keeps a (intFrame s x1) := by
  unfold intFrame
  extract_lets +onlyGivenNames v0
  clear_value v0
  refine keeps_ite ?_ ?_
  · exact h
  · extract_lets +onlyGivenNames v1
    have h2 : Keeps a v1 := keeps_setBit h
    clear_value v1
    exact keeps_ite (keeps_update h2) h2

theorem keeps_linkRestart {a s : State} {x1} (h : Keeps a s) : Keeps a (linkRestart s x1) := by
  unfold linkRestart
  extract_lets +onlyGivenNames v0
  have h1 : Keeps a v0 := keeps_linkLose h
  clear_value v0
  extract_lets +onlyGivenNames v2
  have h3 : Keeps a v2 := keeps_clearHeads h1
  clear_value v2
  exact keeps_putLnk (keeps_update h3)

end Sys2Proof.Machine
end

