-- ==== Sys2Proof/Laws/KeepsUnits.lean ====
section
/-! SUPPORT. What Laws/Keeps.lean says, of pages, update, host port, faults, monitors and power. -/
namespace Sys2Proof.Machine

/-! ## Machine/Pages.lean -/

theorem keeps_refreshPage {a s : State} {x1} (h : Keeps a s) : Keeps a (refreshPage s x1) := by
  unfold refreshPage
  split
  · exact keeps_refreshOutput h
  · exact h

theorem keeps_stopCell {a s : State} {x1} (h : Keeps a s) : Keeps a (stopCell s x1) := by
  unfold stopCell
  split
  · exact keeps_refreshPage (keeps_canLeave h)
  · exact keeps_refreshPage (keeps_linkDown h)
  · exact keeps_refreshPage (keeps_linkLose h)
  · exact keeps_entropyStops h
  · exact keeps_refreshPage h

theorem keeps_startCell {a s : State} {x1} (h : Keeps a s) : Keeps a (startCell s x1) := by
  unfold startCell
  split
  · exact keeps_canRun h
  · exact keeps_linRun h
  · exact keeps_refreshPage (keeps_maskSeed h)
  · exact keeps_setBit h
  · exact keeps_cfgStart h
  · exact keeps_macRun h
  · exact keeps_refreshPage h

theorem keeps_runPage {a s : State} {x1} (h : Keeps a s) : Keeps a (runPage s x1) := by
  unfold runPage
  refine keeps_ite ?_ ?_
  · exact h
  · extract_lets +onlyGivenNames v0
    clear_value v0
    extract_lets +onlyGivenNames v1
    have h2 : Keeps a v1 := keeps_setBit h
    clear_value v1
    exact keeps_noteHeld (keeps_forEach h2 fun s3 _ h4 => keeps_startCell h4)

theorem keeps_stopPage {a s : State} {x1} (h : Keeps a s) : Keeps a (stopPage s x1) := by
  unfold stopPage
  extract_lets +onlyGivenNames v0
  clear_value v0
  extract_lets +onlyGivenNames v1
  have h2 : Keeps a v1 := keeps_clrBit h
  clear_value v1
  extract_lets +onlyGivenNames v3
  have h4 : Keeps a v3 := keeps_forEach h2 fun s5 _ h6 => keeps_stopCell h6
  clear_value v3
  exact keeps_noteHeld (keeps_update h4)

theorem keeps_egrRestart {a s : State} (h : Keeps a s) : Keeps a (egrRestart s) := by
  unfold egrRestart
  extract_lets +onlyGivenNames v0
  have h1 : Keeps a v0 := keeps_forEach h fun s2 _ h3 => keeps_discardCopies h3
  clear_value v0
  extract_lets +onlyGivenNames v4
  have h5 : Keeps a v4 := keeps_update h1
  clear_value v4
  exact keeps_forEach h5 fun s6 _ h7 => keeps_refreshOutput (keeps_update h7)

theorem keeps_rsqRestart {a s : State} (h : Keeps a s) : Keeps a (rsqRestart s) := by
  unfold rsqRestart
  extract_lets +onlyGivenNames v0
  clear_value v0
  exact keeps_forEach (keeps_update h) fun s1 _ h2 => keeps_freeIfDone h2

theorem keeps_laneRestart {a s : State} {x1} (h : Keeps a s) : Keeps a (laneRestart s x1) := by
  unfold laneRestart
  extract_lets +onlyGivenNames v0
  clear_value v0
  refine keeps_forEach ?_ fun s3 x5 h4 => ?_
  · exact keeps_update h
  · refine keeps_ite ?_ ?_
    · exact keeps_update h4
    · split
      · exact keeps_ite (keeps_flightOver h4) (keeps_freeIfDone h4)
      · exact h4

theorem keeps_clustersRestart {a s : State} (h : Keeps a s) : Keeps a (clustersRestart s) := by
  unfold clustersRestart
  exact keeps_refreshAll (keeps_forEach (keeps_update h) fun s0 _ h1 => keeps_refreshTrx h1)

theorem keeps_restartExtras {a s : State} {x1} (h : Keeps a s) : Keeps a (restartExtras s x1) := by
  unfold restartExtras
  split
  · exact keeps_canRestart h
  · exact keeps_linRestart h
  · exact keeps_macRestart h
  · exact keeps_wakeRestart h
  · exact keeps_update h
  · exact keeps_egrRestart h
  · exact keeps_rsqRestart h
  · exact keeps_mbRestart h
  · exact keeps_clustersRestart h
  · exact keeps_secRestart h
  · exact keeps_laneRestart h
  · exact keeps_keyRestart h
  · exact keeps_cvRestart h
  · extract_lets +onlyGivenNames v0
    have h1 : Keeps a v0 := keeps_setFld h
    clear_value v0
    exact keeps_ite (keeps_setBit h1) h1
  · exact keeps_clearHeads h
  · exact keeps_linkRestart h
  · exact keeps_pairRestart h
  · exact h

theorem keeps_rotationRestart {a s : State} {x1} (h : Keeps a s) : Keeps a (rotationRestart s x1) := by
  unfold rotationRestart
  refine keeps_ite ?_ ?_
  · extract_lets +onlyGivenNames v0
    have h1 : Keeps a v0 := keeps_update h
    clear_value v0
    extract_lets +onlyGivenNames v2
    have h3 : Keeps a v2 := keeps_ite (keeps_update h1) h1
    clear_value v2
    exact keeps_ite (keeps_update h3) h3
  · exact h

theorem keeps_clearPage {a s : State} {x1} (h : Keeps a s) : Keeps a (clearPage s x1) := by
  unfold clearPage
  extract_lets +onlyGivenNames v0
  have h1 : Keeps a v0 := keeps_settlePage h
  clear_value v0
  extract_lets +onlyGivenNames v2
  have h3 : Keeps a v2 := keeps_update h1
  clear_value v2
  exact keeps_refreshPage (keeps_restartExtras (keeps_restartRegs (keeps_restartFurrow (keeps_rotationRestart h3))))

theorem keeps_restartWith {a s : State} {x} {y} {f : State → State} (h : Keeps a s) (k : ∀ s, Keeps a s → Keeps a (f s)) :
    Keeps a (restartWith s x y f) := by
  unfold restartWith
  exact keeps_ite (keeps_runPage (keeps_clearPage (k _ (keeps_stopPage h)))) (keeps_clearPage (k _ (keeps_stopPage h)))

theorem keeps_restartPage {a s : State} {x1} (h : Keeps a s) : Keeps a (restartPage s x1) := by
  unfold restartPage
  exact keeps_ite h (keeps_restartWith h fun _ h => h)

/-! ## Machine/Hooks.lean -/

theorem keeps_pageTaken {a s : State} {x1} (h : Keeps a s) : Keeps a (pageTaken s x1) := by
  unfold pageTaken
  split
  · exact keeps_fwStart (keeps_refreshTrx (keeps_refreshPage h))
  · exact keeps_refreshPage h
  · exact keeps_evalXoff (keeps_refreshPage h)
  · exact keeps_evalAll h
  · exact h
  · exact keeps_forEach h fun s0 _ h1 => keeps_noteStuck (keeps_refreshOutput h1)
  · exact h

theorem keeps_egrWritten {a s : State} {x1} (h : Keeps a s) : Keeps a (egrWritten s x1) := by
  unfold egrWritten
  refine keeps_ite ?_ ?_
  · exact keeps_holdOver h
  · refine keeps_ite ?_ ?_
    · extract_lets +onlyGivenNames v0
      clear_value v0
      exact keeps_ite (keeps_update h) (keeps_ite h (keeps_update h))
    · exact h

theorem keeps_regWritten {a s : State} {x1} {x2} (h : Keeps a s) : Keeps a (regWritten s x1 x2) := by
  unfold regWritten
  extract_lets +onlyGivenNames v0
  clear_value v0
  extract_lets +onlyGivenNames v1
  clear_value v1
  refine keeps_ite ?_ ?_
  · exact h
  · split
    · refine keeps_ite ?_ ?_
      · exact keeps_ite h (keeps_unpark h)
      · refine keeps_ite ?_ ?_
        · extract_lets +onlyGivenNames v2
          clear_value v2
          exact keeps_noteHeld (keeps_forEach (keeps_refreshTrx (keeps_refreshOutput h)) fun s3 _ h4 => keeps_comfailJudge h4)
        · exact h
    · exact keeps_ite (keeps_update h) h
    · exact keeps_egrWritten h
    · exact keeps_ite (keeps_windowRejudge h) h
    · exact keeps_ite (keeps_noteHeld (keeps_comfailJudge (keeps_forEach h
        fun s5 _ h6 => keeps_refreshTrx (keeps_refreshOutput h6)))) h
    · exact keeps_ite (keeps_refreshHealth (keeps_pairEnable h)) (keeps_noteReclaim h)
    · exact keeps_ite (keeps_update h) h
    · exact keeps_pageTaken h

/-! ## Machine/Update.lean -/

theorem keeps_setBank {a s : State} {x1} {x2} (h : Keeps a s) : Keeps a (setBank s x1 x2) := by
  unfold setBank
  exact keeps_setFld h

theorem keeps_updRefuse {a s : State} {x1} (h : Keeps a s) : Keeps a (updRefuse s x1) := by
  unfold updRefuse
  exact keeps_setBit (keeps_setFld h)

theorem keeps_updAccept {a s : State} (h : Keeps a s) : Keeps a (updAccept s) := by
  unfold updAccept
  exact keeps_clrBit (keeps_setFld h)

theorem keeps_noteBlocks {a s : State} {x1} (h : Keeps a s) : Keeps a (noteBlocks s x1) := by
  unfold noteBlocks
  extract_lets +onlyGivenNames v0
  clear_value v0
  extract_lets +onlyGivenNames v1
  clear_value v1
  extract_lets +onlyGivenNames v2
  have h3 : Keeps a v2 := keeps_setFld (keeps_setFld h)
  clear_value v2
  exact keeps_ite (keeps_setBank h3) h3

theorem keeps_trialOver {a s : State} (h : Keeps a s) : Keeps a (trialOver s) := by
  unfold trialOver
  extract_lets +onlyGivenNames v0
  have h1 : Keeps a v0 := keeps_wr (keeps_clrBit h)
  clear_value v0
  exact keeps_update h1

theorem keeps_fallBackMarks {a s : State} {x1} {x2} (h : Keeps a s) : Keeps a (fallBackMarks s x1 x2) := by
  unfold fallBackMarks
  extract_lets +onlyGivenNames v0
  have h1 : Keeps a v0 := keeps_setBank h
  clear_value v0
  extract_lets +onlyGivenNames v2
  have h3 : Keeps a v2 := keeps_ite (keeps_setBank h1) h1
  clear_value v2
  exact keeps_raisePlain (keeps_setFld (keeps_trialOver h3))

theorem keeps_turnEnd {a s : State} (h : Keeps a s) : Keeps a (turnEnd s) := by
  unfold turnEnd
  split
  · split
    · exact keeps_ite (keeps_fallBackMarks (keeps_update h)) h
    · exact h
  · exact h

theorem keeps_headerRefused {a s : State} {x1} (h : Keeps a s) : Keeps a (headerRefused s x1) := by
  unfold headerRefused
  exact keeps_raisePlain (keeps_updRefuse h)

theorem keeps_blockRefused {a s : State} {x1} {x2} (h : Keeps a s) : Keeps a (blockRefused s x1 x2) := by
  unfold blockRefused
  exact keeps_raisePlain (keeps_incSat (keeps_wr (keeps_updRefuse h)))

theorem keeps_headerBlock {a s : State} {x1} {x2} (h : Keeps a s) : Keeps a (headerBlock s x1 x2).2 := by
  unfold headerBlock
  split
  · dsimp -zeta only
    exact keeps_headerRefused h
  · split
    · dsimp -zeta only
      exact keeps_headerRefused h
    · split
      · dsimp -zeta only
        exact keeps_headerRefused h
      · split
        · dsimp -zeta only
          exact keeps_headerRefused h
        · split
          · dsimp -zeta only
            exact keeps_headerRefused (keeps_keyParity h)
          · split
            · dsimp -zeta only
              exact keeps_headerRefused h
            · split
              · dsimp -zeta only
                exact keeps_headerRefused (keeps_seedFault h)
              · extract_lets +onlyGivenNames v0
                have h1 : Keeps a v0 := keeps_setBank (keeps_updAccept (keeps_update h))
                clear_value v0
                dsimp -zeta only
                exact keeps_noteBlocks (keeps_wr h1)

theorem keeps_bodyBlock {a s : State} {x1} {x2} {x3} (h : Keeps a s) : Keeps a (bodyBlock s x1 x2 x3).2 := by
  unfold bodyBlock
  split
  · dsimp -zeta only
    exact keeps_blockRefused h
  · split
    · dsimp -zeta only
      exact keeps_blockRefused h
    · split
      · dsimp -zeta only
        exact keeps_blockRefused h
      · extract_lets +onlyGivenNames v0
        clear_value v0
        split
        · dsimp -zeta only
          exact keeps_blockRefused h
        · split
          · dsimp -zeta only
            exact keeps_blockRefused h
          · split
            · dsimp -zeta only
              exact keeps_blockRefused (keeps_seedFault h)
            · extract_lets +onlyGivenNames v1
              clear_value v1
              dsimp -zeta only
              exact keeps_noteBlocks (keeps_updAccept (keeps_update h))

theorem keeps_blockAt {a s : State} {x1} {x2} {x3} (h : Keeps a s) : Keeps a (blockAt s x1 x2 x3).2 := by
  unfold blockAt
  extract_lets +onlyGivenNames v0
  have h1 : Keeps a v0 := keeps_turnEnd h
  clear_value v0
  split
  · exact keeps_headerBlock h1
  · exact keeps_bodyBlock h1

theorem keeps_updateBlock {a s : State} {x1} {x2} (h : Keeps a s) : Keeps a (updateBlock s x1 x2).2 := by
  unfold updateBlock
  exact keeps_blockAt h

theorem keeps_noteCost {a s : State} {x1} {x2} (h : Keeps a s) : Keeps a (noteCost s x1 x2) := by
  unfold noteCost
  extract_lets +onlyGivenNames v0
  have h1 : Keeps a v0 := keeps_stores h (fun w => ⟨w.1, w.2.1, mapCanon_filter w.2.2.1 _, w.2.2.2⟩) rfl rfl rfl rfl rfl rfl rfl
  clear_value v0
  extract_lets +onlyGivenNames v2
  have h3 : Keeps a v2 := by
    unfold v2
    refine keeps_forEach h1 fun _ _ h9 => ?_
    split
    exact keeps_tPut h9
  clear_value v2
  exact keeps_putBit (keeps_setFld (keeps_setFld h3))

theorem keeps_verifyFails {a s : State} {x1} (h : Keeps a s) : Keeps a (verifyFails s x1) := by
  unfold verifyFails
  exact keeps_raisePlain (keeps_updRefuse h)

theorem keeps_updVerify {a s : State} {x1} (h : Keeps a s) : Keeps a (updVerify s x1) := by
  unfold updVerify
  split
  · exact keeps_updRefuse h
  · refine keeps_ite ?_ ?_
    · exact keeps_verifyFails h
    · extract_lets +onlyGivenNames v0
      clear_value v0
      exact keeps_ite (keeps_verifyFails (keeps_keyParity h)) (keeps_ite (keeps_verifyFails h) (keeps_ite
          (keeps_verifyFails h) (keeps_cmdStart (keeps_noteCost (keeps_setBank (keeps_updAccept h))))))

theorem keeps_slotWrite {a s : State} {x1} {x2} (h : Keeps a s) : Keeps a (slotWrite s x1 x2) := by
  unfold slotWrite
  refine keeps_ite ?_ ?_
  · extract_lets +onlyGivenNames v0
    clear_value v0
    extract_lets +onlyGivenNames v1
    clear_value v1
    extract_lets +onlyGivenNames v2
    clear_value v2
    extract_lets +onlyGivenNames v3
    clear_value v3
    extract_lets +onlyGivenNames v4
    have h5 : Keeps a v4 := keeps_ite (keeps_update h) h
    clear_value v4
    exact keeps_wr h5
  · extract_lets +onlyGivenNames v6
    clear_value v6
    extract_lets +onlyGivenNames v7
    clear_value v7
    extract_lets +onlyGivenNames v8
    clear_value v8
    extract_lets +onlyGivenNames v9
    clear_value v9
    exact keeps_regWritten (keeps_wr (keeps_ite (keeps_pendB h) h))

theorem keeps_pageWrite {a s : State} {x1} {x2} (h : Keeps a s) : Keeps a (pageWrite s x1 x2) := by
  unfold pageWrite
  refine keeps_forEach ?_ fun s2 x4 h3 => ?_
  · exact h
  · split
    · extract_lets +onlyGivenNames v5
      clear_value v5
      exact keeps_ite h3 (keeps_slotWrite h3)

theorem keeps_entryWrite {a s : State} {x1} {x2} {x3} {x4} {x5} (h : Keeps a s) :
    Keeps a (entryWrite s x1 x2 x3 x4 x5) := by
  unfold entryWrite
  extract_lets +onlyGivenNames v0
  clear_value v0
  extract_lets +onlyGivenNames v1
  have h2 : Keeps a v1 := keeps_tPutBoth h
  clear_value v1
  refine keeps_ite ?_ ?_
  · exact h2
  · extract_lets +onlyGivenNames v3
    have h4 : Keeps a v3 := keeps_liveWritten h2
    clear_value v3
    exact keeps_ite (keeps_secWritten h4) h4

theorem keeps_turnMarks {a s : State} {x1} (h : Keeps a s) : Keeps a (turnMarks s x1) := by
  unfold turnMarks
  extract_lets +onlyGivenNames v0
  have h1 : Keeps a v0 := keeps_forEach h fun s2 _ h3 => keeps_forEach h3 fun s4 _ h5 => keeps_markStart h5
  clear_value v0
  exact keeps_forEach h1 fun s6 _ h7 => keeps_forEach h7 fun s8 _ h9 => keeps_markStart h9

theorem keeps_shadowsFromLive {a s : State} (h : Keeps a s) : Keeps a (shadowsFromLive s) := by
  unfold shadowsFromLive
  extract_lets +onlyGivenNames v0
  clear_value v0
  exact keeps_forEach (keeps_update h) fun s1 _ h2 => keeps_tPut h2

theorem keeps_tablesWrite {a s : State} {x1} {x2} (h : Keeps a s) : Keeps a (tablesWrite s x1 x2) := by
  unfold tablesWrite
  extract_lets +onlyGivenNames v0
  clear_value v0
  extract_lets +onlyGivenNames v1
  have h2 : Keeps a v1 := keeps_forEach h fun s3 _ h4 => keeps_entryWrite h4
  clear_value v1
  extract_lets +onlyGivenNames v5
  have h6 : Keeps a v5 := keeps_forEach h2 fun s7 _ h8 => keeps_entryWrite h8
  clear_value v5
  exact keeps_update h6

theorem keeps_staticWrite {a s : State} {x1} {x2} (h : Keeps a s) : Keeps a (staticWrite s x1 x2) := by
  unfold staticWrite
  extract_lets +onlyGivenNames v0
  clear_value v0
  extract_lets +onlyGivenNames v1
  clear_value v1
  split
  · exact keeps_putBridge (keeps_removeBridge h)
  · exact keeps_raisePlain h

theorem keeps_staticsWrite {a s : State} {x1} (h : Keeps a s) : Keeps a (staticsWrite s x1) := by
  unfold staticsWrite
  extract_lets +onlyGivenNames v0
  clear_value v0
  extract_lets +onlyGivenNames v1
  have h2 : Keeps a v1 := keeps_forEach h fun s3 _ h4 => keeps_staticWrite h4
  clear_value v1
  refine keeps_forEach ?_ fun s7 x9 h8 => ?_
  · exact h2
  · extract_lets +onlyGivenNames v10
    clear_value v10
    exact keeps_forEach h8 fun s11 _ h12 => keeps_removeBridge h12

theorem keeps_mirrorSetting {a s : State} {x1} {x2} (h : Keeps a s) : Keeps a (mirrorSetting s x1 x2) := by
  unfold mirrorSetting
  refine keeps_ite ?_ ?_
  · extract_lets +onlyGivenNames v0
    clear_value v0
    extract_lets +onlyGivenNames v1
    clear_value v1
    split
    · exact keeps_update h
    · extract_lets +onlyGivenNames v2
      clear_value v2
      exact keeps_update h
  · exact h

theorem keeps_turnPage {a s : State} {x1} (h : Keeps a s) : Keeps a (turnPage s x1) := by
  unfold turnPage
  split
  · exact h
  · refine keeps_ite ?_ ?_
    · exact h
    · extract_lets +onlyGivenNames v0
      have h1 : ∀ s, Keeps a s → Keeps a (v0 s) := by
        intro s h1'
        unfold v0
        exact keeps_pageWrite h1'
      clear_value v0
      extract_lets +onlyGivenNames v2
      have h3 : Keeps a v2 := keeps_ite (h1 _ h) (keeps_restartWith h fun s4 h5 => h1 _ h5)
      clear_value v2
      exact keeps_update h3

theorem keeps_harrowsResume {a s : State} (h : Keeps a s) : Keeps a (harrowsResume s) := by
  unfold harrowsResume
  extract_lets +onlyGivenNames v0
  clear_value v0
  exact keeps_update h

theorem keeps_turnSwap {a s : State} {x1} {x2} {x3} {x4} (h : Keeps a s) : Keeps a (turnSwap s x1 x2 x3 x4) := by
  unfold turnSwap
  extract_lets +onlyGivenNames v0
  clear_value v0
  extract_lets +onlyGivenNames v1
  clear_value v1
  extract_lets +onlyGivenNames v2
  have h3 : Keeps a v2 := keeps_cfgOpen (keeps_setFld h)
  clear_value v2
  extract_lets +onlyGivenNames v4
  have h5 : Keeps a v4 := h3
  clear_value v4
  extract_lets +onlyGivenNames v6
  have h7 : Keeps a v6 := keeps_turnMarks (keeps_tablesWrite h3)
  clear_value v6
  extract_lets +onlyGivenNames v8
  clear_value v8
  split
  · rename_i x9 x10 x11 e12
    have h13 := keeps_snd e12 (keeps_drawNat h7)
    extract_lets +onlyGivenNames v14
    clear_value v14
    extract_lets +onlyGivenNames v15
    clear_value v15
    extract_lets +onlyGivenNames v16
    clear_value v16
    extract_lets +onlyGivenNames v17
    have h18 : Keeps a v17 := keeps_update h13
    clear_value v17
    extract_lets +onlyGivenNames v19
    have h20 : Keeps a v19 := keeps_forEach h18 fun s21 _ h22 => keeps_pageWrite h22
    clear_value v19
    extract_lets +onlyGivenNames v23
    have h24 : Keeps a v23 := keeps_staticsWrite h20
    clear_value v23
    extract_lets +onlyGivenNames v25
    have h26 : Keeps a v25 := by
      unfold v25
      refine keeps_forEach ?_ fun s31 x33 h32 => ?_
      · exact h24
      · extract_lets +onlyGivenNames v34
        clear_value v34
        exact keeps_ite h32 (keeps_ite (keeps_update h32) (keeps_turnPage h32))
    clear_value v25
    exact keeps_refreshAll (keeps_cfgAdopt (keeps_harrowsResume h26))

theorem keeps_turnAbort {a s : State} {x1} {x2} (h : Keeps a s) : Keeps a (turnAbort s x1 x2) := by
  unfold turnAbort
  exact keeps_raisePlain (keeps_updRefuse (keeps_setBank (keeps_shadowsFromLive (keeps_seedFault h))))

theorem keeps_updActivate {a s : State} {x1} {x2} (h : Keeps a s) : Keeps a (updActivate s x1 x2) := by
  unfold updActivate
  split
  · exact keeps_updRefuse h
  · extract_lets +onlyGivenNames v0
    clear_value v0
    refine keeps_ite ?_ ?_
    · exact keeps_updRefuse h
    · refine keeps_ite ?_ ?_
      · exact keeps_updRefuse h
      · refine keeps_ite ?_ ?_
        · exact keeps_turnAbort h
        · extract_lets +onlyGivenNames v1
          clear_value v1
          extract_lets +onlyGivenNames v2
          have h3 : Keeps a v2 := keeps_updAccept h
          clear_value v2
          extract_lets +onlyGivenNames v4
          clear_value v4
          extract_lets +onlyGivenNames v5
          have h6 : Keeps a v5 := keeps_update h3
          clear_value v5
          extract_lets +onlyGivenNames v7
          have h8 : Keeps a v7 := keeps_setBank (keeps_ite (keeps_setBank h6) h6)
          clear_value v7
          extract_lets +onlyGivenNames v9
          clear_value v9
          extract_lets +onlyGivenNames v10
          have h11 : Keeps a v10 := keeps_update h8
          clear_value v10
          extract_lets +onlyGivenNames v12
          have h13 : Keeps a v12 := keeps_setFld (keeps_setFld (keeps_setBit h11))
          clear_value v12
          extract_lets +onlyGivenNames v14
          have h15 : Keeps a v14 := keeps_ite (keeps_seedFault h13) h13
          clear_value v14
          exact keeps_turnSwap (keeps_clrBit h15)

theorem keeps_updConfirm {a s : State} (h : Keeps a s) : Keeps a (updConfirm s) := by
  unfold updConfirm
  refine keeps_ite ?_ ?_
  · exact keeps_updRefuse h
  · extract_lets +onlyGivenNames v0
    clear_value v0
    extract_lets +onlyGivenNames v1
    have h2 : Keeps a v1 := keeps_wr (keeps_updAccept h)
    clear_value v1
    extract_lets +onlyGivenNames v3
    have h4 : Keeps a v3 := keeps_trialOver (keeps_setBank (keeps_setBank h2))
    clear_value v3
    exact keeps_cmdStart (keeps_wr (keeps_update h4))

theorem keeps_fallBack {a s : State} {x1} {x2} (h : Keeps a s) : Keeps a (fallBack s x1 x2) := by
  unfold fallBack
  extract_lets +onlyGivenNames v0
  clear_value v0
  extract_lets +onlyGivenNames v1
  clear_value v1
  extract_lets +onlyGivenNames v2
  have h3 : Keeps a v2 := keeps_update h
  clear_value v2
  exact keeps_ite (keeps_fallBackMarks h3) (keeps_ite (keeps_turnAbort h) (keeps_turnSwap (keeps_ite (keeps_seedFault h3) h3)))

theorem keeps_updReject {a s : State} {x1} (h : Keeps a s) : Keeps a (updReject s x1) := by
  unfold updReject
  exact keeps_ite (keeps_fallBack (keeps_updAccept h)) (keeps_updRefuse h)

theorem keeps_trialExpiry {a s : State} {x1} (h : Keeps a s) : Keeps a (trialExpiry s x1) := by
  unfold trialExpiry
  extract_lets +onlyGivenNames v0
  have h1 : Keeps a v0 := keeps_turnEnd h
  clear_value v0
  exact keeps_ite (keeps_fallBack h1) h1

theorem keeps_trialMinute {a s : State} (h : Keeps a s) : Keeps a (trialMinute s) := by
  unfold trialMinute
  extract_lets +onlyGivenNames v0
  have h1 : Keeps a v0 := keeps_turnEnd h
  clear_value v0
  exact keeps_ite (keeps_setFld (keeps_update h1)) h1

theorem keeps_updAbandon {a s : State} (h : Keeps a s) : Keeps a (updAbandon s) := by
  unfold updAbandon
  split
  · exact keeps_updRefuse h
  · extract_lets +onlyGivenNames v0
    have h1 : Keeps a v0 := keeps_setBank (keeps_updAccept (keeps_update h))
    clear_value v0
    exact keeps_cmdStart (keeps_wr (keeps_wr h1))

theorem keeps_updEpoch {a s : State} {x1} {x2} (h : Keeps a s) : Keeps a (updEpoch s x1 x2) := by
  unfold updEpoch
  extract_lets +onlyGivenNames steps low spare
  clear_value steps low spare
  refine keeps_ite (keeps_updRefuse h) (keeps_cmdStart (keeps_setFld ?_))
  have k : Keeps a (updAccept s) := keeps_updAccept h
  exact k.trans ⟨rfl, rfl, le_refl _, le_refl _, List.suffix_refl _, id, le_refl _, le_max_left _ _⟩

theorem keeps_disarm {a s : State} (h : Keeps a s) : Keeps a (disarm s) := by
  unfold disarm
  exact keeps_setFld h

theorem keeps_updAct {a s : State} {x1} {x2} {x3} (h : Keeps a s) : Keeps a (updAct s x1 x2 x3) := by
  unfold updAct
  extract_lets +onlyGivenNames v0
  clear_value v0
  extract_lets +onlyGivenNames v1
  have h2 : Keeps a v1 := keeps_disarm h
  clear_value v1
  split
  · exact keeps_updVerify h2
  · exact keeps_updActivate h2
  · exact keeps_updConfirm h2
  · exact keeps_updReject h2
  · exact keeps_updAbandon h2
  · exact keeps_updEpoch h2

theorem keeps_updCommand {a s : State} {x1} {x2} {x3} {x4} (h : Keeps a s) : Keeps a (updCommand s x1 x2 x3 x4) := by
  unfold updCommand
  extract_lets +onlyGivenNames v0
  have h1 : Keeps a v0 := keeps_turnEnd h
  clear_value v0
  exact keeps_ite (keeps_lockViolation (keeps_updRefuse h1)) (keeps_ite (keeps_updRefuse (keeps_disarm h1)) (keeps_ite
      (keeps_updRefuse (keeps_disarm h1)) (keeps_updAct h1)))

theorem keeps_updWrite {a s : State} {x1} {x2} (h : Keeps a s) : Keeps a (updWrite s x1 x2) := by
  unfold updWrite
  extract_lets +onlyGivenNames v0
  clear_value v0
  split
  · exact keeps_ite (keeps_lockViolation h) h
  · exact keeps_updCommand h
  · exact keeps_updCommand h
  · exact keeps_updCommand h
  · exact keeps_updCommand h
  · exact keeps_updCommand h
  · exact keeps_updCommand h
  · exact keeps_ite (keeps_lockViolation (keeps_updRefuse h)) (keeps_updRefuse (keeps_disarm h))

theorem keeps_updArm {a s : State} {x1} {x2} (h : Keeps a s) : Keeps a (updArm s x1 x2) := by
  unfold updArm
  refine keeps_ite ?_ ?_
  · exact keeps_lockViolation h
  · extract_lets +onlyGivenNames v0
    have h1 : Keeps a v0 := keeps_softWord h
    clear_value v0
    exact keeps_update h1

theorem keeps_setRefuse {a s : State} {x1} (h : Keeps a s) : Keeps a (setRefuse s x1) := by
  unfold setRefuse
  exact keeps_setBit (keeps_setFld h)

theorem keeps_setAccept {a s : State} (h : Keeps a s) : Keeps a (setAccept s) := by
  unfold setAccept
  exact keeps_clrBit (keeps_setFld h)

theorem keeps_setAct {a s : State} {x1} {x2} (h : Keeps a s) : Keeps a (setAct s x1 x2) := by
  unfold setAct
  extract_lets +onlyGivenNames v0
  clear_value v0
  split
  · extract_lets +onlyGivenNames v1
    clear_value v1
    refine keeps_ite ?_ ?_
    · split
      · rename_i x2 x3 x4 x5 e6
        have h7 := keeps_snd e6 (keeps_drawWords (keeps_seedFault h))
        exact keeps_cmdStart (keeps_setAccept h7)
    · exact keeps_cmdStart (keeps_setAccept h)
  · refine keeps_ite ?_ ?_
    · exact keeps_setRefuse h
    · refine keeps_ite ?_ ?_
      · exact keeps_setRefuse h
      · extract_lets +onlyGivenNames v8
        clear_value v8
        exact keeps_cmdStart (keeps_mirrorSetting (keeps_setAccept (keeps_update h)))
  · exact keeps_ite (keeps_setRefuse h) (keeps_cmdStart (keeps_mirrorSetting (keeps_setAccept (keeps_update h))))

theorem keeps_setScrapped {a s : State} (h : Keeps a s) : Keeps a (setScrapped s) := by
  unfold setScrapped
  exact keeps_setBit (keeps_updRefuse h)

theorem keeps_setPort {a s : State} {x} {f : State → State} (h : Keeps a s) (k : ∀ s, Keeps a s → Keeps a (f s)) :
    Keeps a (setPort s x f) := by
  unfold setPort
  exact keeps_ite (keeps_lockViolation (keeps_cmdSettle h)) (keeps_ite (keeps_setScrapped (keeps_cmdSettle h))
    (keeps_ite (keeps_setRefuse (keeps_cmdSettle h)) (k _ (keeps_cmdSettle h))))

theorem keeps_setCommand {a s : State} {x1} {x2} {x3} (h : Keeps a s) : Keeps a (setCommand s x1 x2 x3) := by
  unfold setCommand
  exact keeps_setPort (keeps_turnEnd h) fun s0 h1 => keeps_setAct h1

theorem keeps_setWrite {a s : State} {x1} {x2} (h : Keeps a s) : Keeps a (setWrite s x1 x2) := by
  unfold setWrite
  split
  · exact h
  · exact keeps_setCommand h
  · exact keeps_setCommand h
  · exact keeps_setCommand h
  · exact keeps_setPort h fun s0 h1 => keeps_setRefuse h1

theorem keeps_bootWrite {a s : State} {x1} {x2} (h : Keeps a s) : Keeps a (bootWrite s x1 x2) := by
  unfold bootWrite
  extract_lets +onlyGivenNames v0
  clear_value v0
  extract_lets +onlyGivenNames v1
  clear_value v1
  refine keeps_ite ?_ ?_
  · exact keeps_slotWrite h
  · refine keeps_ite ?_ ?_
    · exact h
    · refine keeps_ite ?_ ?_
      · extract_lets +onlyGivenNames v2
        clear_value v2
        extract_lets +onlyGivenNames v3
        clear_value v3
        split
        · exact keeps_ite h (keeps_wr h)
        · exact h
      · exact keeps_wr h

theorem keeps_loadBank {a s : State} {x1} (h : Keeps a s) : Keeps a (loadBank s x1) := by
  unfold loadBank
  extract_lets +onlyGivenNames bs regs v2
  have h3 : Keeps a v2 := keeps_forEach (keeps_setFld h) fun s4 _ h5 => keeps_bootWrite h5
  clear_value v2
  extract_lets +onlyGivenNames v6
  have h7 : Keeps a v6 := keeps_staticsWrite (keeps_tablesWrite h3)
  clear_value v6
  have hs (w : storesWf v6) : mapCanon (⟨0, false, 0⟩ : Slot) (imageSlots v6 bs) := by
    unfold imageSlots
    refine List.foldlRecOn _ _ (motive := fun m => mapCanon (⟨0, false, 0⟩ : Slot) m) (mapCanon_filter w.2.2.2.1 _) fun m hm x _ => ?_
    split
    · exact hm
    · exact mapCanon_mapPut hm _ _
  exact keeps_putBit (keeps_cfgAdopt (keeps_stores h7 (fun w => ⟨w.1, w.2.1, w.2.2.1, hs w, w.2.2.2.2⟩)
    rfl rfl rfl rfl rfl rfl rfl))

theorem keeps_bankLook {a s : State} {x1} {x2} {x3} (h : Keeps a s) : Keeps a (bankLook s x1 x2 x3).2 := by
  unfold bankLook
  extract_lets +onlyGivenNames v0
  clear_value v0
  extract_lets +onlyGivenNames v1
  have h2 : Keeps a v1 := keeps_ite (keeps_seedFault h) h
  clear_value v1
  dsimp -zeta only
  exact keeps_ite (keeps_keyParity h2) h2

theorem keeps_imageLoad {a s : State} {x1} {x2} (h : Keeps a s) : Keeps a (imageLoad s x1 x2) := by
  unfold imageLoad
  extract_lets +onlyGivenNames v0
  have h1 : ∀ s, Keeps a s → Keeps a (v0 s) := by
    intro s h1'
    unfold v0
    exact keeps_forEach (keeps_setBit h1') fun s2 _ h3 => keeps_runPage h3
  clear_value v0
  refine keeps_ite ?_ ?_
  · exact h1 _ h
  · extract_lets +onlyGivenNames v4
    clear_value v4
    extract_lets +onlyGivenNames v5
    have h6 : ∀ s y1, Keeps a s → Keeps a (v5 s y1) := by
      intro s y1 h6'
      unfold v5
      exact keeps_fallBackMarks (keeps_update h6')
    clear_value v5
    extract_lets +onlyGivenNames v7
    have h8 : Keeps a v7 := keeps_ite (keeps_ite (h6 _ _ h) (keeps_setFld h)) h
    clear_value v7
    extract_lets +onlyGivenNames v9
    clear_value v9
    extract_lets +onlyGivenNames v10
    have h11 : ∀ s y1, Keeps a s → Keeps a (v10 s y1) := by
      intro s y1 h11'
      unfold v10
      exact keeps_forEach (keeps_loadBank h11') fun s12 _ h13 => keeps_runPage h13
    clear_value v10
    refine keeps_ite ?_ ?_
    · exact h1 _ h8
    · split
      · rename_i x14 x15 x16 e17
        have h18 := keeps_snd e17 (keeps_bankLook h8)
        refine keeps_ite ?_ ?_
        · exact h11 _ _ h18
        · extract_lets +onlyGivenNames v19
          clear_value v19
          extract_lets +onlyGivenNames v20
          clear_value v20
          extract_lets +onlyGivenNames v21
          have h22 : Keeps a v21 := keeps_raisePlain h18
          clear_value v21
          refine keeps_ite ?_ ?_
          · split
            · rename_i x23 x24 x25 e26
              have h27 := keeps_snd e26 (keeps_bankLook h22)
              exact keeps_ite (h11 _ _ (keeps_ite (h6 _ _ h27) h27)) (h1 _ h27)
          · exact h1 _ h22

/-! ## Machine/Host.lean -/

theorem keeps_advanceHead {a s : State} {x1} (h : Keeps a s) : Keeps a (advanceHead s x1) := by
  unfold advanceHead
  exact keeps_setFld h

theorem keeps_issueVector {a s : State} {x1} (h : Keeps a s) : Keeps a (issueVector s x1) := by
  unfold issueVector
  exact keeps_update h

theorem keeps_tailWrite {a s : State} {x1} {x2} {x3} {x4} (h : Keeps a s) : Keeps a (tailWrite s x1 x2 x3 x4) := by
  unfold tailWrite
  extract_lets +onlyGivenNames v0
  clear_value v0
  extract_lets +onlyGivenNames v1
  clear_value v1
  refine keeps_ite ?_ ?_
  · exact keeps_softWord h
  · refine keeps_ite ?_ ?_
    · exact keeps_raisePlain (keeps_setBit h)
    · extract_lets +onlyGivenNames v2
      clear_value v2
      extract_lets +onlyGivenNames v3
      have h4 : Keeps a v3 := keeps_softWord h
      clear_value v3
      exact keeps_ite (keeps_noteStuck h4) (keeps_ite (keeps_update h4) h4)

theorem keeps_txStatus {a s : State} {x1} {x2} (h : Keeps a s) : Keeps a (txStatus s x1 x2) := by
  unfold txStatus
  extract_lets +onlyGivenNames v0
  clear_value v0
  extract_lets +onlyGivenNames v1
  have h2 : Keeps a v1 := keeps_send h
  clear_value v1
  extract_lets +onlyGivenNames v3
  have h4 : Keeps a v3 := keeps_ite (keeps_addStat h2) (keeps_incSat h2)
  clear_value v3
  extract_lets +onlyGivenNames v5
  have h6 : Keeps a v5 := keeps_ite (keeps_raisePlain h4) h4
  clear_value v5
  exact keeps_issueVector (keeps_advanceHead (keeps_update h6))

theorem keeps_txRead {a s : State} {x1} {x2} {x3} (h : Keeps a s) : Keeps a (txRead s x1 x2 x3) := by
  unfold txRead
  exact keeps_ite h (keeps_furWrite (keeps_ite (keeps_putFur h) h))

theorem keeps_txTaken {a s : State} {x1} (h : Keeps a s) : Keeps a (txTaken s x1) := by
  unfold txTaken
  exact keeps_putFur h

theorem keeps_txEnter {a s : State} {x1} {x2} {x3} {x4} {x5} (h : Keeps a s) : Keeps a (txEnter s x1 x2 x3 x4 x5).2 := by
  unfold txEnter
  extract_lets +onlyGivenNames v0
  clear_value v0
  extract_lets +onlyGivenNames v1
  clear_value v1
  extract_lets +onlyGivenNames v2
  clear_value v2
  extract_lets +onlyGivenNames v3
  clear_value v3
  extract_lets +onlyGivenNames v4
  have h5 : Keeps a v4 := by
    unfold v4
    refine keeps_forEach ?_ fun s10 x12 h11 => ?_
    · exact keeps_txTaken h
    · split
      · exact keeps_plotArrives h11
  clear_value v4
  split
  · dsimp -zeta only
    exact keeps_update h5
  · extract_lets +onlyGivenNames v13
    clear_value v13
    extract_lets +onlyGivenNames v14
    have h15 : Keeps a v14 := keeps_putFrame (keeps_update h5)
    clear_value v14
    split
    · rename_i x16 x17 x18 x19 x20 x21 e22
      have h23 := keeps_snd e22 (keeps_announce h15)
      extract_lets +onlyGivenNames v24
      have h25 : Keeps a v24 := keeps_handled h23
      clear_value v24
      split
      · exact h25
      · dsimp -zeta only
        exact keeps_dropFrame h25

theorem keeps_txDescriptor {a s : State} {x1} {x2} {x3} {x4} {x5} {x6} {x7} (h : Keeps a s) :
    Keeps a (txDescriptor s x1 x2 x3 x4 x5 x6 x7) := by
  unfold txDescriptor
  extract_lets +onlyGivenNames v0
  clear_value v0
  refine keeps_ite ?_ ?_
  · exact h
  · extract_lets +onlyGivenNames v1
    have h2 : Keeps a v1 := keeps_update h
    clear_value v1
    refine keeps_ite ?_ ?_
    · exact keeps_txStatus (keeps_txTaken h2)
    · refine keeps_ite ?_ ?_
      · exact keeps_txStatus (keeps_txTaken h2)
      · refine keeps_ite ?_ ?_
        · exact keeps_txStatus (keeps_incSat (keeps_setBit (keeps_txTaken h2)))
        · refine keeps_ite ?_ ?_
          · split
            · rename_i x3 x4 x5 e6
              have h7 := keeps_snd e6 (keeps_updateBlock (keeps_txTaken h2))
              exact keeps_txStatus h7
          · split
            · rename_i x8 x9 x10 e11
              have h12 := keeps_snd e11 (keeps_txEnter h2)
              exact keeps_txStatus h12

theorem keeps_txStall {a s : State} {x1} (h : Keeps a s) : Keeps a (txStall s x1) := by
  unfold txStall
  refine keeps_ite ?_ ?_
  · exact h
  · extract_lets +onlyGivenNames v0
    have h1 : Keeps a v0 := keeps_setBit (keeps_txTaken h)
    clear_value v0
    exact keeps_txStatus (keeps_update h1)

theorem keeps_lateCompletion {a s : State} {x1} (h : Keeps a s) : Keeps a (lateCompletion s x1) := by
  unfold lateCompletion
  exact keeps_ite (keeps_incSat h) h

theorem keeps_rxSignal {a s : State} {x1} (h : Keeps a s) : Keeps a (rxSignal s x1) := by
  unfold rxSignal
  extract_lets +onlyGivenNames v0
  clear_value v0
  exact keeps_ite (keeps_issueVector (keeps_update h)) (keeps_update h)

theorem keeps_holdoffEnd {a s : State} {x1} (h : Keeps a s) : Keeps a (holdoffEnd s x1) := by
  unfold holdoffEnd
  split
  · exact keeps_ite (keeps_rxSignal h) h
  · exact h

theorem keeps_rxDeliver {a s : State} {x1} {x2} {x3} (h : Keeps a s) : Keeps a (rxDeliver s x1 x2 x3) := by
  unfold rxDeliver
  extract_lets +onlyGivenNames v0
  clear_value v0
  split
  · refine keeps_ite ?_ ?_
    · exact h
    · extract_lets +onlyGivenNames v1
      clear_value v1
      extract_lets +onlyGivenNames v2
      clear_value v2
      extract_lets +onlyGivenNames v3
      clear_value v3
      extract_lets +onlyGivenNames v4
      have h5 : Keeps a v4 := keeps_send h
      clear_value v4
      extract_lets +onlyGivenNames v6
      have h7 : Keeps a v6 := keeps_send h5
      clear_value v6
      extract_lets +onlyGivenNames v8
      have h9 : Keeps a v8 := keeps_ite (keeps_incSat (keeps_setBit h7)) h7
      clear_value v8
      extract_lets +onlyGivenNames v10
      have h11 : Keeps a v10 := keeps_latency (keeps_handled (keeps_addStat (keeps_advanceHead h9)))
      clear_value v10
      extract_lets +onlyGivenNames v12
      have h13 : Keeps a v12 := keeps_ite (keeps_update h11) h11
      clear_value v12
      exact keeps_noteStuck (keeps_flightOver (keeps_rxSignal h13))
  · exact h

/-! ## Machine/Boundary.lean -/

theorem keeps_noteTrig {a s : State} {x1} (h : Keeps a s) : Keeps a (noteTrig s x1) := by
  unfold noteTrig
  extract_lets +onlyGivenNames v0
  clear_value v0
  extract_lets +onlyGivenNames v1
  clear_value v1
  extract_lets +onlyGivenNames v2
  have h3 : Keeps a v2 := keeps_putBit h
  clear_value v2
  extract_lets +onlyGivenNames v4
  have h5 : Keeps a v4 := keeps_putBit h3
  clear_value v4
  extract_lets +onlyGivenNames v6
  have h7 : Keeps a v6 := keeps_putBit h5
  clear_value v6
  exact keeps_putBit h7

theorem keeps_takeB {a s : State} {x1} (h : Keeps a s) : Keeps a (takeB s x1) := by
  unfold takeB
  extract_lets +onlyGivenNames v0
  clear_value v0
  extract_lets +onlyGivenNames v1
  have h2 : Keeps a v1 := keeps_pageTaken (keeps_bTake h)
  clear_value v1
  exact keeps_ite (keeps_evalAll h2) h2

theorem keeps_doTrig {a s : State} {x1} {x2} (h : Keeps a s) : Keeps a (doTrig s x1 x2) := by
  unfold doTrig
  split
  · exact keeps_runPage h
  · exact keeps_forEach (keeps_stopPage h) fun s0 _ h1 => keeps_takeB h1
  · exact keeps_restartPage h
  · exact keeps_turnPage h

theorem keeps_pumpOne {a s : State} {x1} (h : Keeps a s) : Keeps a (pumpOne s x1) := by
  unfold pumpOne
  extract_lets +onlyGivenNames v0
  clear_value v0
  extract_lets +onlyGivenNames v1
  have h2 : Keeps a v1 := keeps_foldl (keeps_update h) fun s3 _ h4 => keeps_doTrig h4
  clear_value v1
  exact keeps_forEach h2 fun s5 _ h6 => keeps_noteTrig h6

theorem keeps_pumpAll {a s : State} {x1} (h : Keeps a s) : Keeps a (pumpAll s x1) := by
  unfold pumpAll
  exact keeps_forEach (keeps_pumpOne h) fun s0 _ h1 => keeps_ite h1 (keeps_pumpOne h1)

theorem keeps_drainCell {a s : State} {x1} (h : Keeps a s) : Keeps a (drainCell s x1) := by
  unfold drainCell
  refine keeps_ite ?_ ?_
  · extract_lets +onlyGivenNames v0
    have h1 : Keeps a v0 := keeps_takeB (keeps_stopCell (keeps_update h))
    clear_value v0
    exact keeps_ite h1 (keeps_pumpOne h1)
  · exact h

theorem keeps_drainBlock {a s : State} {x1} (h : Keeps a s) : Keeps a (drainBlock s x1) := by
  unfold drainBlock
  exact keeps_forEach h fun s0 _ h1 => keeps_drainCell h1

theorem keeps_pump {a s : State} {x1} (h : Keeps a s) : Keeps a (pump s x1) := by
  unfold pump
  split
  · exact h
  · refine keeps_ite ?_ ?_
    · exact keeps_pumpAll h
    · refine keeps_ite ?_ ?_
      · refine keeps_noteTrig ?_
        extract_lets +onlyGivenNames v0
        have h1 : Keeps a v0 := keeps_runPage h
        clear_value v0
        exact keeps_update h1
      · exact keeps_drainBlock h

theorem keeps_pageCtrl {a s : State} {x1} {x2} {x3} {x4} (h : Keeps a s) : Keeps a (pageCtrl s x1 x2 x3 x4) := by
  unfold pageCtrl
  extract_lets +onlyGivenNames v0
  have h1 : Keeps a v0 := keeps_ite (keeps_unpark h) h
  clear_value v0
  extract_lets +onlyGivenNames v2
  clear_value v2
  extract_lets +onlyGivenNames v3
  clear_value v3
  refine keeps_ite ?_ ?_
  · exact h1
  · extract_lets +onlyGivenNames v4
    have h5 : Keeps a v4 := keeps_ite (keeps_lookAll h1) h1
    clear_value v4
    extract_lets +onlyGivenNames v6
    have h7 : Keeps a v6 := keeps_update h5
    clear_value v6
    exact keeps_pump (keeps_noteTrig (keeps_ite (keeps_setBit h7) h7))

theorem keeps_atAccess {a s : State} {x1} (h : Keeps a s) : Keeps a (atAccess s x1) := by
  unfold atAccess
  extract_lets +onlyGivenNames v0
  have h1 : Keeps a v0 := keeps_ite (keeps_turnEnd (keeps_settlePage h)) (keeps_settlePage h)
  clear_value v0
  exact keeps_ite (keeps_pump (keeps_ite (keeps_takeB h1) h1)) h1

theorem keeps_takeBoundaries {a s : State} (h : Keeps a s) : Keeps a (takeBoundaries s) := by
  unfold takeBoundaries
  extract_lets +onlyGivenNames v0
  clear_value v0
  extract_lets +onlyGivenNames v1
  have h2 : Keeps a v1 := keeps_forEach h fun s3 _ h4 => keeps_ite h4 (keeps_takeB h4)
  clear_value v1
  exact keeps_forEach h2 fun s5 _ h6 => keeps_pump h6

theorem keeps_boundary {a s : State} {x1} (h : Keeps a s) : Keeps a (boundary s x1) := by
  unfold boundary
  extract_lets +onlyGivenNames v0
  have h1 : Keeps a v0 := keeps_takeB h
  clear_value v0
  exact keeps_ite h1 (keeps_pumpAll h1)

theorem keeps_itemBoundary {a s : State} {x1} (h : Keeps a s) : Keeps a (itemBoundary s x1) := by
  unfold itemBoundary
  extract_lets +onlyGivenNames v0
  have h1 : Keeps a v0 := keeps_ite (keeps_canQuiet h) h
  clear_value v0
  exact keeps_ite h1 (keeps_boundary h1)

theorem keeps_cvBoundary {a s : State} {x1} (h : Keeps a s) : Keeps a (cvBoundary s x1) := by
  unfold cvBoundary
  exact keeps_ite h (keeps_boundary h)

theorem keeps_drillBoundary {a s : State} {x1} {x2} (h : Keeps a s) : Keeps a (drillBoundary s x1 x2) := by
  unfold drillBoundary
  exact keeps_drillTick (keeps_boundary h)

/-! ## Machine/Faults.lean -/

theorem keeps_laneToFallow {a s : State} {x1} {x2} (h : Keeps a s) : Keeps a (laneToFallow s x1 x2) := by
  unfold laneToFallow
  extract_lets +onlyGivenNames v0
  clear_value v0
  refine keeps_ite ?_ ?_
  · exact h
  · extract_lets +onlyGivenNames v1
    clear_value v1
    extract_lets +onlyGivenNames v2
    have h3 : Keeps a v2 := keeps_setBit (keeps_update h)
    clear_value v2
    exact keeps_retire (keeps_forEach (keeps_laneBusy h3) fun s4 _ h5 => keeps_laneVoid h5)

theorem keeps_cvToFallow {a s : State} {x1} {x2} (h : Keeps a s) : Keeps a (cvToFallow s x1 x2) := by
  unfold cvToFallow
  extract_lets +onlyGivenNames v0
  clear_value v0
  refine keeps_ite ?_ ?_
  · exact h
  · refine keeps_retire ?_
    refine keeps_setBit ?_
    extract_lets +onlyGivenNames v1
    have h2 : Keeps a v1 := keeps_cvAbort h
    clear_value v1
    exact keeps_update h2

theorem keeps_spareToFallow {a s : State} {x1} {x2} (h : Keeps a s) : Keeps a (spareToFallow s x1 x2) := by
  unfold spareToFallow
  extract_lets +onlyGivenNames v0
  clear_value v0
  exact keeps_ite (keeps_canToFallow h) (keeps_ite h (keeps_retire (keeps_update h)))

theorem keeps_remedy {a s : State} {x1} {x2} {x3} (h : Keeps a s) : Keeps a (remedy s x1 x2 x3) := by
  unfold remedy
  split
  · extract_lets +onlyGivenNames v0
    clear_value v0
    exact keeps_ite (keeps_canToFallow h) (keeps_canTakeover h)
  · exact keeps_spareToFallow h
  · exact keeps_linToFallow h
  · exact keeps_macToFallow h
  · exact keeps_laneToFallow h
  · exact keeps_cvToFallow h
  · exact keeps_linkToFallow h
  · exact keeps_ite (keeps_retire (keeps_update h)) (keeps_noSpare h)
  · exact keeps_noSpare h

theorem keeps_countAt {a s : State} {x1} {x2} {x3} {x4} {x5} {x6} {x7} (h : Keeps a s) :
    Keeps a (countAt s x1 x2 x3 x4 x5 x6 x7) := by
  unfold countAt
  split
  · rename_i x0 x1 x2 e3
    have h4 := keeps_snd e3 (keeps_classFault h)
    extract_lets +onlyGivenNames v5
    have h6 : Keeps a v5 := keeps_raiseRec h4
    clear_value v5
    exact keeps_ite (keeps_remedy h6) h6

theorem keeps_countFault {a s : State} {x1} {x2} {x3} {x4} {x5} (h : Keeps a s) :
    Keeps a (countFault s x1 x2 x3 x4 x5) := by
  unfold countFault
  exact keeps_countAt h

theorem keeps_modeParity {a s : State} {x1} (h : Keeps a s) : Keeps a (modeParity s x1) := by
  unfold modeParity
  extract_lets +onlyGivenNames v0
  clear_value v0
  exact keeps_ite (keeps_setCanMode h) h

theorem keeps_registerParity {a s : State} {x1} {x2} {x3} (h : Keeps a s) : Keeps a (registerParity s x1 x2 x3) := by
  unfold registerParity
  extract_lets +onlyGivenNames v0
  clear_value v0
  refine keeps_ite ?_ ?_
  · exact keeps_countAt (keeps_wr (keeps_update h))
  · extract_lets +onlyGivenNames v1
    clear_value v1
    extract_lets +onlyGivenNames v2
    clear_value v2
    extract_lets +onlyGivenNames v3
    have h4 : Keeps a v3 := keeps_modeParity (keeps_wr h)
    clear_value v3
    extract_lets +onlyGivenNames v5
    have h6 : Keeps a v5 := keeps_countAt h4
    clear_value v5
    exact keeps_regWritten h6

theorem keeps_poisonItem {a s : State} {x1} (h : Keeps a s) : Keeps a (poisonItem s x1) := by
  unfold poisonItem
  extract_lets +onlyGivenNames v0
  have h1 : ∀ y0, Keeps a (v0 y0) := by
    intro y0
    unfold v0
    exact keeps_putFrame h
  clear_value v0
  split
  · split
    · exact h1 _
    · exact h
  · split
    · exact keeps_update h
    · exact h
  · exact h

theorem keeps_furrowParity {a s : State} {x1} (h : Keeps a s) : Keeps a (furrowParity s x1) := by
  unfold furrowParity
  extract_lets +onlyGivenNames v0
  clear_value v0
  refine keeps_ite ?_ ?_
  · exact h
  · extract_lets +onlyGivenNames v1
    clear_value v1
    extract_lets +onlyGivenNames v2
    have h3 : Keeps a v2 := keeps_poisonItem (keeps_ite (keeps_putFur h) h)
    clear_value v2
    extract_lets +onlyGivenNames v4
    have h5 : Keeps a v4 := by
      unfold v4
      split
      · exact keeps_incSat (keeps_setBit h3)
      · exact h3
    clear_value v4
    exact keeps_countFault h5

theorem keeps_plotParity {a s : State} {x1} {x2} (h : Keeps a s) : Keeps a (plotParity s x1 x2) := by
  unfold plotParity
  extract_lets +onlyGivenNames v0
  clear_value v0
  extract_lets +onlyGivenNames v1
  have h2 : Keeps a v1 := keeps_wr (keeps_incSat h)
  clear_value v1
  refine keeps_raiseRec (keeps_stores h2 (fun w => ⟨w.1, w.2.1, w.2.2.1, w.2.2.2.1, mapRising_map w.2.2.2.2 fun e => ?_⟩)
    rfl rfl rfl rfl rfl rfl rfl)
  split <;> rfl

theorem keeps_harrowJudge {a s : State} {x1} {x2} {x3} {x4} {x5} {x6} (h : Keeps a s) :
    Keeps a (harrowJudge s x1 x2 x3 x4 x5 x6) := by
  unfold harrowJudge
  refine keeps_ite ?_ ?_
  · split
    · exact keeps_ite (keeps_bridgeParity h) h
    · exact keeps_ite (keeps_gateParity h) h
    · exact keeps_ite (keeps_polParity h) h
    · exact keeps_judge h
  · refine keeps_ite ?_ ?_
    · split
      · exact keeps_ite (keeps_stateParity h) h
      · exact keeps_ite (keeps_stateParity h) h
      · exact keeps_judge h
    · split
      · exact keeps_ite (keeps_putFv h) h
      · exact keeps_ite (keeps_putPn h) h
      · exact keeps_judge h

theorem keeps_laneParity {a s : State} {x1} (h : Keeps a s) : Keeps a (laneParity s x1) := by
  unfold laneParity
  split
  · rename_i x0 x1 x2 e3
    have h4 := keeps_laneTake e3 h
    exact keeps_laneFault h4
  · extract_lets +onlyGivenNames v5
    clear_value v5
    extract_lets +onlyGivenNames v6
    have h7 : Keeps a v6 := keeps_setBit (keeps_incSat h)
    clear_value v6
    exact keeps_raiseRec (keeps_update h7)

theorem keeps_canMemory {a s : State} {x1} {x2} {x3} (h : Keeps a s) : Keeps a (canMemory s x1 x2 x3) := by
  unfold canMemory
  extract_lets +onlyGivenNames v0
  clear_value v0
  exact keeps_countFault (keeps_ite (keeps_objParity h) h)

theorem keeps_cellStall {a s : State} {x1} (h : Keeps a s) : Keeps a (cellStall s x1) := by
  unfold cellStall
  extract_lets +onlyGivenNames v0
  clear_value v0
  split
  · rename_i x1 x2 x3 e4
    have h5 := keeps_snd e4 (keeps_classFault h)
    extract_lets +onlyGivenNames v6
    have h7 : Keeps a v6 := keeps_raiseRec h5
    clear_value v6
    extract_lets +onlyGivenNames v8
    have h9 : Keeps a v8 := keeps_update h7
    clear_value v8
    refine keeps_ite ?_ ?_
    · exact keeps_remedy h9
    · extract_lets +onlyGivenNames v10
      have h11 : Keeps a v10 := keeps_restartPage h9
      clear_value v10
      exact keeps_update h11

theorem keeps_stalled1ms {a s : State} {x1} (h : Keeps a s) : Keeps a (stalled1ms s x1) := by
  unfold stalled1ms
  refine keeps_ite ?_ ?_
  · exact keeps_cellStall h
  · extract_lets +onlyGivenNames v0
    have h1 : Keeps a v0 := keeps_ite (keeps_setBit h) h
    clear_value v0
    extract_lets +onlyGivenNames v2
    have h3 : Keeps a v2 := keeps_countFault h1
    clear_value v2
    exact keeps_refreshHealth (keeps_update h3)

theorem keeps_crossing {a s : State} {x1} {x2} (h : Keeps a s) : Keeps a (crossing s x1 x2) := by
  unfold crossing
  extract_lets +onlyGivenNames v0
  clear_value v0
  extract_lets +onlyGivenNames v1
  clear_value v1
  extract_lets +onlyGivenNames v2
  have h3 : Keeps a v2 := by
    unfold v2
    split
    · exact keeps_ite (keeps_canTxError h) (keeps_ite (keeps_furRewind h) h)
    · exact keeps_linCross h
    · refine keeps_ite ?_ ?_
      · exact keeps_ethFails h
      · split
        · exact keeps_rewindFrame (keeps_macRewind h)
        · exact keeps_ite (keeps_macsecOver h) h
    · exact keeps_ite h (keeps_putFur h)
    · split
      · exact keeps_ite (keeps_flightOver h) h
      · exact h
    · exact keeps_ite (keeps_linkAborts h) (keeps_linkFails h)
    · exact h
  clear_value v2
  exact keeps_countFault h3

theorem keeps_takeCrossings {a s : State} (h : Keeps a s) : Keeps a (takeCrossings s) := by
  unfold takeCrossings
  exact keeps_forEach (keeps_update h) fun s0 _ h1 => keeps_countFault h1

theorem keeps_takeFault {a s : State} {x1} {x2} {x3} {x4} {x5} (h : Keeps a s) :
    Keeps a (takeFault s x1 x2 x3 x4 x5) := by
  unfold takeFault
  extract_lets +onlyGivenNames v0
  clear_value v0
  extract_lets +onlyGivenNames v1
  have h2 : Keeps a v1 := keeps_ite (keeps_setBit h) h
  clear_value v1
  split
  · exact keeps_registerParity h2
  · exact keeps_furrowParity h2
  · exact keeps_ite (keeps_plotParity h2) (keeps_countFault h2)
  · exact keeps_ite (keeps_harrowJudge h2) (keeps_countFault h2)
  · exact keeps_ite (keeps_ite h2 (keeps_quarantine h2)) (keeps_countFault h2)
  · exact keeps_ite (keeps_slotParity h2) (keeps_countFault h2)
  · exact keeps_crossing h2
  · exact keeps_stalled1ms h2
  · exact keeps_ite (keeps_laneParity h2) (keeps_countFault h2)
  · exact keeps_ite (keeps_cvFault h2) (keeps_countFault h2)
  · exact keeps_ite (keeps_entropyFail h2) (keeps_countFault h2)
  · exact keeps_ite (keeps_keyParity h2) (keeps_countFault h2)
  · exact keeps_ite (keeps_canMemory h2) (keeps_countFault h2)
  · exact keeps_countFault h2

theorem keeps_testEnd {a s : State} {x1} {x2} {x3} (h : Keeps a s) : Keeps a (testEnd s x1 x2 x3) := by
  unfold testEnd
  refine keeps_ite ?_ ?_
  · exact h
  · split
    · exact keeps_ite h (keeps_rowTested h)
    · exact keeps_laneTested h
    · exact keeps_ite (keeps_entropyStarted h) (keeps_entropyFail h)
    · exact h

theorem keeps_trxReport {a s : State} {x1} {x2} {x3} {x4} {x5} (h : Keeps a s) :
    Keeps a (trxReport s x1 x2 x3 x4 x5) := by
  unfold trxReport
  refine keeps_ite ?_ ?_
  · extract_lets +onlyGivenNames v0
    clear_value v0
    extract_lets +onlyGivenNames v1
    clear_value v1
    extract_lets +onlyGivenNames v2
    have h3 : Keeps a v2 := keeps_setFld h
    clear_value v2
    extract_lets +onlyGivenNames v4
    have h5 : Keeps a v4 := keeps_putBit (keeps_putBit h3)
    clear_value v4
    extract_lets +onlyGivenNames v6
    clear_value v6
    extract_lets +onlyGivenNames v7
    have h8 : Keeps a v7 := keeps_ite (keeps_setBit h5) h5
    clear_value v7
    extract_lets +onlyGivenNames v9
    have h10 : Keeps a v9 := keeps_ite (keeps_raisePlain h8) h8
    clear_value v9
    extract_lets +onlyGivenNames v11
    have h12 : Keeps a v11 := keeps_ite (keeps_countFault h10) h10
    clear_value v11
    exact keeps_ite (keeps_countFault h12) h12
  · refine keeps_ite ?_ ?_
    · extract_lets +onlyGivenNames v13
      clear_value v13
      extract_lets +onlyGivenNames v14
      clear_value v14
      extract_lets +onlyGivenNames v15
      have h16 : Keeps a v15 := keeps_putBit (keeps_putBit h)
      clear_value v15
      extract_lets +onlyGivenNames v17
      clear_value v17
      extract_lets +onlyGivenNames v18
      have h19 : Keeps a v18 := keeps_ite (keeps_setBit h16) h16
      clear_value v18
      exact keeps_ite (keeps_countFault h19) h19
    · exact h

theorem keeps_modeCommand {a s : State} {x1} {x2} {x3} (h : Keeps a s) : Keeps a (modeCommand s x1 x2 x3) := by
  unfold modeCommand
  extract_lets +onlyGivenNames v0
  clear_value v0
  extract_lets +onlyGivenNames v1
  have h2 : Keeps a v1 := keeps_send h
  clear_value v1
  exact keeps_ite (keeps_countFault (keeps_send h2)) h2

theorem keeps_reclaimRefuse {a s : State} {x1} (h : Keeps a s) : Keeps a (reclaimRefuse s x1) := by
  unfold reclaimRefuse
  exact keeps_setFld (keeps_setBit h)

theorem keeps_fallowOff {a s : State} {x1} (h : Keeps a s) : Keeps a (fallowOff s x1) := by
  unfold fallowOff
  split
  · exact keeps_setFld h
  · exact keeps_clrBit h
  · exact keeps_clrBit h
  · exact keeps_clrBit h
  · exact keeps_clrBit h
  · exact keeps_clrBit h
  · exact h

theorem keeps_reclaimDo {a s : State} {x1} (h : Keeps a s) : Keeps a (reclaimDo s x1) := by
  unfold reclaimDo
  extract_lets +onlyGivenNames v0
  clear_value v0
  split
  · extract_lets +onlyGivenNames v1
    have h2 : Keeps a v1 := keeps_restartPage (keeps_fallowOff (keeps_update h))
    clear_value v1
    split
    · exact keeps_ite (keeps_refreshTrx h2) h2
    · exact h2
  · extract_lets +onlyGivenNames v3
    clear_value v3
    exact keeps_canMoved (keeps_wr h)
  · exact keeps_update h

theorem keeps_ledgerReclaim {a s : State} {x1} (h : Keeps a s) : Keeps a (ledgerReclaim s x1) := by
  unfold ledgerReclaim
  extract_lets +onlyGivenNames v0
  clear_value v0
  extract_lets +onlyGivenNames v1
  have h2 : Keeps a v1 := keeps_ledgerClear h
  clear_value v1
  split
  · rename_i x3 x4 x5 e6
    have h7 := keeps_snd e6 (keeps_drawNat h2)
    extract_lets +onlyGivenNames v8
    clear_value v8
    extract_lets +onlyGivenNames v9
    have h10 : Keeps a v9 := keeps_ite h7 (keeps_setBit (keeps_incSat h7))
    clear_value v9
    exact keeps_update h10

theorem keeps_reclaim {a s : State} {x1} (h : Keeps a s) : Keeps a (reclaim s x1) := by
  unfold reclaim
  extract_lets +onlyGivenNames v0
  clear_value v0
  refine keeps_ite ?_ ?_
  · exact keeps_reclaimRefuse h
  · split
    · exact keeps_reclaimRefuse h
    · refine keeps_ite ?_ ?_
      · exact keeps_reclaimRefuse h
      · refine keeps_ite ?_ ?_
        · exact keeps_reclaimRefuse h
        · extract_lets +onlyGivenNames v1
          have h2 : Keeps a v1 := keeps_setFld (keeps_clrBit h)
          clear_value v1
          extract_lets +onlyGivenNames v3
          have h4 : Keeps a v3 := keeps_noteRoster (keeps_update h2)
          clear_value v3
          exact keeps_cmdStart (keeps_ledgerReclaim (keeps_reclaimDo h4))

/-! ## Machine/Furrows.lean -/

theorem keeps_furWrote {a s : State} {x1} {x2} (h : Keeps a s) : Keeps a (furWrote s x1 x2) := by
  unfold furWrote
  exact keeps_ite h (keeps_ite (keeps_furFull h) (keeps_furWrite h))

theorem keeps_noteFailed {a s : State} {x1} {x2} (h : Keeps a s) : Keeps a (noteFailed s x1 x2) := by
  unfold noteFailed
  exact keeps_ite (keeps_furrowParity h) h

theorem keeps_deliverWord {a s : State} {x1} {x2} (h : Keeps a s) : Keeps a (deliverWord s x1 x2) := by
  unfold deliverWord
  extract_lets +onlyGivenNames v0
  clear_value v0
  exact keeps_update h

theorem keeps_furWordRead {a s : State} {x1} {x2} {x3} (h : Keeps a s) : Keeps a (furWordRead s x1 x2 x3) := by
  unfold furWordRead
  extract_lets +onlyGivenNames v0
  have h1 : Keeps a v0 := keeps_furWrote h
  clear_value v0
  extract_lets +onlyGivenNames v2
  clear_value v2
  refine keeps_ite ?_ ?_
  · extract_lets +onlyGivenNames v3
    have h4 : Keeps a v3 := keeps_putFur h1
    clear_value v3
    exact keeps_update h4
  · split
    · extract_lets +onlyGivenNames v5
      have h6 : Keeps a v5 := keeps_deliverWord (keeps_noteFailed h1)
      clear_value v5
      extract_lets +onlyGivenNames v7
      clear_value v7
      exact keeps_furSettle (keeps_putFur h6)
    · refine keeps_ite ?_ ?_
      · extract_lets +onlyGivenNames v8
        have h9 : Keeps a v8 := keeps_deliverWord (keeps_noteFailed h1)
        clear_value v8
        exact keeps_furSettle (keeps_putFur h9)
      · exact h1

theorem keeps_hwmWrite {a s : State} {x1} {x2} (h : Keeps a s) : Keeps a (hwmWrite s x1 x2) := by
  unfold hwmWrite
  split
  · extract_lets +onlyGivenNames v0
    clear_value v0
    extract_lets +onlyGivenNames v1
    clear_value v1
    exact keeps_ite h (keeps_syncWord (keeps_wr h))
  · exact h

theorem keeps_furPop {a s : State} {x1} {x2} (h : Keeps a s) : Keeps a (furPop s x1 x2) := by
  unfold furPop
  refine keeps_ite ?_ ?_
  · exact keeps_update h
  · split
    · rename_i x0 x1 x2 e3
      have h4 := keeps_snd e3 (keeps_popHead h)
      exact keeps_completeRead (keeps_furSettle h4)

theorem keeps_popExpiry {a s : State} {x1} {x2} (h : Keeps a s) : Keeps a (popExpiry s x1 x2) := by
  unfold popExpiry
  split
  · exact keeps_ite (keeps_completeRead (keeps_update h)) h
  · exact h

/-! ## Machine/HarrowPass.lean -/

theorem keeps_harrowStep {a s : State} {x1} (h : Keeps a s) : Keeps a (harrowStep s x1) := by
  unfold harrowStep
  split
  · refine keeps_ite ?_ ?_
    · exact keeps_update h
    · split
      · exact keeps_update h
      · extract_lets +onlyGivenNames v0
        clear_value v0
        extract_lets +onlyGivenNames v1
        have h2 : Keeps a v1 := keeps_update h
        clear_value v1
        exact keeps_ite h2 (keeps_wr h2)

theorem keeps_harrowCompare {a s : State} {x1} {x2} {x3} {x4} (h : Keeps a s) :
    Keeps a (harrowCompare s x1 x2 x3 x4) := by
  unfold harrowCompare
  split
  · exact keeps_ite h (keeps_harrowStep (keeps_harrowJudge (keeps_update h)))

theorem keeps_harrowFlag {a s : State} {x1} {x2} {x3} {x4} (h : Keeps a s) : Keeps a (harrowFlag s x1 x2 x3 x4) := by
  unfold harrowFlag
  split
  · refine keeps_ite ?_ ?_
    · exact h
    · extract_lets +onlyGivenNames v0
      clear_value v0
      extract_lets +onlyGivenNames v1
      have h2 : Keeps a v1 := keeps_harrowJudge (keeps_update h)
      clear_value v1
      exact keeps_ite (keeps_harrowStep h2) h2
  · exact h

/-! ## Machine/Monitors.lean -/

theorem keeps_periodNext {a s : State} {x1} {x2} (h : Keeps a s) : Keeps a (periodNext s x1 x2) := by
  unfold periodNext
  extract_lets +onlyGivenNames v0
  clear_value v0
  exact keeps_update h

theorem keeps_paceWindow {a s : State} {x1} {x2} (h : Keeps a s) : Keeps a (paceWindow s x1 x2) := by
  unfold paceWindow
  refine keeps_ite ?_ ?_
  · exact h
  · extract_lets +onlyGivenNames v0
    have h1 : Keeps a v0 := keeps_periodNext h
    clear_value v0
    extract_lets +onlyGivenNames v2
    clear_value v2
    extract_lets +onlyGivenNames v3
    have h4 : Keeps a v3 := keeps_wr h1
    clear_value v3
    extract_lets +onlyGivenNames v5
    clear_value v5
    extract_lets +onlyGivenNames v6
    have h7 : Keeps a v6 := keeps_ite (keeps_setFld h4) h4
    clear_value v6
    extract_lets +onlyGivenNames v8
    clear_value v8
    refine keeps_ite ?_ ?_
    · extract_lets +onlyGivenNames v9
      have h10 : Keeps a v9 := keeps_update h7
      clear_value v9
      refine keeps_ite ?_ ?_
      · exact h10
      · extract_lets +onlyGivenNames v11
        have h12 : Keeps a v11 := keeps_raisePlain (keeps_setBit h10)
        clear_value v11
        exact keeps_ite (keeps_refreshHealth h12) h12
    · refine keeps_ite ?_ ?_
      · refine keeps_ite ?_ ?_
        · extract_lets +onlyGivenNames v13
          have h14 : Keeps a v13 := keeps_update h7
          clear_value v13
          exact keeps_ite (keeps_refreshHealth h14) h14
        · exact keeps_update h7
      · exact h7

theorem keeps_monSample {a s : State} {x1} (h : Keeps a s) : Keeps a (monSample s x1) := by
  unfold monSample
  extract_lets +onlyGivenNames v0
  clear_value v0
  extract_lets +onlyGivenNames v1
  clear_value v1
  refine keeps_ite ?_ ?_
  · exact h
  · extract_lets +onlyGivenNames v2
    have h3 : Keeps a v2 := keeps_ite h (keeps_periodNext h)
    clear_value v2
    split
    · exact keeps_monTake h3
    · exact keeps_monTake h3
    · exact keeps_monTake h3
    · exact keeps_ite h3 (keeps_monTake h3)
    · exact h3

theorem keeps_monSnap {a s : State} {x1} {x2} (h : Keeps a s) : Keeps a (monSnap s x1 x2) := by
  unfold monSnap
  extract_lets +onlyGivenNames v0
  clear_value v0
  extract_lets +onlyGivenNames v1
  have h2 : Keeps a v1 := keeps_wr (keeps_wr (keeps_wr h))
  clear_value v1
  extract_lets +onlyGivenNames v3
  have h4 : Keeps a v3 := keeps_forEach h2 fun s5 _ h6 => keeps_wr h6
  clear_value v3
  exact keeps_ite (keeps_update h4) h4

theorem keeps_monConfig {a s : State} {x1} {x2} {x3} {x4} (h : Keeps a s) : Keeps a (monConfig s x1 x2 x3 x4) := by
  unfold monConfig
  exact keeps_softWord (keeps_update h)

/-! ## Machine/Power.lean -/

theorem keeps_putSup {a s : State} {x1} {x2} (h : Keeps a s) : Keeps a (putSup s x1 x2) := by
  unfold putSup
  exact keeps_update h

theorem keeps_latchWake {a s : State} {x1} {x2} {x3} (h : Keeps a s) : Keeps a (latchWake s x1 x2 x3) := by
  unfold latchWake
  extract_lets +onlyGivenNames v0
  clear_value v0
  extract_lets +onlyGivenNames v1
  clear_value v1
  extract_lets +onlyGivenNames v2
  have h3 : Keeps a v2 := keeps_putSup h
  clear_value v2
  exact keeps_ite h3 (keeps_update h3)

theorem keeps_cutTurn {a s : State} (h : Keeps a s) : Keeps a (cutTurn s) := by
  unfold cutTurn
  split
  · exact keeps_turnEnd (keeps_update h)
  · exact h

theorem keeps_coreReset {a s : State} {x1} (h : Keeps a s) : Keeps a (coreReset s x1) := by
  unfold coreReset
  extract_lets +onlyGivenNames s1
  have h1 : Keeps a s1 := keeps_cutTurn (keeps_lcCut h)
  clear_value s1
  clear h
  extract_lets +onlyGivenNames z r
  have hr : Keeps a r := by
    refine keeps_stores h1 (fun w => ⟨?_, mapCanon_nil _, mapCanon_nil _, mapCanon_nil _, rfl⟩) rfl rfl rfl rfl rfl rfl rfl
    show mapRising (keptRegs s1) = true ∧ ∀ e ∈ keptRegs s1, e.2.toNat ≠ resetWord s1.fuses e.1
    exact ⟨mapRising_filter w.1.1 _, fun e he => w.1.2 e (List.mem_filter.mp he).1⟩
  clear_value r
  exact keeps_setFld (keeps_noteRoster (keeps_forEach (keeps_forEach (keeps_wr (keeps_setFld hr)) fun _ _ k => keeps_setFld k)
    fun _ _ k => keeps_setFld (keeps_putBit k)))

theorem keeps_brownOut {a s : State} {x1} (h : Keeps a s) : Keeps a (brownOut s x1) := by
  unfold brownOut
  extract_lets +onlyGivenNames v0
  clear_value v0
  exact keeps_coreReset (keeps_update h)

theorem keeps_bootFuses {a s : State} {x1} (h : Keeps a s) : Keeps a (bootFuses s x1) := by
  unfold bootFuses
  extract_lets +onlyGivenNames v0
  clear_value v0
  extract_lets +onlyGivenNames v1
  have h2 : Keeps a v1 := keeps_setFld (keeps_setFld h)
  clear_value v1
  extract_lets +onlyGivenNames v3
  have h4 : Keeps a v3 := keeps_setFld h2
  clear_value v3
  exact keeps_forEach h4 fun s5 _ h6 => keeps_ite (keeps_countFault h6) (keeps_setBit h6)

theorem keeps_bootIdentity {a s : State} {x1} (h : Keeps a s) : Keeps a (bootIdentity s x1) := by
  unfold bootIdentity
  exact keeps_forEach h fun s0 _ h1 => keeps_countFault (keeps_wr h1)

theorem keeps_bootStep {a s : State} {f : State → State} (h : Keeps a s) (k : ∀ s, Keeps a s → Keeps a (f s)) :
    Keeps a (bootStep f s) :=
  keeps_escServe (k s h)

theorem keeps_bootSpare {a s : State} {x1} {x2} (h : Keeps a s) : Keeps a (bootSpare s x1 x2) := by
  unfold bootSpare
  split
  · exact keeps_setFld h
  · exact keeps_setFld h
  · split
    · exact keeps_ite h (keeps_setFld h)
  · exact h

theorem keeps_bootRoster {a s : State} {x1} (h : Keeps a s) : Keeps a (bootRoster s x1) := by
  unfold bootRoster
  extract_lets +onlyGivenNames v0
  clear_value v0
  split
  · exact h
  · extract_lets +onlyGivenNames v1
    have h2 : Keeps a v1 := keeps_update h
    clear_value v1
    split
    · exact keeps_setFld h2
    · exact keeps_setBit h2
    · exact keeps_setBit h2
    · exact keeps_setBit h2
    · exact keeps_setBit h2
    · exact keeps_setBit h2
    · exact h2
  · exact keeps_wr h
  · exact keeps_bootSpare h
  · exact keeps_ite (keeps_setFld (keeps_update h)) h
  · exact keeps_update h

theorem keeps_bootTest {a s : State} {x1} {x2} {x3} (h : Keeps a s) : Keeps a (bootTest s x1 x2 x3) := by
  unfold bootTest
  split
  · exact keeps_remedyRow (keeps_permanentRec h)
  · exact keeps_ite (keeps_repaired h) (keeps_ite (keeps_repaired h) h)
  · exact keeps_slotParity h
  · exact keeps_laneToFallow (keeps_permanentRec h)
  · exact keeps_cvToFallow (keeps_permanentRec h)
  · exact h

theorem keeps_showLatched {a s : State} (h : Keeps a s) : Keeps a (showLatched s) := by
  unfold showLatched
  refine keeps_forEach ?_ fun s2 x4 h3 => ?_
  · exact h
  · refine keeps_ite ?_ ?_
    · exact keeps_setBit h3
    · extract_lets +onlyGivenNames v5
      clear_value v5
      refine keeps_ite ?_ ?_
      · extract_lets +onlyGivenNames v6
        clear_value v6
        exact keeps_ite (keeps_setBit h3) (keeps_setBit h3)
      · refine keeps_ite ?_ ?_
        · exact keeps_setBit h3
        · extract_lets +onlyGivenNames v7
          clear_value v7
          exact keeps_ite (keeps_setBit h3) (keeps_setBit h3)

theorem keeps_keepWakeSettings {a s : State} (h : Keeps a s) : Keeps a (keepWakeSettings s) := by
  unfold keepWakeSettings
  exact keeps_update h

theorem keeps_enterActive {a s : State} {x1} (h : Keeps a s) : Keeps a (enterActive s x1) := by
  unfold enterActive
  extract_lets +onlyGivenNames v0
  have h1 : Keeps a v0 := h.trans ⟨rfl, rfl, Nat.le_add_right _ _, le_refl _, List.suffix_refl _, id, le_refl _, le_refl _⟩
  clear_value v0
  extract_lets +onlyGivenNames v2
  have h3 : Keeps a v2 := keeps_wr (keeps_setFld h1)
  clear_value v2
  extract_lets +onlyGivenNames v4
  have h5 : Keeps a v4 := keeps_showLatched h3
  clear_value v4
  extract_lets +onlyGivenNames w5
  clear_value w5
  extract_lets +onlyGivenNames v6
  have h7 : Keeps a v6 := keeps_update h5
  clear_value v6
  extract_lets +onlyGivenNames v8
  have h9 : Keeps a v8 := keeps_refreshAll (keeps_evalAll (keeps_clustersAtActive h7))
  clear_value v8
  extract_lets +onlyGivenNames v10
  have h11 : Keeps a v10 := keeps_keepWakeSettings h9
  clear_value v10
  extract_lets +onlyGivenNames v12
  have h13 : Keeps a v12 := keeps_forEach h11 fun s14 _ h15 => keeps_ite h15 (keeps_setFld (keeps_raisePlain h15))
  clear_value v12
  extract_lets +onlyGivenNames w13
  clear_value w13
  extract_lets +onlyGivenNames v14
  have h15 : Keeps a v14 := by
    unfold v14
    split
    · exact keeps_raisePlain (keeps_update h13)
    · exact h13
  clear_value v14
  extract_lets +onlyGivenNames v16
  have h17 : Keeps a v16 := keeps_noteHeld (keeps_refreshHealth h15)
  clear_value v16
  exact keeps_ite (keeps_drillWork h17) h17

theorem keeps_firstHeartbeat {a s : State} {x1} (h : Keeps a s) : Keeps a (firstHeartbeat s x1) := by
  unfold firstHeartbeat
  exact keeps_putSup (keeps_update h)

theorem keeps_storeAtBoot {a s : State} {x1} (h : Keeps a s) : Keeps a (storeAtBoot s x1) := by
  unfold storeAtBoot
  refine keeps_forEach ?_ fun s2 x4 h3 => ?_
  · exact h
  · split
    · rename_i x5 x6 x7 e8
      have h9 := keeps_snd e8 (keeps_drawNat (keeps_bootStep h3 fun s10 h11 => keeps_seedFault h11))
      split
      · extract_lets +onlyGivenNames v12
        have h13 : Keeps a v12 := keeps_setBank (keeps_setBank (keeps_setFld h9))
        clear_value v12
        exact keeps_setFld (keeps_setFld h13)
      · exact keeps_wr (keeps_update h9)
      · exact keeps_wr h9
      · exact keeps_ite (keeps_update h9) h9

theorem keeps_boot {a s : State} {x1} (h : Keeps a s) : Keeps a (boot s x1) := by
  unfold boot
  extract_lets +onlyGivenNames v0
  clear_value v0
  extract_lets +onlyGivenNames v1
  clear_value v1
  extract_lets +onlyGivenNames v2
  have h3 : Keeps a v2 := keeps_coreReset (keeps_update h)
  clear_value v2
  extract_lets +onlyGivenNames v4
  have h5 : Keeps a v4 := keeps_setFld h3
  clear_value v4
  extract_lets +onlyGivenNames v6
  have h7 : Keeps a v6 := keeps_forEach (keeps_bootIdentity (keeps_bootFuses h5)) fun s8 _ h9 => keeps_firstHeartbeat h9
  clear_value v6
  extract_lets +onlyGivenNames v10
  have h11 : Keeps a v10 := keeps_storeAtBoot h7
  clear_value v10
  extract_lets +onlyGivenNames v12
  have h13 : Keeps a v12 := keeps_forEach h11 fun s14 _ h15 => keeps_ite (keeps_bootStep h15
      fun s16 h17 => keeps_seedFault h17) (keeps_bootRoster h15)
  clear_value v12
  extract_lets +onlyGivenNames v18
  have h19 : Keeps a v18 := keeps_foldl h13 fun s20 _ h21 => keeps_bootRoster h21
  clear_value v18
  extract_lets +onlyGivenNames v22
  have h23 : Keeps a v22 := keeps_forEach h19 fun s24 _ h25 => keeps_ite h25 (keeps_bootStep h25
      fun s26 h27 => keeps_bootTest h27)
  clear_value v22
  extract_lets +onlyGivenNames v28
  have h29 : Keeps a v28 := keeps_drbgReady (keeps_setBit h23)
  clear_value v28
  extract_lets +onlyGivenNames v30
  have h31 : Keeps a v30 := keeps_bootService (keeps_freshnessAtBoot (keeps_imageLoad (keeps_keysAtBoot h29)))
  clear_value v30
  exact keeps_enterActive h31

theorem keeps_supplyGood {a s : State} {x1} (h : Keeps a s) : Keeps a (supplyGood s x1) := by
  unfold supplyGood
  extract_lets +onlyGivenNames v0
  clear_value v0
  extract_lets +onlyGivenNames v1
  have h2 : Keeps a v1 := keeps_update h
  clear_value v1
  exact keeps_ite (keeps_boot h2) h2

theorem keeps_vbatOn {a s : State} (h : Keeps a s) : Keeps a (vbatOn s) := by
  unfold vbatOn
  refine keeps_ite ?_ ?_
  · extract_lets +onlyGivenNames v0
    have h1 : Keeps a v0 := keeps_update h
    clear_value v0
    extract_lets +onlyGivenNames v2
    clear_value v2
    extract_lets +onlyGivenNames v3
    have h4 : Keeps a v3 := keeps_forEach h1 fun s5 _ h6 => keeps_putSup h6
    clear_value v3
    exact keeps_setFld h4
  · exact h

theorem keeps_vbatOff {a s : State} (h : Keeps a s) : Keeps a (vbatOff s) := by
  unfold vbatOff
  extract_lets +onlyGivenNames v0
  have h1 : Keeps a v0 := keeps_forEach h fun s2 _ h3 => keeps_setFld (keeps_clrBit h3)
  clear_value v0
  extract_lets +onlyGivenNames v4
  have h5 : Keeps a v4 := keeps_forEach h1 fun s6 _ h7 => keeps_putSup (keeps_setFld h7)
  clear_value v4
  extract_lets +onlyGivenNames v8
  clear_value v8
  extract_lets +onlyGivenNames v9
  have h10 : Keeps a v9 := keeps_update h5
  clear_value v9
  extract_lets +onlyGivenNames v11
  have h12 : Keeps a v11 := keeps_coreReset h10
  clear_value v11
  exact keeps_update h12

theorem keeps_pgoodTimeout {a s : State} {x1} (h : Keeps a s) : Keeps a (pgoodTimeout s x1) := by
  unfold pgoodTimeout
  extract_lets +onlyGivenNames v0
  clear_value v0
  split
  · refine keeps_ite ?_ ?_
    · extract_lets +onlyGivenNames v1
      clear_value v1
      extract_lets +onlyGivenNames v2
      have h3 : Keeps a v2 := keeps_setFld h
      clear_value v2
      exact keeps_putSup h3
    · exact h
  · exact h

theorem keeps_voteRetry {a s : State} {x1} (h : Keeps a s) : Keeps a (voteRetry s x1) := by
  unfold voteRetry
  extract_lets +onlyGivenNames v0
  clear_value v0
  split
  · exact keeps_ite (keeps_putSup h) h
  · exact h

theorem keeps_heartbeat {a s : State} (h : Keeps a s) : Keeps a (heartbeat s) := by
  unfold heartbeat
  refine keeps_ite ?_ ?_
  · refine keeps_forEach ?_ fun s4 x6 h5 => ?_
    · exact h
    · extract_lets +onlyGivenNames v7
      have h8 : Keeps a v7 := keeps_firstHeartbeat (keeps_send h5)
      clear_value v7
      refine keeps_ite ?_ ?_
      · extract_lets +onlyGivenNames v9
        have h10 : Keeps a v9 := keeps_update h8
        clear_value v9
        exact keeps_forEach h10 fun s11 _ h12 => keeps_refreshTrx h12
      · exact h8
  · exact h

theorem keeps_failsafeDie {a s : State} {x1} (h : Keeps a s) : Keeps a (failsafeDie s x1) := by
  unfold failsafeDie
  refine keeps_ite ?_ ?_
  · exact h
  · extract_lets +onlyGivenNames v0
    have h1 : Keeps a v0 := keeps_update h
    clear_value v0
    exact keeps_forEach h1 fun s2 _ h3 => keeps_refreshTrx h3

theorem keeps_heartbeatLapse {a s : State} {x1} (h : Keeps a s) : Keeps a (heartbeatLapse s x1) := by
  unfold heartbeatLapse
  split
  · refine keeps_ite ?_ ?_
    · extract_lets +onlyGivenNames v0
      have h1 : Keeps a v0 := keeps_failsafeDie h
      clear_value v0
      exact keeps_putSup h1
    · exact h
  · exact h

theorem keeps_voteWithdraw {a s : State} {x1} (h : Keeps a s) : Keeps a (voteWithdraw s x1) := by
  unfold voteWithdraw
  split
  · exact keeps_ite (keeps_putSup h) h
  · exact h

theorem keeps_entryBegin {a s : State} {x1} (h : Keeps a s) : Keeps a (entryBegin s x1) := by
  unfold entryBegin
  extract_lets +onlyGivenNames v0
  clear_value v0
  extract_lets +onlyGivenNames v1
  clear_value v1
  extract_lets +onlyGivenNames v2
  have h3 : Keeps a v2 := keeps_setBit (keeps_update h)
  clear_value v2
  exact keeps_forEach h3 fun s4 _ h5 => keeps_pageCtrl h5

theorem keeps_entryAbort {a s : State} (h : Keeps a s) : Keeps a (entryAbort s) := by
  unfold entryAbort
  refine keeps_ite ?_ ?_
  · extract_lets +onlyGivenNames v0
    clear_value v0
    extract_lets +onlyGivenNames v1
    clear_value v1
    extract_lets +onlyGivenNames v2
    have h3 : Keeps a v2 := keeps_setBit (keeps_clrBit (keeps_update h))
    clear_value v2
    exact keeps_forEach h3 fun s4 _ h5 => keeps_pump (keeps_update h5)
  · exact h

theorem keeps_entryEnd {a s : State} (h : Keeps a s) : Keeps a (entryEnd s) := by
  unfold entryEnd
  refine keeps_ite ?_ ?_
  · exact h
  · extract_lets +onlyGivenNames v0
    have h1 : Keeps a v0 := keeps_forEach h fun s2 _ h3 => keeps_pumpAll h3
    clear_value v0
    extract_lets +onlyGivenNames v4
    have h5 : Keeps a v4 := keeps_forEach h1 fun s6 _ h7 => keeps_discardCopies h7
    clear_value v4
    extract_lets +onlyGivenNames v8
    have h9 : Keeps a v8 := keeps_keepWakeSettings h5
    clear_value v8
    extract_lets +onlyGivenNames v10
    have h11 : Keeps a v10 := by
      unfold v10
      refine keeps_forEach ?_ fun s16 x18 h17 => ?_
      · exact h9
      · extract_lets +onlyGivenNames v19
        clear_value v19
        exact keeps_ite (keeps_ite h17 (keeps_update h17)) (keeps_update h17)
    clear_value v10
    extract_lets +onlyGivenNames v20
    have h21 : Keeps a v20 := keeps_forEach h11 fun s22 _ h23 => keeps_ite h23 (keeps_send (keeps_update h23))
    clear_value v20
    extract_lets +onlyGivenNames v24
    have h25 : Keeps a v24 := keeps_forEach h21 fun s26 _ h27 => keeps_putSup (keeps_send h27)
    clear_value v24
    exact keeps_clrBit (keeps_update h25)

theorem keeps_standbyCommand {a s : State} {x1} (h : Keeps a s) : Keeps a (standbyCommand s x1) := by
  unfold standbyCommand
  exact keeps_ite (keeps_ite h (keeps_entryBegin h)) (keeps_setBit h)

theorem keeps_autoStandby {a s : State} (h : Keeps a s) : Keeps a (autoStandby s) := by
  unfold autoStandby
  exact keeps_ite (keeps_entryBegin h) h

theorem keeps_standbyHold {a s : State} {x1} (h : Keeps a s) : Keeps a (standbyHold s x1) := by
  unfold standbyHold
  split
  · exact keeps_ite (keeps_boot (keeps_update h)) h
  · exact h

theorem keeps_supplyRemoved {a s : State} (h : Keeps a s) : Keeps a (supplyRemoved s) := by
  unfold supplyRemoved
  extract_lets +onlyGivenNames v0
  clear_value v0
  extract_lets +onlyGivenNames v1
  have h2 : Keeps a v1 := keeps_update h
  clear_value v1
  exact keeps_ite (keeps_coreReset (keeps_update h2)) (keeps_ite (keeps_brownOut h2) h2)

theorem keeps_supplyFails {a s : State} {x1} (h : Keeps a s) : Keeps a (supplyFails s x1) := by
  unfold supplyFails
  extract_lets +onlyGivenNames v0
  clear_value v0
  extract_lets +onlyGivenNames v1
  have h2 : Keeps a v1 := keeps_update h
  clear_value v1
  exact keeps_ite (keeps_brownOut h2) h2

theorem keeps_refclkLost {a s : State} (h : Keeps a s) : Keeps a (refclkLost s) := by
  unfold refclkLost
  extract_lets +onlyGivenNames v0
  clear_value v0
  extract_lets +onlyGivenNames v1
  have h2 : Keeps a v1 := keeps_update h
  clear_value v1
  exact keeps_ite (keeps_brownOut h2) h2

theorem keeps_refclkBack {a s : State} {x1} (h : Keeps a s) : Keeps a (refclkBack s x1) := by
  unfold refclkBack
  extract_lets +onlyGivenNames v0
  clear_value v0
  extract_lets +onlyGivenNames v1
  clear_value v1
  extract_lets +onlyGivenNames v2
  have h3 : Keeps a v2 := keeps_update h
  clear_value v2
  exact keeps_ite (keeps_boot h3) h3

theorem keeps_warmReset {a s : State} (h : Keeps a s) : Keeps a (warmReset s) := by
  unfold warmReset
  extract_lets +onlyGivenNames v0
  have h1 : Keeps a v0 := keeps_forEach h fun s2 _ h3 => keeps_failsafeDie (keeps_send h3)
  clear_value v0
  exact keeps_coreReset (keeps_update h1)

theorem keeps_pwrCommand {a s : State} {x y z w} (h : Keeps a s) : Keeps a (pwrCommand s x y z w).1 := by
  unfold pwrCommand
  dsimp only
  split_ifs
  · exact keeps_lockViolation h
  · exact keeps_setBit (keeps_wr h)
  · exact keeps_warmReset (keeps_wr h)
  · exact keeps_setBit (keeps_wr h)
  · exact keeps_standbyCommand (keeps_wr h)
  · exact keeps_wr h

theorem keeps_warmBoot {a s : State} {x1} {x2} (h : Keeps a s) : Keeps a (warmBoot s x1 x2) := by
  unfold warmBoot
  split
  rename_i s1 b e
  have h1 := keeps_fst e (keeps_pwrCommand h)
  exact keeps_ite (keeps_boot h1) h1

theorem keeps_wakeGranted {a s : State} {x y z} {f : State → State} (h : Keeps a s) (k : ∀ s, Keeps a s → Keeps a (f s)) :
    Keeps a (wakeGranted s x y z f) := by
  unfold wakeGranted
  exact keeps_ite (keeps_ite (keeps_latchWake h) (k _ (keeps_entryAbort h))) (keeps_ite h (keeps_latchWake h))

theorem keeps_wakeEvent {a s : State} {x1} (h : Keeps a s) : Keeps a (wakeEvent s x1) := by
  unfold wakeEvent
  exact keeps_ite h (keeps_wakeGranted h fun s0 h1 => keeps_wakeReport h1)

theorem keeps_winEdge {a s : State} {x1} {x2} {x3} (h : Keeps a s) : Keeps a (winEdge s x1 x2 x3) := by
  unfold winEdge
  extract_lets +onlyGivenNames v0
  clear_value v0
  exact keeps_ite (keeps_wakeGranted h fun s1 h2 => keeps_winReport h2) h

theorem keeps_perstAssert {a s : State} (h : Keeps a s) : Keeps a (perstAssert s) := by
  unfold perstAssert
  extract_lets +onlyGivenNames gone
  clear_value gone
  extract_lets +onlyGivenNames s1
  have h1 : Keeps a s1 := keeps_forEach h fun _ _ k => keeps_flightOver k
  clear_value s1
  extract_lets +onlyGivenNames s2
  have h2 : Keeps a s2 := keeps_forEach h1 fun _ _ k => keeps_clearHeads k
  clear_value s2
  refine keeps_forEach (keeps_stores h2 (fun w => ⟨?_, mapCanon_filter w.2.1 _, w.2.2⟩) rfl rfl rfl rfl rfl rfl rfl)
    fun _ _ k => keeps_refreshOutput k
  exact ⟨mapRising_filter w.1.1 _, fun e he => w.1.2 e (List.mem_filter.mp he).1⟩

theorem keeps_perstRelease {a s : State} (h : Keeps a s) : Keeps a (perstRelease s) := by
  unfold perstRelease
  exact keeps_update h

theorem keeps_pcieTrained {a s : State} (h : Keeps a s) : Keeps a (pcieTrained s) := by
  unfold pcieTrained
  split
  · rename_i x0 x1 x2 e3
    have h4 := keeps_snd e3 (keeps_drawNat h)
    split
    · rename_i x5 x6 x7 e8
      have h9 := keeps_snd e8 (keeps_drawNat h4)
      exact keeps_setFld (keeps_setFld h9)

theorem keeps_pcieLink {a s : State} {x1} (h : Keeps a s) : Keeps a (pcieLink s x1) := by
  unfold pcieLink
  exact keeps_ite h (keeps_noteHeld (keeps_ite (keeps_pcieTrained (keeps_setBit h)) (keeps_setFld h)))

end Sys2Proof.Machine
end

