-- ==== Sys2Proof/Laws/KeepsAccess.lean ====
section
/-! SUPPORT. What Laws/Keeps.lean says, of the register accesses and what the commands share. -/
namespace Sys2Proof.Machine

/-! ## Machine/Reads.lean -/

theorem keeps_readPrep {a s : State} {x1} {x2} (h : Keeps a s) : Keeps a (readPrep s x1 x2) := by
  unfold readPrep
  extract_lets +onlyGivenNames v0
  clear_value v0
  exact keeps_ite (keeps_cmdAwait h) (keeps_ite (keeps_canLook h) (keeps_atAccess h))

theorem keeps_readReg {a s : State} {x1} (h : Keeps a s) : Keeps a (readReg s x1).2 := by
  unfold readReg
  extract_lets +onlyGivenNames v0
  clear_value v0
  split
  · exact h
  · extract_lets +onlyGivenNames v1
    clear_value v1
    extract_lets +onlyGivenNames v2
    clear_value v2
    extract_lets +onlyGivenNames v3
    clear_value v3
    split
    · exact keeps_drbgOut h
    · extract_lets +onlyGivenNames v4
      have h5 : Keeps a v4 := keeps_readPrep h
      clear_value v4
      split
      · rename_i x6 x7 x8 x9 x10 e11
        have h12 : Keeps a x10 := by
          refine keeps_snd e11 ?_
          split
          · exact keeps_drawNat h5
          · exact h5
        extract_lets +onlyGivenNames v13
        clear_value v13
        extract_lets +onlyGivenNames v14
        have h15 : Keeps a v14 := keeps_clearRC h12
        clear_value v14
        dsimp -zeta only
        exact keeps_ite (keeps_mbxDataRead h15) h15

theorem keeps_holdAccess {a s : State} {x1} (h : Keeps a s) : Keeps a (holdAccess s x1) := by
  unfold holdAccess
  exact keeps_update h

theorem keeps_readNow {a s : State} {x1} {x2} (h : Keeps a s) : Keeps a (readNow s x1 x2) := by
  unfold readNow
  refine keeps_ite ?_ ?_
  · exact keeps_furPop h
  · split
    · rename_i x0 x1 x2 e3
      have h4 := keeps_snd e3 (keeps_readReg h)
      exact keeps_completeRead h4

theorem keeps_readFor {a s : State} {x1} {x2} (h : Keeps a s) : Keeps a (readFor s x1 x2) := by
  unfold readFor
  exact keeps_ite (keeps_holdAccess h) (keeps_readNow h)

/-! ## Machine/Writes.lean -/

theorem keeps_plainWrite {a s : State} {x1} {x2} {x3} (h : Keeps a s) : Keeps a (plainWrite s x1 x2 x3) := by
  unfold plainWrite
  exact keeps_regWritten (keeps_softWord h)

theorem keeps_keyWrite {a s : State} {x1} {x2} (h : Keeps a s) : Keeps a (keyWrite s x1 x2) := by
  unfold keyWrite
  split
  · exact h
  · exact keeps_keyErase h
  · exact keeps_keyGenerate h
  · exact keeps_keyDerive h
  · exact keeps_keyInfo h
  · exact keeps_keyPort h fun s0 h1 => keeps_keyRefuse h1

theorem keeps_clWrite {a s : State} {x1} {x2} (h : Keeps a s) : Keeps a (clWrite s x1 x2) := by
  unfold clWrite
  exact keeps_ite (keeps_clRelease h) (keeps_ite (keeps_clRequest h) h)

theorem keeps_ssCommand {a s : State} {x1} {x2} (h : Keeps a s) : Keeps a (ssCommand s x1 x2) := by
  unfold ssCommand
  split
  · exact keeps_ssRead h
  · exact keeps_ssWrite h
  · exact keeps_ssPort h fun s0 h1 => keeps_ssRefuse h1
  · exact h

theorem keeps_lrnWrite {a s : State} {x1} {x2} (h : Keeps a s) : Keeps a (lrnWrite s x1 x2) := by
  unfold lrnWrite
  extract_lets +onlyGivenNames v0
  have h1 : Keeps a v0 := keeps_ite (keeps_unpinAll h) h
  clear_value v0
  exact keeps_ite (keeps_cmdStart (keeps_flushSel h1)) h1

theorem keeps_cfgWrite {a s : State} {x1} (h : Keeps a s) : Keeps a (cfgWrite s x1) := by
  unfold cfgWrite
  split
  · exact keeps_cfgOpen h
  · exact keeps_cfgClose h
  · exact h

theorem keeps_pairWrite {a s : State} {x1} (h : Keeps a s) : Keeps a (pairWrite s x1) := by
  unfold pairWrite
  extract_lets +onlyGivenNames v0
  have h1 : Keeps a v0 := keeps_ite (keeps_leaseGrant h) h
  clear_value v0
  exact keeps_ite (keeps_handover h1) h1

theorem keeps_linBufWrite {a s : State} {x1} {x2} {x3} {x4} (h : Keeps a s) : Keeps a (linBufWrite s x1 x2 x3 x4) := by
  unfold linBufWrite
  extract_lets +onlyGivenNames v0
  clear_value v0
  extract_lets +onlyGivenNames v1
  clear_value v1
  exact keeps_ite (keeps_softWord (keeps_ite (keeps_linReadyAgain h) h)) (keeps_ite h (keeps_softWord h))

theorem keeps_dispatchWrite {a s : State} {x1} {x2} {x3} (h : Keeps a s) : Keeps a (dispatchWrite s x1 x2 x3) := by
  unfold dispatchWrite
  extract_lets +onlyGivenNames v0
  clear_value v0
  extract_lets +onlyGivenNames v1
  clear_value v1
  extract_lets +onlyGivenNames v2
  clear_value v2
  refine keeps_ite ?_ ?_
  · exact keeps_pageCtrl h
  · refine keeps_ite ?_ ?_
    · exact keeps_hwmWrite h
    · split
      · exact keeps_ite (keeps_canModeWrite h) (keeps_ite (keeps_objWrite h) (keeps_plainWrite h))
      · extract_lets +onlyGivenNames v3
        clear_value v3
        exact keeps_ite (keeps_ite (keeps_linSwitch h) h) (keeps_ite (keeps_linBufWrite h) (keeps_plainWrite h))
      · exact keeps_ite (keeps_lrnWrite h) (keeps_plainWrite h)
      · exact keeps_ite (keeps_ite (keeps_monSnap h) h) (keeps_ite (keeps_monConfig h) (keeps_plainWrite h))
      · exact keeps_ite (keeps_tpWrite h) (keeps_plainWrite h)
      · exact keeps_ite (keeps_mbxWrite h) (keeps_ite h (keeps_plainWrite h))
      · exact keeps_ite (keeps_ite (keeps_timeStep h) h) (keeps_plainWrite h)
      · exact keeps_ite (keeps_ite (keeps_serveMac (keeps_reseqReset h)) h) (keeps_plainWrite h)
      · exact keeps_ite (keeps_ite (keeps_mbSend h) h) (keeps_plainWrite h)
      · exact keeps_ite (keeps_ssCommand h) (keeps_plainWrite h)
      · exact keeps_ite (keeps_updWrite h) (keeps_ite (keeps_updArm h) (keeps_ite (keeps_setWrite h) (keeps_plainWrite h)))
      · exact keeps_ite (keeps_cfgWrite h) (keeps_plainWrite h)
      · exact keeps_ite (keeps_clWrite h) (keeps_plainWrite h)
      · exact keeps_ite (keeps_ite (keeps_reclaim h) h) (keeps_plainWrite h)
      · exact keeps_ite (keeps_pwrCommand h) (keeps_plainWrite h)
      · exact keeps_ite (keeps_keyWrite h) (keeps_plainWrite h)
      · exact keeps_ite (keeps_ite (keeps_lcGo h) h) (keeps_plainWrite h)
      · extract_lets +onlyGivenNames v4
        clear_value v4
        exact keeps_ite (keeps_cvBoundary (keeps_cvCommand h)) (keeps_ite (keeps_cvBoundary (keeps_cvData h))
            (keeps_plainWrite h))
      · exact keeps_ite (keeps_ite (keeps_drbgReseed h) h) (keeps_plainWrite h)
      · exact keeps_ite (keeps_tailWrite h) (keeps_plainWrite h)
      · exact keeps_ite (keeps_tailWrite h) (keeps_plainWrite h)
      · exact keeps_ite (keeps_pairWrite h) (keeps_plainWrite h)
      · exact keeps_plainWrite h

theorem keeps_writeNow {a s : State} {x1} {x2} {x3} {x4} (h : Keeps a s) : Keeps a (writeNow s x1 x2 x3 x4) := by
  unfold writeNow
  extract_lets +onlyGivenNames v0
  clear_value v0
  extract_lets +onlyGivenNames v1
  clear_value v1
  extract_lets +onlyGivenNames v2
  clear_value v2
  refine keeps_ite ?_ ?_
  · exact h
  · refine keeps_ite ?_ ?_
    · exact keeps_partialWrite h
    · refine keeps_ite ?_ ?_
      · exact keeps_update h
      · extract_lets +onlyGivenNames v3
        have h4 : Keeps a v3 := keeps_atAccess h
        clear_value v3
        exact keeps_ite (keeps_dispatchWrite (keeps_ite (keeps_lockViolation h4) h4)) (keeps_dispatchWrite h4)

theorem keeps_retainedActs {a s : State} {x1} (h : Keeps a s) : Keeps a (retainedActs s x1) := by
  unfold retainedActs
  extract_lets +onlyGivenNames v0
  clear_value v0
  refine keeps_ite ?_ ?_
  · extract_lets +onlyGivenNames v1
    clear_value v1
    exact keeps_wr (keeps_writeNow (keeps_wr h))
  · exact keeps_writeNow h

theorem keeps_serveRetained {a s : State} (h : Keeps a s) : Keeps a (serveRetained s) := by
  unfold serveRetained
  extract_lets +onlyGivenNames v0
  clear_value v0
  exact keeps_forEach (keeps_update h) fun s1 _ h2 => keeps_retainedActs h2

theorem keeps_writeReg {a s : State} {x1} {x2} {x3} {x4} (h : Keeps a s) : Keeps a (writeReg s x1 x2 x3 x4) := by
  unfold writeReg
  exact keeps_ite (keeps_holdAccess h) (keeps_writeNow h)

/-! ## Machine/Remote.lean -/

theorem keeps_remoteFail {a s : State} {x1} {x2} {x3} {x4} (h : Keeps a s) : Keeps a (remoteFail s x1 x2 x3 x4) := by
  unfold remoteFail
  extract_lets +onlyGivenNames v0
  have h1 : Keeps a v0 := keeps_incSat h
  clear_value v0
  extract_lets +onlyGivenNames v2
  clear_value v2
  extract_lets +onlyGivenNames v3
  have h4 : Keeps a v3 := keeps_ite h1 (keeps_wr h1)
  clear_value v3
  extract_lets +onlyGivenNames v5
  have h6 : Keeps a v5 := keeps_raisePlain h4
  clear_value v5
  exact keeps_ite h6 (keeps_update h6)

theorem keeps_remoteAccess {a s : State} {x1} {x2} {x3} {x4} {x5} {x6} (h : Keeps a s) :
    Keeps a (remoteAccess s x1 x2 x3 x4 x5 x6) := by
  unfold remoteAccess
  extract_lets +onlyGivenNames v0
  clear_value v0
  refine keeps_ite ?_ ?_
  · exact keeps_ite (keeps_writeReg h) (keeps_readFor h)
  · refine keeps_ite ?_ ?_
    · exact keeps_partialWrite h
    · refine keeps_ite ?_ ?_
      · exact keeps_remoteFail h
      · extract_lets +onlyGivenNames v1
        clear_value v1
        refine keeps_ite ?_ ?_
        · exact keeps_remoteFail h
        · extract_lets +onlyGivenNames v2
          clear_value v2
          extract_lets +onlyGivenNames v3
          clear_value v3
          extract_lets +onlyGivenNames v4
          clear_value v4
          extract_lets +onlyGivenNames v5
          clear_value v5
          exact keeps_offerService (keeps_update h)

theorem keeps_regResponse {a s : State} {x1} {x2} {x3} {x4} (h : Keeps a s) : Keeps a (regResponse s x1 x2 x3 x4) := by
  unfold regResponse
  split
  · exact h
  · extract_lets +onlyGivenNames v0
    have h1 : Keeps a v0 := keeps_update h
    clear_value v0
    exact keeps_ite (keeps_remoteFail h1) (keeps_ite h1 (keeps_update h1))

theorem keeps_remoteTimeout {a s : State} {x1} (h : Keeps a s) : Keeps a (remoteTimeout s x1) := by
  unfold remoteTimeout
  split
  · exact h
  · exact keeps_ite (keeps_remoteFail (keeps_update h)) h

theorem keeps_regServe {a s : State} {x1} {x2} {x3} {x4} {x5} (h : Keeps a s) : Keeps a (regServe s x1 x2 x3 x4 x5) := by
  unfold regServe
  refine keeps_ite ?_ ?_
  · exact keeps_sendResponse (keeps_writeNow h)
  · refine keeps_ite ?_ ?_
    · exact keeps_furPop (keeps_update h)
    · split
      · rename_i x0 x1 x2 e3
        have h4 := keeps_snd e3 (keeps_readReg h)
        exact keeps_sendResponse h4

theorem keeps_regRequest {a s : State} {x1} {x2} {x3} {x4} {x5} {x6} (h : Keeps a s) :
    Keeps a (regRequest s x1 x2 x3 x4 x5 x6) := by
  unfold regRequest
  extract_lets +onlyGivenNames v0
  clear_value v0
  exact keeps_ite (keeps_holdAccess h) (keeps_regServe h)

theorem keeps_heldTurn {a s : State} {x1} (h : Keeps a s) : Keeps a (heldTurn s x1) := by
  unfold heldTurn
  refine keeps_ite ?_ ?_
  · exact keeps_holdAccess h
  · split
    · exact keeps_regServe h
    · exact keeps_ite (keeps_writeNow h) (keeps_readNow h)

theorem keeps_releaseHeld {a s : State} {x0} (h : Keeps a s) : Keeps a (releaseHeld x0 s) := by
  induction x0 generalizing s with
  | zero =>
    unfold releaseHeld
    exact h
  | succ n ih =>
    unfold releaseHeld
    exact keeps_ite h (ih (keeps_forEach (keeps_update h) fun s0 _ h1 => keeps_heldTurn h1))

theorem keeps_serviceIn {a s : State} {x1} {x2} (h : Keeps a s) : Keeps a (serviceIn s x1 x2) := by
  unfold serviceIn
  extract_lets +onlyGivenNames v0
  have h1 : Keeps a v0 := by
    unfold v0
    split
    · exact keeps_regRequest h
    · exact keeps_regResponse h
    · exact keeps_intFrame h
    · exact h
  clear_value v0
  exact keeps_serviceDone h1

theorem keeps_linkDeliver {a s : State} {x1} {x2} (h : Keeps a s) : Keeps a (linkDeliver s x1 x2) := by
  unfold linkDeliver
  extract_lets +onlyGivenNames v0
  clear_value v0
  split
  · exact keeps_linkEnter h
  · exact keeps_ite (keeps_linkEnter h) (keeps_relayOn h)
  · exact keeps_ite (keeps_serviceIn h) (keeps_serviceDone (keeps_relayOn h))
  · exact keeps_ite (keeps_serviceIn h) (keeps_serviceDone (keeps_relayOn h))
  · exact keeps_ite (keeps_serviceIn h) (keeps_serviceDone (keeps_relayOn h))
  · exact keeps_serviceIn h
  · exact keeps_serviceIn h
  · exact h

theorem keeps_linkReceive {a s : State} {x1} {x2} (h : Keeps a s) : Keeps a (linkReceive s x1 x2) := by
  unfold linkReceive
  refine keeps_ite ?_ ?_
  · exact h
  · extract_lets +onlyGivenNames v0
    clear_value v0
    refine keeps_ite ?_ ?_
    · exact keeps_incSat h
    · refine keeps_ite ?_ ?_
      · exact h
      · split
        · exact keeps_linkFails h
        · exact keeps_ite (keeps_linkDeliver (keeps_linkGood h)) (keeps_linkFails h)

/-! ## Machine/Ties.lean -/

theorem keeps_gapExpiry {a s : State} {x1} (h : Keeps a s) : Keeps a (gapExpiry s x1) := by
  unfold gapExpiry
  exact keeps_ite (keeps_reseqGap h) h

theorem keeps_visitNext {a s : State} {x1} (h : Keeps a s) : Keeps a (visitNext s x1) := by
  unfold visitNext
  exact keeps_ite (keeps_ageVisit h) h

theorem keeps_arrives {a s : State} {x1} {x2} {x3} (h : Keeps a s) : Keeps a (arrives s x1 x2 x3) := by
  unfold arrives
  exact keeps_ite (keeps_ethPlot h) (keeps_ite (keeps_linkPlot h) (keeps_txRead h))

theorem keeps_ringTakes {a s : State} {x1} {x2} (h : Keeps a s) : Keeps a (ringTakes s x1 x2) := by
  unfold ringTakes
  exact keeps_putFur h

theorem keeps_egressSelect {a s : State} {x1} (h : Keeps a s) : Keeps a (egressSelect s x1) := by
  unfold egressSelect
  refine keeps_ite ?_ ?_
  · exact h
  · extract_lets +onlyGivenNames v0
    have h1 : Keeps a v0 := keeps_selectAt h
    clear_value v0
    split
    · exact h1
    · extract_lets +onlyGivenNames v2
      have h3 : Keeps a v2 := keeps_handled h1
      clear_value v2
      extract_lets +onlyGivenNames v4
      have h5 : Keeps a v4 := keeps_ite (keeps_latency h3) h3
      clear_value v4
      extract_lets +onlyGivenNames v6
      have h7 : Keeps a v6 := keeps_ite (keeps_ringTakes h5) h5
      clear_value v6
      exact keeps_ite (keeps_freeIfDone (keeps_endFlight (keeps_furPush h7))) (keeps_ite (keeps_linkData h7) (keeps_ite
          (keeps_protectNext h7) h7))

theorem keeps_cutStart {a s : State} {x1} (h : Keeps a s) : Keeps a (cutStart s x1) := by
  unfold cutStart
  extract_lets +onlyGivenNames v0
  have h1 : Keeps a v0 := keeps_egressSelect h
  clear_value v0
  split
  · exact keeps_ite h1 h
  · exact h

theorem keeps_yieldAct {a s : State} {x1} (h : Keeps a s) : Keeps a (yieldAct s x1) := by
  unfold yieldAct
  split
  · exact keeps_arrives h
  · exact keeps_admission h
  · exact keeps_ethReceived h
  · exact keeps_linkReceive h
  · exact keeps_txDescriptor h
  · exact keeps_ite (keeps_canReceived h) h
  · exact keeps_egressSelect h
  · exact keeps_cutStart h
  · exact keeps_backoffEnd h
  · exact keeps_plcaTurn h
  · exact keeps_laneProtect h
  · exact keeps_reseqVoid h
  · exact keeps_writeReg h
  · exact keeps_writeReg h
  · exact keeps_writeReg h
  · exact keeps_writeReg h
  · exact keeps_popExpiry h
  · exact keeps_holdOver h
  · exact keeps_gapExpiry h
  · exact keeps_stuckOver h
  · exact keeps_visitNext h
  · exact keeps_pauseRefresh h
  · exact keeps_forcedJam h
  · exact keeps_fwExpiry h
  · exact keeps_nmTimerExpiry h
  · exact keeps_regionPark h
  · exact keeps_heartbeatLapse h
  · exact keeps_pgoodTimeout h
  · exact keeps_leaseExpire h
  · exact keeps_guardEnd h
  · exact keeps_autoStandby h
  · exact h

theorem keeps_yielding {a s : State} {x1} (h : Keeps a s) : Keeps a (yielding s x1) := by
  unfold yielding
  exact keeps_ite (keeps_update h) (keeps_yieldAct h)

theorem keeps_takeYields {a s : State} (h : Keeps a s) : Keeps a (takeYields s) := by
  unfold takeYields
  exact keeps_forEach (keeps_update h) fun s0 _ h1 => keeps_forEach h1 fun s2 _ h3 => keeps_yielding h3

/-! ## Machine/Commands.lean -/

theorem keeps_settleItems {a s : State} (h : Keeps a s) : Keeps a (settleItems s) := by
  unfold settleItems
  extract_lets +onlyGivenNames v0
  have h1 : Keeps a v0 := keeps_ite h (keeps_serveRetained h)
  clear_value v0
  extract_lets +onlyGivenNames v2
  have h3 : Keeps a v2 := keeps_serveReleases (keeps_serveLinks (keeps_macsBegin (keeps_serveMac (keeps_serveService h1))))
  clear_value v2
  extract_lets +onlyGivenNames v4
  have h5 : Keeps a v4 := keeps_forEach (keeps_idleDeficits h3) fun s6 _ h7 => keeps_noteStuck h7
  clear_value v4
  exact keeps_escServe (keeps_noteHeld (keeps_serveHints (keeps_takeBoundaries (keeps_takeCrossings h5))))

theorem keeps_settled {a s : State} (h : Keeps a s) : Keeps a (settled s) := by
  unfold settled
  extract_lets +onlyGivenNames v0
  have h1 : Keeps a v0 := keeps_settleItems h
  clear_value v0
  extract_lets +onlyGivenNames v2
  have h3 : Keeps a v2 := keeps_ite h1 (keeps_settleItems (keeps_takeYields h1))
  clear_value v2
  exact keeps_ite h3 (keeps_settleItems (keeps_releaseHeld h3))

theorem keeps_numberedArrival {a s : State} {x1} {x2} {x3} {x4} {x5} (h : Keeps a s) :
    Keeps a (numberedArrival s x1 x2 x3 x4 x5) := by
  unfold numberedArrival
  refine keeps_ite ?_ ?_
  · extract_lets +onlyGivenNames v0
    clear_value v0
    extract_lets +onlyGivenNames v1
    clear_value v1
    extract_lets +onlyGivenNames v2
    clear_value v2
    exact keeps_reseqArrive h
  · exact h

theorem keeps_pinEnd {a s : State} {x1} {x2} (h : Keeps a s) : Keeps a (pinEnd s x1 x2) := by
  unfold pinEnd
  split
  · exact keeps_ite (keeps_endPin h) h
  · exact h

theorem keeps_grantGiven {a s : State} {x1} {x2} {x3} {x4} (h : Keeps a s) : Keeps a (grantGiven s x1 x2 x3 x4) := by
  unfold grantGiven
  exact keeps_ite (keeps_ite (keeps_leaseGrant h) h) (keeps_writeReg h)

end Sys2Proof.Machine
end

