-- ==== Sys2Proof/Laws/KeepsCommands.lean ====
section
/-! SUPPORT. What Laws/Keeps.lean says, of every command and of a step. -/
namespace Sys2Proof.Machine

/-- Whatever next state an answer gives keeps what `Keeps` says. -/
def KeepsOut (s : State) (o : Answer) : Prop := ∀ t, o = .next t → Keeps s t

theorem keepsOut_always {s : State} {ok : Bool} {t : Nat} {f : State → State} (k : ∀ x, Keeps s x → Keeps s (f x)) :
    KeepsOut s (always ok s t f) := by
  intro u e
  unfold always at e
  cases e
  exact keeps_ite (keeps_settled (k _ (keeps_advance (keeps_self s)))) (keeps_advance (keeps_self s))

theorem keepsOut_event {s : State} {ok : Bool} {t : Nat} {f : State → State} (k : ∀ x, Keeps s x → Keeps s (f x)) :
    KeepsOut s (event ok s t f) := keepsOut_always k

theorem keepsOut_commanded {s : State} {t q x v : Nat} {m : Bool} {f : State → State} (k : ∀ x, Keeps s x → Keeps s (f x)) :
    KeepsOut s (commanded s t q x v m f) :=
  keepsOut_always fun u h => keeps_ite (k u h) (keeps_writeReg h)

theorem keepsOut_software {s : State} {ok : Bool} {t q x v : Nat} : KeepsOut s (software ok s t q x v) :=
  keepsOut_always fun _ h => keeps_writeReg h

theorem keeps_execRegisterWrite {s : State} {t} {req} {addr} {value} {whole} :
    KeepsOut s (execRegisterWrite t req addr value whole s) := by
  unfold execRegisterWrite
  refine keepsOut_always fun s h => ?_
  exact keeps_yielding h

theorem keeps_execPageRun {s : State} {t} {req} {page} : KeepsOut s (execPageRun t req page s) := by
  unfold execPageRun
  exact keepsOut_software

theorem keeps_execPageStop {s : State} {t} {req} {page} : KeepsOut s (execPageStop t req page s) := by
  unfold execPageStop
  exact keepsOut_software

theorem keeps_execPageRestart {s : State} {t} {req} {page} : KeepsOut s (execPageRestart t req page s) := by
  unfold execPageRestart
  exact keepsOut_software

theorem keeps_execItemBoundary {s : State} {t} {page} : KeepsOut s (execItemBoundary t page s) := by
  unfold execItemBoundary
  refine keepsOut_event fun s h => ?_
  exact keeps_ite (keeps_cvBoundary h) (keeps_itemBoundary h)

theorem keeps_execMbxSnap {s : State} {t} {req} {n} : KeepsOut s (execMbxSnap t req n s) := by
  unfold execMbxSnap
  exact keepsOut_software

theorem keeps_execMbxSnapclr {s : State} {t} {req} {n} : KeepsOut s (execMbxSnapclr t req n s) := by
  unfold execMbxSnapclr
  exact keepsOut_software

theorem keeps_execMbxCommit {s : State} {t} {req} {n} : KeepsOut s (execMbxCommit t req n s) := by
  unfold execMbxCommit
  exact keepsOut_software

theorem keeps_execMbxDataRead {s : State} {t} {req} {n} {k} : KeepsOut s (execMbxDataRead t req n k s) := by
  unfold execMbxDataRead
  refine keepsOut_always fun s h => ?_
  exact keeps_readFor h

theorem keeps_execCfgOpen {s : State} {t} {req} : KeepsOut s (execCfgOpen t req s) := by
  unfold execCfgOpen
  exact keepsOut_software

theorem keeps_execCfgClose {s : State} {t} {req} : KeepsOut s (execCfgClose t req s) := by
  unfold execCfgClose
  exact keepsOut_software

theorem keeps_execCfgPassEnd {s : State} {t} : KeepsOut s (execCfgPassEnd t s) := by
  unfold execCfgPassEnd
  refine keepsOut_event fun s h => ?_
  exact keeps_ite (keeps_cfgPassEnd h) h

theorem keeps_execCfgWindowTimeout {s : State} {t} : KeepsOut s (execCfgWindowTimeout t s) := by
  unfold execCfgWindowTimeout
  refine keepsOut_event fun s h => ?_
  exact keeps_windowRejudge h

theorem keeps_execFurrowCommit {s : State} {t} {page} {data} {poison} :
    KeepsOut s (execFurrowCommit t page data poison s) := by
  unfold execFurrowCommit
  refine keepsOut_event fun s h => ?_
  exact keeps_furCommit h

theorem keeps_execFurrowRewind {s : State} {t} {page} {wrote} : KeepsOut s (execFurrowRewind t page wrote s) := by
  unfold execFurrowRewind
  refine keepsOut_event fun s h => ?_
  exact keeps_furRewound h

theorem keeps_execFurrowWordRead {s : State} {t} {page} {wrote} {bad} :
    KeepsOut s (execFurrowWordRead t page wrote bad s) := by
  unfold execFurrowWordRead
  refine keepsOut_event fun s h => ?_
  exact keeps_furWordRead h

theorem keeps_execFurHwmWrite {s : State} {t} {req} {page} {v} : KeepsOut s (execFurHwmWrite t req page v s) := by
  unfold execFurHwmWrite
  exact keepsOut_software

theorem keeps_execFurPop {s : State} {t} {req} {page} : KeepsOut s (execFurPop t req page s) := by
  unfold execFurPop
  refine keepsOut_always fun s h => ?_
  exact keeps_readFor h

theorem keeps_execPopGuardExpiry {s : State} {t} {req} {page} : KeepsOut s (execPopGuardExpiry t req page s) := by
  unfold execPopGuardExpiry
  refine keepsOut_event fun s h => ?_
  exact keeps_yielding h

theorem keeps_execCanModeWrite {s : State} {t} {req} {n} {v} : KeepsOut s (execCanModeWrite t req n v s) := by
  unfold execCanModeWrite
  exact keepsOut_software

theorem keeps_execBusIntegration {s : State} {t} {n} : KeepsOut s (execBusIntegration t n s) := by
  unfold execBusIntegration
  refine keepsOut_event fun s h => ?_
  exact keeps_canIntegrate h

theorem keeps_execCanFrameReceived {s : State} {t} {n} {ide} {fdf} {brs} {rtr} {esi} {ident} {data} :
    KeepsOut s (execCanFrameReceived t n ide fdf brs rtr esi ident data s) := by
  unfold execCanFrameReceived
  refine keepsOut_event fun s h => ?_
  exact keeps_yielding h

theorem keeps_execCanRxError {s : State} {t} {n} {code} {dataPhase} {ones} {eights} :
    KeepsOut s (execCanRxError t n code dataPhase ones eights s) := by
  unfold execCanRxError
  refine keepsOut_event fun s h => ?_
  exact keeps_ite (keeps_canRxError h) h

theorem keeps_execObjReq {s : State} {t} {n} {i} : KeepsOut s (execObjReq t n i s) := by
  unfold execObjReq
  refine keepsOut_always fun s h => ?_
  exact keeps_ite (keeps_objCommand h) h

theorem keeps_execObjCancel {s : State} {t} {n} {i} : KeepsOut s (execObjCancel t n i s) := by
  unfold execObjCancel
  refine keepsOut_always fun s h => ?_
  exact keeps_ite (keeps_objCommand h) h

theorem keeps_execObjNewReturn {s : State} {t} {n} {i} : KeepsOut s (execObjNewReturn t n i s) := by
  unfold execObjNewReturn
  refine keepsOut_always fun s h => ?_
  exact keeps_ite (keeps_objCommand h) h

theorem keeps_execCanRouterFill {s : State} {t} {n} : KeepsOut s (execCanRouterFill t n s) := by
  unfold execCanRouterFill
  refine keepsOut_event fun s h => ?_
  exact keeps_canFill h

theorem keeps_execCanTxSelection {s : State} {t} {n} : KeepsOut s (execCanTxSelection t n s) := by
  unfold execCanTxSelection
  refine keepsOut_event fun s h => ?_
  exact keeps_ite (keeps_canSelect h) h

theorem keeps_execCanArbLoss {s : State} {t} {n} : KeepsOut s (execCanArbLoss t n s) := by
  unfold execCanArbLoss
  refine keepsOut_event fun s h => ?_
  exact keeps_canArbLoss h

theorem keeps_execCanTxError {s : State} {t} {n} {code} {dataPhase} {exempt} {domSeen} {eights} {delay} :
    KeepsOut s (execCanTxError t n code dataPhase exempt domSeen eights delay s) := by
  unfold execCanTxError
  refine keepsOut_event fun s h => ?_
  exact keeps_canTxError h

theorem keeps_execCanTxDone {s : State} {t} {n} {delay} : KeepsOut s (execCanTxDone t n delay s) := by
  unfold execCanTxDone
  refine keepsOut_event fun s h => ?_
  exact keeps_canTxDone h

theorem keeps_execBusOffRecovered {s : State} {t} {n} : KeepsOut s (execBusOffRecovered t n s) := by
  unfold execBusOffRecovered
  refine keepsOut_event fun s h => ?_
  exact keeps_ite (keeps_canIntegrate h) h

theorem keeps_execTrxStatusReport {s : State} {t} {p} {txdDom} {busDom} {overtemp} {vccLow} :
    KeepsOut s (execTrxStatusReport t p txdDom busDom overtemp vccLow s) := by
  unfold execTrxStatusReport
  refine keepsOut_event fun s h => ?_
  exact keeps_trxReport h

theorem keeps_execTransceiverModeCommand {s : State} {t} {p} {bad} {bad2} :
    KeepsOut s (execTransceiverModeCommand t p bad bad2 s) := by
  unfold execTransceiverModeCommand
  refine keepsOut_event fun s h => ?_
  exact keeps_modeCommand h

theorem keeps_execHeartbeatWord {s : State} {t} : KeepsOut s (execHeartbeatWord t s) := by
  unfold execHeartbeatWord
  refine keepsOut_always fun s h => ?_
  exact keeps_heartbeat h

theorem keeps_execLinkDown {s : State} {t} {p} : KeepsOut s (execLinkDown t p s) := by
  unfold execLinkDown
  refine keepsOut_event fun s h => ?_
  exact keeps_linkLapses h

theorem keeps_execLinkUp {s : State} {t} {p} {speed} {half} {held} : KeepsOut s (execLinkUp t p speed half held s) := by
  unfold execLinkUp
  refine keepsOut_event fun s h => ?_
  exact keeps_ite h (keeps_linkUp h)

theorem keeps_execEthFrameReceived {s : State} {t} {p} {first} {rest} {len} {since} {abort} {code} {fcs} :
    KeepsOut s (execEthFrameReceived t p first rest len since abort code fcs s) := by
  unfold execEthFrameReceived
  refine keepsOut_event fun s h => ?_
  exact keeps_yielding h

theorem keeps_execMacControlFrame {s : State} {t} {p} {bytes} : KeepsOut s (execMacControlFrame t p bytes s) := by
  unfold execMacControlFrame
  refine keepsOut_event fun s h => ?_
  exact keeps_macControl h

theorem keeps_execPauseTimerExpiry {s : State} {t} {p} {c} : KeepsOut s (execPauseTimerExpiry t p c s) := by
  unfold execPauseTimerExpiry
  refine keepsOut_event fun s h => ?_
  exact keeps_pauseEnd h

theorem keeps_execEthFrameSent {s : State} {t} {p} {left} {failed} : KeepsOut s (execEthFrameSent t p left failed s) := by
  unfold execEthFrameSent
  refine keepsOut_event fun s h => ?_
  exact keeps_ethSent h

theorem keeps_execPauseRefresh {s : State} {t} {p} : KeepsOut s (execPauseRefresh t p s) := by
  unfold execPauseRefresh
  refine keepsOut_event fun s h => ?_
  exact keeps_yielding h

theorem keeps_execCollision {s : State} {t} {p} {late} : KeepsOut s (execCollision t p late s) := by
  unfold execCollision
  refine keepsOut_event fun s h => ?_
  exact keeps_collision h

theorem keeps_execBackoffExpiry {s : State} {t} {p} : KeepsOut s (execBackoffExpiry t p s) := by
  unfold execBackoffExpiry
  refine keepsOut_event fun s h => ?_
  exact keeps_yielding h

theorem keeps_execT1sForcedJam {s : State} {t} {p} : KeepsOut s (execT1sForcedJam t p s) := by
  unfold execT1sForcedJam
  refine keepsOut_event fun s h => ?_
  exact keeps_yielding h

theorem keeps_execPlcaTransmitOpportunity {s : State} {t} {p} {begins} :
    KeepsOut s (execPlcaTransmitOpportunity t p begins s) := by
  unfold execPlcaTransmitOpportunity
  refine keepsOut_event fun s h => ?_
  exact keeps_yielding h

theorem keeps_execTimeStep {s : State} {t} {req} : KeepsOut s (execTimeStep t req s) := by
  unfold execTimeStep
  exact keepsOut_software

theorem keeps_execSpeedDuplexChange {s : State} {t} {p} {speed} {half} :
    KeepsOut s (execSpeedDuplexChange t p speed half s) := by
  unfold execSpeedDuplexChange
  refine keepsOut_event fun s h => ?_
  exact keeps_speedChange h

theorem keeps_execCountedFault {s : State} {t} {page} {row} {code} {detail} {failed} :
    KeepsOut s (execCountedFault t page row code detail failed s) := by
  unfold execCountedFault
  refine keepsOut_event fun s h => ?_
  exact keeps_ite (keeps_takeFault h) h

theorem keeps_execRowTestEnd {s : State} {t} {page} {row} {pass} : KeepsOut s (execRowTestEnd t page row pass s) := by
  unfold execRowTestEnd
  refine keepsOut_event fun s h => ?_
  exact keeps_testEnd h

theorem keeps_execHubReclaim {s : State} {t} {req} : KeepsOut s (execHubReclaim t req s) := by
  unfold execHubReclaim
  exact keepsOut_software

theorem keeps_execOperMinute {s : State} {t} : KeepsOut s (execOperMinute t s) := by
  unfold execOperMinute
  refine keepsOut_event fun s h => ?_
  exact keeps_operMinute h

theorem keeps_execHandshakeStall {s : State} {t} {page} : KeepsOut s (execHandshakeStall t page s) := by
  unfold execHandshakeStall
  refine keepsOut_event fun s h => ?_
  exact keeps_stalled1ms h

theorem keeps_execPaceWindow {s : State} {t} {i} {v} : KeepsOut s (execPaceWindow t i v s) := by
  unfold execPaceWindow
  refine keepsOut_event fun s h => ?_
  exact keeps_paceWindow h

theorem keeps_execMonitorSample {s : State} {t dom blk pg} : KeepsOut s (execMonitorSample t dom blk pg s) :=
  keepsOut_event fun _ h => keeps_ite (keeps_monSample h) h

theorem keeps_execMonSnap {s : State} {t} {req} {page} {clear} : KeepsOut s (execMonSnap t req page clear s) := by
  unfold execMonSnap
  exact keepsOut_software

theorem keeps_execMonConfigWrite {s : State} {t} {req} {page} {ctrl} {v} :
    KeepsOut s (execMonConfigWrite t req page ctrl v s) := by
  unfold execMonConfigWrite
  exact keepsOut_software

theorem keeps_execTailWrite {s : State} {t} {req} {tx} {n} {v} : KeepsOut s (execTailWrite t req tx n v s) := by
  unfold execTailWrite
  refine keepsOut_always fun s h => ?_
  exact keeps_writeReg h

theorem keeps_execHtxDescriptor {s : State} {t} {n} {form} {tsReq} {tag} {bytes} {cplErr} {bad} :
    KeepsOut s (execHtxDescriptor t n form tsReq tag bytes cplErr bad s) := by
  unfold execHtxDescriptor
  refine keepsOut_event fun s h => ?_
  exact keeps_yielding h

theorem keeps_execHostqStallExpiry {s : State} {t} {n} : KeepsOut s (execHostqStallExpiry t n s) := by
  unfold execHostqStallExpiry
  refine keepsOut_event fun s h => ?_
  exact keeps_txStall h

theorem keeps_execLateCompletion {s : State} {t} {n} : KeepsOut s (execLateCompletion t n s) := by
  unfold execLateCompletion
  refine keepsOut_event fun s h => ?_
  exact keeps_lateCompletion h

theorem keeps_execHrxDeliver {s : State} {t} {n} {addr} {bufLen} : KeepsOut s (execHrxDeliver t n addr bufLen s) := by
  unfold execHrxDeliver
  refine keepsOut_event fun s h => ?_
  exact keeps_rxDeliver h

theorem keeps_execMsixHoldoffEnd {s : State} {t} {n} : KeepsOut s (execMsixHoldoffEnd t n s) := by
  unfold execMsixHoldoffEnd
  refine keepsOut_event fun s h => ?_
  exact keeps_holdoffEnd h

theorem keeps_execEbderLinkTrained {s : State} {t} {k} {peer} : KeepsOut s (execEbderLinkTrained t k peer s) := by
  unfold execEbderLinkTrained
  refine keepsOut_event fun s h => ?_
  exact keeps_linkTrain h

theorem keeps_execIdClashRetry {s : State} {t} {k} {peer} : KeepsOut s (execIdClashRetry t k peer s) := by
  unfold execIdClashRetry
  refine keepsOut_event fun s h => ?_
  exact keeps_clashRetry h

theorem keeps_execEbderFrameReceived {s : State} {t} {k} {bytes} : KeepsOut s (execEbderFrameReceived t k bytes s) := by
  unfold execEbderFrameReceived
  refine keepsOut_event fun s h => ?_
  exact keeps_yielding h

theorem keeps_execEbderAck {s : State} {t} {k} {num} : KeepsOut s (execEbderAck t k num s) := by
  unfold execEbderAck
  refine keepsOut_event fun s h => ?_
  exact keeps_linkAck h

theorem keeps_execEbderNak {s : State} {t} {k} {num} : KeepsOut s (execEbderNak t k num s) := by
  unfold execEbderNak
  refine keepsOut_event fun s h => ?_
  exact keeps_linkNak h

theorem keeps_execEbderCredit {s : State} {t} {k} {pool} {cls} {limit} :
    KeepsOut s (execEbderCredit t k pool cls limit s) := by
  unfold execEbderCredit
  refine keepsOut_event fun s h => ?_
  exact keeps_linkCreditIn h

theorem keeps_execReplayTimeout {s : State} {t} {k} : KeepsOut s (execReplayTimeout t k s) := by
  unfold execReplayTimeout
  refine keepsOut_event fun s h => ?_
  exact keeps_replayTimeout h

theorem keeps_execLinkRetrain {s : State} {t} {k} {lanesGood} : KeepsOut s (execLinkRetrain t k lanesGood s) := by
  unfold execLinkRetrain
  refine keepsOut_event fun s h => ?_
  exact keeps_ite (keeps_linkRetrain h) h

theorem keeps_execRelayWaitExpiry {s : State} {t} {k} : KeepsOut s (execRelayWaitExpiry t k s) := by
  unfold execRelayWaitExpiry
  refine keepsOut_event fun s h => ?_
  exact keeps_relayExpiry h

theorem keeps_execRemoteAccess {s : State} {t} {pf} {dev} {write} {addr} {data} {whole} :
    KeepsOut s (execRemoteAccess t pf dev write addr data whole s) := by
  unfold execRemoteAccess
  refine keepsOut_always fun s h => ?_
  exact keeps_ite (keeps_remoteAccess h) h

theorem keeps_execRegReqReceived {s : State} {t} {src} {pf} {tag} {write} {addr} {data} :
    KeepsOut s (execRegReqReceived t src pf tag write addr data s) := by
  unfold execRegReqReceived
  refine keepsOut_event fun s h => ?_
  exact keeps_regRequest h

theorem keeps_execRegRspReceived {s : State} {t} {src} {tag} {status} {data} :
    KeepsOut s (execRegRspReceived t src tag status data s) := by
  unfold execRegRspReceived
  refine keepsOut_event fun s h => ?_
  exact keeps_regResponse h

theorem keeps_execRemoteAccessTimeout {s : State} {t} {tag} : KeepsOut s (execRemoteAccessTimeout t tag s) := by
  unfold execRemoteAccessTimeout
  refine keepsOut_event fun s h => ?_
  exact keeps_remoteTimeout h

theorem keeps_execIntFrameReceived {s : State} {t} {src} : KeepsOut s (execIntFrameReceived t src s) := by
  unfold execIntFrameReceived
  refine keepsOut_event fun s h => ?_
  exact keeps_intFrame h

theorem keeps_execLinSlotStart {s : State} {t} {m} : KeepsOut s (execLinSlotStart t m s) := by
  unfold execLinSlotStart
  refine keepsOut_event fun s h => ?_
  exact keeps_slotStart h

theorem keeps_execLinHeaderReceived {s : State} {t} {m} {measured} {pid} :
    KeepsOut s (execLinHeaderReceived t m measured pid s) := by
  unfold execLinHeaderReceived
  refine keepsOut_event fun s h => ?_
  exact keeps_linHeaderIn h

theorem keeps_execLinResponseReceived {s : State} {t} {m} {bytes} {err} :
    KeepsOut s (execLinResponseReceived t m bytes err s) := by
  unfold execLinResponseReceived
  refine keepsOut_event fun s h => ?_
  exact keeps_linResponse h

theorem keeps_execLinResponseTimeout {s : State} {t} {m} {someByte} :
    KeepsOut s (execLinResponseTimeout t m someByte s) := by
  unfold execLinResponseTimeout
  refine keepsOut_event fun s h => ?_
  exact keeps_linTimeout h

theorem keeps_execLinRoutedFill {s : State} {t} {m} : KeepsOut s (execLinRoutedFill t m s) := by
  unfold execLinRoutedFill
  refine keepsOut_event fun s h => ?_
  exact keeps_linFill h

theorem keeps_execLinBufReadySet {s : State} {t} {req} {m} {i} : KeepsOut s (execLinBufReadySet t req m i s) := by
  unfold execLinBufReadySet
  exact keepsOut_software

theorem keeps_execLinSchedSwitch {s : State} {t} {req} {m} : KeepsOut s (execLinSchedSwitch t req m s) := by
  unfold execLinSchedSwitch
  exact keepsOut_software

theorem keeps_execLinWakePulse {s : State} {t} {m} : KeepsOut s (execLinWakePulse t m s) := by
  unfold execLinWakePulse
  refine keepsOut_event fun s h => ?_
  exact keeps_linWakePulse h

theorem keeps_execLinWakeWaitExpiry {s : State} {t} {m} : KeepsOut s (execLinWakeWaitExpiry t m s) := by
  unfold execLinWakeWaitExpiry
  refine keepsOut_event fun s h => ?_
  exact keeps_linWaitEnd h

theorem keeps_execLinIdle {s : State} {t} {m} : KeepsOut s (execLinIdle t m s) := by
  unfold execLinIdle
  refine keepsOut_event fun s h => ?_
  exact keeps_linIdle h

theorem keeps_execLeaseGrant {s : State} {t} {pin} {lowNs} {highNs} {req} :
    KeepsOut s (execLeaseGrant t pin lowNs highNs req s) := by
  unfold execLeaseGrant
  refine keepsOut_always fun s h => ?_
  exact keeps_grantGiven h

theorem keeps_execLeaseExpiry {s : State} {t} : KeepsOut s (execLeaseExpiry t s) := by
  unfold execLeaseExpiry
  refine keepsOut_event fun s h => ?_
  exact keeps_yielding h

theorem keeps_execGuardExpiry {s : State} {t} : KeepsOut s (execGuardExpiry t s) := by
  unfold execGuardExpiry
  refine keepsOut_event fun s h => ?_
  exact keeps_yielding h

theorem keeps_execPairHandover {s : State} {t} {req} : KeepsOut s (execPairHandover t req s) := by
  unfold execPairHandover
  exact keepsOut_software

theorem keeps_execPairFrameSend {s : State} {t} : KeepsOut s (execPairFrameSend t s) := by
  unfold execPairFrameSend
  refine keepsOut_event fun s h => ?_
  exact keeps_pairBeat h

theorem keeps_execPairFrameReceived {s : State} {t} {state} {primary} {lease} {peer} :
    KeepsOut s (execPairFrameReceived t state primary lease peer s) := by
  unfold execPairFrameReceived
  refine keepsOut_event fun s h => ?_
  exact keeps_pairHeard h

theorem keeps_execContactTimeout {s : State} {t} : KeepsOut s (execContactTimeout t s) := by
  unfold execContactTimeout
  refine keepsOut_event fun s h => ?_
  exact keeps_contactTimeout h

theorem keeps_execReclaimHoldExpiry {s : State} {t} : KeepsOut s (execReclaimHoldExpiry t s) := by
  unfold execReclaimHoldExpiry
  refine keepsOut_event fun s h => ?_
  exact keeps_reclaimHold h

theorem keeps_execReclaimReceived {s : State} {t} : KeepsOut s (execReclaimReceived t s) := by
  unfold execReclaimReceived
  refine keepsOut_event fun s h => ?_
  exact keeps_handover h

theorem keeps_execMirrorReceived {s : State} {t} {what} {i} {v} {flag} :
    KeepsOut s (execMirrorReceived t what i v flag s) := by
  unfold execMirrorReceived
  refine keepsOut_event fun s h => ?_
  exact keeps_mirrorIn h

theorem keeps_execLeaseOutToggle {s : State} {t} : KeepsOut s (execLeaseOutToggle t s) := by
  unfold execLeaseOutToggle
  refine keepsOut_event fun s h => ?_
  exact keeps_leaseToggle h

theorem keeps_execHealthyRestored {s : State} {t} : KeepsOut s (execHealthyRestored t s) := by
  unfold execHealthyRestored
  refine keepsOut_event fun s h => ?_
  exact keeps_refreshHealth h

theorem keeps_execVbatPowerOn {s : State} {t} : KeepsOut s (execVbatPowerOn t s) := by
  unfold execVbatPowerOn
  refine keepsOut_always fun s h => ?_
  exact keeps_vbatOn h

theorem keeps_execVbatPowerOff {s : State} {t} : KeepsOut s (execVbatPowerOff t s) := by
  unfold execVbatPowerOff
  refine keepsOut_always fun s h => ?_
  exact keeps_vbatOff h

theorem keeps_execCoreSupplyGood {s : State} {t} {boot} : KeepsOut s (execCoreSupplyGood t boot s) := by
  unfold execCoreSupplyGood
  refine keepsOut_always fun s h => ?_
  exact keeps_supplyGood h

theorem keeps_execPgoodTimeout {s : State} {t} {d} : KeepsOut s (execPgoodTimeout t d s) := by
  unfold execPgoodTimeout
  refine keepsOut_always fun s h => ?_
  exact keeps_yielding h

theorem keeps_execVoteRetry {s : State} {t} {d} : KeepsOut s (execVoteRetry t d s) := by
  unfold execVoteRetry
  refine keepsOut_always fun s h => ?_
  exact keeps_voteRetry h

theorem keeps_execPwrWarm {s : State} {t} {req} {boot} : KeepsOut s (execPwrWarm t req boot s) := by
  unfold execPwrWarm
  refine keepsOut_always fun s h => ?_
  exact keeps_ite (keeps_writeReg h) (keeps_ite (keeps_warmBoot h) h)

theorem keeps_execPwrStandby {s : State} {t} {req} {force} : KeepsOut s (execPwrStandby t req force s) := by
  unfold execPwrStandby
  exact keepsOut_software

theorem keeps_execAutoStandbyExpiry {s : State} {t} : KeepsOut s (execAutoStandbyExpiry t s) := by
  unfold execAutoStandbyExpiry
  refine keepsOut_always fun s h => ?_
  exact keeps_yielding h

theorem keeps_execStandbyPagesStopped {s : State} {t} : KeepsOut s (execStandbyPagesStopped t s) := by
  unfold execStandbyPagesStopped
  refine keepsOut_event fun s h => ?_
  exact keeps_entryEnd h

theorem keeps_execStandbyHoldExpiry {s : State} {t} {boot} : KeepsOut s (execStandbyHoldExpiry t boot s) := by
  unfold execStandbyHoldExpiry
  refine keepsOut_always fun s h => ?_
  exact keeps_standbyHold h

theorem keeps_execBrownOut {s : State} {t} {supply} : KeepsOut s (execBrownOut t supply s) := by
  unfold execBrownOut
  refine keepsOut_always fun s h => ?_
  exact keeps_supplyFails h

theorem keeps_execRefclkLoss {s : State} {t} : KeepsOut s (execRefclkLoss t s) := by
  unfold execRefclkLoss
  refine keepsOut_always fun s h => ?_
  exact keeps_refclkLost h

theorem keeps_execPerstAssert {s : State} {t} : KeepsOut s (execPerstAssert t s) := by
  unfold execPerstAssert
  refine keepsOut_always fun s h => ?_
  exact keeps_perstAssert h

theorem keeps_execCoreSupplyRemoved {s : State} {t} : KeepsOut s (execCoreSupplyRemoved t s) := by
  unfold execCoreSupplyRemoved
  refine keepsOut_always fun s h => ?_
  exact keeps_supplyRemoved h

theorem keeps_execPerstRelease {s : State} {t} : KeepsOut s (execPerstRelease t s) := by
  unfold execPerstRelease
  refine keepsOut_always fun s h => ?_
  exact keeps_perstRelease h

theorem keeps_execPcieLinkUp {s : State} {t} : KeepsOut s (execPcieLinkUp t s) := by
  unfold execPcieLinkUp
  refine keepsOut_always fun s h => ?_
  exact keeps_pcieLink h

theorem keeps_execPcieLinkDown {s : State} {t} : KeepsOut s (execPcieLinkDown t s) := by
  unfold execPcieLinkDown
  refine keepsOut_always fun s h => ?_
  exact keeps_pcieLink h

theorem keeps_execRefclkRestored {s : State} {t} {boot} : KeepsOut s (execRefclkRestored t boot s) := by
  unfold execRefclkRestored
  refine keepsOut_always fun s h => ?_
  exact keeps_refclkBack h

theorem keeps_execSsRead {s : State} {t} {slots} : KeepsOut s (execSsRead t slots s) := by
  unfold execSsRead
  refine keepsOut_always fun s h => ?_
  exact keeps_ite (keeps_ssRead h) h

theorem keeps_execSsWrite {s : State} {t} {req} : KeepsOut s (execSsWrite t req s) := by
  unfold execSsWrite
  exact keepsOut_software

theorem keeps_execMbUnpack {s : State} {t} {bad} {slots} : KeepsOut s (execMbUnpack t bad slots s) := by
  unfold execMbUnpack
  refine keepsOut_event fun s h => ?_
  exact keeps_mbUnpack h

theorem keeps_execMbPack {s : State} {t} {bad} {slots} : KeepsOut s (execMbPack t bad slots s) := by
  unfold execMbPack
  refine keepsOut_event fun s h => ?_
  exact keeps_mbPack h

theorem keeps_execMbSend {s : State} {t} {req} : KeepsOut s (execMbSend t req s) := by
  unfold execMbSend
  exact keepsOut_software

theorem keeps_execDrillTick {s : State} {t} {meets} : KeepsOut s (execDrillTick t meets s) := by
  unfold execDrillTick
  refine keepsOut_event fun s h => ?_
  exact keeps_drillBoundary h

theorem keeps_execDeadlineTimeout {s : State} {t} {l} {bad} : KeepsOut s (execDeadlineTimeout t l bad s) := by
  unfold execDeadlineTimeout
  refine keepsOut_event fun s h => ?_
  exact keeps_deadlineTimeout h

theorem keeps_execMdtDeferralEnd {s : State} {t} {l} : KeepsOut s (execMdtDeferralEnd t l s) := by
  unfold execMdtDeferralEnd
  refine keepsOut_event fun s h => ?_
  exact keeps_deferralEnd h

theorem keeps_execRepetitionDue {s : State} {t} {l} : KeepsOut s (execRepetitionDue t l s) := by
  unfold execRepetitionDue
  refine keepsOut_event fun s h => ?_
  exact keeps_repetitionDue h

theorem keeps_execPeriodicSend {s : State} {t} {l} : KeepsOut s (execPeriodicSend t l s) := by
  unfold execPeriodicSend
  refine keepsOut_event fun s h => ?_
  exact keeps_periodicSend h

theorem keeps_execLinPull {s : State} {t} {m} {bad} {slots} : KeepsOut s (execLinPull t m bad slots s) := by
  unfold execLinPull
  refine keepsOut_event fun s h => ?_
  exact keeps_linPull h

theorem keeps_execLaneDispatch {s : State} {t} : KeepsOut s (execLaneDispatch t s) := by
  unfold execLaneDispatch
  refine keepsOut_event fun s h => ?_
  exact keeps_dispatch h

theorem keeps_execSecocGenerate {s : State} {t} {i} {ev} : KeepsOut s (execSecocGenerate t i ev s) := by
  unfold execSecocGenerate
  refine keepsOut_event fun s h => ?_
  exact keeps_laneSecoc h

theorem keeps_execSecocVerify {s : State} {t} {i} {ev} : KeepsOut s (execSecocVerify t i ev s) := by
  unfold execSecocVerify
  refine keepsOut_event fun s h => ?_
  exact keeps_laneSecoc h

theorem keeps_execMacsecProtect {s : State} {t} {i} {ev} : KeepsOut s (execMacsecProtect t i ev s) := by
  unfold execMacsecProtect
  refine keepsOut_event fun s h => ?_
  exact keeps_yielding h

theorem keeps_execMacsecReceive {s : State} {t} {i} {ev} : KeepsOut s (execMacsecReceive t i ev s) := by
  unfold execMacsecReceive
  refine keepsOut_event fun s h => ?_
  exact keeps_laneReceive h

theorem keeps_execLaneSelftestDone {s : State} {t} {i} {pass} : KeepsOut s (execLaneSelftestDone t i pass s) := by
  unfold execLaneSelftestDone
  refine keepsOut_event fun s h => ?_
  exact keeps_laneTested h

theorem keeps_execEntropyHealthFail {s : State} {t} {bits} : KeepsOut s (execEntropyHealthFail t bits s) := by
  unfold execEntropyHealthFail
  refine keepsOut_event fun s h => ?_
  exact keeps_entropyBits h

theorem keeps_execEntropyStartupDone {s : State} {w} : KeepsOut s (execEntropyStartupDone w s) := by
  unfold execEntropyStartupDone
  refine keepsOut_event fun s h => ?_
  exact keeps_entropyTested h

theorem keeps_execDrbgReseed {s : State} {t} {req} : KeepsOut s (execDrbgReseed t req s) := by
  unfold execDrbgReseed
  exact keepsOut_software

theorem keeps_execDrbgOutRead {s : State} {t} {req} : KeepsOut s (execDrbgOutRead t req s) := by
  unfold execDrbgOutRead
  refine keepsOut_always fun s h => ?_
  exact keeps_readFor h

theorem keeps_execLcGo {s : State} {t} {req} {burnOk} : KeepsOut s (execLcGo t req burnOk s) := by
  unfold execLcGo
  refine keepsOut_always fun s h => ?_
  exact keeps_ite (keeps_writeReg h) (keeps_ite (keeps_lcGo h) h)

theorem keeps_execKeyGenerate {s : State} {t} {req} : KeepsOut s (execKeyGenerate t req s) := by
  unfold execKeyGenerate
  exact keepsOut_software

theorem keeps_execKeyDerive {s : State} {t} {w} : KeepsOut s (execKeyDerive t w s) := by
  unfold execKeyDerive
  refine keepsOut_commanded fun s h => ?_
  exact keeps_keyDerive h

theorem keeps_execKeyErase {s : State} {t} {req} : KeepsOut s (execKeyErase t req s) := by
  unfold execKeyErase
  exact keepsOut_software

theorem keeps_execKeyInfo {s : State} {t} {req} : KeepsOut s (execKeyInfo t req s) := by
  unfold execKeyInfo
  exact keepsOut_software

theorem keeps_execCvStart {s : State} {t} {req} {u} : KeepsOut s (execCvStart t req u s) := by
  unfold execCvStart
  exact keepsOut_software

theorem keeps_execCvAbort {s : State} {t} {req} {u} : KeepsOut s (execCvAbort t req u s) := by
  unfold execCvAbort
  exact keepsOut_software

theorem keeps_execCvDataWrite {s : State} {t} {req} {u} {v} : KeepsOut s (execCvDataWrite t req u v s) := by
  unfold execCvDataWrite
  exact keepsOut_software

theorem keeps_execKeySaveDone {s : State} {t} : KeepsOut s (execKeySaveDone t s) := by
  unfold execKeySaveDone
  refine keepsOut_event fun s h => ?_
  exact keeps_keySaved h

theorem keeps_execAdmission {s : State} {t} {r} : KeepsOut s (execAdmission t r s) := by
  unfold execAdmission
  refine keepsOut_event fun s h => ?_
  exact keeps_yielding h

theorem keeps_execPlotCharge {s : State} {t} {p} {first} {bytes} : KeepsOut s (execPlotCharge t p first bytes s) := by
  unfold execPlotCharge
  refine keepsOut_event fun s h => ?_
  exact keeps_yielding h

theorem keeps_execPlotFree {s : State} {t} {id} : KeepsOut s (execPlotFree t id s) := by
  unfold execPlotFree
  refine keepsOut_event fun s h => ?_
  exact keeps_freeIfDone h

theorem keeps_execHeldAccountMove {s : State} {t} {id} : KeepsOut s (execHeldAccountMove t id s) := by
  unfold execHeldAccountMove
  refine keepsOut_event fun s h => ?_
  exact keeps_heldMove h

theorem keeps_execEgressSelect {s : State} {t} {o} : KeepsOut s (execEgressSelect t o s) := by
  unfold execEgressSelect
  refine keepsOut_event fun s h => ?_
  exact keeps_yielding h

theorem keeps_execCopyAgeExpiry {s : State} {t} {o} : KeepsOut s (execCopyAgeExpiry t o s) := by
  unfold execCopyAgeExpiry
  refine keepsOut_event fun s h => ?_
  exact keeps_ite (keeps_ageHeads h) h

theorem keeps_execCutThroughStart {s : State} {t} {o} : KeepsOut s (execCutThroughStart t o s) := by
  unfold execCutThroughStart
  refine keepsOut_event fun s h => ?_
  exact keeps_yielding h

theorem keeps_execGateCycleStart {s : State} {t} {i} : KeepsOut s (execGateCycleStart t i s) := by
  unfold execGateCycleStart
  refine keepsOut_event fun s h => ?_
  exact keeps_gateStart h

theorem keeps_execGateEntryEnd {s : State} {t} {i} : KeepsOut s (execGateEntryEnd t i s) := by
  unfold execGateEntryEnd
  refine keepsOut_event fun s h => ?_
  exact keeps_gateNext h

theorem keeps_execReseqItemArrival {s : State} {t} {stream} {num} {start} {frame} {outs} :
    KeepsOut s (execReseqItemArrival t stream num start frame outs s) := by
  unfold execReseqItemArrival
  refine keepsOut_event fun s h => ?_
  exact keeps_numberedArrival h

theorem keeps_execReseqVoid {s : State} {t} {stream} {num} {start} : KeepsOut s (execReseqVoid t stream num start s) := by
  unfold execReseqVoid
  refine keepsOut_event fun s h => ?_
  exact keeps_yielding h

theorem keeps_execRsqGapExpiry {s : State} {t} {stream} : KeepsOut s (execRsqGapExpiry t stream s) := by
  unfold execRsqGapExpiry
  refine keepsOut_event fun s h => ?_
  exact keeps_yielding h

theorem keeps_execRsqReset {s : State} {t} {req} : KeepsOut s (execRsqReset t req s) := by
  unfold execRsqReset
  exact keepsOut_software

theorem keeps_execOutputDown {s : State} {t} {o} : KeepsOut s (execOutputDown t o s) := by
  unfold execOutputDown
  refine keepsOut_event fun s h => ?_
  exact keeps_ite (keeps_refreshOutput h) h

theorem keeps_execHoldExpiry {s : State} {t} {o} : KeepsOut s (execHoldExpiry t o s) := by
  unfold execHoldExpiry
  refine keepsOut_event fun s h => ?_
  exact keeps_yielding h

theorem keeps_execOutputUp {s : State} {t} {o} : KeepsOut s (execOutputUp t o s) := by
  unfold execOutputUp
  refine keepsOut_event fun s h => ?_
  exact keeps_ite h (keeps_refreshOutput h)

theorem keeps_execStuckExpiry {s : State} {t} {o} : KeepsOut s (execStuckExpiry t o s) := by
  unfold execStuckExpiry
  refine keepsOut_event fun s h => ?_
  exact keeps_yielding h

theorem keeps_execPipelineItem {s : State} {t} {p} {bad} : KeepsOut s (execPipelineItem t p bad s) := by
  unfold execPipelineItem
  refine keepsOut_event fun s h => ?_
  exact keeps_pipelineItem h

theorem keeps_execTpRead {s : State} {t} {req} {page} : KeepsOut s (execTpRead t req page s) := by
  unfold execTpRead
  refine keepsOut_always fun s h => ?_
  exact keeps_yielding h

theorem keeps_execTpWrite {s : State} {t} {req} {page} : KeepsOut s (execTpWrite t req page s) := by
  unfold execTpWrite
  refine keepsOut_always fun s h => ?_
  exact keeps_yielding h

theorem keeps_execTpInval {s : State} {t} {req} {page} : KeepsOut s (execTpInval t req page s) := by
  unfold execTpInval
  refine keepsOut_always fun s h => ?_
  exact keeps_yielding h

theorem keeps_execTpHash {s : State} {t} {req} {page} : KeepsOut s (execTpHash t req page s) := by
  unfold execTpHash
  exact keepsOut_software

theorem keeps_execTablePendingTimeout {s : State} {t} {page} {table} {i} :
    KeepsOut s (execTablePendingTimeout t page table i s) := by
  unfold execTablePendingTimeout
  refine keepsOut_event fun s h => ?_
  exact keeps_pendOver h

theorem keeps_execLearnApply {s : State} {t} {r} : KeepsOut s (execLearnApply t r s) := by
  unfold execLearnApply
  refine keepsOut_event fun s h => ?_
  exact keeps_ite (keeps_learnHead h) h

theorem keeps_execPinEnd {s : State} {t} {r} {k} : KeepsOut s (execPinEnd t r k s) := by
  unfold execPinEnd
  refine keepsOut_event fun s h => ?_
  exact keeps_pinEnd h

theorem keeps_execUnpinAll {s : State} {t} {req} {r} : KeepsOut s (execUnpinAll t req r s) := by
  unfold execUnpinAll
  exact keepsOut_software

theorem keeps_execLrnFlush {s : State} {t} {req} {r} : KeepsOut s (execLrnFlush t req r s) := by
  unfold execLrnFlush
  exact keepsOut_software

theorem keeps_execAgeingVisit {s : State} {t} {r} : KeepsOut s (execAgeingVisit t r s) := by
  unfold execAgeingVisit
  refine keepsOut_event fun s h => ?_
  exact keeps_yielding h

theorem keeps_execHarrowCompare {s : State} {t} {h} {liveBad} {shadowBad} {readBack} :
    KeepsOut s (execHarrowCompare t h liveBad shadowBad readBack s) := by
  unfold execHarrowCompare
  refine keepsOut_event fun s h => ?_
  exact keeps_harrowCompare h

theorem keeps_execHarrowFlagJudge {s : State} {t} {h} {liveBad} {shadowBad} {readBack} :
    KeepsOut s (execHarrowFlagJudge t h liveBad shadowBad readBack s) := by
  unfold execHarrowFlagJudge
  refine keepsOut_event fun s h => ?_
  exact keeps_harrowFlag h

theorem keeps_execUpdateHeaderBlock {s : State} {t} {data} {bad} : KeepsOut s (execUpdateHeaderBlock t data bad s) := by
  unfold execUpdateHeaderBlock
  refine keepsOut_event fun s h => ?_
  exact keeps_blockAt h

theorem keeps_execUpdateBodyBlock {s : State} {t} {offset} {data} {bad} :
    KeepsOut s (execUpdateBodyBlock t offset data bad s) := by
  unfold execUpdateBodyBlock
  refine keepsOut_event fun s h => ?_
  exact keeps_blockAt h

theorem keeps_execUpdVerify {s : State} {t} {w} : KeepsOut s (execUpdVerify t w s) := by
  unfold execUpdVerify
  refine keepsOut_commanded fun s h => ?_
  exact keeps_updCommand h

theorem keeps_execUpdActivate {s : State} {t} {req} {force} {fault} :
    KeepsOut s (execUpdActivate t req force fault s) := by
  unfold execUpdActivate
  refine keepsOut_commanded fun s h => ?_
  exact keeps_updCommand h

theorem keeps_execUpdConfirm {s : State} {t} {req} : KeepsOut s (execUpdConfirm t req s) := by
  unfold execUpdConfirm
  exact keepsOut_software

theorem keeps_execUpdReject {s : State} {t} {w} : KeepsOut s (execUpdReject t w s) := by
  unfold execUpdReject
  refine keepsOut_commanded fun s h => ?_
  exact keeps_updCommand h

theorem keeps_execTrialTimerExpiry {s : State} {w} : KeepsOut s (execTrialTimerExpiry w s) := by
  unfold execTrialTimerExpiry
  refine keepsOut_event fun s h => ?_
  exact keeps_trialExpiry h

theorem keeps_execTrialMinute {s : State} {t} : KeepsOut s (execTrialMinute t s) := by
  unfold execTrialMinute
  refine keepsOut_event fun s h => ?_
  exact keeps_trialMinute h

theorem keeps_execUpdAbandon {s : State} {t} {req} : KeepsOut s (execUpdAbandon t req s) := by
  unfold execUpdAbandon
  exact keepsOut_software

theorem keeps_execUpdEpoch {s : State} {t} {req} : KeepsOut s (execUpdEpoch t req s) := by
  unfold execUpdEpoch
  exact keepsOut_software

theorem keeps_execSetRead {s : State} {t} {w} : KeepsOut s (execSetRead t w s) := by
  unfold execSetRead
  refine keepsOut_commanded fun s h => ?_
  exact keeps_setCommand h

theorem keeps_execSetWrite {s : State} {t} {req} {full} : KeepsOut s (execSetWrite t req full s) := by
  unfold execSetWrite
  refine keepsOut_commanded fun s h => ?_
  exact keeps_setCommand h

theorem keeps_execSetDelete {s : State} {t} {req} : KeepsOut s (execSetDelete t req s) := by
  unfold execSetDelete
  exact keepsOut_software

theorem keeps_execWakeEvent {s : State} {t} {p} : KeepsOut s (execWakeEvent t p s) := by
  unfold execWakeEvent
  refine keepsOut_always fun s h => ?_
  exact keeps_wakeEvent h

theorem keeps_execWakeInEdge {s : State} {t} {k} {rising} {heldUs} : KeepsOut s (execWakeInEdge t k rising heldUs s) := by
  unfold execWakeInEdge
  refine keepsOut_always fun s h => ?_
  exact keeps_winEdge h

theorem keeps_execClRequest {s : State} {t} {req} {c} : KeepsOut s (execClRequest t req c s) := by
  unfold execClRequest
  refine keepsOut_always fun s h => ?_
  exact keeps_writeReg h

theorem keeps_execClRelease {s : State} {t} {req} {c} : KeepsOut s (execClRelease t req c s) := by
  unfold execClRelease
  exact keepsOut_software

theorem keeps_execRepeatExpiry {s : State} {t} {c} : KeepsOut s (execRepeatExpiry t c s) := by
  unfold execRepeatExpiry
  refine keepsOut_event fun s h => ?_
  exact keeps_repeatExpiry h

theorem keeps_execNmTimerExpiry {s : State} {t} {c} : KeepsOut s (execNmTimerExpiry t c s) := by
  unfold execNmTimerExpiry
  refine keepsOut_event fun s h => ?_
  exact keeps_yielding h

theorem keeps_execNmCycle {s : State} {t} {c} : KeepsOut s (execNmCycle t c s) := by
  unfold execNmCycle
  refine keepsOut_event fun s h => ?_
  exact keeps_nmCycle h

theorem keeps_execWaitExpiry {s : State} {t} {c} : KeepsOut s (execWaitExpiry t c s) := by
  unfold execWaitExpiry
  refine keepsOut_event fun s h => ?_
  exact keeps_waitExpiry h

theorem keeps_execSleepCommit {s : State} {t} {c} : KeepsOut s (execSleepCommit t c s) := by
  unfold execSleepCommit
  refine keepsOut_event fun s h => ?_
  exact keeps_sleepCommit h

theorem keeps_execFalseWakeWindowExpiry {s : State} {t} {p} : KeepsOut s (execFalseWakeWindowExpiry t p s) := by
  unfold execFalseWakeWindowExpiry
  refine keepsOut_event fun s h => ?_
  exact keeps_yielding h

theorem keeps_execFwHourPeriod {s : State} {t} : KeepsOut s (execFwHourPeriod t s) := by
  unfold execFwHourPeriod
  refine keepsOut_always fun s h => ?_
  exact keeps_fwHour h

theorem keeps_execKeepawakeFlag {s : State} {t} {i} : KeepsOut s (execKeepawakeFlag t i s) := by
  unfold execKeepawakeFlag
  refine keepsOut_event fun s h => ?_
  exact keeps_kaFlag h

theorem keeps_execHeartbeatLapse {s : State} {t} {d} : KeepsOut s (execHeartbeatLapse t d s) := by
  unfold execHeartbeatLapse
  refine keepsOut_always fun s h => ?_
  exact keeps_yielding h

theorem keeps_execPowerVoteWithdraw {s : State} {t} {d} : KeepsOut s (execPowerVoteWithdraw t d s) := by
  unfold execPowerVoteWithdraw
  refine keepsOut_always fun s h => ?_
  exact keeps_voteWithdraw h

theorem keeps_execRegionPark {s : State} {t} {r} : KeepsOut s (execRegionPark t r s) := by
  unfold execRegionPark
  refine keepsOut_event fun s h => ?_
  exact keeps_yielding h

theorem keeps_execRegionUnpark {s : State} {t} {r} : KeepsOut s (execRegionUnpark t r s) := by
  unfold execRegionUnpark
  refine keepsOut_event fun s h => ?_
  exact keeps_ite (keeps_unpark h) h

theorem keeps_execNmSourceHolding {s : State} {t} {c} : KeepsOut s (execNmSourceHolding t c s) := by
  unfold execNmSourceHolding
  refine keepsOut_event fun s h => ?_
  exact keeps_refreshHolding h

/-- Every command keeps what `Keeps` says. -/
theorem keeps_exec (i : Instr) (s : State) : KeepsOut s (exec i s) := by
  cases i with
  | registerWrite => exact keeps_execRegisterWrite
  | pageRun => exact keeps_execPageRun
  | pageStop => exact keeps_execPageStop
  | pageRestart => exact keeps_execPageRestart
  | itemBoundary => exact keeps_execItemBoundary
  | mbxSnap => exact keeps_execMbxSnap
  | mbxSnapclr => exact keeps_execMbxSnapclr
  | mbxCommit => exact keeps_execMbxCommit
  | mbxDataRead => exact keeps_execMbxDataRead
  | cfgOpen => exact keeps_execCfgOpen
  | cfgClose => exact keeps_execCfgClose
  | cfgPassEnd => exact keeps_execCfgPassEnd
  | cfgWindowTimeout => exact keeps_execCfgWindowTimeout
  | furrowCommit => exact keeps_execFurrowCommit
  | furrowRewind => exact keeps_execFurrowRewind
  | furrowWordRead => exact keeps_execFurrowWordRead
  | furHwmWrite => exact keeps_execFurHwmWrite
  | furPop => exact keeps_execFurPop
  | popGuardExpiry => exact keeps_execPopGuardExpiry
  | pipelineItem => exact keeps_execPipelineItem
  | admission => exact keeps_execAdmission
  | plotCharge => exact keeps_execPlotCharge
  | plotFree => exact keeps_execPlotFree
  | heldAccountMove => exact keeps_execHeldAccountMove
  | egressSelect => exact keeps_execEgressSelect
  | copyAgeExpiry => exact keeps_execCopyAgeExpiry
  | cutThroughStart => exact keeps_execCutThroughStart
  | gateCycleStart => exact keeps_execGateCycleStart
  | gateEntryEnd => exact keeps_execGateEntryEnd
  | reseqItemArrival => exact keeps_execReseqItemArrival
  | reseqVoid => exact keeps_execReseqVoid
  | rsqGapExpiry => exact keeps_execRsqGapExpiry
  | rsqReset => exact keeps_execRsqReset
  | outputDown => exact keeps_execOutputDown
  | holdExpiry => exact keeps_execHoldExpiry
  | outputUp => exact keeps_execOutputUp
  | stuckExpiry => exact keeps_execStuckExpiry
  | tpRead => exact keeps_execTpRead
  | tpWrite => exact keeps_execTpWrite
  | tpInval => exact keeps_execTpInval
  | tpHash => exact keeps_execTpHash
  | tablePendingTimeout => exact keeps_execTablePendingTimeout
  | learnApply => exact keeps_execLearnApply
  | pinEnd => exact keeps_execPinEnd
  | unpinAll => exact keeps_execUnpinAll
  | lrnFlush => exact keeps_execLrnFlush
  | ageingVisit => exact keeps_execAgeingVisit
  | harrowCompare => exact keeps_execHarrowCompare
  | harrowFlagJudge => exact keeps_execHarrowFlagJudge
  | ssRead => exact keeps_execSsRead
  | ssWrite => exact keeps_execSsWrite
  | mbUnpack => exact keeps_execMbUnpack
  | mbPack => exact keeps_execMbPack
  | mbSend => exact keeps_execMbSend
  | drillTick => exact keeps_execDrillTick
  | deadlineTimeout => exact keeps_execDeadlineTimeout
  | mdtDeferralEnd => exact keeps_execMdtDeferralEnd
  | repetitionDue => exact keeps_execRepetitionDue
  | periodicSend => exact keeps_execPeriodicSend
  | linPull => exact keeps_execLinPull
  | canModeWrite => exact keeps_execCanModeWrite
  | busIntegration => exact keeps_execBusIntegration
  | canFrameReceived => exact keeps_execCanFrameReceived
  | canRxError => exact keeps_execCanRxError
  | objReq => exact keeps_execObjReq
  | objCancel => exact keeps_execObjCancel
  | objNewReturn => exact keeps_execObjNewReturn
  | canRouterFill => exact keeps_execCanRouterFill
  | canTxSelection => exact keeps_execCanTxSelection
  | canArbLoss => exact keeps_execCanArbLoss
  | canTxError => exact keeps_execCanTxError
  | canTxDone => exact keeps_execCanTxDone
  | busOffRecovered => exact keeps_execBusOffRecovered
  | trxStatusReport => exact keeps_execTrxStatusReport
  | transceiverModeCommand => exact keeps_execTransceiverModeCommand
  | heartbeatWord => exact keeps_execHeartbeatWord
  | linSlotStart => exact keeps_execLinSlotStart
  | linHeaderReceived => exact keeps_execLinHeaderReceived
  | linResponseReceived => exact keeps_execLinResponseReceived
  | linResponseTimeout => exact keeps_execLinResponseTimeout
  | linRoutedFill => exact keeps_execLinRoutedFill
  | linBufReadySet => exact keeps_execLinBufReadySet
  | linSchedSwitch => exact keeps_execLinSchedSwitch
  | linWakePulse => exact keeps_execLinWakePulse
  | linWakeWaitExpiry => exact keeps_execLinWakeWaitExpiry
  | linIdle => exact keeps_execLinIdle
  | linkDown => exact keeps_execLinkDown
  | linkUp => exact keeps_execLinkUp
  | ethFrameReceived => exact keeps_execEthFrameReceived
  | macControlFrame => exact keeps_execMacControlFrame
  | pauseTimerExpiry => exact keeps_execPauseTimerExpiry
  | ethFrameSent => exact keeps_execEthFrameSent
  | pauseRefresh => exact keeps_execPauseRefresh
  | collision => exact keeps_execCollision
  | backoffExpiry => exact keeps_execBackoffExpiry
  | t1sForcedJam => exact keeps_execT1sForcedJam
  | plcaTransmitOpportunity => exact keeps_execPlcaTransmitOpportunity
  | timeStep => exact keeps_execTimeStep
  | wakeEvent => exact keeps_execWakeEvent
  | wakeInEdge => exact keeps_execWakeInEdge
  | clRequest => exact keeps_execClRequest
  | clRelease => exact keeps_execClRelease
  | repeatExpiry => exact keeps_execRepeatExpiry
  | nmTimerExpiry => exact keeps_execNmTimerExpiry
  | nmCycle => exact keeps_execNmCycle
  | waitExpiry => exact keeps_execWaitExpiry
  | sleepCommit => exact keeps_execSleepCommit
  | falseWakeWindowExpiry => exact keeps_execFalseWakeWindowExpiry
  | fwHourPeriod => exact keeps_execFwHourPeriod
  | keepawakeFlag => exact keeps_execKeepawakeFlag
  | heartbeatLapse => exact keeps_execHeartbeatLapse
  | powerVoteWithdraw => exact keeps_execPowerVoteWithdraw
  | regionPark => exact keeps_execRegionPark
  | regionUnpark => exact keeps_execRegionUnpark
  | laneDispatch => exact keeps_execLaneDispatch
  | secocGenerate => exact keeps_execSecocGenerate
  | secocVerify => exact keeps_execSecocVerify
  | macsecProtect => exact keeps_execMacsecProtect
  | macsecReceive => exact keeps_execMacsecReceive
  | laneSelftestDone => exact keeps_execLaneSelftestDone
  | entropyHealthFail => exact keeps_execEntropyHealthFail
  | entropyStartupDone => exact keeps_execEntropyStartupDone
  | drbgReseed => exact keeps_execDrbgReseed
  | drbgOutRead => exact keeps_execDrbgOutRead
  | lcGo => exact keeps_execLcGo
  | keyGenerate => exact keeps_execKeyGenerate
  | keyDerive => exact keeps_execKeyDerive
  | keyErase => exact keeps_execKeyErase
  | keyInfo => exact keeps_execKeyInfo
  | cvStart => exact keeps_execCvStart
  | cvAbort => exact keeps_execCvAbort
  | cvDataWrite => exact keeps_execCvDataWrite
  | countedFault => exact keeps_execCountedFault
  | rowTestEnd => exact keeps_execRowTestEnd
  | hubReclaim => exact keeps_execHubReclaim
  | operMinute => exact keeps_execOperMinute
  | handshakeStall => exact keeps_execHandshakeStall
  | paceWindow => exact keeps_execPaceWindow
  | monitorSample => exact keeps_execMonitorSample
  | monSnap => exact keeps_execMonSnap
  | monConfigWrite => exact keeps_execMonConfigWrite
  | updateHeaderBlock => exact keeps_execUpdateHeaderBlock
  | updateBodyBlock => exact keeps_execUpdateBodyBlock
  | updVerify => exact keeps_execUpdVerify
  | updActivate => exact keeps_execUpdActivate
  | updConfirm => exact keeps_execUpdConfirm
  | updReject => exact keeps_execUpdReject
  | trialTimerExpiry => exact keeps_execTrialTimerExpiry
  | trialMinute => exact keeps_execTrialMinute
  | updAbandon => exact keeps_execUpdAbandon
  | updEpoch => exact keeps_execUpdEpoch
  | setRead => exact keeps_execSetRead
  | setWrite => exact keeps_execSetWrite
  | setDelete => exact keeps_execSetDelete
  | tailWrite => exact keeps_execTailWrite
  | htxDescriptor => exact keeps_execHtxDescriptor
  | hostqStallExpiry => exact keeps_execHostqStallExpiry
  | lateCompletion => exact keeps_execLateCompletion
  | hrxDeliver => exact keeps_execHrxDeliver
  | msixHoldoffEnd => exact keeps_execMsixHoldoffEnd
  | ebderLinkTrained => exact keeps_execEbderLinkTrained
  | idClashRetry => exact keeps_execIdClashRetry
  | ebderFrameReceived => exact keeps_execEbderFrameReceived
  | ebderAck => exact keeps_execEbderAck
  | ebderNak => exact keeps_execEbderNak
  | ebderCredit => exact keeps_execEbderCredit
  | replayTimeout => exact keeps_execReplayTimeout
  | linkRetrain => exact keeps_execLinkRetrain
  | relayWaitExpiry => exact keeps_execRelayWaitExpiry
  | remoteAccess => exact keeps_execRemoteAccess
  | regReqReceived => exact keeps_execRegReqReceived
  | regRspReceived => exact keeps_execRegRspReceived
  | remoteAccessTimeout => exact keeps_execRemoteAccessTimeout
  | intFrameReceived => exact keeps_execIntFrameReceived
  | leaseGrant => exact keeps_execLeaseGrant
  | leaseExpiry => exact keeps_execLeaseExpiry
  | guardExpiry => exact keeps_execGuardExpiry
  | pairHandover => exact keeps_execPairHandover
  | pairFrameSend => exact keeps_execPairFrameSend
  | pairFrameReceived => exact keeps_execPairFrameReceived
  | contactTimeout => exact keeps_execContactTimeout
  | reclaimHoldExpiry => exact keeps_execReclaimHoldExpiry
  | reclaimReceived => exact keeps_execReclaimReceived
  | mirrorReceived => exact keeps_execMirrorReceived
  | leaseOutToggle => exact keeps_execLeaseOutToggle
  | vbatPowerOn => exact keeps_execVbatPowerOn
  | vbatPowerOff => exact keeps_execVbatPowerOff
  | coreSupplyGood => exact keeps_execCoreSupplyGood
  | pgoodTimeout => exact keeps_execPgoodTimeout
  | voteRetry => exact keeps_execVoteRetry
  | pwrWarm => exact keeps_execPwrWarm
  | pwrStandby => exact keeps_execPwrStandby
  | autoStandbyExpiry => exact keeps_execAutoStandbyExpiry
  | standbyPagesStopped => exact keeps_execStandbyPagesStopped
  | standbyHoldExpiry => exact keeps_execStandbyHoldExpiry
  | brownOut => exact keeps_execBrownOut
  | refclkLoss => exact keeps_execRefclkLoss
  | perstAssert => exact keeps_execPerstAssert
  | coreSupplyRemoved => exact keeps_execCoreSupplyRemoved
  | perstRelease => exact keeps_execPerstRelease
  | pcieLinkUp => exact keeps_execPcieLinkUp
  | pcieLinkDown => exact keeps_execPcieLinkDown
  | refclkRestored => exact keeps_execRefclkRestored
  | keySaveDone => exact keeps_execKeySaveDone
  | healthyRestored => exact keeps_execHealthyRestored
  | nmSourceHolding => exact keeps_execNmSourceHolding
  | speedDuplexChange => exact keeps_execSpeedDuplexChange

end Sys2Proof.Machine
end

