-- ==== Sys2Proof/Laws/Settle.lean ====
section
/-! SUPPORT. What settling the command of a page comes to (R60, R70): nothing where none was given, while it runs or waits for
service work; its results and an idle command register where it has completed. -/
namespace Sys2Proof.Machine

variable {s : State} {a : Nat}

/-- A field that a command writes as it completes changes the registers alone, and how they stood as the moment began. -/
theorem putField_only (s : State) (b : Bool) (p : FieldPut) : { putField s b p with regs := s.regs, regsAt := s.regsAt } = s := by
  unfold putField; dsimp only; split <;> rfl
/-- So do all of them. -/
theorem puts_only (b : State → Bool) (ps : List FieldPut) (s : State) :
    { ps.foldl (fun s p => putField s (b s) p) s with regs := s.regs, regsAt := s.regsAt } = s := by
  induction ps generalizing s with
  | nil => rfl
  | cons p ps ih =>
    exact (congrArg (fun u : State => { u with regs := s.regs, regsAt := s.regsAt }) (ih (putField s (b s) p))).trans
      (putField_only s (b s) p)

/-- Settling changes the registers and the commands under way alone. -/
theorem cmdSettle_only (s : State) (a : Nat) : { cmdSettle s a with regs := s.regs, regsAt := s.regsAt, cmds := s.cmds } = s := by
  unfold cmdSettle
  rcases mapGet? s.cmds a with _ | c
  · rfl
  · dsimp only
    split
    · have h := puts_only (fun u => decide (c.doneAt < u.now)) c.puts { s with cmds := mapDel s.cmds a }
      exact congrArg (fun u : State => { u with cmds := s.cmds }) h
    · rfl

/-- A reading that looks at neither the registers nor the commands reads the same on a settled page. -/
theorem cmdSettle_keep {β : Type} (f : State → β) (h : ∀ u r w c, f { u with regs := r, regsAt := w, cmds := c } = f u) (s : State)
    (a : Nat) : f (cmdSettle s a) = f s := by
  rw [← h (cmdSettle s a) s.regs s.regsAt s.cmds, cmdSettle_only]

@[simp] theorem cmdSettle_fuses (s : State) (a : Nat) : (cmdSettle s a).fuses = s.fuses := cmdSettle_keep (·.fuses) (fun _ _ _ _ => rfl) s a
@[simp] theorem cmdSettle_now (s : State) (a : Nat) : (cmdSettle s a).now = s.now := cmdSettle_keep (·.now) (fun _ _ _ _ => rfl) s a

/-- The commands under way after the results are written. -/
theorem puts_cmds (b : State → Bool) (ps : List FieldPut) (s : State) :
    (ps.foldl (fun s p => putField s (b s) p) s).cmds = s.cmds :=
  congrArg (·.cmds) (puts_only b ps s)

/-- Where no command was given, settling changes nothing. -/
theorem cmdSettle_none (h : mapGet? s.cmds a = none) : cmdSettle s a = s := by simp [cmdSettle, h]
/-- Where none was given and none waits for a parked region, none is under way. -/
theorem cmdBusy_none (h : mapGet? s.cmds a = none) (k : s.retained = []) : cmdBusy s a = false := by simp [cmdBusy, h, k]
/-- While the command runs, or waits for its service work, settling changes nothing. -/
theorem cmdSettle_busy (h : cmdBusy s a = true) : cmdSettle s a = s := by
  unfold cmdBusy at h; unfold cmdSettle
  rcases e : mapGet? s.cmds a with _ | c
  · rfl
  · have k : s.now < c.doneAt ∨ unitWaits s a = true := by simpa [e] using h
    have n : ¬(c.doneAt ≤ s.now ∧ (!(unitWaits s a)) = true) := by
      rcases k with k | k
      · exact fun x => absurd x.1 (Nat.not_le.2 k)
      · simp [k]
    simp only [if_neg n]
/-- When it has completed, none is under way any more. -/
theorem cmdSettle_idle (h : cmdBusy s a = false) : mapGet? (cmdSettle s a).cmds a = none := by
  unfold cmdBusy at h; unfold cmdSettle
  rcases e : mapGet? s.cmds a with _ | c
  · exact e
  · have k : c.doneAt ≤ s.now ∧ unitWaits s a = false := by simpa [e] using h
    simp [k.1, k.2, puts_cmds fun u => decide (c.doneAt < u.now)]

/-! ## Pages -/

/-- A page other than those of the update and of the table ports is found settled. -/
theorem atAccess_settles {pg : Nat} (h1 : pg ≠ updPage) (h2 : kindOf s.fuses pg ≠ 0x1F) : atAccess s pg = settlePage s pg := by
  have e : (settlePage s pg).fuses = s.fuses := by unfold settlePage; split <;> simp
  simp [atAccess, h1, e, h2]
/-- The state in which a write of such a page acts, by whether the page has a command register. -/
theorem atPage_some {t pg c : Nat} (h1 : pg ≠ updPage) (h2 : kindOf s.fuses pg ≠ 0x1F) (h : cmdSlot (kindOf s.fuses pg) = some c) :
    atPage s t pg = cmdSettle (advance s t) (pg + c) := by
  rw [atPage, atAccess_settles h1 (by simpa using h2)]; simp [settlePage, h]
theorem atPage_none {t pg : Nat} (h1 : pg ≠ updPage) (h2 : kindOf s.fuses pg ≠ 0x1F) (h : cmdSlot (kindOf s.fuses pg) = none) :
    atPage s t pg = advance s t := by
  rw [atPage, atAccess_settles h1 (by simpa using h2)]; simp [settlePage, h]

end Sys2Proof.Machine
end

