-- ==== Sys2Proof/WellFormed.lean ====
section
/-! DEFINITION. Which commands are well formed: each operand within the range that its register, port or frame field can
hold. A command may still name an element that the variant lacks; exec faults on that by name. -/
namespace Sys2Proof

/-- A requesting function: device 0 to 63, PF0 or PF1 (R52). -/
def reqOk (req : Nat) : Bool := decide (req < 128)
/-- A number of 24 bits. -/
def wordOk (w : Nat) : Bool := decide (w < 2 ^ 24)
/-- The address of a page. -/
def pageOk (page : Nat) : Bool := wordOk page && decide (page % 0x1000 = 0)
/-- The operands of what a boot meets: key slots, roots, roster entries, pages and banks that exist. -/
def bootOk (m : BootMeets) : Bool :=
  m.keys.all (fun k => decide (k < 1024)) && m.roots.all (fun k => decide (k < 3)) && m.roster.all (fun k => decide (k < 512)) &&
    m.tests.all (fun x => pageOk x.1) && m.banks.all (fun b => decide (b < 2)) && m.identity.all (fun w => decide (w < 8))

/-- A command is well formed. -/
def Instr.wf : Instr → Bool
  | .registerWrite _ req addr value _ =>
    reqOk req && wordOk addr && wordOk value
  | .pageRun _ req page =>
    reqOk req && pageOk page
  | .pageStop _ req page =>
    reqOk req && pageOk page
  | .pageRestart _ req page =>
    reqOk req && pageOk page
  | .itemBoundary _ page =>
    pageOk page
  | .mbxSnap _ req n =>
    reqOk req && decide (n < 4)
  | .mbxSnapclr _ req n =>
    reqOk req && decide (n < 4)
  | .mbxCommit _ req n =>
    reqOk req && decide (n < 4)
  | .mbxDataRead _ req n k =>
    reqOk req && decide (n < 4) && decide (k < 11)
  | .cfgOpen _ req =>
    reqOk req
  | .cfgClose _ req =>
    reqOk req
  | .cfgPassEnd _ =>
    true
  | .cfgWindowTimeout _ =>
    true
  | .furrowCommit _ page data _ =>
    pageOk page && data.all wordOk
  | .furrowRewind _ page wrote =>
    pageOk page && wrote.all wordOk
  | .furrowWordRead _ page wrote _ =>
    pageOk page && wrote.all wordOk
  | .furHwmWrite _ req page v =>
    reqOk req && pageOk page && wordOk v
  | .furPop _ req page =>
    reqOk req && pageOk page
  | .popGuardExpiry _ req page =>
    reqOk req && pageOk page
  | .pipelineItem _ p _ =>
    decide (p < 144)
  | .admission _ r =>
    decide (r < 5)
  | .plotCharge _ p _ bytes =>
    decide (p < 144) && decide (0 < bytes.length) && decide (bytes.length ≤ 96)
  | .plotFree _ _ =>
    true
  | .heldAccountMove _ _ =>
    true
  | .egressSelect _ o =>
    decide (o < 144)
  | .copyAgeExpiry _ o =>
    decide (o < 144)
  | .cutThroughStart _ o =>
    decide (o < 144)
  | .gateCycleStart _ i =>
    decide (i < 20)
  | .gateEntryEnd _ i =>
    decide (i < 20)
  | .reseqItemArrival _ stream num _ _ outs =>
    decide (stream < 1024) && decide (num < 65536) && outs.all (fun o => decide (o < 144))
  | .reseqVoid _ stream num _ =>
    decide (stream < 1024) && decide (num < 65536)
  | .rsqGapExpiry _ stream =>
    decide (stream < 1024)
  | .rsqReset _ req =>
    reqOk req
  | .outputDown _ o =>
    decide (o < 144)
  | .holdExpiry _ o =>
    decide (o < 144)
  | .outputUp _ o =>
    decide (o < 144)
  | .stuckExpiry _ o =>
    decide (o < 144)
  | .tpRead _ req page =>
    reqOk req && pageOk page
  | .tpWrite _ req page =>
    reqOk req && pageOk page
  | .tpInval _ req page =>
    reqOk req && pageOk page
  | .tpHash _ req page =>
    reqOk req && pageOk page
  | .tablePendingTimeout _ page table _ =>
    pageOk page && decide (table < 16)
  | .learnApply _ r =>
    decide (r < 4)
  | .pinEnd _ r k =>
    decide (r < 4) && decide (k < 256)
  | .unpinAll _ req r =>
    reqOk req && decide (r < 4)
  | .lrnFlush _ req r =>
    reqOk req && decide (r < 4)
  | .ageingVisit _ r =>
    decide (r < 4)
  | .harrowCompare _ h _ _ _ =>
    decide (h < 6)
  | .harrowFlagJudge _ h _ _ _ =>
    decide (h < 6)
  | .ssRead _ _ =>
    true
  | .ssWrite _ req =>
    reqOk req
  | .mbUnpack _ _ _ =>
    true
  | .mbPack _ _ _ =>
    true
  | .mbSend _ req =>
    reqOk req
  | .drillTick _ _ =>
    true
  | .deadlineTimeout _ l _ =>
    decide (l < 32768)
  | .mdtDeferralEnd _ l =>
    decide (l < 16384)
  | .repetitionDue _ l =>
    decide (l < 16384)
  | .periodicSend _ l =>
    decide (l < 16384)
  | .linPull _ m _ _ =>
    decide (m < 24)
  | .canModeWrite _ req n v =>
    reqOk req && decide (n < 64) && wordOk v
  | .busIntegration _ n =>
    decide (n < 64)
  | .canFrameReceived _ n _ _ _ _ _ ident data =>
    decide (n < 64) && decide (ident < 2 ^ 29) && decide (data.length ≤ 64)
  | .canRxError _ n code _ _ _ =>
    decide (n < 64) && decide (code < 8)
  | .objReq _ n i =>
    decide (n < 64) && decide (i < 96)
  | .objCancel _ n i =>
    decide (n < 64) && decide (i < 96)
  | .objNewReturn _ n i =>
    decide (n < 64) && decide (i < 96)
  | .canRouterFill _ n =>
    decide (n < 64)
  | .canTxSelection _ n =>
    decide (n < 64)
  | .canArbLoss _ n =>
    decide (n < 64)
  | .canTxError _ n code _ _ _ _ _ =>
    decide (n < 64) && decide (code < 8)
  | .canTxDone _ n _ =>
    decide (n < 64)
  | .busOffRecovered _ n =>
    decide (n < 64)
  | .trxStatusReport _ p _ _ _ _ =>
    decide (p < 104)
  | .transceiverModeCommand _ p _ _ =>
    decide (p < 104)
  | .heartbeatWord _ =>
    true
  | .linSlotStart _ m =>
    decide (m < 24)
  | .linHeaderReceived _ m _ pid =>
    decide (m < 24) && pid.all (fun i => decide (i < 256))
  | .linResponseReceived _ m bytes err =>
    decide (m < 24) && decide (bytes.length ≤ 9) && decide (err < 3)
  | .linResponseTimeout _ m _ =>
    decide (m < 24)
  | .linRoutedFill _ m =>
    decide (m < 24)
  | .linBufReadySet _ req m i =>
    reqOk req && decide (m < 24) && decide (i < 64)
  | .linSchedSwitch _ req m =>
    reqOk req && decide (m < 24)
  | .linWakePulse _ m =>
    decide (m < 24)
  | .linWakeWaitExpiry _ m =>
    decide (m < 24)
  | .linIdle _ m =>
    decide (m < 24)
  | .linkDown _ p =>
    decide (p < 124)
  | .linkUp _ p _ _ _ =>
    decide (p < 124)
  | .ethFrameReceived _ p _ _ _ _ _ _ _ =>
    decide (p < 124)
  | .macControlFrame _ p _ =>
    decide (p < 124)
  | .pauseTimerExpiry _ p c =>
    decide (p < 124) && decide (c < 8)
  | .ethFrameSent _ p _ _ =>
    decide (p < 124)
  | .pauseRefresh _ p =>
    decide (p < 124)
  | .collision _ p _ =>
    decide (p < 124)
  | .backoffExpiry _ p =>
    decide (p < 124)
  | .t1sForcedJam _ p =>
    decide (p < 124)
  | .plcaTransmitOpportunity _ p _ =>
    decide (p < 124)
  | .timeStep _ req =>
    reqOk req
  | .wakeEvent _ p =>
    decide (p < 104)
  | .wakeInEdge _ k _ _ =>
    decide (k < 4)
  | .clRequest _ req c =>
    reqOk req && decide (c < 32)
  | .clRelease _ req c =>
    reqOk req && decide (c < 32)
  | .repeatExpiry _ c =>
    decide (c < 32)
  | .nmTimerExpiry _ c =>
    decide (c < 32)
  | .nmCycle _ c =>
    decide (c < 32)
  | .waitExpiry _ c =>
    decide (c < 32)
  | .sleepCommit _ c =>
    decide (c < 32)
  | .falseWakeWindowExpiry _ p =>
    decide (p < 104)
  | .fwHourPeriod _ =>
    true
  | .keepawakeFlag _ i =>
    decide (i < 256)
  | .heartbeatLapse _ d =>
    decide (d < 2)
  | .powerVoteWithdraw _ d =>
    decide (d < 2)
  | .regionPark _ r =>
    decide (r < 4)
  | .regionUnpark _ r =>
    decide (r < 4)
  | .laneDispatch _ =>
    true
  | .secocGenerate _ i ev =>
    decide (i < 16) && decide (ev < 5)
  | .secocVerify _ i ev =>
    decide (i < 16) && decide (ev < 5)
  | .macsecProtect _ i ev =>
    decide (i < 16) && decide (ev < 6)
  | .macsecReceive _ i ev =>
    decide (i < 16) && decide (ev < 7)
  | .laneSelftestDone _ i _ =>
    decide (i < 16)
  | .entropyHealthFail _ bits =>
    decide (bits < 2 ^ 1024)
  | .entropyStartupDone w =>
    decide (w.met < 2 ^ 1024)
  | .drbgReseed _ req =>
    reqOk req
  | .drbgOutRead _ req =>
    reqOk req
  | .lcGo _ req _ =>
    reqOk req
  | .keyGenerate _ req =>
    reqOk req
  | .keyDerive _ w =>
    reqOk w.req && decide (w.met < 2)
  | .keyErase _ req =>
    reqOk req
  | .keyInfo _ req =>
    reqOk req
  | .cvStart _ req u =>
    reqOk req && decide (u < 4)
  | .cvAbort _ req u =>
    reqOk req && decide (u < 4)
  | .cvDataWrite _ req u v =>
    reqOk req && decide (u < 4) && wordOk v
  | .countedFault _ page _ code detail _ =>
    pageOk page && decide (code < 256) && decide (detail < 256)
  | .rowTestEnd _ page _ _ =>
    pageOk page
  | .hubReclaim _ req =>
    reqOk req
  | .operMinute _ =>
    true
  | .handshakeStall _ page =>
    pageOk page
  | .paceWindow _ i _ =>
    decide (i < 5)
  | .monitorSample _ dom blk pg =>
    decide (dom < 8) && decide (blk < 32) && decide (pg < 16)
  | .monSnap _ req page _ =>
    reqOk req && pageOk page
  | .monConfigWrite _ req page _ v =>
    reqOk req && pageOk page && wordOk v
  | .updateHeaderBlock _ _ _ =>
    true
  | .updateBodyBlock _ offset _ _ =>
    wordOk offset && decide (0 < offset)
  | .updVerify _ w =>
    reqOk w.req && decide (w.met < 2)
  | .updActivate _ req _ fault =>
    reqOk req && (fault == 0 || fault == 2 || fault == 7)
  | .updConfirm _ req =>
    reqOk req
  | .updReject _ w =>
    reqOk w.req && (w.met == 0 || w.met == 2 || w.met == 7)
  | .trialTimerExpiry w =>
    w.met == 0 || w.met == 2 || w.met == 7
  | .trialMinute _ =>
    true
  | .updAbandon _ req =>
    reqOk req
  | .updEpoch _ req =>
    reqOk req
  | .setRead _ w =>
    reqOk w.req && decide (w.met < 2)
  | .setWrite _ req _ =>
    reqOk req
  | .setDelete _ req =>
    reqOk req
  | .tailWrite _ req _ n v =>
    reqOk req && decide (n < 16) && wordOk v
  | .htxDescriptor _ n form _ _ _ _ _ =>
    decide (n < 16) && decide (form < 4)
  | .hostqStallExpiry _ n =>
    decide (n < 16)
  | .lateCompletion _ n =>
    decide (n < 16)
  | .hrxDeliver _ n _ _ =>
    decide (n < 16)
  | .msixHoldoffEnd _ n =>
    decide (n < 16)
  | .ebderLinkTrained _ k peer =>
    decide (k < 2) && decide (peer < 64)
  | .idClashRetry _ k peer =>
    decide (k < 2) && decide (peer < 64)
  | .ebderFrameReceived _ k _ =>
    decide (k < 2)
  | .ebderAck _ k num =>
    decide (k < 2) && wordOk num
  | .ebderNak _ k num =>
    decide (k < 2) && wordOk num
  | .ebderCredit _ k pool cls limit =>
    decide (k < 2) && decide (pool < 3) && decide (cls < 8) && wordOk limit
  | .replayTimeout _ k =>
    decide (k < 2)
  | .linkRetrain _ k _ =>
    decide (k < 2)
  | .relayWaitExpiry _ k =>
    decide (k < 2)
  | .remoteAccess _ pf dev _ addr data _ =>
    decide (pf < 2) && decide (dev < 64) && wordOk addr && wordOk data
  | .regReqReceived _ src pf tag _ addr data =>
    decide (src < 64) && decide (pf < 2) && decide (tag < 256) && wordOk addr && wordOk data
  | .regRspReceived _ src tag status data =>
    decide (src < 64) && decide (tag < 256) && decide (status < 256) && wordOk data
  | .remoteAccessTimeout _ tag =>
    decide (tag < 256)
  | .intFrameReceived _ src =>
    decide (src < 64)
  | .leaseGrant _ _ _ _ req =>
    reqOk req
  | .leaseExpiry _ =>
    true
  | .guardExpiry _ =>
    true
  | .pairHandover _ req =>
    reqOk req
  | .pairFrameSend _ =>
    true
  | .pairFrameReceived _ state _ lease peer =>
    decide (state < 8) && decide (lease < 128) && decide (peer < 64)
  | .contactTimeout _ =>
    true
  | .reclaimHoldExpiry _ =>
    true
  | .reclaimReceived _ =>
    true
  | .mirrorReceived _ what _ _ _ =>
    decide (what < 5)
  | .leaseOutToggle _ =>
    true
  | .vbatPowerOn _ =>
    true
  | .vbatPowerOff _ =>
    true
  | .coreSupplyGood _ boot =>
    bootOk boot
  | .pgoodTimeout _ d =>
    decide (d < 2)
  | .voteRetry _ d =>
    decide (d < 2)
  | .pwrWarm _ req boot =>
    reqOk req && bootOk boot
  | .pwrStandby _ req _ =>
    reqOk req
  | .autoStandbyExpiry _ =>
    true
  | .standbyPagesStopped _ =>
    true
  | .standbyHoldExpiry _ boot =>
    bootOk boot
  | .brownOut _ supply =>
    decide (supply < 8)
  | .refclkLoss _ =>
    true
  | .perstAssert _ =>
    true
  | .coreSupplyRemoved _ =>
    true
  | .perstRelease _ =>
    true
  | .pcieLinkUp _ =>
    true
  | .pcieLinkDown _ =>
    true
  | .refclkRestored _ boot =>
    bootOk boot
  | .keySaveDone _ =>
    true
  | .healthyRestored _ =>
    true
  | .nmSourceHolding _ c =>
    decide (c < 32)
  | .speedDuplexChange _ p _ _ =>
    decide (p < 124)

end Sys2Proof
end

