-- ==== Sys2Proof/Tests/Slice0.lean ====
section
/-! SUPPORT. The model's own tests: ill-formed commands are refused by the check; for every statement with hypotheses a concrete
state and operands that meet them, clause by clause; and single commands on small states, with the results that the spec gives. -/
namespace Sys2Proof.Tests
open Sys2Proof.Machine
-- One after the other: the tests' evaluations would otherwise wait for each other in a thread each.
set_option Elab.async false

/-! ## Small states -/

/-- The state after reset with register words, which stood so as the moment began. -/
def mk (l : List (Nat × Nat)) : State :=
  let regs := l.map (fun p => (p.1, BitVec.ofNat 24 p.2))
  { State.reset with regs := regs, regsAt := regs }
/-- ACTIVE, with register words. -/
def up (l : List (Nat × Nat)) : State := mk ((pwrPage + 0x40, 0x600000) :: l)
/-- A page that runs, and its block common page. -/
def on (p : Nat) : List (Nat × Nat) := [(p + 0xC, 1), (commonOf p + 0xC, 1)]
/-- A frame of memory, and a queued copy of frame 0. -/
def frame0 : Frame :=
  { input := 104, kind := .eth, cls := 0, bytes := List.replicate 64 0, plots := [], committed := true, poison := false, bad := false,
    judged := true, wantsTs := false, tag := 0, commitAt := 0, earlyAt := 0, ingressNs := 0, macsecIn := false, announced := true,
    ended := true, learn := none, badFlags := 0, srcDev := 0, charges := [] }
def copy0 : Copy := { frame := 0, input := 104, cls := 0, visibleAt := 0, cut := false, form := plainForm }
/-- What a boot meets where nothing fails. -/
def goodBoot : BootMeets :=
  { us := 100, keys := [], roots := [], roster := [], tests := [], banks := [], identity := [], keyReads := [], settings := [], store := [],
    keyWords := [] }
/-- A state with one command waiting. -/
def queued (s : State) (i : Instr) : State := { s with pending := [i] }
/-- A table entry of given words. -/
def entry (ws : List Nat) : TEntry := { words := ws.map (fun w => BitVec.ofNat 24 w), valid := true }


/-! ## Well-formed commands -/

def badBoot : BootMeets := { goodBoot with keys := [1024] }
theorem test_wf_boot :
    bootOk goodBoot = true ∧ bootOk badBoot = false ∧ bootOk { goodBoot with roots := [3] } = false ∧
      bootOk { goodBoot with roster := [512] } = false ∧ bootOk { goodBoot with tests := [(4, 0, 0)] } = false ∧
      bootOk { goodBoot with banks := [2] } = false ∧ bootOk { goodBoot with identity := [8] } = false := by decide +kernel
def goodCommands0 : List Instr :=
  [ .registerWrite 0 0 0 0 false, .pageRun 0 0 0, .pageStop 0 0 0, .pageRestart 0 0 0, .itemBoundary 0 0, .mbxSnap 0 0 0,
    .mbxSnapclr 0 0 0, .mbxCommit 0 0 0, .mbxDataRead 0 0 0 0, .cfgOpen 0 0, .cfgClose 0 0, .cfgPassEnd 0, .cfgWindowTimeout 0,
    .furrowCommit 0 0 [] false, .furrowRewind 0 0 [], .furrowWordRead 0 0 [] false, .furHwmWrite 0 0 0 0, .furPop 0 0 0,
    .popGuardExpiry 0 0 0, .pipelineItem 0 0 [], .admission 0 0, .plotCharge 0 0 false [0], .plotFree 0 0, .heldAccountMove 0 0,
    .egressSelect 0 0, .copyAgeExpiry 0 0, .cutThroughStart 0 0, .gateCycleStart 0 0, .gateEntryEnd 0 0,
    .reseqItemArrival 0 0 0 false 0 [], .reseqVoid 0 0 0 false, .rsqGapExpiry 0 0, .rsqReset 0 0, .outputDown 0 0,
    .holdExpiry 0 0, .outputUp 0 0, .stuckExpiry 0 0, .tpRead 0 0 0, .tpWrite 0 0 0, .tpInval 0 0 0, .tpHash 0 0 0,
    .tablePendingTimeout 0 0 0 0, .learnApply 0 0, .pinEnd 0 0 0, .unpinAll 0 0 0, .lrnFlush 0 0 0, .ageingVisit 0 0,
    .harrowCompare 0 0 false false false, .harrowFlagJudge 0 0 false false false, .ssRead 0 [], .ssWrite 0 0, .mbUnpack 0 [] [],
    .mbPack 0 [] [], .mbSend 0 0, .drillTick 0 ⟨[], []⟩, .deadlineTimeout 0 0 [], .mdtDeferralEnd 0 0, .repetitionDue 0 0,
    .periodicSend 0 0, .linPull 0 0 [] [], .canModeWrite 0 0 0 0, .busIntegration 0 0,
    .canFrameReceived 0 0 false false false false false 0 [], .canRxError 0 0 0 false 0 0, .objReq 0 0 0, .objCancel 0 0 0,
    .objNewReturn 0 0 0, .canRouterFill 0 0, .canTxSelection 0 0, .canArbLoss 0 0, .canTxError 0 0 0 false false false 0 none,
    .canTxDone 0 0 none, .busOffRecovered 0 0, .trxStatusReport 0 0 false false false false,
    .transceiverModeCommand 0 0 false false, .heartbeatWord 0, .linSlotStart 0 0, .linHeaderReceived 0 0 0 none,
    .linResponseReceived 0 0 [] 0, .linResponseTimeout 0 0 false, .linRoutedFill 0 0, .linBufReadySet 0 0 0 0,
    .linSchedSwitch 0 0 0, .linWakePulse 0 0, .linWakeWaitExpiry 0 0, .linIdle 0 0, .linkDown 0 0, .linkUp 0 0 0 false 0,
    .ethFrameReceived 0 0 false [] 0 0 false false false, .macControlFrame 0 0 [] ]
theorem test_wf_good_0 : goodCommands0.all (fun i => i.wf == true) = true := by decide +kernel
def goodCommands1 : List Instr :=
  [ .pauseTimerExpiry 0 0 0, .ethFrameSent 0 0 0 false, .pauseRefresh 0 0, .collision 0 0 false, .backoffExpiry 0 0,
    .t1sForcedJam 0 0, .plcaTransmitOpportunity 0 0 false, .timeStep 0 0, .wakeEvent 0 0, .wakeInEdge 0 0 false 0,
    .clRequest 0 0 0, .clRelease 0 0 0, .repeatExpiry 0 0, .nmTimerExpiry 0 0, .nmCycle 0 0, .waitExpiry 0 0, .sleepCommit 0 0,
    .falseWakeWindowExpiry 0 0, .fwHourPeriod 0, .keepawakeFlag 0 0, .heartbeatLapse 0 0, .powerVoteWithdraw 0 0,
    .regionPark 0 0, .regionUnpark 0 0, .laneDispatch 0, .secocGenerate 0 0 0, .secocVerify 0 0 0, .macsecProtect 0 0 0,
    .macsecReceive 0 0 0, .laneSelftestDone 0 0 false, .entropyHealthFail 0 0, .entropyStartupDone ⟨0, 0⟩, .drbgReseed 0 0,
    .drbgOutRead 0 0, .lcGo 0 0 false, .keyGenerate 0 0, .keyDerive 0 ⟨0, 0⟩, .keyErase 0 0, .keyInfo 0 0, .cvStart 0 0 0,
    .cvAbort 0 0 0, .cvDataWrite 0 0 0 0, .countedFault 0 0 0 0 0 false, .rowTestEnd 0 0 0 false, .hubReclaim 0 0,
    .operMinute 0, .handshakeStall 0 0, .paceWindow 0 0 0, .monitorSample 0 0 0 0, .monSnap 0 0 0 false,
    .monConfigWrite 0 0 0 false 0, .updateHeaderBlock 0 [] 0, .updateBodyBlock 0 1 [] 0, .updVerify 0 ⟨0, 0⟩,
    .updActivate 0 0 false 0, .updConfirm 0 0, .updReject 0 ⟨0, 0⟩, .trialTimerExpiry ⟨0, 0⟩, .trialMinute 0, .updAbandon 0 0,
    .updEpoch 0 0, .setRead 0 ⟨0, 0⟩, .setWrite 0 0 false, .setDelete 0 0, .tailWrite 0 0 false 0 0,
    .htxDescriptor 0 0 0 false 0 [] false 0, .hostqStallExpiry 0 0, .lateCompletion 0 0, .hrxDeliver 0 0 0 0,
    .msixHoldoffEnd 0 0, .ebderLinkTrained 0 0 0, .idClashRetry 0 0 0, .ebderFrameReceived 0 0 [], .ebderAck 0 0 0,
    .ebderNak 0 0 0, .ebderCredit 0 0 0 0 0, .replayTimeout 0 0, .linkRetrain 0 0 false, .relayWaitExpiry 0 0,
    .remoteAccess 0 0 0 false 0 0 false, .regReqReceived 0 0 0 0 false 0 0, .regRspReceived 0 0 0 0 0, .remoteAccessTimeout 0 0,
    .intFrameReceived 0 0, .leaseGrant 0 false 0 0 0, .leaseExpiry 0, .guardExpiry 0, .pairHandover 0 0, .pairFrameSend 0,
    .pairFrameReceived 0 0 false 0 0 ]
theorem test_wf_good_1 : goodCommands1.all (fun i => i.wf == true) = true := by decide +kernel
def goodCommands2 : List Instr :=
  [ .contactTimeout 0, .reclaimHoldExpiry 0, .reclaimReceived 0, .mirrorReceived 0 0 0 0 0, .leaseOutToggle 0, .vbatPowerOn 0,
    .vbatPowerOff 0, .coreSupplyGood 0 goodBoot, .pgoodTimeout 0 0, .voteRetry 0 0, .pwrWarm 0 0 goodBoot,
    .pwrStandby 0 0 false, .autoStandbyExpiry 0, .standbyPagesStopped 0, .standbyHoldExpiry 0 goodBoot, .brownOut 0 0,
    .refclkLoss 0, .perstAssert 0, .coreSupplyRemoved 0, .perstRelease 0, .pcieLinkUp 0, .pcieLinkDown 0,
    .refclkRestored 0 goodBoot, .keySaveDone 0, .healthyRestored 0, .nmSourceHolding 0 0, .speedDuplexChange 0 0 0 false ]
theorem test_wf_good_2 : goodCommands2.all (fun i => i.wf == true) = true := by decide +kernel
def badCommands0 : List Instr :=
  [ .registerWrite 0 128 0 0 false, .registerWrite 0 0 0x1000000 0 false, .registerWrite 0 0 0 0x1000000 false,
    .pageRun 0 128 0, .pageRun 0 0 0x8B0004, .pageRun 0 0 0x1000000, .pageStop 0 128 0, .pageStop 0 0 0x8B0004,
    .pageStop 0 0 0x1000000, .pageRestart 0 128 0, .pageRestart 0 0 0x8B0004, .pageRestart 0 0 0x1000000,
    .itemBoundary 0 0x8B0004, .itemBoundary 0 0x1000000, .mbxSnap 0 128 0, .mbxSnap 0 0 4, .mbxSnapclr 0 128 0,
    .mbxSnapclr 0 0 4, .mbxCommit 0 128 0, .mbxCommit 0 0 4, .mbxDataRead 0 128 0 0, .mbxDataRead 0 0 4 0,
    .mbxDataRead 0 0 0 11, .cfgOpen 0 128, .cfgClose 0 128, .furrowCommit 0 0x8B0004 [] false,
    .furrowCommit 0 0x1000000 [] false, .furrowCommit 0 0 [0x1000000] false, .furrowRewind 0 0x8B0004 [],
    .furrowRewind 0 0x1000000 [], .furrowRewind 0 0 [0x1000000], .furrowWordRead 0 0x8B0004 [] false,
    .furrowWordRead 0 0x1000000 [] false, .furrowWordRead 0 0 [0x1000000] false, .furHwmWrite 0 128 0 0,
    .furHwmWrite 0 0 0x8B0004 0, .furHwmWrite 0 0 0x1000000 0, .furHwmWrite 0 0 0 0x1000000, .furPop 0 128 0,
    .furPop 0 0 0x8B0004, .furPop 0 0 0x1000000, .popGuardExpiry 0 128 0, .popGuardExpiry 0 0 0x8B0004,
    .popGuardExpiry 0 0 0x1000000, .pipelineItem 0 144 [], .admission 0 5, .plotCharge 0 144 false [0],
    .plotCharge 0 0 false [], .plotCharge 0 0 false (List.replicate 97 0), .egressSelect 0 144, .copyAgeExpiry 0 144,
    .cutThroughStart 0 144, .gateCycleStart 0 20, .gateEntryEnd 0 20, .reseqItemArrival 0 1024 0 false 0 [],
    .reseqItemArrival 0 0 65536 false 0 [], .reseqItemArrival 0 0 0 false 0 [144], .reseqVoid 0 1024 0 false,
    .reseqVoid 0 0 65536 false, .rsqGapExpiry 0 1024, .rsqReset 0 128, .outputDown 0 144, .holdExpiry 0 144, .outputUp 0 144,
    .stuckExpiry 0 144, .tpRead 0 128 0, .tpRead 0 0 0x8B0004, .tpRead 0 0 0x1000000, .tpWrite 0 128 0, .tpWrite 0 0 0x8B0004,
    .tpWrite 0 0 0x1000000, .tpInval 0 128 0, .tpInval 0 0 0x8B0004, .tpInval 0 0 0x1000000, .tpHash 0 128 0,
    .tpHash 0 0 0x8B0004, .tpHash 0 0 0x1000000, .tablePendingTimeout 0 0x8B0004 0 0, .tablePendingTimeout 0 0x1000000 0 0,
    .tablePendingTimeout 0 0 16 0, .learnApply 0 4, .pinEnd 0 4 0, .pinEnd 0 0 256, .unpinAll 0 128 0, .unpinAll 0 0 4,
    .lrnFlush 0 128 0, .lrnFlush 0 0 4, .ageingVisit 0 4, .harrowCompare 0 6 false false false,
    .harrowFlagJudge 0 6 false false false ]
theorem test_wf_bad_0 : badCommands0.all (fun i => i.wf == false) = true := by decide +kernel
def badCommands1 : List Instr :=
  [ .ssWrite 0 128, .mbSend 0 128, .deadlineTimeout 0 32768 [], .mdtDeferralEnd 0 16384, .repetitionDue 0 16384,
    .periodicSend 0 16384, .linPull 0 24 [] [], .canModeWrite 0 128 0 0, .canModeWrite 0 0 64 0, .canModeWrite 0 0 0 0x1000000,
    .busIntegration 0 64, .canFrameReceived 0 64 false false false false false 0 [],
    .canFrameReceived 0 0 false false false false false (2 ^ 29) [],
    .canFrameReceived 0 0 false false false false false 0 (List.replicate 65 0), .canRxError 0 64 0 false 0 0,
    .canRxError 0 0 8 false 0 0, .objReq 0 64 0, .objReq 0 0 96, .objCancel 0 64 0, .objCancel 0 0 96, .objNewReturn 0 64 0,
    .objNewReturn 0 0 96, .canRouterFill 0 64, .canTxSelection 0 64, .canArbLoss 0 64,
    .canTxError 0 64 0 false false false 0 none, .canTxError 0 0 8 false false false 0 none, .canTxDone 0 64 none,
    .busOffRecovered 0 64, .trxStatusReport 0 104 false false false false, .transceiverModeCommand 0 104 false false,
    .linSlotStart 0 24, .linHeaderReceived 0 24 0 none, .linHeaderReceived 0 0 0 (some 256), .linResponseReceived 0 24 [] 0,
    .linResponseReceived 0 0 (List.replicate 10 0) 0, .linResponseReceived 0 0 [] 3, .linResponseTimeout 0 24 false,
    .linRoutedFill 0 24, .linBufReadySet 0 128 0 0, .linBufReadySet 0 0 24 0, .linBufReadySet 0 0 0 64, .linSchedSwitch 0 128 0,
    .linSchedSwitch 0 0 24, .linWakePulse 0 24, .linWakeWaitExpiry 0 24, .linIdle 0 24, .linkDown 0 124,
    .linkUp 0 124 0 false 0, .ethFrameReceived 0 124 false [] 0 0 false false false, .macControlFrame 0 124 [],
    .pauseTimerExpiry 0 124 0, .pauseTimerExpiry 0 0 8, .ethFrameSent 0 124 0 false, .pauseRefresh 0 124,
    .collision 0 124 false, .backoffExpiry 0 124, .t1sForcedJam 0 124, .plcaTransmitOpportunity 0 124 false, .timeStep 0 128,
    .wakeEvent 0 104, .wakeInEdge 0 4 false 0, .clRequest 0 128 0, .clRequest 0 0 32, .clRelease 0 128 0, .clRelease 0 0 32,
    .repeatExpiry 0 32, .nmTimerExpiry 0 32, .nmCycle 0 32, .waitExpiry 0 32, .sleepCommit 0 32, .falseWakeWindowExpiry 0 104,
    .keepawakeFlag 0 256, .heartbeatLapse 0 2, .powerVoteWithdraw 0 2, .regionPark 0 4, .regionUnpark 0 4,
    .secocGenerate 0 16 0, .secocGenerate 0 0 5, .secocVerify 0 16 0, .secocVerify 0 0 5, .macsecProtect 0 16 0,
    .macsecProtect 0 0 6, .macsecReceive 0 16 0, .macsecReceive 0 0 7, .entropyHealthFail 0 (2 ^ 1024),
    .entropyStartupDone ⟨0, 2 ^ 1024⟩, .laneSelftestDone 0 16 false, .drbgReseed 0 128,
    .drbgOutRead 0 128, .lcGo 0 128 false, .keyGenerate 0 128 ]
theorem test_wf_bad_1 : badCommands1.all (fun i => i.wf == false) = true := by decide +kernel
def badCommands2 : List Instr :=
  [ .keyDerive 0 ⟨128, 0⟩, .keyDerive 0 ⟨0, 2⟩, .keyErase 0 128, .keyInfo 0 128, .cvStart 0 128 0, .cvStart 0 0 4, .cvAbort 0 128 0, .cvAbort 0 0 4,
    .cvDataWrite 0 128 0 0, .cvDataWrite 0 0 4 0, .cvDataWrite 0 0 0 0x1000000, .countedFault 0 0x8B0004 0 0 0 false,
    .countedFault 0 0x1000000 0 0 0 false, .countedFault 0 0 0 256 0 false, .countedFault 0 0 0 0 256 false,
    .rowTestEnd 0 0x8B0004 0 false, .rowTestEnd 0 0x1000000 0 false, .hubReclaim 0 128, .handshakeStall 0 0x8B0004,
    .handshakeStall 0 0x1000000, .paceWindow 0 5 0, .monitorSample 0 8 0 0, .monitorSample 0 0 32 0, .monitorSample 0 0 0 16,
    .monSnap 0 128 0 false, .monSnap 0 0 0x8B0004 false, .monSnap 0 0 0x1000000 false,
    .monConfigWrite 0 128 0 false 0, .monConfigWrite 0 0 0x8B0004 false 0, .monConfigWrite 0 0 0x1000000 false 0,
    .monConfigWrite 0 0 0 false 0x1000000, .updateBodyBlock 0 0x1000000 [] 0, .updateBodyBlock 0 0 [] 0,
    .updVerify 0 ⟨128, 0⟩, .updVerify 0 ⟨0, 2⟩, .updActivate 0 128 false 0, .updActivate 0 0 false 3, .updConfirm 0 128, .updReject 0 ⟨128, 0⟩, .updReject 0 ⟨0, 3⟩, .trialTimerExpiry ⟨0, 3⟩,
    .updAbandon 0 128, .updEpoch 0 128, .setRead 0 ⟨128, 0⟩, .setRead 0 ⟨0, 2⟩, .setWrite 0 128 false, .setDelete 0 128, .tailWrite 0 128 false 0 0,
    .tailWrite 0 0 false 16 0, .tailWrite 0 0 false 0 0x1000000, .htxDescriptor 0 16 0 false 0 [] false 0,
    .htxDescriptor 0 0 4 false 0 [] false 0, .hostqStallExpiry 0 16, .lateCompletion 0 16, .hrxDeliver 0 16 0 0,
    .msixHoldoffEnd 0 16, .ebderLinkTrained 0 2 0, .ebderLinkTrained 0 0 64, .idClashRetry 0 2 0, .idClashRetry 0 0 64,
    .ebderFrameReceived 0 2 [], .ebderAck 0 2 0, .ebderAck 0 0 0x1000000, .ebderNak 0 2 0, .ebderNak 0 0 0x1000000,
    .ebderCredit 0 2 0 0 0, .ebderCredit 0 0 3 0 0, .ebderCredit 0 0 0 8 0, .ebderCredit 0 0 0 0 0x1000000, .replayTimeout 0 2,
    .linkRetrain 0 2 false, .relayWaitExpiry 0 2, .remoteAccess 0 2 0 false 0 0 false, .remoteAccess 0 0 64 false 0 0 false,
    .remoteAccess 0 0 0 false 0x1000000 0 false, .remoteAccess 0 0 0 false 0 0x1000000 false,
    .regReqReceived 0 64 0 0 false 0 0, .regReqReceived 0 0 2 0 false 0 0, .regReqReceived 0 0 0 256 false 0 0,
    .regReqReceived 0 0 0 0 false 0x1000000 0, .regReqReceived 0 0 0 0 false 0 0x1000000, .regRspReceived 0 64 0 0 0,
    .regRspReceived 0 0 256 0 0, .regRspReceived 0 0 0 256 0, .regRspReceived 0 0 0 0 0x1000000, .remoteAccessTimeout 0 256,
    .intFrameReceived 0 64, .leaseGrant 0 false 0 0 128, .pairHandover 0 128, .pairFrameReceived 0 8 false 0 0,
    .pairFrameReceived 0 0 false 128 0, .pairFrameReceived 0 0 false 0 64, .mirrorReceived 0 5 0 0 0, .coreSupplyGood 0 badBoot,
    .pgoodTimeout 0 2 ]
theorem test_wf_bad_2 : badCommands2.all (fun i => i.wf == false) = true := by decide +kernel
def badCommands3 : List Instr :=
  [ .voteRetry 0 2, .pwrWarm 0 128 goodBoot, .pwrWarm 0 0 badBoot, .pwrStandby 0 128 false, .standbyHoldExpiry 0 badBoot,
    .brownOut 0 8, .refclkRestored 0 badBoot, .nmSourceHolding 0 32, .speedDuplexChange 0 124 0 false ]
theorem test_wf_bad_3 : badCommands3.all (fun i => i.wf == false) = true := by decide +kernel
/-! ## Hypotheses are met -/

theorem test_hyp_EmptyQueueIdles : State.reset.pending = [] := rfl
theorem test_hyp_CommandsAnswer : namesPresent State.reset.fuses (.mbxSnap 0 0 4) = false := by decide +kernel
theorem test_hyp_NextStateKeeps : ∃ u, exec (.operMinute 0) (up []) = .next u := ⟨_, rfl⟩
theorem test_hyp_StepKeepsStores :
    storesWf { State.reset with wide := [(5, 7)], pending := [.operMinute 0] } ∧
      ∃ u, step { State.reset with wide := [(5, 7)], pending := [.operMinute 0] } = .next u := by
  refine ⟨⟨⟨rfl, by simp [State.reset]⟩, ⟨rfl, by simp⟩, ⟨rfl, by simp [State.reset]⟩, ⟨rfl, by simp [State.reset]⟩, rfl⟩, _, rfl⟩
theorem test_hyp_EpochAndLifeCycle : ∃ u, step { up [] with pending := [.lcGo 0 0 true] } = .next u := ⟨_, rfl⟩
theorem test_hyp_EventsNeedTheCore :
    isEvent (.operMinute 0) = true ∧ coreUp State.reset = false := by
  decide +kernel
theorem test_hyp_OwnStateOnly :
    pf0Reaches (advance (up []) 0) 0 keyPage ∧ bit (up []) (secPage + 0x40) 0 = false ∧ mapGet? (up []).cmds keyCmd = none ∧
      coreUp (up []) = true ∧ 0x891000 % 0x1000 = 0 ∧ kindOf (up []).fuses 0x891000 = 0x11 ∧ pf0Reaches (advance (up []) 0) 0 0x891000 ∧
      macPresent (up []).fuses (104 + 0) = true ∧ mustYield (advance (up []) 0) (.backoffExpiry 0 (104 + 0)) = false ∧
      (up []).turn = none ∧ pf0Reaches (advance (up []) 0) 0 timePage := by
  unfold pf0Reaches; decide +kernel
theorem test_hyp_RegistersAndFields : 3 ≤ 5 ∧ 5 < 24 ∧ (6 < 8 ∧ 8 ≤ 23 ∨ 5 < 6) ∧ hubPage + 4 ≠ hubPage := by decide
/-- ACTIVE, with a pop of requester 0 that stalls at the learn page. -/
def stalledState : State := { up [] with stalled := [{ page := learnPage 0, requester := 0, guardEnd := 9 }] }
/-- ACTIVE, with region 0 parked. -/
def parkedState : State := up [(wakePage 0 + 0x44, 0x800000)]
theorem test_hyp_RegisterWrite :
    pf0Reaches (advance (up []) 0) 0 (hubPage + 8) ∧ (hubPage + 8) % 4 = 0 ∧ (fieldsAt (up []).fuses (hubPage + 8)).isEmpty = false ∧
      mustYield (advance (up []) 0) (.registerWrite 0 0 (hubPage + 8) 5 true) = false ∧
      waitsParked (advance (up []) 0) (hubPage + 8) (5 % 2 ^ 24) = false ∧
      pf0Reaches (advance parkedState 0) 0 (lkpTable 0 + 0x44) ∧ mustYield (advance parkedState 0) (.registerWrite 0 0 (lkpTable 0 + 0x44) 1 true) = false ∧
      waitsParked (advance parkedState 0) (lkpTable 0 + 0x44) (1 % 2 ^ 24) = true ∧ (fieldsAt parkedState.fuses (lkpTable 0 + 0x44)).isEmpty = false ∧
      bootReach (advance (up []) 0) (hubPage + 8) = true ∧ holdsUp (up []) 0 = false ∧
      mustYield (advance (up []) 0) (.registerWrite 0 0 (hubPage + 8 + 1) 5 false) = false ∧
      holdsUp stalledState 0 = true ∧ answers (advance stalledState 0) (hubPage + 8) = true ∧
      mustYield (advance stalledState 0) (.registerWrite 0 0 (hubPage + 8) 5 true) = false ∧
      bootReach (advance State.reset 0) (canPage 0) = false ∧ (fieldsAt (up []).fuses 0xF00000).isEmpty = true := by
  unfold pf0Reaches; decide +kernel
theorem test_hyp_SoftwareCommands :
    (registerWriteOf State.reset.fuses (.mbxSnap 0 0 0)).isSome = true ∧ namesPresent State.reset.fuses (.mbxSnap 0 0 0) = true ∧
      (registerWriteOf State.reset.fuses (.mbxSnap 0 0 0)).all (fun w =>
        !(mustYield (advance State.reset w.moment) (.mbxSnap 0 0 0)) &&
          !(mustYield (advance State.reset w.moment) (.registerWrite w.moment w.req w.addr w.value true))) = true := by
  decide +kernel
theorem test_hyp_PageTriggers :
    hubPage % 0x1000 = 0 ∧ kindOf (up []).fuses hubPage ≠ 0 ∧ kindOf (up []).fuses hubPage ≠ 0x46 ∧
      pf0Reaches (advance (up []) 0) 0 hubPage ∧ coreUp (up []) = true ∧ kindOf (up []).fuses (cvPage 2) = 0x46 := by
  unfold pf0Reaches; decide +kernel
/-- ACTIVE, with a command of a command register under way until the moment 9. -/
def busyAt (a : Nat) : State := { up [] with cmds := [(a, { bits := 1, doneAt := 9, puts := [] })] }
theorem test_hyp_Mailbox :
    pf0Reaches (advance (up []) 0) 0 (mbxPage 3) ∧ cmdBusy (advance (up []) 0) (mbxCmd 3) = false ∧
      pf0Reaches (advance (busyAt (mbxCmd 3)) 0) 0 (mbxPage 3) ∧ cmdBusy (advance (busyAt (mbxCmd 3)) 0) (mbxCmd 3) = true ∧
      (busyAt (mbxCmd 3)).remoteIn = [] ∧ bootReach (advance (busyAt (mbxCmd 3)) 0) (mbxPage 3) = true ∧
      holdsUp (busyAt (mbxCmd 3)) 0 = false ∧ holdsUp (up []) 0 = false ∧
      mapGet? (busyAt (mbxCmd 3)).cmds (mbxCmd 3) = some { bits := 1, doneAt := 9, puts := [] } ∧
      (advance (busyAt (mbxCmd 3)) 0).now ≤ 9 ∧ mapGet? (up []).cmds (mbxCmd 3) = none ∧ bootReach (advance (up []) 0) (mbxPage 3) = true ∧ (up []).remoteIn = [] ∧
      1 = fld (up [(mbxPage 3 + 0x48, 0x1000)]) (mbxPage 3 + 0x48) 15 12 := by
  unfold pf0Reaches; decide +kernel
theorem test_hyp_ConfigurationCheck :
    pf0Reaches (advance (up []) 0) 0 cfgPage ∧ bit (up []) (cfgPage + 0x44) 0 = false ∧ running (up (on cfgPage)) cfgPage = true ∧
      (advance (up []) 300000000).now - (up []).cfg.openedAt > windowMax (up []) := by
  unfold pf0Reaches; decide +kernel

def furrow0 : Furrow := { items := [[5], [6]], openWords := [7], taken := 0, openTaken := 0, marker := false, failed := false, waits := [] }
def furState (f : Furrow) : State := { up [] with furrows := [(learnPage 0, f)] }
theorem test_hyp_Furrow :
    coreUp (furState furrow0) = true ∧ hasFurrow (furState furrow0) (learnPage 0) = true ∧
      (getFur (furState furrow0) (learnPage 0)).openWords.map furData ++ [1] ≠ [] ∧
      furWords (getFur (furState furrow0) (learnPage 0)) + [1].length ≤ furCap (kindOf (up []).fuses (learnPage 0)) (learnPage 0) ∧
      furCap (kindOf (up []).fuses (learnPage 0)) (learnPage 0) <
        furWords (getFur (furState furrow0) (learnPage 0)) + (List.replicate 4096 1).length ∧
      islandIn (kindOf (up []).fuses (learnPage 0)) = false ∧ kindOf (up []).fuses (learnPage 0) ≠ 0x09 ∧
      (getFur (furState { furrow0 with marker := true }) (learnPage 0)).marker = true ∧
      (getFur (furState furrow0) (learnPage 0)).marker = false ∧ (getFur (furState furrow0) (learnPage 0)).items = [5] :: [[6]] ∧
      mbPage % 0x1000 = 0 ∧ furGroup (kindOf (up []).fuses mbPage) = some 0x100 ∧ cmdSlot (kindOf (up []).fuses mbPage) = none ∧
      pf0Reaches (advance (up []) 0) 0 mbPage ∧ hwMoved (advance (up []) 0) (mbPage + 0x100 + 0xC) 23 0 = false ∧
      hwMoved (advance { up [(mbPage + 0x100 + 0xC, 4)] with regsAt := [] } 0) (mbPage + 0x100 + 0xC) 23 0 = true ∧
      pf0Reaches (advance { up [(mbPage + 0x100 + 0xC, 4)] with regsAt := [] } 0) 0 mbPage ∧ learnPage 0 % 0x1000 = 0 ∧
      hasPop (up []) (learnPage 0) = true ∧ bootReach (advance (up []) 0) (learnPage 0) = true ∧ holdsUp (up []) 0 = false ∧
      (getFur (up []) (learnPage 0)).items = [] ∧ (getFur (furState furrow0) (learnPage 0)).items ≠ [] ∧
      bootReach (advance (furState furrow0) 0) (learnPage 0) = true ∧ holdsUp (furState furrow0) 0 = false := by
  unfold pf0Reaches; decide +kernel
theorem test_hyp_FurrowGuard :
    coreUp stalledState = true ∧ hasPop stalledState (learnPage 0) = true ∧
      stalledState.stalled = [{ page := learnPage 0, requester := 0, guardEnd := 9 }] ∧ 9 ≤ (advance stalledState 9).now ∧
      mustYield (advance stalledState 9) (.popGuardExpiry 9 0 (learnPage 0)) = false ∧
      mustYield (advance (queued stalledState (.furrowCommit 9 (learnPage 0) [1] false)) 9) (.popGuardExpiry 9 0 (learnPage 0)) =
        true := by
  decide +kernel

def verdict0 : Verdict :=
  { input := 104, frame := none, kind := .eth, bytes := [], cls := 0, poison := false, copies := [], seqNo := none, ingressNs := 0, cameAt := 0,
    tag := 0, srcDev := 0 }
def frameState (f : Frame) (q : NMap (List Copy)) (l : List (Nat × Nat)) : State := { up l with frames := [(0, f)], outQ := q }
/-- A verdict at the head of region 0. -/
def admState (v : Verdict) : State := { up (on admPage) with verdicts := [(0, [v])] }
/-- One copy more than the entries that the queues leave free, toward the held copies of an input with headroom, at its moment. -/
def wideVerdict : Verdict := { verdict0 with copies := [(0, plainForm)] }
def fullState (n : Nat) : State :=
  advance { up ((admRes 104, 0x3000) :: on admPage) with
    outQ := [(104, List.replicate n copy0)], verdicts := [(0, [wideVerdict])] } 0
theorem full_free (n : Nat) : entriesFree (fullState n) = 262144 - n := by
  simp [entriesFree, entriesUsed, fullState, advance, up, mk, State.reset]
theorem full_room (n : Nat) :
    takesBp (fullState n) 104 = true ∧ areaUse (fullState n) 104 .hr = 0 ∧ headroomOf (fullState n) 104 = 3 := by
  have e : headroomOf (fullState n) 104 = headroomOf (fullState 0) 104 := rfl
  exact ⟨rfl, rfl, e.trans (by decide +kernel)⟩
theorem test_hyp_EntriesShort (n : Nat) (h : 262144 ≤ n) :
    mapGet [] (fullState n).verdicts 0 = wideVerdict :: [] ∧ mustYield (fullState n) (.admission 0 0) = false ∧
      entriesShort (fullState n) wideVerdict = true := by
  refine ⟨rfl, rfl, ?_⟩
  obtain ⟨h1, h2, h3⟩ := full_room n
  have h4 : 262144 - n = 0 := by omega
  have h5 : pairState (fullState n) = 0 := (rfl : _ = pairState (fullState 0)).trans (by decide +kernel)
  simp [entriesShort, takenCopies, full_free, h4, h5, wideVerdict, verdict0, plotsFor, h1, h2, h3]
theorem test_hyp_AdmissionAndPlots :
    coreUp (admState verdict0) = true ∧ mustYield (advance (queued (up []) (.plotFree 0 0)) 0) (.admission 0 0) = true ∧
      mustYield (advance (admState verdict0) 0) (.admission 0 0) = false ∧
      mapGet [] (advance (admState verdict0) 0).verdicts 0 = verdict0 :: [] ∧ running (advance (admState verdict0) 0) admPage = true ∧
      entriesShort (advance (admState verdict0) 0) verdict0 = false ∧
      mustYield (advance (up []) 0) (.plotCharge 0 104 true [0]) = false ∧ portPresent (up []).fuses 137 = true ∧
      mustYield (advance (up []) 0) (.plotCharge 0 137 true [0]) = false ∧ mustYield (advance (up []) 0) (.plotCharge 0 125 true [0]) = false ∧
      portPresent (up []).fuses 128 = true ∧ portPresent (up []).fuses (124 + 1) = true ∧ portPresent (up []).fuses 104 = true ∧
      mustYield (advance (queued (up []) (.plotFree 0 0)) 0) (.plotCharge 0 104 true [0]) = true ∧ plotInput (up []) 104 = true ∧
      hasFrame (frameState frame0 [] []) 0 = true ∧ (getFrame (frameState frame0 [] []) 0).judged = true ∧
      outstanding (frameState frame0 [] []) 0 = false ∧
      heldCopies (frameState frame0 [(104, [copy0])] [(egrPort 104, 0x1000)]) 0 = true ∧
      liveCopies (frameState frame0 [(104, [copy0])] [(egrPort 104, 0x1000)]) 0 = false := by
  decide +kernel
def cutCopy : Copy := { copy0 with cut := true, form := { plainForm with bridged := true } }
def cutState : State :=
  { frameState { frame0 with committed := false, plots := List.replicate 2 { bank := 0, row := 0, area := .sh } } [(104, [cutCopy])]
      ([(ethLink 104, 0x800000), (egrPort 104, 0x401)] ++ on (macPage 104) ++ on egrPage) with rrInput := [(832, 0)] }
/-- A copy queued at a CAN output and at a host ring. -/
def selState : State :=
  { frameState frame0 [(0, [copy0]), (137, [copy0])]
      ([(pciePage + 0x40, 0x800000), (rxRing 9, 0x860000), (rxRing 9 + 0xC, 3), (objAddr 0 0 0, 0xE00000)] ++ on egrPage ++
        on (canPage 0) ++ on (hrxPage 9)) with
    can := [(0, { noCan with joined := true })], trxMode := [(0, 0)], rrInput := [(0, 0), (1096, 0)] }
/-- The time-stamp queue of port 104 full, with its SNAPCLR at mailbox 0 waiting. -/
def fullTsState : State :=
  { queued (up [(mbxPage 0 + 0x40, macPage 104 + 0x74)]) (.mbxSnapclr 0 0 0) with
    mac := [(104, { noMac with tsq := List.replicate 64 { time := 0, failed := false, tag := 0, flying := false } })] }
theorem test_hyp_Selections :
    portPresent (up []).fuses 0 = true ∧ mapGet? (up (on egrPage)).inFlight 0 = none ∧ running (up (on egrPage)) egrPage = true ∧
      mustYield (advance (up (on egrPage)) 0) (.egressSelect 0 0) = false ∧ egrStops (up (on egrPage)) = false ∧
      mapGet? (selectAt (advance (up (on egrPage)) 0) 0).inFlight 0 = none ∧
      (mapGet? (selectAt (advance selState 0) 0).inFlight 0).isSome = true ∧
      (mapGet? (selectAt (advance selState 0) 137).inFlight 137).isSome = true ∧ running selState egrPage = true ∧
      running (up []) egrPage = false ∧ (mapGet? ({ up [] with inFlight := [(0, copy0)] } : State).inFlight 0).isSome = true ∧
      egrStops { up (on egrPage) with trigQ := [(egrPage, [.stop])] } = true ∧
      mapGet? ({ up [] with inFlight := [(0, copy0)] } : State).inFlight 0 = some copy0 ∧
      coreUp cutState = true ∧ portPresent cutState.fuses 104 = true ∧ mustYield (advance cutState 0) (.cutThroughStart 0 104) = false ∧
      mapGet? (egressSelect (advance cutState 0) 104).inFlight 104 = some cutCopy ∧ cutCopy.cut = true ∧
      mustYield (advance fullTsState 0) (.egressSelect 0 104) = true ∧ outState (up []) 0 = 0 := by
  decide +kernel

def run0 : GateRun :=
  { list := 0, entry := 0, began := 0, interval := 300, cycleBegan := 0, gates := 255, started := true, cycle := 1000, offset := 0 }
def gateState : State :=
  { up [(gateCtrl 0, 1)] with
    timeFine := 400 * 2 ^ 32, gateRun := [(0, run0)], tables := [(tKey gateTable 0 0 1, entry [0xFF, 500])] }
theorem test_hyp_Gate :
    coreUp gateState = true ∧ macPresent gateState.fuses (104 + 0) = true ∧ bit gateState (gateCtrl 0) 0 = true ∧
      mapGet? gateState.gateRun 0 = some run0 ∧
      entryAfter (advance gateState 0) 0 run0 =
        some { run0 with entry := 1, began := 300, interval := 500 } ∧ 300 ≤ timeNs (advance gateState 0) ∧
      gateDue (advance gateState 0) 0 = none ∧
      gateDue (advance { gateState with timeFine := 1003 * 2 ^ 32 } 0) 0 = some 1000 := by
  decide +kernel
theorem test_hyp_Resequencer :
    hasFrame (frameState frame0 [] []) 0 = true ∧ mustYield (advance (up []) 0) (.reseqVoid 0 3 0 false) = false ∧
      (getStream { up [] with streams := [(3, { emptyStream with gapRuns := true })] } 3).gapRuns = true ∧
      (getStream { up [] with streams := [(3, { emptyStream with gapRuns := true })] } 3).gapFrom + gapTime (up []) ≤
        (advance { up [] with streams := [(3, { emptyStream with gapRuns := true })] } 300000).now ∧
      mustYield (advance (up []) 9) (.rsqGapExpiry 9 3) = false ∧
      mustYield (advance (queued (up []) (.reseqVoid 9 3 0 false)) 9) (.rsqGapExpiry 9 3) = true ∧
      pf0Reaches (advance (up []) 0) 0 rsqPage := by
  unfold pf0Reaches; decide +kernel
def stuckState : State := { up [(egrPage + 0x40, 5)] with outQ := [(104, [copy0])], stuckSince := [(104, 0)] }
theorem test_hyp_OutputStates :
    portPresent (up []).fuses 104 = true ∧ downCond (up []) 104 = true ∧
      downCond (up ((ethLink 104, 0x800000) :: on (macPage 104))) 104 = false ∧ outState (up [(egrPort 104, 0x1000)]) 104 = 1 ∧
      (advance (up [(egrPort 104, 0x1000)]) 300000000).now - mapGet 0 (up []).downSince 104 ≥ holdTime (up [(egrPort 104, 0x1000)]) 104 ∧
      mapGet? stuckState.stuckSince 104 = some 0 ∧ outQueue stuckState 104 ≠ [] ∧ fld stuckState (egrPage + 0x40) 9 0 ≠ 0 ∧
      (advance stuckState 300000000).now - 0 > msTicks (min 1000 (fld stuckState (egrPage + 0x40) 9 0)) ∧
      mustYield (advance stuckState 300000000) (.stuckExpiry 300000000 104) = false ∧
      mustYield (advance (up []) 9) (.holdExpiry 9 104) = false ∧
      mustYield (advance (queued (up []) (.outputUp 9 104)) 9) (.holdExpiry 9 104) = true := by
  decide +kernel
def tp0 : TPend := { copy := 0, since := 0, recorded := false }
def tpState : State := { up [] with tpend := [(tKey 0x84F000 3 0 7, tp0)] }
/-- The hash table of region 0 selected at a candidate slot of the learn request that waits to be applied. -/
def appliedState : State :=
  { queued (up [(lkpTable 0 + 0x40, 0x100000 + candidate true (bridgeKey 1 1) 0)]) (.learnApply 0 0) with
    learnQ := [(0, [{ mac := 1, vid := 1, port := 104 }])] }
theorem test_hyp_LookupAndTablePort :
    coreUp (up []) = true ∧ portPresent (up []).fuses 104 = true ∧ mapGet [] (up []).heads (inputCell 104) = [] ∧ 0x84F000 % 0x1000 = 0 ∧
      mustYield (advance (up []) 0) (.tpRead 0 0 0x84F000) = false ∧ pageParked (up []) 0x84F000 = false ∧
      cmdBusy (atPage (up []) 0 0x84F000) (0x84F000 + 0x44) = false ∧ pageParked parkedState (lkpTable 0) = true ∧
      cmdBusy (advance parkedState 0) (lkpTable 0 + 0x44) = false ∧ pf0Reaches (advance parkedState 0) 0 (lkpTable 0) ∧
      mustYield (advance parkedState 0) (.tpHash 0 0 (lkpTable 0)) = false ∧
      cmdBusy (advance (busyAt 0x84F044) 0) (0x84F000 + 0x44) = true ∧ cmdBusy (atPage (busyAt 0x84F044) 0 0x84F000) (0x84F000 + 0x44) = true ∧
      pf0Reaches (advance (busyAt 0x84F044) 0) 0 0x84F000 ∧ kindOf (up []).fuses 0x84F000 = 0x1F ∧
      mustYield (advance appliedState 0) (.tpWrite 0 0 (lkpTable 0)) = true ∧ pf0Reaches (advance appliedState 0) 0 (lkpTable 0) ∧
      kindOf appliedState.fuses (lkpTable 0) = 0x1F ∧ lkpTable 0 % 0x1000 = 0 ∧
      pf0Reaches (advance (up []) 0) 0 0x84F000 ∧ mapGet? tpState.tpend (tKey 0x84F000 3 0 7) = some tp0 ∧ tp0.recorded = false ∧
      (advance tpState 300000000).now - tp0.since > pendMax tpState 0x84F000 := by
  unfold pf0Reaches; decide +kernel
def tracker0 : Tracker := { mac := 1, vid := 2, count := 3, start := 0, pinned := true, pinEnd := 5 }
def learnState : State :=
  { up (on (learnPage 0)) with learnQ := [(0, [{ mac := 1, vid := 1, port := 104 }])], trackers := [(3, tracker0)] }
theorem test_hyp_Learning :
    coreUp learnState = true ∧ running learnState (learnPage 0) = true ∧ parked learnState 0 = false ∧
      mapGet [] learnState.learnQ 0 = { mac := 1, vid := 1, port := 104 } :: [] ∧
      mapGet? learnState.trackers (0 * 256 + 3) = some tracker0 ∧ tracker0.pinEnd ≤ (advance learnState 5).now ∧
      pf0Reaches (advance learnState 0) 0 (learnPage 0) ∧ mustYield (advance learnState 9) (.ageingVisit 9 0) = false ∧
      mustYield (advance (queued learnState (.learnApply 9 0)) 9) (.ageingVisit 9 0) = true := by
  unfold pf0Reaches; decide +kernel
def flagState : State := { up [] with harrowFlags := [(0, 0, 4)] }
theorem test_hyp_Harrow :
    harrowRests (advance (up []) 0) 0 (harrowAt (up []) 0).1 = false ∧ flagState.harrowFlags = [(0, 0, 4)] ∧
      harrowRests (advance flagState 0) 0 (0, 0, 4).2.1 = false := by
  decide +kernel

/-- A furrow word: its data, and whether it is poisoned. -/
def fw (poison : Bool) (d : Nat) : BitVec 28 := (furItem poison [d]).headD 0
def mbState (poison : Bool) : State :=
  { up (on mbPage) with
    furrows := [(mbPage, { furrow0 with items := [furItem poison [2, 1, 0x550000]] })], sendQ := [0] }
theorem test_hyp_SlotPort :
    bootReach (up []) ssPage = true ∧ cmdBusy (advance (up []) 0) (ssPage + 0x44) = false ∧
      262144 < ssSlot (atPage (up [(ssPage + 0x40, 0x83FFFF)]) 0 ssPage) + ssCount (atPage (up [(ssPage + 0x40, 0x83FFFF)]) 0 ssPage) ∧
      ssSlot (atPage (up []) 0 ssPage) + ssCount (atPage (up []) 0 ssPage) ≤ 262144 ∧
      cmdBusy (advance (busyAt (ssPage + 0x44)) 0) (ssPage + 0x44) = true ∧ bootReach (busyAt (ssPage + 0x44)) ssPage = true ∧
      pf0Reaches (advance (up []) 0) 0 ssPage ∧ bit (atPage (up []) 0 ssPage) (ssPage + 0x60) 0 = false := by
  unfold pf0Reaches; decide +kernel
theorem test_hyp_Mouldboard :
    coreUp (mbState true) = true ∧ pullWaits (mbState true) = false ∧ running (mbState true) mbPage = true ∧
      (bothWait (mbState true) && (mbState true).mbLast == 1) = false ∧ (bothWait (mbState false) && (mbState false).mbLast == 2) = false ∧
      (getFur (mbState false) mbPage).failed = false ∧ (getFur (mbState false) mbPage).items = furItem false [2, 1, 0x550000] :: [] ∧
      nextLayout (mbState false) = some 0 ∧
      (getFur (mbState true) mbPage).items = furItem true [2, 1, 0x550000] :: [] ∧ (furItem true [2, 1, 0x550000]).any furPoison = true ∧
      (furItem false [2, 1, 0x550000]).any furPoison = false ∧ (mbPdu (furItem false [2, 1, 0x550000])).2.1 = false ∧
      postponing (mbState false) = false ∧ tLive (mbState false) mbTable 3 0 = none ∧
      pf0Reaches (advance (mbState false) 0) 0 mbPage := by
  unfold pf0Reaches; decide +kernel

def rx0 : RxState := { noRx with deadline := 0 }
def tx0 : TxState := { noTx with deferred := true, repLeft := 1 }
def drillState : State :=
  { up (on drillPage ++ on mbPage ++ [(mbPage + 0x40, 1)]) with
    tables := [(tKey (lkpTable 0) 0 0 1, entry [0, 0, 0, 0, 0x200000, 0x60, 0]), (tKey mbTable 0 0 0, entry [0, 0x100]),
      (tKey mbTable 3 0 0, entry [0x400000, 0, 0, 0, 0x100, 0, 0, 0])]
    rxStates := [(0, rx0)], txStates := [(0, tx0)] }
theorem test_hyp_Drill :
    coreUp drillState = true ∧ running drillState drillPage = true ∧ deadlineDue drillState 0 = true ∧
      (tLive drillState mbTable 0 0).isSome = true ∧ isDirectory drillState 0 = true ∧ (getTx drillState 0).deferred = true ∧
      (getTx drillState 0).deferTo ≤ drillState.tick ∧ (tLive drillState mbTable 3 0).isSome = true ∧
      0 < (getTx drillState 0).repLeft ∧ (getTx drillState 0).repNext ≤ drillState.tick ∧ periodDue drillState 0 = true := by
  decide +kernel
def linFrame0 : LinFrame := { ident := 5, dir := 1, data := [], len := 2, event := none, pull := none, began := 0, bitNs := 50000 }
def linState (f : LinFrame) (l : List (Nat × Nat)) : State :=
  { drillState with
    regs := (up (on mbPage ++ on (linPage 0) ++ l)).regs, trxMode := [(64, 0)], lin := [(0, { noLin with frame := some f })] }
theorem test_hyp_LinPull :
    coreUp (linState { linFrame0 with pull := some 0 } []) = true ∧ linPresent (up []).fuses 0 = true ∧
      (getLin (linState { linFrame0 with pull := some 0 } []) 0).frame = some { linFrame0 with pull := some 0 } ∧
      ∃ d u, pullLayout (advance (linState { linFrame0 with pull := some 0 } []) 0) 0 [] [] = (some d, u) := by
  refine ⟨by decide +kernel, by decide +kernel, by decide +kernel, [0], _, Prod.ext ?_ rfl⟩
  decide +kernel

theorem test_hyp_CanSoftware :
    canPresent (up []).fuses 9 = true ∧ pf0Reaches (advance (up []) 0) 0 (canPage 9) ∧ 3 % 8 < 4 ∧
      fld (up []) (canPage 9 + 0x44) 2 0 < 4 ∧ 4 ≤ 5 % 8 ∧ bootReach (advance (up []) 0) (canPage 9) = true := by
  unfold pf0Reaches; decide +kernel
def can0 : CanCh := { noCan with joined := true }
def canState (c : CanCh) (l : List (Nat × Nat)) : State :=
  { up (on (canPage 0) ++ l) with can := [(0, c)], trxMode := [(0, 0)], inFlight := [(0, copy0)], frames := [(0, { frame0 with poison := true })] }
theorem test_hyp_CanBus :
    coreUp (canState can0 []) = true ∧ canPresent (up []).fuses 0 = true ∧ running (canState can0 []) (canPage 0) = true ∧
      isFallow (canState can0 []) (canPage 0) = false ∧ fld (canState can0 []) (canPage 0 + 0x44) 2 0 ≠ 5 ∧
      (getCan (canState { can0 with recovering := true } []) 0).recovering = true ∧
      fld (canState can0 []) (canStatus 0) 16 10 < 127 ∧ 127 ≤ fld (canState can0 [(canStatus 0, 0x1FC00)]) (canStatus 0) 16 10 ∧
      (getCan (canState can0 []) 0).recovering = false ∧ mapGet 0 (canState can0 []).trxMode 0 < 2 ∧
      mustYield (advance (canState can0 []) 0) (.canFrameReceived 0 0 false true false false false 0 []) = false ∧
      mustYield (advance (queued (canState can0 []) (.objNewReturn 0 0 5)) 0) (.canFrameReceived 0 0 false true false false false 0 []) =
        true ∧
      canOnBus (canState can0 []) 0 = true ∧ canActs (canState can0 []) 0 ≠ 3 ∧ fdEn (canState can0 []) 0 = false ∧
      bit (canQuiet (advance (canState can0 [(canCtrl 0, 0x200000)]) 0) 0) (canCtrl 0) 21 = true ∧
      fdEn (canQuiet (advance (canState can0 [(canCtrl 0, 0x200000)]) 0) 0) 0 = false ∧
      mapGet? (canState can0 []).inFlight 0 = some copy0 ∧ (getFrame (canState can0 []) copy0.frame).poison = true := by
  decide +kernel
def sending : CanCh := { can0 with current := some 3 }
theorem test_hyp_CanTransmission :
    canMaySend (canState can0 [(objAddr 0 3 0, 0xC00000), (objAddr 0 3 5, 0x800000)]) 0 = true ∧
      objBest (canState can0 [(objAddr 0 3 0, 0xC00000), (objAddr 0 3 5, 0x800000)]) 0 = some 3 ∧
      (objHdr (canState can0 [(objAddr 0 3 0, 0xC00000), (objAddr 0 3 5, 0x800000)]) 0 3).fdf = false ∧
      (getCan (canState sending [(objAddr 0 3 0, 0xC00FF0)]) 0).current = some 3 ∧
      (getCan (incSat (objOff (advance (canState sending [(objAddr 0 3 0, 0xC00FF0)]) 0) 0) (canPage 0 + 0xDC)) 0).cancelled = [] ∧
      (objLimits (incSat (objOff (advance (canState sending [(objAddr 0 3 0, 0xC00FF0)]) 0) 0) (canPage 0 + 0xDC)) 0 3).2 = 255 ∧ (getCan (canState can0 []) 0).current = none := by
  decide +kernel
theorem test_hyp_Transceiver :
    coreUp (up []) = true ∧ busPort (up []) 3 = true ∧ 3 < 64 ∧ (up []).power.goodbyeAt = none ∧ (up []).failsafe = [] ∧
      beatDue (advance (up []) 0) = true ∧ beatDue (advance { up [] with heartbeatAt := [(0, 7), (1, 7)] } 7) = false := by
  decide +kernel

/-- A response of two bytes and their classic checksum (R367). -/
def answer : List Byte := [0x10, 0x20, 0xCF]
theorem test_hyp_LinFrames :
    coreUp (linState linFrame0 []) = true ∧ linPresent (up []).fuses 0 = true ∧ linCommander (linState linFrame0 []) 0 = false ∧
      linHears (linState linFrame0 []) 0 = true ∧ 100 * 10 < 86 * clamp 2000 40000 (fld (linState linFrame0 []) (linPage 0 + 0x44) 15 0) ∧
      (getLin (linState linFrame0 []) 0).frame = some linFrame0 ∧ running (linState linFrame0 []) (linPage 0) = true ∧
      (getLin { linState linFrame0 [] with lin := [] } 0).frame = none ∧ linHears { linState linFrame0 [] with lin := [] } 0 = true ∧
      linFrame0.pull = none ∧ linFrame0.dir = 1 ∧ linFrame0.len < answer.length ∧
      linOver (linEdge (advance (linState linFrame0 []) 0) 0 0) 0 linFrame0 = false ∧
      byteAt answer linFrame0.len =
        linCheck (linEdge (advance (linState linFrame0 []) 0) 0 0) 0 linFrame0.ident (answer.take linFrame0.len) ∧
      linOver (linEdge (advance (linState linFrame0 []) (2 ^ 40)) 0 (2 ^ 40)) 0 linFrame0 = true ∧
      linDue (advance (linState linFrame0 []) (2 ^ 40)) 0 linFrame0 = true ∧
      linDue (advance (linState { linFrame0 with dir := 2 } []) (2 ^ 40)) 0 { linFrame0 with dir := 2 } = true ∧
      (getLin (linState { linFrame0 with dir := 2 } []) 0).frame = some { linFrame0 with dir := 2 } := by
  decide +kernel
def fillState : State :=
  { linState linFrame0 [] with inFlight := [(64, copy0)], frames := [(0, { frame0 with poison := true })] }
/-- A LIN channel that was commanded to wake its bus: as commander or responder, with its cell's state. -/
def wakeState (commander : Bool) (c : LinCh) : State :=
  { up (on (linPage 0) ++ (if commander then [(linPage 0 + 0x40, 0x800000)] else [])) with
    linWakeCmd := [64], lin := [(0, c)], trxMode := [(64, 0)] }
theorem test_hyp_LinBuffersAndWakes :
    pf0Reaches (advance (up []) 0) 0 (linPage 0) ∧ mapGet? fillState.inFlight (64 + 0) = some copy0 ∧
      (getFrame fillState copy0.frame).poison = true ∧ linPresent (up []).fuses 0 = true ∧ coreUp (wakeState true noLin) = true ∧
      (wakeState true noLin).linWakeCmd.contains (64 + 0) = true ∧ (getLin (wakeState true noLin) 0).waiting = 0 ∧
      running (wakeState true noLin) (linPage 0) = true ∧ isFallow (wakeState true noLin) (linPage 0) = false ∧
      (getLin { fillState with lin := [(0, { noLin with waiting := 1 })] } 0).waiting ≠ 0 ∧ fillState.linWakeCmd.contains (64 + 0) = false ∧
      linCommander (wakeState true noLin) 0 = true ∧ (getLin (wakeState true noLin) 0).edgeAt = some 0 ∧
      0 + msTicks (clamp 4000 10000 (fld (wakeState true noLin) (linPage 0 + 0x58) 13 0)) ≤ (advance (wakeState true noLin) (2 ^ 40)).now := by
  unfold pf0Reaches; decide +kernel
theorem test_hyp_LinWakeWait (n w : Nat) (hn : n = 0 ∨ n = 3) (hw : w = 1 ∨ w = 2) (b : Bool) :
    linCommander (wakeState b { noLin with pulses := n, waiting := w }) 0 = b ∧
      (getLin (wakeState b { noLin with pulses := n, waiting := w }) 0).waiting = w ∧
      (getLin (wakeState b { noLin with pulses := n, waiting := w }) 0).pulses = n ∧
      (getLin (wakeState b { noLin with pulses := n, waiting := w }) 0).waitFrom + msTicks 1500 ≤ (advance (wakeState b noLin) (2 ^ 40)).now ∧
      (wakeState b { noLin with pulses := n, waiting := w }).linWakeCmd.contains (64 + 0) = true ∧
      isFallow (wakeState b { noLin with pulses := n, waiting := w }) (linPage 0) = false := by
  rcases hn with rfl | rfl <;> rcases hw with rfl | rfl <;> cases b <;> decide +kernel
def parkRegs : List (Nat × Nat) :=
  [(wakePage 3 + 0x40, 0x800000), (clCfg 0, 0x800000)] ++ (busPorts State.reset.fuses).map (fun p => (wkCh p, 0x800000))

/-- A port whose link is up and whose cell runs. -/
def ethState (p : Nat) (l : List (Nat × Nat)) : State := up ((ethLink p, 0x800000) :: on (macPage p) ++ l)
def pauseFrame : List Byte := (List.replicate 12 0 ++ [0x88, 0x08, 0, 1]) ++ List.replicate 44 0
def macOf (p : Nat) (c : MacCh) (l : List (Nat × Nat)) : State := { ethState p l with mac := [(p, c)], inFlight := [(p, copy0)] }
/-- RX_EN of a port. -/
def obeys (p : Nat) : List (Nat × Nat) := [(macPage p + 0x50, 0x200000)]
theorem test_hyp_EthernetLinkAndFrames :
    coreUp (ethState 112 []) = true ∧ macPresent (up []).fuses 112 = true ∧ ethUp (ethState 112 []) 112 = true ∧
      isT1s 112 = false ∧ lapsesNow (advance (up []) 9) 112 = false ∧
      lapsesNow (advance (queued (up []) (.linkDown 9 112)) 9) 112 = true ∧
      ethUp (up (on (macPage 112))) 112 = false ∧ macLive (up (on (macPage 112))) 112 = true ∧ upHold (up []) 112 ≤ 300000000 ∧
      (ethModes (ethState 112 []) 112 2 false).1 ≠ fld (ethState 112 []) (ethLink 112) 22 20 ∧ macLive (ethState 112 []) 112 = true ∧
      mustYield (advance (ethState 112 []) 0) (.ethFrameReceived 0 112 true [] 64 0 false false false) = false ∧
      mustYield (advance (queued (ethState 112 []) (.plotFree 0 0)) 0) (.ethFrameReceived 0 112 true [] 64 0 false false false) = true ∧
      macHears (up []) 112 = false ∧ macHears (ethState 112 []) 112 = true ∧ beAt pauseFrame 12 2 = 0x8808 ∧ beAt pauseFrame 14 2 = 1 ∧
      fcObeys (incSat (advance (ethState 112 []) 0) (macPage 112 + 0x9C)) 112 = false ∧
      fcObeys (incSat (advance (ethState 112 (obeys 112)) 0) (macPage 112 + 0x9C)) 112 = true ∧
      beAt (List.replicate 12 0 ++ [0x88, 0x08, 1, 1]) 14 2 = 0x101 ∧
      mapGet? (macOf 112 { noMac with txFrom := some 0 } []).inFlight 112 = some copy0 ∧
      notBegun (advance (macOf 112 { noMac with txFrom := some 0 } []) 0) 112 = false ∧
      (getFrame (frameState frame0 [] []) copy0.frame).poison = false ∧
      (getFrame (macOf 112 { noMac with txFrom := some 0 } []) copy0.frame).poison = false := by
  decide +kernel
def mac0 : MacCh := { noMac with txFrom := some 0 }
theorem test_hyp_EthernetMedium :
    mapGet? (getMac (macOf 112 { mac0 with pauseTo := [(2, 7)] } []) 112).pauseTo 2 = some 7 ∧
      7 ≤ (advance (macOf 112 { mac0 with pauseTo := [(2, 7)] } []) 7).now ∧
      bit (ethState 112 [(admUsed 112, 0x800000)]) (admUsed 112) 23 = true ∧
      fcMode (ethState 112 [(macPage 112 + 0x50, 0x400000)]) 112 ≠ 0 ∧
      bit (ethState 112 [(macPage 112 + 0x50, 0x400000), (admUsed 112, 0x800000)]) (admUsed 112) 23 = true ∧
      (advance (ethState 112 [(macPage 112 + 0x50, 0x400000)]) (2 ^ 40)).now -
          mapGet 0 (ethState 112 [(macPage 112 + 0x50, 0x400000)]).fcSentAt 112 ≥
        bitTicks (ethState 112 [(macPage 112 + 0x50, 0x400000)]) 112 (quantaOf (ethState 112 [(macPage 112 + 0x50, 0x400000)]) 112 * 256) ∧
      csma (macOf 88 mac0 []) 88 = true ∧ (mapGet? (macOf 88 mac0 []).inFlight 88).isSome = true ∧ macLive (macOf 88 mac0 []) 88 = true ∧
      (getMac (macOf 88 { mac0 with backoff := some 5 } []) 88).backoff = some 5 ∧
      notBegun (advance (macOf 88 mac0 []) 0) 88 = false ∧ chanAsleep (macOf 88 mac0 []) 88 = false ∧
      mustYield (advance (macOf 88 { mac0 with backoff := some 5 } []) 5) (.backoffExpiry 5 88) = false ∧
      mustYield (advance (macOf 88 mac0 []) 0) (.plcaTransmitOpportunity 0 88 true) = false ∧
      mustYield (advance (ethState 88 []) 0) (.plcaTransmitOpportunity 0 88 false) = false ∧
      isT1s 88 = true ∧ bit (macOf 88 mac0 [(admUsed 88, 0x800000)]) (admUsed 88) 23 = true ∧ pairQuiet (macOf 88 mac0 []) = false ∧
      plcaOn (macOf 88 mac0 [(macPage 88 + 0x58, 0x808000)]) 88 = true ∧ plcaId (macOf 88 mac0 [(macPage 88 + 0x58, 0x808000)]) 88 ≠ 0 ∧
      macPresent (up []).fuses 88 = true ∧ coreUp (macOf 88 mac0 []) = true ∧ mapGet? (ethState 88 []).inFlight 88 = none ∧
      mac0.turnEnd ≤ 0 ∧ (getMac (ethState 112 []) 112).fcQ = [] ∧ pf0Reaches (advance (up []) 0) 0 timePage ∧
      mustYield (advance (up []) 9) (.pauseRefresh 9 112) = false ∧ mustYield (advance (up []) 9) (.t1sForcedJam 9 88) = false := by
  unfold pf0Reaches
  decide +kernel

theorem test_hyp_WakeEvents :
    busPort (up []) 3 = true ∧ (mapGet? (up []).armed 3).isSome = true ∧ coreUp (up []) = true ∧
      (up []).failsafe.contains (dieOf 3) = false ∧ (up []).power.goodbyeAt = none ∧
      powerState (mk [(pwrPage + 0x40, 0x200000)]) = 1 ∧ (mapGet? ({ up [] with armed := [] } : State).armed 3).isSome = false ∧
      winSelected (up [(clusterPage + 0x60, 0xC00000)]) 0 true 500 = true := by
  decide +kernel
/-- Cluster 0 enabled, in a state and with CL_STAT bits. -/
def clusterState (st : Nat) (bits : Nat) : State := up [(clCfg 0, 0x800000), (clStat 0, st * 0x200000 + bits)]
theorem test_hyp_Cluster :
    pf0Reaches (advance (up []) 0) 0 clusterPage ∧ coreUp (clusterState 1 0) = true ∧ bit (clusterState 1 0) (clCfg 0) 23 = true ∧
      clState (clusterState 1 0x100000) 0 = 1 ∧ clReq (clusterState 1 0x100000) 0 = true ∧ clReq (clusterState 1 0) 0 = false ∧
      (advance (clusterState 1 0) 0).now - (getCl (clusterState 1 0) 0).entered ≥ (getCl (clusterState 1 0) 0).repeatFor ∧
      clState (clusterState 3 0) 0 = 3 ∧ nmExpired (advance (clusterState 3 0) 0) 0 = true ∧
      (advance (clusterState 2 0) 0).now - (getCl (clusterState 2 0) 0).cycleAt ≥ (getCl (clusterState 2 0) 0).cycleFor ∧
      clState (clusterState 4 0) 0 = 4 ∧ bit (clusterState 4 0) (clStat 0) 18 = false ∧
      (advance (clusterState 4 0) 0).now - (getCl (clusterState 4 0) 0).entered ≥ (getCl (clusterState 4 0) 0).waitFor ∧
      bit (clusterState 4 0x40000) (clStat 0) 18 = true ∧
      mustYield (advance (clusterState 3 0) 0) (.nmTimerExpiry 0 0) = false := by
  unfold pf0Reaches; decide +kernel
def lapseState : State := { up [] with heartbeatAt := [(0, 0)] }
def sup0 : SupSt :=
  { por := false, wake := false, alive := true, waitFrom := some 0, silentTo := some 0, stopped := false, tries := 0, lapsedAt := some 0 }
/-- Region 3 idle and held so for long; the second unparked at the moment itself. -/
def idleState (l : NMap Nat) : State := { up parkRegs with heldFrom := (3, 0) :: l }
theorem test_hyp_FalseWakesAndParking :
    busPort (up []) 3 = true ∧ mustYield (advance (up []) 9) (.falseWakeWindowExpiry 9 3) = false ∧
      mustYield (advance lapseState 900000) (.heartbeatLapse 900000 0) = false ∧
      mustYield (advance (queued lapseState (.heartbeatWord 9)) 9) (.heartbeatLapse 9 0) = true ∧
      mapGet? (up []).fwFrom 3 = none ∧ mapGet? lapseState.heartbeatAt 0 = some 0 ∧ 0 + msTicks 4 ≤ (advance lapseState 900000).now ∧
      powerState lapseState ≠ 0 ∧ lapseState.power.goodbyeAt = none ∧ lapseState.failsafe.contains 0 = false ∧
      (getSup { up [] with sup := [(0, sup0)] } 0).lapsedAt = some 0 ∧ 0 + secTicks 1 ≤ (advance (up []) 200000000).now ∧
      bit (up parkRegs) (wakePage 3 + 0x40) 23 = true ∧ heldFor (advance (idleState []) 2000000) 3 (msTicks 10) = true ∧
      parkable (advance (idleState []) 2000000) 3 = true ∧ mustYield (advance (idleState []) 2000000) (.regionPark 2000000 3) = false ∧
      mustYield (advance (queued (idleState []) (.clRequest 9 0 0)) 9) (.regionPark 9 3) = true ∧ coreUp (idleState []) = true ∧
      mapGet? (idleState []).heldFrom (8 + 3) ≠ some (advance (idleState []) 2000000).now ∧
      mapGet? (idleState [(11, 2000000)]).heldFrom (8 + 3) = some (advance (idleState [(11, 2000000)]) 2000000).now ∧
      parkable (advance (idleState [(11, 2000000)]) 2000000) 3 = true ∧
      heldFor (advance (idleState [(11, 2000000)]) 2000000) 3 (msTicks 10) = true ∧ parked (idleState []) 3 = false ∧
      unparkAsked (advance (up parkRegs) 0) 3 = false ∧ unparkAsked (advance (up [(wakePage 3 + 0x44, 0x800000)]) 0) 3 = true ∧
      parked (up [(wakePage 3 + 0x44, 0x800000)]) 3 = true := by
  decide +kernel

def laneItem (k : Nat) : LaneItem :=
  { kind := k, frame := none, copies := [], profile := 0, port := 104, bytes := [], ingressNs := 0, stream := 0, num := 0, start := false,
    assoc := none, pn := 0, secy := emptyEntry, sa := emptyEntry, blocks := 0, poison := false }
def laneState (k : Nat) (l : List (Nat × Nat)) : State := { up (on (lanePage 0) ++ l) with lanes := [(0, [laneItem k])] }
theorem test_hyp_Lane (k : Nat) (h : k = 0 ∨ k = 1) :
    coreUp (laneState k []) = true ∧ kindOf (up []).fuses (lanePage 0) = 0x42 ∧
      (∃ it u, laneTake (advance (laneState k []) 0) 0 k = some (it, u) ∧ it.kind = k ∧ it.poison = false ∧
        isQuar (laneState k []) 5 0 it.profile = false ∧ tLive (laneState k []) secTable 0 it.profile = none) ∧
      laneServes (laneState k []) 0 = true ∧ mustYield (advance (laneState k []) 0) (.macsecProtect 0 0 0) = false ∧
      bit (laneState k [(lanePage 0 + 0x40, 0x400000)]) (lanePage 0 + 0x40) 22 = true := by
  rcases h with rfl | rfl <;>
  exact ⟨by decide +kernel, by decide +kernel, ⟨_, _, rfl, rfl, rfl, by decide +kernel, by decide +kernel⟩, by decide +kernel,
    by decide +kernel, by decide +kernel⟩
/-- LC_ARM with its code and a target, the generator READY. -/
def lcState0 (target code : Nat) : State := up [(lcPage + 0x44, code * 0x1000 + target), (entPage + 0x4C, 0x400000)]
/-- Raw bits of which the proportion test fails alone: three of four are 1, as the first is. -/
def bits3of4 : Nat := (2 ^ 1024 - 1) / 15 * 7
/-- Raw bits that pass both health tests. -/
def goodBits : Nat := (2 ^ 1024 - 1) / 3
theorem test_hyp_EntropyAndLifeCycle :
    running (up (on entPage)) entPage = true ∧ (up []).awaitTest.contains (entPage, 0) = false ∧ pf0Reaches (advance (up []) 0) 0 entPage ∧
      rctFails 0 = true ∧ rctFails bits3of4 = false ∧ aptFails bits3of4 = true ∧ rctFails goodBits = false ∧ aptFails goodBits = false ∧
      (up []).maskGen = [] ∧ holdsUp (up []) 0 = false ∧
      drbgState (up [(entPage + 0x4C, 0x400000)]) = 1 ∧ bootReach (advance (up []) 0) entPage = true ∧ drbgState (up []) ≠ 1 ∧
      pf0Reaches (advance (up []) 0) 0 lcPage ∧ lcState (lcState0 4 0x5A5) < 4 ∧ fld (lcState0 4 0x5A5) (lcPage + 0x44) 2 0 = 4 ∧
      fld (lcState0 4 0x5A5) (lcPage + 0x44) 23 12 = 0x5A5 ∧ bit (lcState0 4 0x5A5) (lcPage + 0x4C) 0 = false ∧
      drbgState (lcState0 4 0x5A5) = 1 ∧ fld (lcState0 4 0x5A5) (lcPage + 0x40) 20 18 = lcState (lcState0 4 0x5A5) ∧
      mapGet? (lcState0 4 0x5A5).cmds lcCmd = none ∧ cmdBusy (advance (lcState0 4 0x5A5) 0) lcCmd = false ∧
      bit (up [(entPage + 0x40, 0x400000)]) (entPage + 0x40) 22 = true ∧
      lcAllowed (lcState (lcState0 3 0x5A5)) (fld (lcState0 3 0x5A5) (lcPage + 0x44) 2 0) = false ∧
      lcAllowed (lcState (lcState0 4 0x123)) (fld (lcState0 4 0x123) (lcPage + 0x44) 2 0) = true ∧
      fld (lcState0 4 0x123) (lcPage + 0x44) 23 12 ≠ 0x5A5 := by
  unfold pf0Reaches; decide +kernel
theorem test_hyp_KeysAndCheckValues :
    pf0Reaches (advance (up []) 0) 0 keyPage ∧ bit (up []) (secPage + 0x40) 0 = false ∧ mapGet? (up []).cmds keyCmd = none ∧
      cmdBusy (advance (up []) 0) keyCmd = false ∧ cmdBusy (advance (busyAt keyCmd) 0) keyCmd = true ∧ pf0Reaches (advance (busyAt keyCmd) 0) 0 keyPage ∧
      bit (busyAt keyCmd) (secPage + 0x40) 0 = false ∧ keyBarred (up [(keyPage + 0x40, 0x040000), (entPage + 0x4C, 0x400000)]) = false ∧
      drbgState (up [(keyPage + 0x40, 0x040000), (entPage + 0x4C, 0x400000)]) = 1 ∧ mapGet? (up []).keys (keySlotSel (up [])) = none ∧
      coreUp (up []) = true ∧ pf0Reaches (advance (up []) 0) 0 (cvPage 2) ∧ bit (up []) (cvPage 2 + 0x24) 0 = false ∧
      mapGet? (up []).cvRun 2 = none ∧ bit (up [(cvPage 2 + 0x24, 1)]) (cvPage 2 + 0x24) 0 = true := by
  unfold pf0Reaches; decide +kernel
def roster0 : RosterEntry := { kind := 1, page := 0x11, code := 0, row := 0, spare := 0, min := 0 }
def rosterState (e : RosterEntry) : State := { up [] with roster := [(0, e)] }
theorem test_hyp_FaultsAndReclaim :
    kindOf (up []).fuses hubPage ≠ 0 ∧ counted 0x12 = true ∧
      ({ up [] with awaitTest := [(hubPage, 0)] } : State).awaitTest.contains (hubPage, 0) = true ∧ (up []).power.minutes = 0 ∧
      minutesPassed (advance (up []) (secTicks 60)) = 1 ∧ minutesPassed (advance (up []) 0) ≤ (up []).power.minutes ∧
      pf0Reaches (advance (up []) 0) 0 hubPage ∧ cmdBusy (advance (up []) 0) (hubPage + 0x58) = false ∧
      mapGet? (atPage (rosterState roster0) 0 hubPage).roster (fld (atPage (rosterState roster0) 0 hubPage) (hubPage + 0x54) 8 0) =
        some roster0 ∧ roster0.kind ≠ 3 ∧ roster0.kind ≠ 4 ∧
      mapGet? (atPage (rosterState { roster0 with kind := 4 }) 0 hubPage).roster 0 = some { roster0 with kind := 4 } ∧
      mapGet? (atPage (up []) 0 hubPage).roster (fld (atPage (up []) 0 hubPage) (hubPage + 0x54) 8 0) = none := by
  unfold pf0Reaches; decide +kernel
def monState : State := up ((0x891000 + 0x40, 0x400000) :: on 0x891000)
theorem test_hyp_Monitor :
    coreUp monState = true ∧ parked monState 0 = false ∧ kindOf monState.fuses 0x891000 = 0x11 ∧ running monState 0x891000 = true ∧
      edgeErr monState 0x891000 = false ∧ monKind monState 0x891000 = 2 ∧ 0x891000 % 0x1000 = 0 ∧
      pf0Reaches (advance monState 0) 0 0x891000 ∧ periodOver (advance monState (2 ^ 30)) (pacePageOf 0) (usTicks 10) = true ∧
      periodOver (advance monState (2 ^ 40)) 0x891000 (monPeriod monState 0x891000) = true ∧
      periodOver (advance monState 0) 0x891000 (monPeriod monState 0x891000) = false := by
  unfold pf0Reaches; decide +kernel

/-- A header that passes the checks of R556 to R560 in BLANK: magic, format 1, version 1.0.0, every variant, length 4,096, key
slot 0 and one section that covers nothing. -/
def header0 : List Byte :=
  ([0x4B, 0x4C, 0x44, 1, 1, 0, 0, 0, 0x0F, 0xFF, 0x00, 0x10, 0x00, 0, 0, 0, 0, 0, 0, 0, 0, 1, 0, 0] : List Byte) ++
    List.replicate 16 0 ++ ([1, 0, 0x00, 0x10, 0x00, 0, 0, 0] : List Byte) ++ List.replicate 4048 0
def imageKey : KeySlot := { key := 0, k256 := false, persist := false, origin := 1, usage := 2, kcv := 0 }
def updState (l : List (Nat × Nat)) : State := { up l with keys := [(0, imageKey)] }
theorem test_hyp_UpdateBlocks (u : State) (hu : u = turnEnd (advance (updState [(updStat, 0x400000)]) (secTicks 60))) :
    coreUp (updState []) = true ∧ lcState (turnEnd (advance (updState []) 0)) ≠ 4 ∧
      (inactiveBank (turnEnd (advance (updState []) 0))).isSome = true ∧ header0.length = 4096 ∧
      headerError (turnEnd (advance (updState []) 0)) header0 = none ∧ inTrial u = true ∧ fld u (updPage + 0x64) 23 13 = 0 ∧
      inTurn u = false ∧ u.power.trialMinutes < minutesPassed u ∧ inTrial (turnEnd (advance (updState [(updStat, 0x400000)]) 0)) = true ∧
      minutesPassed (turnEnd (advance (updState [(updStat, 0x400000)]) 0)) ≤
        (turnEnd (advance (updState [(updStat, 0x400000)]) 0)).power.trialMinutes := by
  subst hu; decide +kernel
theorem test_hyp_UpdateAndSettings :
    pf0Reaches (advance (up []) 0) 0 updPage ∧ lcState (atPage (up []) 0 updPage) ≠ 4 ∧ lcState (turnEnd (advance (up []) 0)) ≠ 4 ∧
      updBusy (atPage (up []) 0 updPage) = false ∧ updBusy (turnEnd (advance (up []) 0)) = false ∧
      inTrial (atPage (up []) 0 updPage) = false ∧ inTrial (turnEnd (advance (up []) 0)) = false ∧ coreUp (up []) = true ∧
      updBusy (atPage (busyAt updCmd) 0 updPage) = true ∧ updBusy (turnEnd (advance (busyAt updCmd) 0)) = true ∧
      mapGet? (up []).cmds setCmd = none ∧ mapGet? (turnEnd (advance (up []) 0)).cmds setCmd = none ∧
      cmdBusy (turnEnd (advance (up []) 0)) setCmd = false ∧ setId (turnEnd (advance (up [(updPage + 0x80, 0x000100)]) 0)) ≠ 0 ∧
      setId (turnEnd (advance (up [(updPage + 0x80, 0x000100)]) 0)) ≤ 0xFBFF ∧ setId (turnEnd (advance (up []) 0)) = 0 ∧
      0xFBFF < setId (turnEnd (advance (up [(updPage + 0x80, 0xFC0000)]) 0)) ∧ cmdBusy (advance (busyAt setCmd) 0) setCmd = true ∧
      cmdBusy (turnEnd (advance (busyAt setCmd) 0)) setCmd = true := by
  unfold pf0Reaches; decide +kernel

def ringState : State :=
  { up ([(pciePage + 0x40, 0x800000), (txRing 9, 0x860000), (txRing 9 + 0xC, 3), (rxRing 9, 0x860000), (rxRing 9 + 0xC, 3)] ++
      on (htxPage 9) ++ on (hrxPage 9)) with
    htxStalled := [9], hrxSignal := [(9, 1)], inFlight := [(137, copy0)], frames := [(0, frame0)] }
theorem test_hyp_HostRings :
    pf0Reaches (advance ringState 0) 0 (htxPage 9) ∧ bit ringState (htxPage 9 + 0x24) 0 = false ∧
      tailBad (advance ringState 0) (txRing 9) (5 % 65536) = false ∧ pf0Reaches (advance ringState 0) 0 (hrxPage 9) ∧
      bit ringState (hrxPage 9 + 0x24) 0 = false ∧ tailBad (advance ringState 0) (rxRing 9) (65535 % 65536) = true ∧
      coreUp ringState = true ∧ txGranted (advance ringState 0) 9 = true ∧ txMay ringState 9 = true ∧ txMay (advance ringState 0) 9 = true ∧
      mustYield (advance ringState 0) (.htxDescriptor 0 9 0 false 0 [] false 0) = false ∧
      mustYield (advance (queued ringState (.plotFree 0 0)) 0) (.htxDescriptor 0 9 0 false 0 [] false 0) = true ∧
      mapGet 0 ringState.heldFrom (16 + 9) + stallTime ringState ≤ (advance ringState (2 ^ 40)).now ∧ txLenGood 0 13 = false ∧
      ringState.htxStalled.contains 9 = true ∧ mapGet? ringState.inFlight (128 + 9) = some copy0 ∧ pcieUp ringState = true ∧
      running ringState (hrxPage 9) = true ∧ ringHead ringState (rxRing 9) ≠ ringTail ringState (rxRing 9) ∧
      (getFrame ringState copy0.frame).committed = true ∧ mapGet? ringState.hrxSignal 9 = some 1 ∧ 1 % 2 = 1 ∧
      1 / 2 + holdoff ringState 9 ≤ (advance ringState (2 ^ 30)).now := by
  unfold pf0Reaches; decide +kernel

def linkFrame0 : LinkFrame := linkFrame State.reset 2 5
def link0 : LinkSt := { noLink with replay := [{ num := 0, frame := linkFrame0, sentAt := 0 }], relay := [(linkFrame0, 0)] }
/-- Link 0 enabled and running, with LNK_STAT. -/
def linkState (stat : Nat) : State := { up ([(lnkCtrl 0, 0x800000), (lnkStat 0, stat)] ++ on (linkPage 0)) with links := [(0, link0)] }
theorem test_hyp_Links :
    coreUp (linkState 0) = true ∧ linkPresent (linkState 0) 0 = true ∧ linkMay (linkState 0) 0 = true ∧
      bit (linkState 0) (lnkStat 0) 23 = false ∧ bit (linkState 0) (lnkStat 0) 21 = false ∧
      bit (linkState 0x200000) (lnkStat 0) 21 = true ∧ linkTrained (linkState 0x800000) 0 = true ∧
      mustYield (advance (linkState 0x800000) 0) (.ebderFrameReceived 0 0 []) = false ∧
      mustYield (advance (queued (linkState 0x800000) (.plotFree 0 0)) 0) (.ebderFrameReceived 0 0 []) = true ∧
      (getLnk (linkState 0x800000) 0).replay ≠ [] ∧
      (getLnk (linkState 0x800000) 0).quietFrom + usTicks 20 ≤ (advance (linkState 0x800000) 4000).now ∧
      retrainDue (advance (linkState 0x800000) 400000) 0 = true ∧ (getLnk (linkState 0x800000) 0).relay = (linkFrame0, 0) :: [] ∧
      0 + usTicks (clamp 10 10000 (fld (linkState 0x800000) (routePage + 0x44) 13 0)) ≤ (advance (linkState 0x800000) 2000000).now := by
  decide +kernel
def access0 : RemoteAcc := { requester := 0, dev := 5, write := false, addr := 0, tag := 9, since := 0 }
theorem test_hyp_Remote :
    2 ≤ powerState (up []) ∧ 5 ≠ (up []).fuses.devId ∧
      ({ State.reset.fuses with xTier := false } : Fuses).xTier = false ∧ coreUp (up []) = true ∧ (up []).fuses.xTier = true ∧
      holdsUp (up []) (reqNo 5 0) = false ∧
      holdsUp { up [] with stalled := [{ page := learnPage 0, requester := reqNo 5 0, guardEnd := 9 }] } (reqNo 5 0) = true ∧
      ({ up [] with remoteAcc := [access0] } : State).remoteAcc = [access0] ∧ access0.write = false ∧
      access0.since + popGuard (up []) + usTicks 150 ≤ (advance (up []) (2 ^ 30)).now ∧
      bit (up []) (pciePage + 0x4C + 4 * (5 / 24)) (5 % 24) = false ∧ bit (up []) (pciePage + 0x40) 23 = false := by
  decide +kernel

/-- The pairing unit on, in a state, with a lease and without contact. -/
def pairState0 (st bits : Nat) (p : PairSt) : State :=
  { up ([(pairCfg, 0xC00000), (pairStat, st * 0x200000 + bits), (pairPage + 0x44, 1), (lnkStat 0, 0x800000), (lnkCtrl 0, 0x800000)] ++
      on pairPage ++ on (linkPage 0)) with pair := p }
def leased : PairSt :=
  { State.reset.pair with leaseEnd := some (2 ^ 40), guardAt := some 0, heardAt := some 0, holdFrom := some 0, peerState := 3 }
theorem test_hyp_Lease :
    coreUp (pairState0 2 0 leased) = true ∧ 1000 ≤ 1000 ∧ 999 < 1000 ∧
      ({ leased with leaseEnd := some 7 } : PairSt).leaseEnd = some 7 ∧ 7 ≤ (advance (up []) 7).now ∧ leased.guardAt = some 0 ∧
      pairOn (pairState0 2 0 leased) = true ∧ pairState (pairState0 2 0 leased) = 2 ∧
      0 + guardTime (pairState0 2 0 leased) ≤ (advance (pairState0 2 0 leased) (2 ^ 36)).now ∧
      mustYield (advance (up []) 9) (.leaseExpiry 9) = false ∧
      mustYield (advance (pairState0 2 0 leased) (2 ^ 36)) (.guardExpiry (2 ^ 36)) = false ∧
      mustYield (advance (queued (up []) (.leaseGrant 9 true 0 0 0)) 9) (.leaseExpiry 9) = true ∧
      leaseValid (advance (pairState0 2 0 leased) (2 ^ 36)) = true ∧ inContact (advance (pairState0 2 0 leased) (2 ^ 36)) = false ∧
      pf0Reaches (advance (pairState0 2 0 leased) 0) 0 pairPage := by
  unfold pf0Reaches; decide +kernel
theorem test_hyp_Pairing :
    pairOn (pairState0 1 0 leased) = true ∧ (pairState0 1 0 leased).pair.sentAt + usTicks 100 ≤ (advance (up []) 20000).now ∧
      linkTrained (pairState0 1 0 leased) (pairLink (pairState0 1 0 leased)) = true ∧ leased.heardAt = some 0 ∧
      0 + msTicks 1 ≤ (advance (up []) 200000).now ∧ leased.holdFrom = some 0 ∧
      reclaimReady (advance (pairState0 1 0x1C0000 leased) (2 ^ 30)) = true ∧
      0 + msTicks (fld (pairState0 1 0x1C0000 leased) (pairPage + 0x44) 15 0) ≤ (advance (pairState0 1 0x1C0000 leased) (2 ^ 30)).now ∧
      bit (pairState0 1 0x1C0000 leased) pairStat 18 = true ∧
      (pairState0 1 0x1C0000 leased).pair.toggledAt + msTicks (leaseMs (pairState0 1 0x1C0000 leased)) / 4 ≤ (advance (up []) (2 ^ 40)).now := by
  decide +kernel

def standby : State := { mk [(pwrPage + 0x40, 0x200000)] with sup := [(0, { sup0 with silentTo := none })] }
theorem test_hyp_Supply :
    powerState (mk [(pwrPage + 0x40, 0)]) = 0 ∧ 3 ∈ busPorts State.reset.fuses ∧ powerState standby = 1 ∧
      powerReq { standby with power := { standby.power with supplyGood := true } } = true ∧ standby.power.refLost = false ∧
      (getSup standby 0).waitFrom = some 0 ∧ votes (getSup standby 0) = true ∧ 0 + msTicks 100 ≤ (advance standby 20000000).now ∧
      mustYield (advance standby 20000000) (.pgoodTimeout 20000000 0) = false ∧
      mustYield (advance (queued standby (.heartbeatWord 9)) 9) (.pgoodTimeout 9 0) = true ∧ powerReq { (mk []) with sup := [] } = false ∧
      sup0.silentTo = some 0 ∧ 0 ≤ (advance standby 0).now ∧ coreUp (up []) = true ∧ (up []).power.goodbyeAt = none := by
  decide +kernel
/-- ACTIVE with AUTO_STANDBY, every region parked, all of it since reset. -/
def quietState : State :=
  { up ((pwrPage + 0x44, 0x800000) :: (List.range 4).map (fun r => (wakePage r + 0x44, 0x800000))) with heldFrom := [(4, 0)] }
def afterGoodbye : State :=
  { up [] with power := { State.reset.power with goodbyeAt := some 0, supplyGood := true }, sup := [(0, { sup0 with silentTo := none })] }
def clockLost : State :=
  { mk [(pwrPage + 0x40, 0x400000)] with
    power := { State.reset.power with refLost := true, supplyGood := true }, sup := [(0, { sup0 with silentTo := none })] }
theorem test_hyp_StandbyAndBrownOut :
    pf0Reaches (advance (up []) 0) 0 pwrPage ∧ fld (up [(pwrPage + 0x48, 0x3C3000)]) (pwrPage + 0x48) 23 12 = 0x3C3 ∧
      fld (up []) (pwrPage + 0x48) 23 12 ≠ 0x3C3 ∧ coreUp quietState = true ∧ bit quietState (pwrPage + 0x44) 23 = true ∧
      clustersAsleep quietState = true ∧ [0, 1, 2, 3].all (parked quietState) = true ∧
      heldFor (advance quietState (2 ^ 30)) 4 (msTicks (max 10 (fld quietState (pwrPage + 0x44) 11 0))) = true ∧
      quietState.power.goodbyeAt = none ∧ mustYield (advance quietState (2 ^ 30)) (.autoStandbyExpiry (2 ^ 30)) = false ∧
      mustYield (advance (queued quietState (.regionUnpark 9 0)) 9) (.autoStandbyExpiry 9) = true ∧
      bit quietState (pwrPage + 0x40) 20 = false ∧ bit (mk [(pwrPage + 0x40, 0x700000)]) (pwrPage + 0x40) 20 = true ∧
      afterGoodbye.power.goodbyeAt = some 0 ∧ 0 + msTicks 50 ≤ (advance afterGoodbye 10000000).now ∧
      afterGoodbye.power.supplyGood = true ∧ powerReq afterGoodbye = true ∧ 2 ≤ powerState (up []) ∧
      clockLost.power.refLost = true ∧ powerState clockLost = 2 ∧ clockLost.power.supplyGood = true ∧
      powerReq { clockLost with power := { clockLost.power with refLost := false } } = true ∧ (up []).power.perst = false := by
  unfold pf0Reaches; decide +kernel

theorem test_hyp_AbsentPage : kindOf (up []).fuses (pageOf 0xF00004) = 0 := by decide +kernel
theorem test_hyp_FurPop :
    learnPage 0 % 0x1000 = 0 ∧ popGroup (kindOf (up []).fuses (learnPage 0)) = some 0x140 ∧
      bootReach (advance (furState furrow0) 0) (learnPage 0) = true ∧ holdsUp (furState furrow0) 0 = false ∧
      (getFur (furState furrow0) (learnPage 0)).items = [5] :: [[6]] ∧ (getFur (furState furrow0) (learnPage 0)).waits = [] ∧
      (∀ p ∈ (furState furrow0).stalled, p.page ≠ learnPage 0) ∧ ([5] : List (BitVec 28)).length ≤ 8 ∧
      ([[6]] : List (List (BitVec 28))).length < 0x10000 ∧ (furState furrow0).remoteIn = [] := by
  decide +kernel
/-- A rule that matches every key, with VERDICT 3, at index 0 of region 0. -/
def ruleState : State :=
  { State.reset with tables := [(tKey (hdgTable 0) 0 0 0, entry (List.replicate 16 0 ++ [0x600000]))] }
theorem test_hyp_Hedgerow :
    storesWf ruleState ∧ tLive ruleState (hdgTable 0) 0 0 = some (entry (List.replicate 16 0 ++ [0x600000])) ∧
      ruleMatches (entry (List.replicate 16 0 ++ [0x600000])) [1, 2] = true ∧ actsQuar ruleState 0 0 0 [] = false ∧
      (∀ j e', j < 0 → tLive ruleState (hdgTable 0) 0 j = some e' → ruleMatches e' [1, 2] = false) ∧
      ∀ j e, tLive State.reset (hdgTable 0) 0 j = some e → j < 0x80000 → ruleMatches e [1, 2] = false := by
  refine ⟨⟨⟨rfl, by simp [ruleState, State.reset]⟩, ⟨rfl, by simp [ruleState, State.reset]⟩, ⟨rfl, ?_⟩,
    ⟨rfl, by simp [ruleState, State.reset]⟩, rfl⟩, rfl, by decide +kernel, by decide +kernel, fun j _ h => absurd h (by omega), ?_⟩
  · simp only [ruleState, List.mem_singleton]; rintro e rfl; decide +kernel
  · intro j e h; exact absurd h (by simp [tLive, tGet, mapGet, mapGet?, State.reset, emptyEntry])
theorem test_hyp_LinBufferWords :
    linPresent (up []).fuses 23 = true ∧ pf0Reaches (advance (up []) 0) 0 (linPage 23) ∧
      bit (up [(linBufStat 23 63, 1)]) (linBufStat 23 63) 0 = true ∧ bit (up []) (linBufStat 23 63) 0 = false := by
  unfold pf0Reaches; decide +kernel

/-! ## Single commands -/

/-- A reading of the next state, 0xFFFFFFFF where the command did not answer one. -/
def after (a : Answer) (f : State → Nat) : Nat :=
  match a with
  | .next u => f u
  | _ => 0xFFFFFFFF

/-- FIPS 197 appendix C.1: AES-128 of 00112233…ff. -/
theorem test_aes128 :
    aesBlock (List.range 16) ((List.range 16).map (· * 0x11)) =
      [0x69, 0xC4, 0xE0, 0xD8, 0x6A, 0x7B, 0x04, 0x30, 0xD8, 0xCD, 0xB7, 0x80, 0x70, 0xB4, 0xC5, 0x5A] := by decide +kernel
/-- RFC 4493: AES-CMAC of the empty message. -/
theorem test_cmac_empty :
    aesCmac [0x2B, 0x7E, 0x15, 0x16, 0x28, 0xAE, 0xD2, 0xA6, 0xAB, 0xF7, 0x15, 0x88, 0x09, 0xCF, 0x4F, 0x3C] [] =
      [0xBB, 0x1D, 0x69, 0x29, 0xE9, 0x59, 0x37, 0x28, 0x7F, 0xA3, 0x7D, 0x12, 0x9B, 0x75, 0x67, 0x46] := by decide +kernel
/-- R365: P0 and P1 of the identifiers 0, 0x3C and 0x3D. -/
theorem test_lin_pid : linPid 0 = 0x80 ∧ linPid 0x3C = 0x3C ∧ linPid 0x3D = 0x7D := by decide +kernel
/-- R652: a core reset leaves the core in BOOT. -/
theorem test_reset_boot : powerState State.reset = 2 := by decide +kernel
/-- R66: a write to a locked page leaves the field and counts. -/
theorem test_locked_write :
    after (exec (.registerWrite 0 0 (0x891000 + 0x44) 5 true) (up [(0x891000 + 0x24, 1)])) (fun u => rd u (0x891000 + 0x2C)) = 1 ∧
      after (exec (.registerWrite 0 0 (0x891000 + 0x44) 5 true) (up [(0x891000 + 0x24, 1)])) (fun u => rd u (0x891000 + 0x44)) =
        rd (up []) (0x891000 + 0x44) := by decide +kernel
/-- R40: STOP at a boundary clears RUNNING. -/
theorem test_page_stop :
    after (exec (.pageStop 0 0 hubPage) (up (on hubPage))) (fun u => fld u (hubPage + 0xC) 0 0) = 0 := by decide +kernel
/-- R113: a pop of a one-word item behind which one item waits. -/
theorem test_pop :
    after (exec (.furPop 0 0 (learnPage 0)) (furState furrow0)) (fun u => rd u (learnPage 0 + 0x144)) = 5 ∧
      after (exec (.furPop 0 0 (learnPage 0)) (furState furrow0)) (fun u =>
        ((mapGet? u.hostRead 0).map (fun r => r.value.toNat)).getD 0) = 0x810001 := by decide +kernel
/-- The operating minutes wrap at 24 bits. -/
theorem test_oper_minute :
    after (exec (.operMinute (secTicks 60)) (up [(hubPage + 0x48, 0xFFFFFF)])) (fun u => rd u (hubPage + 0x48)) = 0 := by decide +kernel
/-- R412: TIME_STEP of -1 moves the time base back by a nanosecond. -/
theorem test_time_step :
    after (exec (.timeStep 0 0) { up [(timePage + 0x48, 0xFFFFFF)] with timeFine := 2 ^ 40 }) (fun u => u.timeFine) = 2 ^ 40 - 2 ^ 32 := by
  decide +kernel
/-- R485: a read of DRBG_OUT outside READY sets ERR_SEEN. -/
theorem test_drbg_out :
    after (exec (.drbgOutRead 0 0) (up [])) (fun u => fld u (entPage + 0x4C) 21 21) = 1 := by decide +kernel
/-- R488: LC_GO without the code leaves the state and clears LC_ARM. -/
theorem test_lc_refused :
    after (exec (.lcGo 0 0 true) (lcState0 4 0x123)) (fun u => lcState u) = 0 ∧
      after (exec (.lcGo 0 0 true) (lcState0 4 0x123)) (fun u => rd u (lcPage + 0x44)) = 0 := by decide +kernel
/-- R492: ERASE empties the slot that KEY_SEL names. -/
theorem test_key_erase :
    after (exec (.keyErase 0 0) { up [(keyPage + 0x40, 3)] with keys := [(3, imageKey), (4, imageKey)] }) (fun u => u.keys.length) = 1 := by
  decide +kernel
/-- R581: a record is written and stands under its identifier. -/
theorem test_set_write :
    after (exec (.setWrite 0 0 false) (up [(updPage + 0x80, 0x000702), (updPage + 0xA0, 9), (updPage + 0xA4, 8)])) (fun u =>
      ((mapGet? u.settings 7).getD []).foldl (fun a w => a * 16 + w.toNat) 0) = 0x98 := by decide +kernel
/-- R654, R677: the reference clock lost in ACTIVE is a brown-out, and the core waits in BOOT. -/
theorem test_refclk_loss :
    after (exec (.refclkLoss 0) (up [])) powerState = 2 ∧
      after (exec (.refclkLoss 0) (up [])) (fun u => u.power.brownSupply.getD 9) = 2 := by decide +kernel
/-- R436, R646: a wake in STANDBY is latched with the WAKE vote. -/
theorem test_wake_latched :
    after (exec (.wakeEvent 0 3) standby) (fun u => u.latched.length) = 1 ∧
      after (exec (.wakeEvent 0 3) standby) (fun u => b2n (getSup u 0).wake) = 1 := by decide +kernel
/-- R607: a peer of the own number is a clash. -/
theorem test_link_clash :
    after (exec (.ebderLinkTrained 0 0 0) { linkState 0 with links := [] }) (fun u => fld u (lnkStat 0) 23 21) = 1 := by
  decide +kernel
/-- R329: a written MODE above 3 is ignored. -/
theorem test_can_mode :
    after (exec (.canModeWrite 0 0 0 5) (up [(canPage 0 + 0x44, 2)])) (fun u => fld u (canPage 0 + 0x44) 2 0) = 2 := by decide +kernel
/-- R346: a lost arbitration counts for the channel. -/
theorem test_arb_loss :
    after (exec (.canArbLoss 0 0) (canState sending [(objAddr 0 3 0, 0xC00FF0)])) (fun u => rd u (canPage 0 + 0xDC)) = 1 := by
  decide +kernel
/-- R385: an idle bus of a commander is an event. -/
theorem test_lin_idle :
    after (exec (.linIdle (2 ^ 40) 0) (wakeState true noLin)) (fun u => fld u (linEvents 0) 4 4) = 1 := by
  decide +kernel
/-- R392: a link that goes down clears UP. -/
theorem test_link_down : after (exec (.linkDown 0 112) (ethState 112 [])) (fun u => b2n (ethUp u 112)) = 0 := by decide +kernel
/-- R548, R549: a sample of the plots queued for a port enters the live set. -/
theorem test_monitor :
    after (exec (.monitorSample (2 ^ 40) 4 9 1)
        { monState with
          outQ := [(0, [copy0])], frames := [(0, { frame0 with plots := List.replicate 7 { bank := 0, row := 0, area := .sh } })] })
      (fun u => (mapGet emptyLive u.monLive 0x891000).max) = 7 := by
  decide +kernel
/-- R627: a HANDOVER leaves the device QUIET, though its lease is valid and the peer is not ACTIVE yet. -/
theorem test_handover :
    after (exec (.pairHandover 0 0) (pairState0 3 0x120000 { leased with peerState := 1 })) pairState = 4 := by decide +kernel
/-- R488: a root whose programming failed stays partly programmed, and refuses a later GO with 0x7 when its command completes. -/
theorem test_lc_spoilt :
    after (exec (.lcGo 0 0 true) { lcState0 1 0x5A5 with roots := [(0, rootBroken)] }) (fun u =>
      (u.cmds.flatMap (fun c => c.2.puts)).foldl (fun a p => a * 0x100 + p.val) 0) = 0x107 := by
  decide +kernel
/-- R2, R3: a port that the variant lacks has no events. -/
theorem test_absent_port : after (exec (.linIdle 5 24) (up [])) (fun u => u.now) = 5 := by decide +kernel
/-- R35: a write at an address that is no slot's changes no register of the page and is recorded. -/
theorem test_unaligned_write :
    after (exec (.registerWrite 0 0 (0x891000 + 0x45) 5 true) (up [])) (fun u => rd u (0x891000 + 0x44)) = rd (up []) (0x891000 + 0x44) := by
  decide +kernel
/-- R74: a mailbox command that arrives while one runs is refused with 0x6. -/
theorem test_mailbox_busy :
    after (exec (.mbxSnap 0 0 3) (busyAt (mbxCmd 3))) (fun u => fld u (mbxPage 3 + 0x48) 11 8) = 6 := by decide +kernel
/-- R50: an event that hardware records at the very moment of a W1C write stands; one recorded before it is cleared. -/
theorem test_event_stands :
    after (exec (.registerWrite 0 0 (linEvents 0) 0x10 true) (up [(linEvents 0, 0x10)])) (fun u => rd u (linEvents 0)) = 0 ∧
      after (exec (.registerWrite 0 0 (linEvents 0) 0x10 true) { up [(linEvents 0, 0x10)] with regsAt := (up []).regs }) (fun u =>
        rd u (linEvents 0)) = 0x10 := by decide +kernel
/-- R51: behind a stalled pop of its requester a write waits; its register keeps its value. -/
theorem test_write_held :
    after (exec (.registerWrite 0 0 (0x891000 + 0x44) 5 true) stalledState) (fun u => u.held.length) = 1 ∧
      after (exec (.registerWrite 0 0 (0x891000 + 0x44) 5 true) stalledState) (fun u => rd u (0x891000 + 0x44)) =
        rd (up []) (0x891000 + 0x44) := by decide +kernel
/-- R483: 35 equal raw bits fail the health test: the entropy source counts it. -/
theorem test_rct : rctFails (2 ^ 35 - 1) = true ∧ rctFails goodBits = false := by decide +kernel

end Sys2Proof.Tests
end

section
/-! PROOF. The scope of a variant (00_scope.md): what an access to an absent page comes to (R3). -/
namespace Sys2Proof.Machine

variable {s : State} {a : Nat}

/-- The first byte of a slot is on the page of every address within the slot. -/
theorem pageOf_slotStart (a : Nat) : pageOf (a / 4 * 4) = pageOf a := by unfold pageOf; omega

/-- An absent page has no fields at any address (R58). -/
theorem fieldsAt_absentPage {f : Fuses} (h : kindOf f (pageOf a) = 0) : fieldsAt f a = [] := by
  unfold fieldsAt; exact if_pos h

/-- A read that meets no field returns zero and changes nothing (R58). -/
theorem readReg_noFields (h : fieldsAt s.fuses (a / 4 * 4) = []) : readReg s a = (0, s) := by
  unfold readReg; exact if_pos (by simp [h])

/-- A slot without fields does not answer, whatever the power state (R58). -/
theorem answers_noFields (h : fieldsAt s.fuses (a / 4 * 4) = []) : answers s a = false := by simp [answers, h]

/-- What the command of a register write does is a software write as R48 has it. -/
theorem exec_registerWrite (t req a v : Nat) (whole : Bool) (s : State) :
    exec (.registerWrite t req a v whole) s = execRegisterWrite t req a v whole s := by rfl

/-- A register write that nothing answers changes the moment alone. -/
theorem exec_registerWrite_unanswered (h : answers s a = false) (t req v : Nat) (whole : Bool) :
    exec (.registerWrite t req a v whole) s = .next (advance s t) :=
  (exec_registerWrite t req a v whole s).trans (always_no h s t _)

end Sys2Proof.Machine

namespace Sys2Proof.Proofs
open Sys2Proof.Machine

/-- Settles O54: no address of an absent page has a field, so neither a read nor a write finds a slot that answers. -/
theorem absentPageReadsZeroAndIgnoresWrites : Obligations.AbsentPageReadsZeroAndIgnoresWrites := by
  unfold Obligations.AbsentPageReadsZeroAndIgnoresWrites
  intro s t req a v whole absent
  have noFields : fieldsAt s.fuses (a / 4 * 4) = [] :=
    fieldsAt_absentPage ((congrArg (kindOf s.fuses) (pageOf_slotStart a)).trans absent)
  exact ⟨readReg_noFields noFields, exec_registerWrite_unanswered (answers_noFields noFields) t req v whole⟩

end Sys2Proof.Proofs
end

section
/-! PROOF. The pop of a furrow (03_furrows.md, R112, R113): what a read of FUR_POP places and answers, and what it leaves. -/
namespace Sys2Proof.Machine

variable {s : State} {pg p req : Nat} {it : List (BitVec 28)} {rest : List (List (BitVec 28))}

/-! ## The words placed in FUR_POPDATA -/

/-- The words of a popped item at the slots from `base` on, the first of them at slot number `k`; there are eight slots. -/
def placeWords (base : Nat) (ws : List (BitVec 28)) (k : Nat) (s : State) : State :=
  (ws.zipIdx k).foldl (fun s x => if x.2 < 8 then wr s (base + 4 * x.2) (furData x.1) else s) s

theorem placeWords_cons {base k : Nat} {w : BitVec 28} {ws : List (BitVec 28)} :
    placeWords base (w :: ws) k s = placeWords base ws (k + 1) (if k < 8 then wr s (base + 4 * k) (furData w) else s) := rfl

/-- A reading that looks at no register reads the same after words are placed. -/
theorem placeWords_keep {β : Type} (f : State → β) (h : ∀ u r, f { u with regs := r } = f u) (base : Nat)
    (ws : List (BitVec 28)) (k : Nat) (s : State) : f (placeWords base ws k s) = f s := by
  induction ws generalizing k s with
  | nil => rfl
  | cons w ws ih =>
    rw [placeWords_cons, ih]
    split
    · exact h s _
    · rfl

/-- A register beside the slots of the words keeps its value. -/
theorem rd_placeWords_ne {base a : Nat} {ws : List (BitVec 28)} {k : Nat} (h : ∀ i, i < ws.length → a ≠ base + 4 * (k + i)) :
    rd (placeWords base ws k s) a = rd s a := by
  induction ws generalizing k s with
  | nil => rfl
  | cons w ws ih =>
    have head : a ≠ base + 4 * k := h 0 (Nat.succ_pos _)
    have tail : ∀ i, i < ws.length → a ≠ base + 4 * (k + 1 + i) := fun i hi => by
      have := h (i + 1) (Nat.succ_lt_succ hi); omega
    rw [placeWords_cons, ih tail]
    split
    · exact rd_wr_ne s _ head
    · rfl

theorem furData_lt (w : BitVec 28) : furData w < 2 ^ 24 := Nat.mod_lt _ (by decide)

/-- The slot of a word reads its data. -/
theorem rd_placeWords_at {base : Nat} {ws : List (BitVec 28)} {k i : Nat} (fits : k + ws.length ≤ 8) (hi : i < ws.length) :
    rd (placeWords base ws k s) (base + 4 * (k + i)) = furData ws[i] := by
  induction ws generalizing k i s with
  | nil => exact absurd hi (Nat.not_lt_zero _)
  | cons w ws ih =>
    rw [List.length_cons] at fits hi
    rw [placeWords_cons, if_pos (by omega : k < 8)]
    cases i with
    | zero =>
      rw [rd_placeWords_ne (fun j _ => by omega), Nat.add_zero, rd_wr_self, Nat.mod_eq_of_lt (furData_lt w), List.getElem_cons_zero]
    | succ i =>
      rw [show k + (i + 1) = k + 1 + i by omega, List.getElem_cons_succ]
      exact ih (by omega) (by omega)

/-! ## The word that FUR_POP answers -/

/-- The FUR_POP word: VALID, and POISON, LEN and REMAIN at their places (R112). -/
def popWord (poison : Bool) (len remain : Nat) : Nat :=
  0x800000 + b2n poison * 0x400000 + len % 16 * 0x10000 + min 0xFFFF remain

theorem b2n_le_one (b : Bool) : b2n b ≤ 1 := by cases b <;> decide

/-- Each field of FUR_POP reads back. -/
theorem bitsOf_popWord {poison : Bool} {len remain : Nat} (hl : len < 16) (hr : remain < 0x10000) :
    bitsOf (popWord poison len remain) 23 23 = 1 ∧ bitsOf (popWord poison len remain) 22 22 = b2n poison ∧
      bitsOf (popWord poison len remain) 19 16 = len ∧ bitsOf (popWord poison len remain) 15 0 = remain := by
  have hb := b2n_le_one poison
  unfold popWord bitsOf
  refine ⟨?_, ?_, ?_, ?_⟩ <;> norm_num <;> omega

/-! ## The furrow -/

/-- A furrow reads as it was put; every other furrow reads as before. -/
theorem getFur_putFur (s : State) (key j : Nat) (f : Furrow) :
    getFur (putFur s key f) j = if j = key then f else getFur s j := mapGet_mapPut emptyFurrow s.furrows key j f

/-- The state that a pop of the item `it` leaves: the items `rest` in the furrow, the words of `it` in FUR_POPDATA. -/
def popLeaves (s : State) (pg p : Nat) (it : List (BitVec 28)) (rest : List (List (BitVec 28))) : State :=
  placeWords (pg + p + 4) it 0 (putFur s pg { getFur s pg with items := rest, taken := 0, failed := false })

theorem popLeaves_stalled : (popLeaves s pg p it rest).stalled = s.stalled :=
  placeWords_keep (·.stalled) (fun _ _ => rfl) ..

theorem popLeaves_remoteIn : (popLeaves s pg p it rest).remoteIn = s.remoteIn :=
  placeWords_keep (·.remoteIn) (fun _ _ => rfl) ..

theorem getFur_popLeaves (q : Nat) : getFur (popLeaves s pg p it rest) q =
    if q = pg then { getFur s pg with items := rest, taken := 0, failed := false } else getFur s q :=
  (placeWords_keep (getFur · q) (fun _ _ => rfl) ..).trans (getFur_putFur s pg q _)

theorem rd_popLeaves_at (short : it.length ≤ 8) {i : Nat} (hi : i < it.length) :
    rd (popLeaves s pg p it rest) (pg + p + 4 + 4 * i) = furData it[i] := by
  have := rd_placeWords_at (s := putFur s pg { getFur s pg with items := rest, taken := 0, failed := false })
    (base := pg + p + 4) (k := 0) (by omega) hi
  rwa [Nat.zero_add] at this

theorem rd_popLeaves_ne {a : Nat} (h : ∀ i, i < it.length → a ≠ pg + p + 4 + 4 * i) :
    rd (popLeaves s pg p it rest) a = rd s a :=
  rd_placeWords_ne fun i hi => by rw [Nat.zero_add]; exact h i hi

/-- A pop of a furrow that holds an item takes the head item, places its words and answers the FUR_POP word (R113). -/
theorem popHead_head (items : (getFur s pg).items = it :: rest) (group : popGroup (kindOf s.fuses pg) = some p) :
    popHead s pg =
      (popWord (it.any furPoison || (getFur s pg).failed) it.length rest.length, popLeaves s pg p it rest) := by
  simp only [popHead, items, group]
  rfl

/-- A furrow that nobody waits for stands as it is. -/
theorem furSettle_nobodyWaits (waits : (getFur s pg).waits = []) (pops : ∀ q ∈ s.stalled, q.page ≠ pg) : furSettle s pg = s := by
  have none_here : s.stalled.filter (fun q => q.page == pg) = [] := by simpa [List.filter_eq_nil_iff] using pops
  simp [furSettle, waits, none_here, furPump]

/-- Where no other device's read is open, a read completes at the requester's own host. -/
theorem completeRead_ownHost (h : s.remoteIn = []) (v : Nat) :
    completeRead s req v = { s with hostRead := mapSet s.hostRead req { value := BitVec.ofNat 24 v, ur := false } } := by
  simp [completeRead, h]

/-- A pop of a furrow that holds an item, with no other pop stalled on it and nobody waiting for its space, completes at
once (R113). -/
theorem furPop_head (items : (getFur s pg).items = it :: rest) (group : popGroup (kindOf s.fuses pg) = some p)
    (waits : (getFur s pg).waits = []) (pops : ∀ q ∈ s.stalled, q.page ≠ pg) (own : s.remoteIn = []) :
    furPop s req pg =
      { popLeaves s pg p it rest with
        hostRead := mapSet (popLeaves s pg p it rest).hostRead req
          { value := BitVec.ofNat 24 (popWord (it.any furPoison || (getFur s pg).failed) it.length rest.length), ur := false } } := by
  have still : furSettle (popLeaves s pg p it rest) pg = popLeaves s pg p it rest :=
    furSettle_nobodyWaits (by simpa [getFur_popLeaves] using waits) (by simpa [popLeaves_stalled] using pops)
  have full : (getFur s pg).items.isEmpty = false := by simp [items]
  simp only [furPop, full, Bool.false_eq_true, if_false, popHead_head items group, still]
  exact completeRead_ownHost (popLeaves_remoteIn.trans own) _

/-! ## The command -/

/-- A pop group lies within its page, at a slot boundary. -/
theorem popGroup_slot {kind : Nat} (h : popGroup kind = some p) : p < 0x1000 ∧ p / 4 * 4 = p := by
  unfold popGroup at h
  split at h <;> simp at h <;> subst h <;> decide

/-- A read of FUR_POP by a requester that no pop holds up is a pop (R112). -/
theorem readFor_pop (aligned : pg % 0x1000 = 0) (group : popGroup (kindOf s.fuses pg) = some p) (reach : bootReach s pg = true)
    (free : holdsUp s req = false) : readFor s req (pg + p) = furPop s req pg := by
  obtain ⟨small, slot⟩ := popGroup_slot group
  have page : pageOf (pg + p) = pg := pageOf_add aligned small
  have pop : isPop s (pg + p) = true := by simp [isPop, page, group, slotOf_add aligned small, slot]
  simp [readFor, free, readNow, bootReach_of_page page reach, pop, page]

/-- What the command FUR_POP does is a read of the page's FUR_POP register. -/
theorem exec_furPop_eq (t req page : Nat) (s : State) : exec (.furPop t req page) s =
    always (hasPop s page) s t (fun s => readFor s req (page + (popGroup (kindOf s.fuses page)).getD 0)) := by rfl

/-- The command FUR_POP on a page that answers is a pop at its moment. -/
theorem exec_furPop_pops (t : Nat) (aligned : pg % 0x1000 = 0) (group : popGroup (kindOf s.fuses pg) = some p)
    (reach : bootReach (advance s t) pg = true) (free : holdsUp s req = false) :
    exec (.furPop t req pg) s = .next (settled (furPop (advance s t) req pg)) := by
  have group' : popGroup (kindOf (advance s t).fuses pg) = some p := by simpa using group
  have free' : holdsUp (advance s t) req = false := by simpa using free
  rw [exec_furPop_eq, always_yes (by simp [hasPop, group]), group', Option.getD_some, readFor_pop aligned group' reach free']

end Sys2Proof.Machine

namespace Sys2Proof.Proofs
open Sys2Proof.Machine

/-- Settles O55: the command is one pop (`exec_furPop_pops`); with no pop stalled on the furrow and nobody
waiting for its space, `furPop_head` says what stands before the command settles. -/
theorem furPopReturnsTheHead : Obligations.FurPopReturnsTheHead := by
  unfold Obligations.FurPopReturnsTheHead
  intro s t req page p it rest aligned group reach free items waits pops short few own
  have pop := furPop_head (s := advance s t) (req := req) (by simpa using items) (by simpa using group) (by simpa using waits)
    (by simpa using pops) (by simpa using own)
  rw [getFur_advance] at pop
  obtain ⟨valid, poison, len, remain⟩ := bitsOf_popWord (poison := it.any furPoison || (getFur s page).failed)
    (show it.length < 16 by omega) few
  refine ⟨_, _, exec_furPop_pops t aligned group reach free, ?answer, valid, poison, len, remain,
    ?furrow, ?words, ?registers, ?furrows⟩ <;> rw [pop]
  case answer => exact mapGet?_mapSet_self ..
  case furrow => exact (getFur_popLeaves page).trans (by rw [if_pos rfl, getFur_advance])
  case words => exact fun i hi => rd_popLeaves_at short hi
  case registers => exact fun a beside => (rd_popLeaves_ne beside).trans (rd_advance s t a)
  case furrows => exact fun q other => (getFur_popLeaves q).trans (by rw [if_neg other, getFur_advance])

end Sys2Proof.Proofs
end

section
/-! PROOF. The hedgerow (05_lookup_and_filtering.md, R184, R186, R188): which rule matches a key, and the verdict it gives. -/
namespace Sys2Proof.Machine

variable {s : State} {r i : Nat} {hk : List Nat} {e : TEntry}

/-! ## The live entries of a table -/

/-- A map with rising keys lists an entry exactly when its key reads as the entry's value. -/
theorem mem_iff_mapGet? {α : Type} {m : NMap α} (rising : mapRising m = true) (k : Nat) (v : α) :
    (k, v) ∈ m ↔ mapGet? m k = some v := by
  rw [mapRising_iff] at rising
  induction m with
  | nil => simp
  | cons x m ih =>
    obtain ⟨j, w⟩ := x
    obtain ⟨above, tail⟩ := List.pairwise_cons.mp rising
    rw [mapGet?_cons, List.mem_cons, Prod.mk.injEq]
    split_ifs with same
    · have notIn : (k, v) ∉ m := fun h => absurd (above _ h) (by simp [same])
      simp [same, notIn, eq_comm]
    · simp [Ne.symm same, ih tail]

/-- A valid live entry is one that the tables list: what they do not list reads as an entry that is not valid. -/
theorem tLive_eq_some_iff {pg t : Nat} :
    tLive s pg t i = some e ↔ mapGet? s.tables (tKey pg t 0 i) = some e ∧ e.valid = true := by
  unfold tLive tGet mapGet
  cases mapGet? s.tables (tKey pg t 0 i) with
  | none => simp [emptyEntry]
  | some x =>
    simp only [Option.getD_some, Option.ite_none_right_eq_some, Option.some.injEq]
    exact ⟨fun ⟨valid, same⟩ => ⟨same, same ▸ valid⟩, fun ⟨same, valid⟩ => ⟨same ▸ valid, same⟩⟩

/-- The live entries of a table are the valid entries at its 0x80000 indices. -/
theorem mem_liveEntries (rising : mapRising s.tables = true) (pg t : Nat) :
    (i, e) ∈ liveEntries s pg t ↔ i < 0x80000 ∧ tLive s pg t i = some e := by
  have key : tKey pg t 0 i = tKey pg t 0 0 + i := by simp [tKey]
  rw [tLive_eq_some_iff, ← mem_iff_mapGet? rising, key]
  unfold liveEntries
  rw [List.mem_filterMap]
  constructor
  · rintro ⟨⟨k, x⟩, listed, within⟩
    obtain ⟨⟨low, high, valid⟩, rfl, rfl⟩ := by simpa using within
    exact ⟨by omega, by rwa [Nat.add_sub_cancel' low], valid⟩
  · rintro ⟨small, listed, valid⟩
    exact ⟨_, listed, by simp [small, valid]⟩

/-- The live entries of a table stand by rising index. -/
theorem pairwise_liveEntries (rising : mapRising s.tables = true) (pg t : Nat) :
    (liveEntries s pg t).Pairwise (fun x y => x.1 < y.1) := by
  unfold liveEntries
  refine ((mapRising_iff _).mp rising).filterMap _ fun a b before x hx y hy => ?_
  obtain ⟨⟨_, _, _⟩, rfl⟩ := by simpa using hx
  obtain ⟨⟨_, _, _⟩, rfl⟩ := by simpa using hy
  show a.1 - _ < b.1 - _
  omega

/-! ## The matching rule -/

/-- A rule matches when VALUE and the key agree in each of their eight words under MASK (R184). -/
theorem ruleMatches_iff (e : TEntry) (hk : List Nat) :
    ruleMatches e hk = true ↔ ∀ k, k < 8 → hk.getD k 0 &&& tw e (8 + k) = tw e k &&& tw e (8 + k) := by
  simp only [ruleMatches, List.all_eq_true, List.mem_range, beq_iff_eq]

/-- The lowest matching rule is the one found. -/
theorem matchRule_eq_some (rising : mapRising s.tables = true) (small : i < 0x80000)
    (live : tLive s (hdgTable r) 0 i = some e) (hit : ruleMatches e hk = true)
    (lowest : ∀ j e', j < i → tLive s (hdgTable r) 0 j = some e' → ruleMatches e' hk = false) :
    matchRule s r hk = some (i, e) := by
  obtain ⟨before, after, split⟩ := List.append_of_mem ((mem_liveEntries rising _ _).mpr ⟨small, live⟩)
  have order := pairwise_liveEntries rising (hdgTable r) 0
  rw [split, List.pairwise_append] at order
  obtain ⟨-, -, below⟩ := order
  refine List.find?_eq_some_iff_append.mpr ⟨hit, before, after, split, fun x hx => ?_⟩
  obtain ⟨-, liveX⟩ := (mem_liveEntries rising _ _).mp (split ▸ List.mem_append_left _ hx)
  simp [lowest x.1 x.2 (below x hx _ (List.mem_cons_self ..)) liveX]

/-- Where no valid rule matches, none is found. -/
theorem matchRule_eq_none (rising : mapRising s.tables = true)
    (miss : ∀ j e, tLive s (hdgTable r) 0 j = some e → j < 0x80000 → ruleMatches e hk = false) :
    matchRule s r hk = none := by
  refine List.find?_eq_none.mpr fun x hx => ?_
  obtain ⟨small, live⟩ := (mem_liveEntries rising _ _).mp hx
  simp [miss x.1 x.2 live small]

/-! ## The verdict -/

/-- The state in which the hedgerow matches: the entries read with bad parity flagged (R247), the item counted (R543). -/
def hedgeSeen (s : State) (r : Nat) (bad : List (Nat × Nat)) : State :=
  handled (noteBad s r 0 ((liveEntries s (hdgTable r) 0).map (·.1)) bad) (hedgerowPage r)

/-- A reading that looks neither at the harrow's flags nor at the page's load reads the same once the item is seen. -/
theorem hedgeSeen_keep {β : Type} (g : State → β)
    (h : ∀ (u : State) fl ha sr, g { u with harrowFlags := fl, handledAt := ha, stallRetry := sr } = g u)
    (s : State) (r : Nat) (bad : List (Nat × Nat)) : g (hedgeSeen s r bad) = g s := by
  have flag : ∀ (u : State) (j : Nat), g (flagEntry u r 0 j) = g u := fun u j => by
    unfold flagEntry
    split
    · rfl
    · exact h u _ u.handledAt u.stallRetry
  exact (h _ _ _ _).trans (forEach_keep s g _ flag _)

/-- The state with the matching rule in HDG_LAST, and counted by each HDG_CNT that has it selected (R188). -/
def noteHit (s : State) (pg i : Nat) : State :=
  (List.range 8).foldl (fun s n =>
    if fld s (pg + 0x60 + 4 * n) 9 0 = i then addStat s (pg + 0x80 + 4 * n) 1 else s) (wr s (pg + 0x44) (0x400 + i))

/-- A reading that looks neither at registers nor at wide values reads the same after the hit is noted. -/
theorem noteHit_keep {β : Type} (g : State → β) (h : ∀ (u : State) rs w, g { u with regs := rs, wide := w } = g u)
    (s : State) (pg i : Nat) : g (noteHit s pg i) = g s := by
  refine (forEach_keep _ g _ (fun u n => ?_) (List.range 8)).trans (wr_keep s g (fun u rs => h u rs u.wide) _ _)
  split
  · exact h u u.regs _
  · rfl

theorem actsQuar_noteHit_hedgeSeen (s : State) (pg i : Nat) (bad : List (Nat × Nat)) :
    actsQuar (noteHit (hedgeSeen s r bad) pg i) r 0 i bad = actsQuar s r 0 i bad :=
  (noteHit_keep (actsQuar · r 0 i bad) (fun _ _ _ => rfl) ..).trans
    (hedgeSeen_keep (actsQuar · r 0 i bad) (fun _ _ _ _ => rfl) ..)

theorem matchRule_hedgeSeen (bad : List (Nat × Nat)) : matchRule (hedgeSeen s r bad) r hk = matchRule s r hk :=
  hedgeSeen_keep (matchRule · r hk) (fun _ _ _ _ => rfl) ..

/-- The matching rule's VERDICT is the verdict, 4 to 7 read as DENY (R186), unless the rule acts as quarantined. -/
theorem hedge_of_matchRule {bad : List (Nat × Nat)} (found : matchRule s r hk = some (i, e))
    (sound : actsQuar s r 0 i bad = false) :
    (hedge s r hk bad).1 = if 3 < twf e 16 23 21 then 1 else twf e 16 23 21 := by
  simp only [hedge, ← hedgeSeen.eq_def, matchRule_hedgeSeen, found, ← noteHit.eq_def, actsQuar_noteHit_hedgeSeen, sound,
    Bool.false_eq_true, if_false]
  split_ifs <;> dsimp only <;> omega

/-- HDG_CTRL.DEFAULT is read from a slot of its own: what a miss notes leaves it. -/
theorem effBit_hedgeMissed (s : State) (pg : Nat) :
    effBit (incSat (wr s (pg + 0x44) 0) (pg + 0x50)) pg (pg + 0x40) 0 = effBit s pg (pg + 0x40) 0 := by
  have held : rd (incSat (wr s (pg + 0x44) 0) (pg + 0x50)) (pg + 0x40) = rd s (pg + 0x40) := by
    unfold incSat addSat
    rw [rd_wr_ne _ _ (by omega), rd_wr_ne _ _ (by omega)]
  unfold effBit eff effWord
  rw [held]
  rfl

/-- Without a matching rule the verdict is HDG_CTRL.DEFAULT (R188). -/
theorem hedge_of_matchRule_none (miss : matchRule s r hk = none) (bad : List (Nat × Nat)) :
    (hedge s r hk bad).1 = b2n (effBit s (hedgerowPage r) (hedgerowPage r + 0x40) 0) := by
  have defaultBit : effBit (hedgeSeen s r bad) (hedgerowPage r) (hedgerowPage r + 0x40) 0 =
      effBit s (hedgerowPage r) (hedgerowPage r + 0x40) 0 := hedgeSeen_keep (effBit · _ _ 0) (fun _ _ _ _ => rfl) ..
  simp only [hedge, ← hedgeSeen.eq_def, matchRule_hedgeSeen, miss, effBit_hedgeMissed, defaultBit]
  split_ifs with deny <;> simp [b2n, deny]

end Sys2Proof.Machine

namespace Sys2Proof.Proofs
open Sys2Proof.Machine

/-- Settles O56: in canonical tables the live rules stand by rising index, so the first that matches is the lowest; the verdict is
that rule's (`hedge_of_matchRule`), else the default (`hedge_of_matchRule_none`). -/
theorem lowestMatchingRuleGivesTheVerdict : Obligations.LowestMatchingRuleGivesTheVerdict := by
  unfold Obligations.LowestMatchingRuleGivesTheVerdict
  rintro s r hk ⟨-, -, ⟨rising, -⟩, -, -⟩
  refine ⟨fun e => ruleMatches_iff e hk, fun i e small live hit lowest => ?found, fun miss => ?missed⟩
  case found =>
    have found := matchRule_eq_some rising small live hit lowest
    exact ⟨found, fun _ sound => hedge_of_matchRule found sound⟩
  case missed =>
    have noRule := matchRule_eq_none rising miss
    exact ⟨noRule, hedge_of_matchRule_none noRule⟩

end Sys2Proof.Proofs
end

section
/-! PROOF. The LIN checksum (10_lin_channels.md, R367): what the inverted sum with end-around carry comes to, and over which bytes. -/
namespace Sys2Proof.Machine

/-! ## The sum with end-around carry -/

/-- One step of the sum of R367: a carry out of bit 7 is added back at bit 0. -/
def carryAdd (a b : Nat) : Nat := if a + b ≥ 256 then a + b - 255 else a + b

/-- `r` is the sum with end-around carry of bytes that add up to `n`: 8 bits with the residue of `n` modulo 255, where 0 stands for
`n = 0` alone and 255 for every other multiple. -/
def IsCarrySum (n r : Nat) : Prop := r ≤ 255 ∧ r ≡ n [MOD 255] ∧ (r = 0 ↔ n = 0)

theorem isCarrySum_zero : IsCarrySum 0 0 := ⟨Nat.zero_le _, rfl, Iff.rfl⟩

/-- A carry takes 256 off and adds 1: the residue stays, and what is left is not 0. -/
theorem IsCarrySum.add {n r b : Nat} (h : IsCarrySum n r) (byte : b ≤ 255) : IsCarrySum (n + b) (carryAdd r b) := by
  obtain ⟨bound, residue, zero⟩ := h
  unfold carryAdd
  split_ifs with carry
  · have cut : r + b - 255 ≡ r + b [MOD 255] := (Nat.mod_eq_sub_mod (by omega)).symm
    exact ⟨by omega, cut.trans (residue.add_right b), by omega⟩
  · exact ⟨by omega, residue.add_right b, by omega⟩

theorem IsCarrySum.foldl {n r : Nat} {bs : List Nat} (h : IsCarrySum n r) (bytes : ∀ b ∈ bs, b ≤ 255) :
    IsCarrySum (n + bs.sum) (bs.foldl carryAdd r) := by
  induction bs generalizing n r with
  | nil => exact h
  | cons b bs ih =>
    obtain ⟨byte, bytes⟩ := List.forall_mem_cons.mp bytes
    rw [List.sum_cons, ← Nat.add_assoc, List.foldl_cons]
    exact ih (h.add byte) bytes

theorem linSum_eq_foldl_carryAdd (bs : List Nat) : linSum bs = 255 - bs.foldl carryAdd 0 := rfl

/-- The checksum of bytes is the one 8-bit number that takes their sum to a multiple of 255, 255 only where the sum is 0. -/
theorem linSum_spec {bs : List Nat} (bytes : ∀ b ∈ bs, b ≤ 255) :
    linSum bs ≤ 255 ∧ (bs.sum + linSum bs) % 255 = 0 ∧ (linSum bs = 255 ↔ bs.sum = 0) := by
  obtain ⟨bound, residue, zero⟩ := isCarrySum_zero.foldl bytes
  rw [Nat.zero_add] at residue zero
  rw [linSum_eq_foldl_carryAdd]
  unfold Nat.ModEq at residue
  exact ⟨by omega, by omega, by omega⟩

/-! ## The bytes of a frame -/

/-- A protected identifier is a byte: 6 bits of identifier and two of parity (R365). -/
theorem linPid_le (i : Nat) : linPid i ≤ 255 := by
  dsimp only [linPid]
  omega

/-- The bytes that the checksum of a frame covers: the data bytes, behind the PID in the enhanced form (R367). -/
def linCovered (s : State) (m i : Nat) (data : List Byte) : List Nat :=
  (if linEnhanced s m i then [linPid i] else []) ++ data.map (·.toNat)

theorem linCheck_eq_linSum (s : State) (m i : Nat) (data : List Byte) : linCheck s m i data = linSum (linCovered s m i data) := rfl

theorem linCovered_le (s : State) (m i : Nat) (data : List Byte) : ∀ b ∈ linCovered s m i data, b ≤ 255 := by
  refine List.forall_mem_append.mpr ⟨?pid, ?data⟩
  case pid =>
    split_ifs
    · exact List.forall_mem_singleton.mpr (linPid_le i)
    · exact List.forall_mem_nil _
  case data => exact List.forall_mem_map.mpr fun byte _ => Nat.le_of_lt_succ byte.isLt

theorem sum_linCovered (s : State) (m i : Nat) (data : List Byte) :
    (linCovered s m i data).sum = (if linEnhanced s m i then linPid i else 0) + (data.map (·.toNat)).sum := by
  unfold linCovered
  rw [List.sum_append]
  split_ifs
  · rw [List.sum_singleton]
  · rw [List.sum_nil]

/-- 0x3C and 0x3D are classic, every other identifier is what its ENH says (R367). -/
theorem linEnhanced_iff (s : State) (m i : Nat) :
    linEnhanced s m i = true ↔ i ≠ 0x3C ∧ i ≠ 0x3D ∧ effBit s (linPage m) (linCfg m i) 21 = true := by
  simp only [linEnhanced, Bool.and_eq_true, bne_iff_ne, and_assoc]

end Sys2Proof.Machine

namespace Sys2Proof.Proofs
open Sys2Proof.Machine

/-- Settles O57: the form is `linEnhanced_iff`; the checksum is `linSum` of the covered bytes, whose fold keeps the residue modulo 255
(`IsCarrySum.foldl`). -/
theorem linChecksumIsTheInvertedSum : Obligations.LinChecksumIsTheInvertedSum := by
  unfold Obligations.LinChecksumIsTheInvertedSum
  intro s m i data
  refine ⟨linEnhanced_iff s m i, _, rfl, ?_⟩
  rw [← sum_linCovered, linCheck_eq_linSum]
  exact linSum_spec (linCovered_le s m i data)

end Sys2Proof.Proofs
end

section
/-! PROOF. The check-value units (14_check_value_units.md, R514, R515): a write of CV_DATA while no computation runs. -/
namespace Sys2Proof.Machine

variable {s : State} {f : Fuses} {req u : Nat}

/-! ## The page of a unit -/

theorem cvPage_aligned (u : Nat) : cvPage u % 0x1000 = 0 := by unfold cvPage; omega

theorem domainOf_cvPage (h : u < 4) : domainOf (cvPage u) = 5 := by unfold domainOf cvPage; omega

theorem blockOf_cvPage (h : u < 4) : blockOf (cvPage u) = 5 := by unfold blockOf cvPage; omega

theorem cellOf_cvPage (h : u < 4) : cellOf (cvPage u) = u + 1 := by unfold cellOf cvPage; omega

/-- The four units are present in every variant (R693). -/
theorem kindOf_cvPage (h : u < 4) : kindOf f (cvPage u) = 0x46 := by
  have cell : u + 1 ≤ 4 := h
  simp [kindOf, domainOf_cvPage h, blockOf_cvPage h, cellOf_cvPage h, secKind, cell]

/-! ## CV_DATA -/

theorem pageOf_cvData (u : Nat) : pageOf (cvPage u + 0x4C) = cvPage u := pageOf_add (cvPage_aligned u) (by decide)

theorem slotOf_cvData (u : Nat) : slotOf (cvPage u + 0x4C) = 0x4C := slotOf_add (cvPage_aligned u) (by decide)

theorem fieldsAt_cvData (h : u < 4) : (fieldsAt f (cvPage u + 0x4C)).isEmpty = false := by
  have word : fr 0x4c 23 0 .rw .l 0 "CV_DATA.WORD" ∈ (kindFields 0x46).filter
      (fun g => fieldAt g 0x4C && fieldPresent f 0x46 (cvPage u) g 0x4C) := List.mem_filter.mpr ⟨by decide, by rfl⟩
  simp only [fieldsAt, pageOf_cvData, slotOf_cvData, kindOf_cvPage h]
  exact List.isEmpty_eq_false_iff_exists_mem.mpr ⟨_, word⟩

/-- The security domain belongs to no region: no write of it waits for one (R62). -/
theorem waitsParked_cvData (h : u < 4) (v : Nat) : waitsParked s (cvPage u + 0x4C) v = false := by
  simp [waitsParked, pageOf_cvData, domainOf_cvPage h]

theorem dispatchWrite_cvData (h : u < 4) (v : Nat) :
    dispatchWrite s req (cvPage u + 0x4C) v = cvBoundary (cvData s req u v) u := by
  simp [dispatchWrite, pageOf_cvData, slotOf_cvData, kindOf_cvPage h, cellOf_cvPage h, furGroup]

/-- A unit has no command register whose results an access would find. -/
theorem atPage_cvPage (h : u < 4) (t : Nat) : atPage s t (cvPage u) = advance s t := by
  have notUpdate : cvPage u ≠ updPage := by unfold cvPage updPage; omega
  exact atPage_none notUpdate (by simp [kindOf_cvPage h]) (by rw [kindOf_cvPage h]; rfl)

/-- What the command CV_DATA_WRITE does is a software write of the unit's CV_DATA. -/
theorem exec_cvDataWrite_eq (t req u v : Nat) (s : State) :
    exec (.cvDataWrite t req u v) s = software (decide (u < 4)) s t req (cvPage u + 0x4C) v := by rfl

/-- A PF0 write of CV_DATA that reaches its unit is taken at its moment, and the unit may be at a boundary behind it (R508). -/
theorem exec_cvDataWrite_reaches {t : Nat} (h : u < 4) (reach : pf0Reaches (advance s t) req (cvPage u)) (v : Nat) :
    exec (.cvDataWrite t req u v) s = .next (settled (cvBoundary (cvData (advance s t) req u (v % 2 ^ 24)) u)) := by
  have slot : (cvPage u + 0x4C) % 4 = 0 := by unfold cvPage; omega
  have reach' := pf0Reaches_of_page (pageOf_cvData u) reach
  have ⟨_, _, boot⟩ := reach'
  have answer : answers s (cvPage u + 0x4C) = true := answers_of slot (by simpa using boot) (fieldsAt_cvData h)
  rw [exec_cvDataWrite_eq, software_writes (decide_eq_true h) slot reach' answer (fieldsAt_cvData h) (waitsParked_cvData h _),
    pageOf_cvData, atPage_cvPage h, dispatchWrite_cvData h]

/-- A write on a locked page is a lock violation and nothing else, whether a computation runs or not (R514). -/
theorem cvData_locked (locked : bit s (cvPage u + 0x24) 0 = true) (v : Nat) :
    cvData s req u v = lockViolation s req (cvPage u + 0x4C) := by simp [cvData, locked]

/-- A write while no computation runs feeds nothing: the register takes the value, and STRAY is set (R515). -/
theorem cvData_stray (unlocked : bit s (cvPage u + 0x24) 0 = false) (idle : mapGet? s.cvRun u = none) (v : Nat) :
    cvData s req u v = setBit (wr s (cvPage u + 0x4C) (v % 2 ^ 24)) (cvPage u + 0x54) 3 := by simp [cvData, unlocked, idle]

end Sys2Proof.Machine

namespace Sys2Proof.Proofs
open Sys2Proof.Machine

/-- Settles O59: the write reaches the unit (`exec_cvDataWrite_reaches`), where it is stray (`cvData_stray`, R515) or, on a locked
page, a lock violation (`cvData_locked`, R514). -/
theorem strayCheckValueWordIsFlagged : Obligations.StrayCheckValueWordIsFlagged := by
  unfold Obligations.StrayCheckValueWordIsFlagged
  intro s t req u v unit reach idle
  rw [exec_cvDataWrite_reaches unit reach]
  refine ⟨fun unlocked => ?stray, fun locked => ?locked⟩
  case stray => rw [cvData_stray (by simpa using unlocked) (by simpa using idle), Nat.mod_mod]
  case locked => rw [cvData_locked (by simpa using locked)]

end Sys2Proof.Proofs
end

section
/-! PROOF. What every command and every step comes to: the three forms of a command's answer, and what a step and a run keep. -/
namespace Sys2Proof.Machine

variable {s : State}

/-! ## The form of a command's answer -/

/-- An answer acts where the element it names exists and, beyond that, `more` holds, which for an event is that the core works;
else the moment alone changes. -/
def HasForm (present event : Bool) (s : State) (o : Answer) : Prop :=
  ∃ more t f, o = always (present && more) s t f ∧ (event = true → more = coreUp s)

section
variable {ok : Bool} {t req a v : Nat} {f : State → State}

theorem hasForm_event : HasForm ok true s (event ok s t f) := ⟨coreUp s, t, f, rfl, fun _ => rfl⟩

theorem hasForm_answers : HasForm ok false s (always (ok && answers s a) s t f) := ⟨answers s a, t, f, rfl, nofun⟩

theorem hasForm_software : HasForm ok false s (software ok s t req a v) := hasForm_answers

theorem hasForm_commanded {met : Bool} : HasForm true false s (commanded s t req a v met f) := hasForm_answers (ok := true)

theorem hasForm_always : HasForm ok false s (always ok s t f) := ⟨true, t, f, by rw [Bool.and_true], nofun⟩

end

/-- The form of every command's answer. -/
theorem exec_hasForm (i : Instr) (s : State) : HasForm (namesPresent s.fuses i) (isEvent i) s (exec i s) := by
  cases i with
  | itemBoundary | cfgPassEnd | cfgWindowTimeout | furrowCommit | furrowRewind | furrowWordRead | popGuardExpiry
  | busIntegration | canFrameReceived | canRxError | canRouterFill | canTxSelection | canArbLoss | canTxError | canTxDone
  | busOffRecovered | trxStatusReport | transceiverModeCommand | linkDown | linkUp | ethFrameReceived | macControlFrame
  | pauseTimerExpiry | ethFrameSent | pauseRefresh | collision | backoffExpiry | t1sForcedJam | plcaTransmitOpportunity
  | speedDuplexChange | countedFault | rowTestEnd | operMinute | handshakeStall | paceWindow | monitorSample | htxDescriptor
  | hostqStallExpiry | lateCompletion | hrxDeliver | msixHoldoffEnd | ebderLinkTrained | idClashRetry | ebderFrameReceived
  | ebderAck | ebderNak | ebderCredit | replayTimeout | linkRetrain | relayWaitExpiry | regReqReceived | regRspReceived
  | remoteAccessTimeout | intFrameReceived | linSlotStart | linHeaderReceived | linResponseReceived | linResponseTimeout
  | linRoutedFill | linWakePulse | linWakeWaitExpiry | linIdle | leaseExpiry | guardExpiry | pairFrameSend | pairFrameReceived
  | contactTimeout | reclaimHoldExpiry | reclaimReceived | mirrorReceived | leaseOutToggle | healthyRestored
  | standbyPagesStopped | mbUnpack | mbPack | drillTick | deadlineTimeout | mdtDeferralEnd | repetitionDue | periodicSend
  | linPull | laneDispatch | secocGenerate | secocVerify | macsecProtect | macsecReceive | laneSelftestDone | entropyHealthFail
  | entropyStartupDone | keySaveDone | admission | plotCharge | plotFree | heldAccountMove | egressSelect | copyAgeExpiry
  | cutThroughStart | gateCycleStart | gateEntryEnd | reseqItemArrival | reseqVoid | rsqGapExpiry | outputDown | holdExpiry
  | outputUp | stuckExpiry | pipelineItem | tablePendingTimeout | learnApply | pinEnd | ageingVisit | harrowCompare
  | harrowFlagJudge | updateHeaderBlock | updateBodyBlock | trialTimerExpiry | trialMinute | repeatExpiry | nmTimerExpiry
  | nmCycle | waitExpiry | sleepCommit | falseWakeWindowExpiry | keepawakeFlag | regionPark | regionUnpark | nmSourceHolding =>
    dsimp only [exec, namesPresent, isEvent]; exact hasForm_event
  | pageRun | pageStop | pageRestart | mbxSnap | mbxSnapclr | mbxCommit | cfgOpen | cfgClose | furHwmWrite | canModeWrite
  | timeStep | hubReclaim | monSnap | monConfigWrite | linBufReadySet | linSchedSwitch | pairHandover | pwrStandby | ssWrite
  | mbSend | drbgReseed | keyGenerate | keyErase | keyInfo | cvStart | cvAbort | cvDataWrite | rsqReset | tpHash | unpinAll
  | lrnFlush | updConfirm | updAbandon | updEpoch | setDelete | clRelease =>
    dsimp only [exec, namesPresent, isEvent]; exact hasForm_software
  | keyDerive | updVerify | updActivate | updReject | setRead | setWrite =>
    dsimp only [exec, namesPresent, isEvent]; exact hasForm_commanded
  | tpRead | tpWrite | tpInval =>
    dsimp only [exec, namesPresent, isEvent]; exact hasForm_answers
  | mbxDataRead | furPop | objReq | objCancel | objNewReturn | heartbeatWord | tailWrite | remoteAccess | leaseGrant
  | vbatPowerOn | vbatPowerOff | coreSupplyGood | pgoodTimeout | voteRetry | pwrWarm | autoStandbyExpiry | standbyHoldExpiry
  | brownOut | refclkLoss | perstAssert | coreSupplyRemoved | perstRelease | pcieLinkUp | pcieLinkDown | refclkRestored
  | ssRead | drbgOutRead | lcGo | wakeEvent | wakeInEdge | clRequest | fwHourPeriod | heartbeatLapse | powerVoteWithdraw =>
    dsimp only [exec, namesPresent, isEvent]; exact hasForm_always
  | registerWrite =>
    dsimp only [exec, namesPresent, isEvent]; exact hasForm_answers (ok := true)

theorem HasForm.answers_next {present event : Bool} {o : Answer} (h : HasForm present event s o) : ∃ u, o = .next u := by
  obtain ⟨more, t, f, form, -⟩ := h
  exact ⟨_, form⟩

/-- What names an absent element changes the moment alone. -/
theorem HasForm.absent {present event : Bool} {o : Answer} (h : HasForm present event s o) (absent : present = false) :
    ∃ t, o = .next (advance s t) := by
  obtain ⟨more, t, f, form, -⟩ := h
  exact ⟨t, form.trans (always_no (by rw [absent, Bool.false_and]) s t f)⟩

/-- An event changes the moment alone while the core does not work. -/
theorem HasForm.core_down {present event : Bool} {o : Answer} (h : HasForm present event s o) (isEvent : event = true)
    (down : coreUp s = false) : ∃ t, o = .next (advance s t) := by
  obtain ⟨more, t, f, form, core⟩ := h
  exact ⟨t, form.trans (always_no (by rw [core isEvent, down, Bool.and_false]) s t f)⟩

/-! ## What a step and a run keep -/

theorem exec_of_step {c : Instr} {rest : List Instr} (front : s.pending = c :: rest) :
    step s = exec c { s with pending := rest } := by unfold step; rw [front]

theorem step_of_empty (empty : s.pending = []) : step s = .next s := by unfold step; rw [empty]

/-- A fact that idling has, and that every command has whatever waits behind it, is a fact of every step. -/
theorem step_induction {P : State → State → Prop} (idle : ∀ s, P s s)
    (acts : ∀ s c rest u, s.pending = c :: rest → Keeps { s with pending := rest } u → P s u) (h : step s = .next u) : P s u := by
  cases front : s.pending with
  | nil =>
    rw [step_of_empty front] at h
    cases h
    exact idle s
  | cons c rest => exact acts s c rest u front (keeps_exec c _ u (exec_of_step front ▸ h))

theorem run_succ {M : Host.Core} {k : Nat} {s u : M.State} (first : M.step s = .next u) : M.run (k + 1) s = M.run k u := by
  rw [Host.Core.run.eq_def]
  simp only [first]

/-- A queue of commands runs to its end: each step takes one command off it. -/
theorem run_queue (q : List Instr) (s : State) (h : s.pending = q) :
    ∃ u, Sys2Proof.core.run q.length s = .next u ∧ u.pending = [] ∧ u.fuses = s.fuses ∧ s.outbox <:+ u.outbox := by
  induction q generalizing s with
  | nil => exact ⟨s, rfl, h, rfl, List.suffix_refl _⟩
  | cons c rest ih =>
    obtain ⟨v, acts⟩ := (exec_hasForm c { s with pending := rest }).answers_next
    have kept := keeps_exec c _ v acts
    obtain ⟨u, run, empty, variant, sent⟩ := ih v kept.pending
    refine ⟨u, ?_, empty, variant.trans kept.fuses, kept.outbox.trans sent⟩
    have first : Sys2Proof.core.step s = .next v := (exec_of_step h).trans acts
    exact (run_succ first).trans run

end Sys2Proof.Machine

namespace Sys2Proof.Proofs
open Sys2Proof.Machine

/-- Settles O1: it is how `step` takes a command. -/
theorem stepRunsFrontCommand : Obligations.StepRunsFrontCommand := by
  unfold Obligations.StepRunsFrontCommand
  exact fun c rest s => exec_of_step (s := { s with pending := c :: rest }) rfl

/-- Settles O2: it is how `step` idles. -/
theorem emptyQueueIdles : Obligations.EmptyQueueIdles := by
  unfold Obligations.EmptyQueueIdles
  exact fun s => step_of_empty

/-- Settles O3: every answer has the form `always`, with the named element's presence among its conditions (`exec_hasForm`). -/
theorem commandsAnswer : Obligations.CommandsAnswer := by
  unfold Obligations.CommandsAnswer
  intro i s
  exact ⟨(exec_hasForm i s).answers_next, (exec_hasForm i s).absent⟩

/-- Settles O4: four of the facts that every command keeps (`keeps_exec`). -/
theorem nextStateKeepsVariantQueueAndOutput : Obligations.NextStateKeepsVariantQueueAndOutput := by
  unfold Obligations.NextStateKeepsVariantQueueAndOutput
  intro i s u h
  have kept := keeps_exec i s u h
  exact ⟨kept.fuses, kept.pending, kept.now, kept.outbox⟩

/-- Settles O5: every command keeps the stores canonical (`keeps_exec`), and they do not depend on the queue. -/
theorem stepKeepsStoresCanonical : Obligations.StepKeepsStoresCanonical := by
  unfold Obligations.StepKeepsStoresCanonical
  intro s u canonical h
  exact step_induction (P := fun s u => storesWf s → storesWf u) (fun _ => id) (fun _ _ _ _ _ kept => kept.stores) h canonical

/-- Settles O7: every command keeps the programmed steps (`keeps_exec`). -/
theorem epochFusesNeverCleared : Obligations.EpochFusesNeverCleared := by
  unfold Obligations.EpochFusesNeverCleared
  intro s u h
  exact step_induction (P := fun s u => s.fuseEpoch ≤ u.fuseEpoch) (fun _ => le_refl _) (fun _ _ _ _ _ kept => kept.epoch) h

/-- Settles O8: every command keeps the life cycle from going back (`keeps_exec`). -/
theorem lifeCycleNeverGoesBack : Obligations.LifeCycleNeverGoesBack := by
  unfold Obligations.LifeCycleNeverGoesBack
  intro s u h
  exact step_induction (P := fun s u => s.fuseLc ≤ u.fuseLc) (fun _ => le_refl _) (fun _ _ _ _ _ kept => kept.lc) h

/-- Settles O9, by induction on the queue (`run_queue`). -/
theorem presentQueueRunsToItsEnd : Obligations.PresentQueueRunsToItsEnd := by
  unfold Obligations.PresentQueueRunsToItsEnd
  exact fun s => run_queue s.pending s rfl

/-- Settles O10: an event's answer has the working core among its conditions (`exec_hasForm`). -/
theorem eventsNeedTheCore : Obligations.EventsNeedTheCore := by
  unfold Obligations.EventsNeedTheCore
  exact fun i s => (exec_hasForm i s).core_down

end Sys2Proof.Proofs
end

section
/-! PROOF. Register writes (02_register_interface.md): what a software write comes to, by its slot, its byte enables, the page it is
on and who waits before it. -/
namespace Sys2Proof.Machine

variable {s : State} {t req a v : Nat}

/-! ## What an answer lets go on -/

theorem next_settled {u w : State} (h : u = w) : (.next (settled u) : Answer) = .next (settled w) := by rw [h]

section
variable {ok : Bool} {f : State → State} {u : State}

/-- A command of an element that exists answers what it makes of its moment. -/
theorem always_does (present : ok = true) (does : f (advance s t) = u) : always ok s t f = .next (settled u) :=
  (always_yes present s t f).trans (next_settled does)

/-- So does an event while the core works. -/
theorem event_does (present : ok = true) (core : coreUp s = true) (does : f (advance s t) = u) :
    event ok s t f = .next (settled u) := (event_yes present core t f).trans (next_settled does)

theorem yielding_does {w : State} {i : Instr} (first : mustYield w i = false) (does : yieldAct w i = u) : yielding w i = u :=
  (yielding_acts first).trans does

/-- A command that something goes before waits behind it, its moment come. -/
theorem yielding_advance_waits {i : Instr} (behind : mustYield (advance s t) i = true) :
    yielding (advance s t) i = { advance s t with yields := s.yields ++ [i] } := by
  rw [yielding_waits behind, advance_yields]

end

/-! ## Commands that wait for nothing -/

/-- A register write that is no table-port command stands behind nothing (R215, R254). -/
theorem mustYield_registerWrite {w : Bool} (h : tpCommandOf s (.registerWrite t req a v w) = none) :
    mustYield s (.registerWrite t req a v w) = false := by
  simp [mustYield, waitsFor, h]

theorem tpCommandOf_partial : tpCommandOf s (.registerWrite t req a v false) = none := rfl

theorem tpCommandOf_registerWrite {w : Bool} (h : kindOf s.fuses (pageOf a) ≠ 0x1F) :
    tpCommandOf s (.registerWrite t req a v w) = none := by
  simp [tpCommandOf, h]

/-! ## A write of a requester whose turn has come -/

/-- A register write that nothing goes before, at a slot that answers. -/
theorem exec_registerWrite_turn {w : Bool} (answer : answers s a = true)
    (turn : mustYield (advance s t) (.registerWrite t req a v w) = false) :
    exec (.registerWrite t req a v w) s = .next (settled (writeReg (advance s t) req a v w)) := by
  rw [exec_registerWrite, execRegisterWrite, always_yes answer, yielding_acts turn]
  rfl

/-- A slot that answers, from the address of one of its bytes. -/
theorem answers_byte {k : Nat} (aligned : a % 4 = 0) (small : k < 4) (reach : bootReach s a = true)
    (fields : (fieldsAt s.fuses a).isEmpty = false) : answers s (a + k) = true := by
  have start : (a + k) / 4 * 4 = a := by omega
  simp [answers, start, reach, fields]

/-- A write that is not whole, or not aligned to its slot, is ignored and recorded (R35). -/
theorem writeReg_partial {k : Nat} {w : Bool} (aligned : a % 4 = 0) (small : k < 4) (notWhole : w = false ∨ 0 < k)
    (free : holdsUp s req = false) (reach : bootReach s a = true) (fields : (fieldsAt s.fuses a).isEmpty = false) :
    writeReg s req (a + k) v w = raiseRec s hubPage 0x01 0 0 a 0 := by
  have start : (a + k) / 4 * 4 = a := by omega
  have part : (w && (a + k) % 4 == 0) = false := by
    rcases notWhole with rfl | pos
    · rfl
    · rw [beq_eq_false_iff_ne.mpr (by omega), Bool.and_false]
  simp [writeReg, writeNow, partialWrite, start, part, free, reach, fields]

/-- A whole write to the memory of a parked region waits until the region runs (R62, R452). -/
theorem writeReg_parked (aligned : a % 4 = 0) (free : holdsUp s req = false) (reach : bootReach s a = true)
    (fields : (fieldsAt s.fuses a).isEmpty = false) (parks : waitsParked s a (v % 2 ^ 24) = true) :
    writeReg s req a v true = { s with
      retained := s.retained ++ [{ requester := req, addr := a, value := v % 2 ^ 24, sel := rd s (pageOf a + 0x70) }] } := by
  have start : a / 4 * 4 = a := by omega
  simp only [writeReg, writeNow, start, free, reach, fields, parks, aligned, beq_self_eq_true, Bool.and_true, Bool.not_true,
    Bool.or_false, Bool.false_eq_true, if_false, if_true]

/-- A write behind a stalled pop of its requester waits with its value (R51). -/
theorem writeReg_held {w : Bool} (stalled : holdsUp s req = true) : writeReg s req a v w = { s with
    held := s.held ++ [{ requester := req, write := true, addr := a, value := v, whole := w, tag := none }] } := by
  simp [writeReg, holdAccess, stalled]

/-! ## Commands that are register writes -/

/-- An answer is the register write that `w` names, where its element is present and nothing goes before the command. -/
def IsWrite (present : Bool) (s : State) (i : Instr) (o : Answer) (w : Option RegWrite) : Prop :=
  ∀ r, w = some r → present = true → mustYield (advance s r.moment) i = false →
    mustYield (advance s r.moment) (.registerWrite r.moment r.req r.addr r.value true) = false →
    o = exec (.registerWrite r.moment r.req r.addr r.value true) s

section
variable {ok : Bool} {i : Instr} {o : Answer}

theorem isWrite_none : IsWrite ok s i o none := nofun

/-- What writes the register at its moment, where it answers, is the register write. -/
theorem isWrite_of_writes {f : State → State} {more : Bool} (here : ok = true → more = answers s a)
    (writes : mustYield (advance s t) i = false → f (advance s t) = writeReg (advance s t) req a v true) :
    IsWrite ok s i (always more s t f) (some ⟨t, req, a, v⟩) := by
  intro r same present first second
  cases same
  rw [exec_registerWrite, execRegisterWrite, always, always, here present, writes first, yielding_acts second]
  rfl

theorem isWrite_software : IsWrite ok s i (software ok s t req a v) (some ⟨t, req, a, v⟩) :=
  isWrite_of_writes (fun present => by rw [present, Bool.true_and]) (fun _ => rfl)

/-- A command that meets no outcome of its own is its register write. -/
theorem isWrite_commanded {met : Bool} {f : State → State} (c : Prop) [Decidable c] (unmet : c → met = false) :
    IsWrite ok s i (commanded s t req a v met f) (if c then some ⟨t, req, a, v⟩ else none) := by
  split
  · exact isWrite_of_writes (fun _ => rfl) (fun _ => by simp [unmet ‹c›])
  · exact isWrite_none

/-- A table-port command that takes its turn is its register write. -/
theorem isWrite_yielding (acts : yieldAct (advance s t) i = writeReg (advance s t) req a v true) :
    IsWrite ok s i (always (ok && answers s a) s t (fun s => yielding s i)) (some ⟨t, req, a, v⟩) :=
  isWrite_of_writes (fun present => by rw [present, Bool.true_and]) (fun first => (yielding_acts first).trans acts)

end

/-- Every command is the register write that the table names for it. -/
theorem exec_isWrite (i : Instr) (s : State) : IsWrite (namesPresent s.fuses i) s i (exec i s) (registerWriteOf s.fuses i) := by
  cases i with
  | pageRun | pageStop | pageRestart | mbxSnap | mbxSnapclr | mbxCommit | cfgOpen | cfgClose | furHwmWrite | canModeWrite
  | timeStep | hubReclaim | monSnap | monConfigWrite | linBufReadySet | linSchedSwitch | pairHandover | pwrStandby | ssWrite
  | mbSend | drbgReseed | keyGenerate | keyErase | keyInfo | cvStart | cvAbort | cvDataWrite | rsqReset | tpHash | unpinAll
  | lrnFlush | updConfirm | updAbandon | updEpoch | setDelete | clRelease =>
    dsimp only [exec, namesPresent, registerWriteOf]; exact isWrite_software
  | tpRead | tpWrite | tpInval =>
    dsimp only [exec, namesPresent, registerWriteOf]; exact isWrite_yielding rfl
  | keyDerive | updVerify | updActivate | updReject | setRead =>
    dsimp only [exec, namesPresent, registerWriteOf]; exact isWrite_commanded _ (fun unmet => by rw [unmet]; rfl)
  | setWrite t req full =>
    cases full with
    | true => exact isWrite_none
    | false => dsimp only [exec, namesPresent, registerWriteOf]; exact isWrite_commanded True (fun _ => rfl)
  | _ =>
    exact isWrite_none

/-! ## A command's register on a page -/

section
variable {p k kind : Nat} {ok : Bool}

/-- Outside the table ports and the CAN objects no write waits for a parked region (R62, R452). -/
theorem waitsParked_of_kind (h : kindOf s.fuses (pageOf a) = kind) (notPort : kind ≠ 0x1F) (notCan : kind ≠ 0x03) :
    waitsParked s a v = false := by
  simp [waitsParked, objRetained, h, notPort, notCan]

/-- A slot beyond the header has the fields of its page's kind there that the variant has. -/
theorem fieldsAt_of_mem {f : Fuses} {g : RegField} (aligned : p % 0x1000 = 0) (h : kindOf f p = kind) (small : k < 0x1000)
    (beyond : 0x40 ≤ k) (slot : k % 4 = 0) (exists' : kind ≠ 0) (mem : g ∈ kindFields kind) (there : fieldAt g k = true)
    (has : fieldPresent f kind p g k = true) : (fieldsAt f (p + k)).isEmpty = false := by
  have start : k / 4 * 4 = k := by omega
  have offset : ¬ k < 0x40 := by omega
  simp only [fieldsAt, pageOf_add aligned small, slotOf_add aligned small, start, h, exists', offset, if_false]
  exact List.isEmpty_eq_false_iff_exists_mem.mpr ⟨g, List.mem_filter.mpr ⟨mem, by rw [there, has]; rfl⟩⟩

/-- The kinds of which some fields are missing in some variants. -/
def variantKinds : List Nat := [0x09, 0x0A, 0x0D, 0x0F, 0x23, 0x25, 0x40]

theorem fieldPresent_of_kind {f : Fuses} {g : RegField} (h : kind ∉ variantKinds) : fieldPresent f kind p g k = true := by
  simp only [variantKinds, List.mem_cons, List.not_mem_nil, not_or] at h
  unfold fieldPresent
  split <;> simp_all

/-- A slot of a kind that has all its fields in every variant. -/
theorem fieldsAt_of_kind {f : Fuses} (aligned : p % 0x1000 = 0) (h : kindOf f p = kind) (small : k < 0x1000) (beyond : 0x40 ≤ k)
    (slot : k % 4 = 0) (exists' : kind ≠ 0) (whole : kind ∉ variantKinds) (some' : (kindFields kind).any (fieldAt · k) = true) :
    (fieldsAt f (p + k)).isEmpty = false := by
  obtain ⟨g, mem, there⟩ := List.any_eq_true.mp some'
  exact fieldsAt_of_mem aligned h small beyond slot exists' mem there (fieldPresent_of_kind whole)

/-- A software command at a slot of a page that answers is that slot's write, on the page as a completed command has left it. -/
theorem software_page (present : ok = true) (aligned : p % 0x1000 = 0) (small : k < 0x1000) (slot : k % 4 = 0)
    (h : kindOf s.fuses p = kind) (notPort : kind ≠ 0x1F) (notCan : kind ≠ 0x03) (reach : pf0Reaches (advance s t) req p)
    (fields : (fieldsAt s.fuses (p + k)).isEmpty = false) :
    software ok s t req (p + k) v = .next (settled (dispatchWrite (atPage s t p) req (p + k) (v % 2 ^ 24))) := by
  have page : pageOf (p + k) = p := pageOf_add aligned small
  have reach' := pf0Reaches_of_page page reach
  have ⟨_, _, boot⟩ := reach'
  have answer : answers s (p + k) = true := answers_of (by omega) (by simpa using boot) fields
  rw [software_writes present (by omega) reach' answer fields
    (waitsParked_of_kind (by rw [advance_fuses, page, h]) notPort notCan), page]

/-- A page without a command register is found as the moment leaves it. -/
theorem atPage_of_kind (h : kindOf s.fuses p = kind) (plain : cmdSlot kind = none) : atPage s t p = advance s t := by
  subst h
  refine atPage_none (fun update => ?_) (fun port => ?_) plain
  · rw [update] at plain; exact absurd plain (by decide : cmdSlot 0x2A ≠ none)
  · rw [port] at plain; exact absurd plain (by decide)

/-- A software command at a slot of a page that has no command register. -/
theorem software_plain {u : State} (present : ok = true) (aligned : p % 0x1000 = 0) (small : k < 0x1000) (slot : k % 4 = 0)
    (h : kindOf s.fuses p = kind) (plain : cmdSlot kind = none) (notCan : kind ≠ 0x03) (reach : pf0Reaches (advance s t) req p)
    (fields : (fieldsAt s.fuses (p + k)).isEmpty = false)
    (does : dispatchWrite (advance s t) req (p + k) (v % 2 ^ 24) = u) :
    software ok s t req (p + k) v = .next (settled u) := by
  have notPort : kind ≠ 0x1F := fun port => absurd (port ▸ plain) (by decide)
  rw [software_page present aligned small slot h notPort notCan reach fields, atPage_of_kind h plain, does]

end

end Sys2Proof.Machine

namespace Sys2Proof.Proofs
open Sys2Proof.Machine

/-- Settles O6: the stores list nothing, so every register reads its reset word. -/
theorem resetStoresCanonical : Obligations.ResetStoresCanonical := by
  unfold Obligations.ResetStoresCanonical
  exact ⟨⟨⟨rfl, nofun⟩, mapCanon_nil _, mapCanon_nil _, mapCanon_nil _, rfl⟩, fun _ => rfl⟩

/-- Settles O12: the laws of register words (`rd_wr_self`, `rd_wr_ne`) and of fields (`fld_setFld_self`, `fld_setFld_ne`). -/
theorem registersAndFieldsAreIndependent : Obligations.RegistersAndFieldsAreIndependent := by
  unfold Obligations.RegistersAndFieldsAreIndependent
  refine ⟨fun s a v => ⟨rd_wr_self s a v, fun b => rd_wr_ne s v, rfl⟩, fun s a hi lo v le small => ?_⟩
  exact ⟨fld_setFld_self s a hi lo v le small, fun h l _ top apart => fld_setFld_ne s a hi lo v h l le top apart,
    fun b => rd_setFld_ne s hi lo v, rfl⟩

/-- Settles O13: a counter's word is the smaller of the sum and 0xFFFFFF, which 24 bits hold; a statistic's is the sum modulo 2^48. -/
theorem countersSaturateAndStatisticsWrap : Obligations.CountersSaturateAndStatisticsWrap := by
  unfold Obligations.CountersSaturateAndStatisticsWrap
  intro s a n
  have fits : min 0xFFFFFF (rd s a + n) < 2 ^ 24 := by omega
  exact ⟨(rd_wr_self s a _).trans (Nat.mod_eq_of_lt fits), rdWide_wrWide_self s a _,
    fun b apart => ⟨rd_wr_ne s _ apart, rdWide_wrWide_ne s _ apart⟩, rfl⟩

/-- Settles O14: the slot answers (`answers_byte`), and the write acts (`writeReg_pf0`), waits (`writeReg_parked`, `writeReg_held`) or
is recorded (`writeReg_partial`). -/
theorem registerWriteCompletes : Obligations.RegisterWriteCompletes := by
  unfold Obligations.RegisterWriteCompletes
  intro s t req a v
  refine ⟨fun reach aligned fields => ?whole, fun k small pos aligned boot fields free w turn => ?offset,
    fun stalled answer w turn => ?held, fun aligned silent w => ?silent⟩
  case whole =>
    have ⟨_, free, boot⟩ := reach
    have fields' : (fieldsAt (advance s t).fuses a).isEmpty = false := by rwa [advance_fuses]
    have answer : answers s a = true := answers_of aligned (by simpa using boot) fields
    refine ⟨fun turn => ⟨fun calm => ?_, fun parks => ?_⟩, ?_⟩
    · rw [exec_registerWrite_turn answer turn, writeReg_pf0 aligned reach fields calm]
    · rw [exec_registerWrite_turn answer turn, writeReg_parked aligned free boot fields' parks, advance_retained, rd_advance]
    · rw [exec_registerWrite_turn answer (mustYield_registerWrite tpCommandOf_partial)]
      exact next_settled (writeReg_partial (k := 0) aligned (by decide) (.inl rfl) free boot fields')
  case offset =>
    rw [exec_registerWrite_turn (answers_byte aligned small (by simpa using boot) fields) turn,
      writeReg_partial aligned small (.inr pos) (by simpa using free) boot (by rwa [advance_fuses])]
  case held =>
    rw [exec_registerWrite_turn (by simpa using answer) turn, writeReg_held (by simpa using stalled), advance_held]
  case silent =>
    have start : a / 4 * 4 = a := by omega
    refine exec_registerWrite_unanswered ?_ t req v w
    rcases silent with unpowered | absent
    · simp [answers, start, show bootReach s a = false by simpa using unpowered]
    · simp [answers, start, absent]

/-- Settles O15: by the command's form, each is its register write (`exec_isWrite`). -/
theorem softwareCommandsAreRegisterWrites : Obligations.SoftwareCommandsAreRegisterWrites := by
  unfold Obligations.SoftwareCommandsAreRegisterWrites
  exact fun i s w write => exec_isWrite i s w write

end Sys2Proof.Proofs
end

section
/-! PROOF. Page triggers, mailboxes and the configuration check (02_register_interface.md). -/
namespace Sys2Proof.Machine

variable {s : State} {t req a v page : Nat}

/-! ## PAGE_CTRL -/

/-- No write of PAGE_CTRL waits for a parked region: it is no command of a table port and no word of a CAN object. -/
theorem waitsParked_pageCtrl (slot : slotOf a = 8) : waitsParked s a v = false := by simp [waitsParked, objRetained, slot]

theorem dispatchWrite_pageCtrl (slot : slotOf a = 8) :
    dispatchWrite s req a v = pageCtrl s (pageOf a) (v.testBit 0) (v.testBit 1) (v.testBit 2) := by
  simp [dispatchWrite, slot]

/-- A PF0 write of PAGE_CTRL of a present page gives the page its triggers (R40, R41). -/
theorem software_pageCtrl (aligned : page % 0x1000 = 0) (exists' : kindOf s.fuses page ≠ 0)
    (reach : pf0Reaches (advance s t) req page) (v : Nat) :
    software true s t req (page + 8) v = .next (settled (pageCtrl (atPage s t page) page
      ((v % 2 ^ 24).testBit 0) ((v % 2 ^ 24).testBit 1) ((v % 2 ^ 24).testBit 2))) := by
  have onPage : pageOf (page + 8) = page := pageOf_add aligned (by decide)
  have slot : slotOf (page + 8) = 8 := slotOf_add aligned (by decide)
  have fields : (fieldsAt s.fuses (page + 8)).isEmpty = false := fieldsAt_pageCtrl onPage slot exists'
  have reach' := pf0Reaches_of_page onPage reach
  have ⟨_, _, boot⟩ := reach'
  have answer : answers s (page + 8) = true := answers_of (by omega) (by simpa using boot) fields
  rw [software_writes rfl (by omega) reach' answer fields (waitsParked_pageCtrl slot), dispatchWrite_pageCtrl slot, onPage]

/-! ## The configuration window -/

/-- A PF0 write of CFG_CTRL (R83). -/
theorem software_cfgCtrl (reach : pf0Reaches (advance s t) req cfgPage) (v : Nat) :
    software true s t req (cfgPage + 0x40) v = .next (settled (cfgWrite (advance s t) (v % 2 ^ 24))) :=
  software_plain (kind := 0x2B) rfl rfl (by decide) rfl rfl rfl (by decide) reach rfl rfl

theorem cfgOpen_closed (closed : bit s (cfgPage + 0x44) 0 = false) :
    cfgOpen s = setBit { s with cfg := { comparable := false, openedAt := s.now, windowRecorded := false } } (cfgPage + 0x44) 0 := by
  simp [cfgOpen, closed]

theorem windowRejudge_over (late : s.now - s.cfg.openedAt > windowMax s) : windowRejudge s = windowOver s := if_pos late

/-! ## A mailbox found twice busy -/

/-- ACTIVE, where the command of mailbox 0 has completed and a write of its command register waits for a parked region. -/
def mailboxDoubled : State := { Tests.up [] with
  cmds := [(mbxCmd 0, { bits := 1, doneAt := 0, puts := [] })]
  retained := [{ requester := 0, addr := mbxCmd 0, value := 0, sel := 0 }] }

/-- ERRCODE of mailbox 0 in the answer's state. -/
def mailboxCode : Answer → Nat
  | .next u => fld u (mbxPage 0 + 0x48) 11 8
  | _ => 0

/-- No command runs, yet the access that settles the completed one finds the waiting write, and a SNAP is refused with 0x6. -/
theorem mailboxDoubled_refuses :
    cmdBusy (advance mailboxDoubled 0) (mbxCmd 0) = false ∧ mailboxCode (exec (.mbxSnap 0 0 0) mailboxDoubled) = 6 ∧
      mailboxCode (.next (settled (mbxCommand (atPage mailboxDoubled 0 (mbxPage 0)) 0 0 .snap))) = 1 := by decide +kernel

theorem mailboxDoubled_reaches : pf0Reaches (advance mailboxDoubled 0) 0 (mbxPage 0) := by
  unfold pf0Reaches; decide +kernel

end Sys2Proof.Machine

namespace Sys2Proof.Proofs
open Sys2Proof.Machine

/-- Settles O16: the triggers by `software_pageCtrl`, the boundaries as the command tells the kinds of pages apart. -/
theorem pageTriggersAndBoundariesComplete : Obligations.PageTriggersAndBoundariesComplete := by
  unfold Obligations.PageTriggersAndBoundariesComplete
  dsimp only [exec]
  refine ⟨fun s t req page aligned exists' reach => ?triggers, fun s t page core exists' => ?boundary⟩
  case triggers =>
    have write := software_pageCtrl aligned exists' reach
    exact ⟨write 1, write 2, write 4⟩
  case boundary =>
    have there : present s page = true := bne_iff_ne.mpr exists'
    exact ⟨fun other => event_does there core (if_neg (by rwa [advance_fuses])),
      fun cv => event_does there core (if_pos (by rwa [advance_fuses]))⟩

/-- Refutes O17: in `mailboxDoubled` the mailbox is not BUSY, and its SNAP is refused with 0x6 all the same. -/
theorem not_mailboxComplete : ¬ Obligations.MailboxComplete := by
  unfold Obligations.MailboxComplete
  rintro ⟨commands, -⟩
  obtain ⟨idle, refused, named⟩ := mailboxDoubled_refuses
  obtain ⟨snap, -⟩ := (commands mailboxDoubled 0 0 0 (by decide) mailboxDoubled_reaches).1 idle
  rw [snap, named] at refused
  exact absurd refused (by decide)

/-- Settles O18: the window's commands by `software_cfgCtrl`, the end of a pass and the over-long window as events of the core. -/
theorem configurationCheckCompletes : Obligations.ConfigurationCheckCompletes := by
  unfold Obligations.ConfigurationCheckCompletes
  dsimp only [exec]
  intro s t req
  refine ⟨fun reach closed => ?opens, fun reach => software_cfgCtrl reach 2, fun core runs => ?pass, fun core late => ?late⟩
  case opens =>
    exact (software_cfgCtrl reach 1).trans (next_settled (cfgOpen_closed (by simpa using closed)))
  case pass => exact event_does rfl core (if_pos (by simpa using runs))
  case late => exact event_does rfl core (windowRejudge_over (by simpa using late))

end Sys2Proof.Proofs
end

section
/-! PROOF. Furrows (03_furrows.md): commits, rewinds and word reads, the high-water mark, pops and their guards. -/
namespace Sys2Proof.Machine

variable {s : State} {t req v pg b : Nat} {data : List Nat}

/-! ## The producer -/

/-- A commit that brings words to its item acts (R92). -/
theorem openItem_some (words : (getFur s pg).openWords.map furData ++ data ≠ []) :
    ((getFur s pg).openWords.isEmpty && data.isEmpty) = false := by
  rcases data with _ | ⟨d, ds⟩
  · simpa using words
  · simp

theorem furCommit_fits (words : (getFur s pg).openWords.map furData ++ data ≠ [])
    (fits : furWords (getFur s pg) + data.length ≤ furCap (kindOf s.fuses pg) pg) :
    furCommit s pg data false = furSettle (noteFill (putFur s pg { getFur s pg with
      items := (getFur s pg).items ++ [furItem false ((getFur s pg).openWords.map furData ++ data)],
      taken := (if (getFur s pg).items = [] then (getFur s pg).openTaken else (getFur s pg).taken),
      openWords := [], openTaken := 0 }) pg) pg := by
  simp [furCommit, openItem_some words, Nat.not_lt.mpr fits]

theorem furCommit_full (words : (getFur s pg).openWords.map furData ++ data ≠ [])
    (full : furCap (kindOf s.fuses pg) pg < furWords (getFur s pg) + data.length) (core : islandIn (kindOf s.fuses pg) = false) :
    furCommit s pg data false = putFur s pg { getFur s pg with
      openWords := [], openTaken := 0,
      waits := (getFur s pg).waits ++ [furItem false ((getFur s pg).openWords.map furData ++ data)] } := by
  simp [furCommit, furFull, openItem_some words, full, core]

theorem furCommit_poisoned (words : (getFur s pg).openWords.map furData ++ data ≠ []) :
    furCommit s pg data true = furRewound s pg data := by
  simp [furCommit, openItem_some words]

theorem furRewind_fuses : (furRewind s pg).fuses = s.fuses := by
  unfold furRewind; split <;> simp

/-- A rewind outside the receive furrows of the MAC cells, without words that enter (R96, R100). -/
theorem furRewound_plain (other : kindOf s.fuses pg ≠ 0x09) :
    furRewound s pg [] = furSettle (furRewind (putFur s pg { getFur s pg with
      openWords := [], openTaken := 0, marker := (getFur s pg).marker || decide (0 < (getFur s pg).openTaken) }) pg) pg := by
  have other' : ∀ f, kindOf (furRewind (putFur s pg f) pg).fuses pg ≠ 0x09 := fun f => by rw [furRewind_fuses]; exact other
  simp [furRewound, other']

/-! ## The consumer -/

theorem furWrote_nothing : furWrote s pg [] = s := rfl

theorem noteFailed_good : noteFailed s pg false = s := rfl

theorem getFur_deliverWord {w : BitVec 28} : getFur (deliverWord s pg w) pg = getFur s pg := rfl

/-- A consumer that a rewind has overtaken gets the marker (R100). -/
theorem furWordRead_marker (marker : (getFur s pg).marker = true) :
    furWordRead s pg [] false = { putFur s pg { getFur s pg with marker := false, failed := false } with
      delivered := mapSet s.delivered pg rewindMarker } := by
  simp only [furWordRead, furWrote_nothing, marker, if_true]

/-- Else it gets the next word of the head item, and the last one frees the item (R91). -/
theorem furWordRead_item {it : List (BitVec 28)} {rest : List (List (BitVec 28))} (noMarker : (getFur s pg).marker = false)
    (items : (getFur s pg).items = it :: rest) :
    furWordRead s pg [] false = furSettle (putFur (deliverWord s pg (it.getD (getFur s pg).taken 0)) pg
      (if (getFur s pg).taken + 1 < it.length then { getFur s pg with taken := (getFur s pg).taken + 1 }
        else { getFur s pg with items := rest, taken := 0, failed := false })) pg := by
  simp [furWordRead, furWrote_nothing, noteFailed_good, getFur_deliverWord, noMarker, items]

/-! ## The high-water mark -/

/-- A counter group lies on a page of a kind that has it in every variant, beside the words of the CAN objects. -/
theorem furGroup_cases {kind : Nat} (h : furGroup kind = some b) :
    (kind ∈ [0x0D, 0x27, 0x09, 0x42, 0x56] ∧ b = 0x100) ∨ (kind = 0x03 ∧ b = 0x140) ∨ (kind = 0x06 ∧ b = 0x0E0) ∨
      (kind = 0x2E ∧ b = 0x200) := by
  unfold furGroup at h
  split at h <;> simp_all

/-- FUR_HWM of a counter group is a slot of its kind in every variant. -/
theorem fieldsAt_hwm {f : Fuses} (aligned : pg % 0x1000 = 0) (group : furGroup (kindOf f pg) = some b) :
    (fieldsAt f (pg + (b + 0xC))).isEmpty = false := by
  obtain ⟨kinds, rfl⟩ | ⟨kind, rfl⟩ | ⟨kind, rfl⟩ | ⟨kind, rfl⟩ := furGroup_cases group
  · have anyKind : ∀ k ∈ [0x0D, 0x27, 0x09, 0x42, 0x56], ∃ g ∈ kindFields k, g.base = 0x10C ∧ fieldAt g 0x10C = true := by decide
    obtain ⟨g, mem, -, there⟩ := anyKind _ kinds
    refine fieldsAt_of_mem aligned rfl (by decide) (by decide) rfl ?_ mem there ?_
    · intro absent; rw [absent] at group; exact absurd group (by decide)
    · simp only [List.mem_cons, List.not_mem_nil, or_false] at kinds
      rcases kinds with kind | kind | kind | kind | kind <;> rw [kind] <;> rfl
  · exact fieldsAt_of_kind aligned kind (by decide) (by decide) rfl (by decide) (by decide) (by decide)
  · exact fieldsAt_of_kind aligned kind (by decide) (by decide) rfl (by decide) (by decide) (by decide)
  · exact fieldsAt_of_kind aligned kind (by decide) (by decide) rfl (by decide) (by decide) (by decide)

/-- A PF0 write of FUR_HWM outside the pages with commands of their own (R109). -/
theorem software_hwm (aligned : pg % 0x1000 = 0) (group : furGroup (kindOf s.fuses pg) = some b)
    (plain : cmdSlot (kindOf s.fuses pg) = none) (reach : pf0Reaches (advance s t) req pg) (v : Nat) :
    software true s t req (pg + (b + 0xC)) v = .next (settled (hwmWrite (advance s t) pg (v % 2 ^ 24))) := by
  have small : b + 0xC < 0x1000 ∧ (b + 0xC) % 4 = 0 ∧ b + 0xC < 0x200 ∨ kindOf s.fuses pg = 0x2E := by
    rcases furGroup_cases group with ⟨-, rfl⟩ | ⟨-, rfl⟩ | ⟨-, rfl⟩ | ⟨hub, -⟩
    · exact .inl (by decide)
    · exact .inl (by decide)
    · exact .inl (by decide)
    · exact .inr hub
  obtain ⟨small, slot, low⟩ := small.resolve_right fun hub => by rw [hub] at plain; exact absurd plain (by decide)
  have onPage : pageOf (pg + (b + 0xC)) = pg := pageOf_add aligned small
  have slotIs : slotOf (pg + (b + 0xC)) = b + 0xC := by rw [slotOf_add aligned small]; omega
  have notPort : kindOf s.fuses pg ≠ 0x1F := fun port => absurd (port ▸ plain) (by decide)
  have reach' := pf0Reaches_of_page onPage reach
  have ⟨_, _, boot⟩ := reach'
  have fields := fieldsAt_hwm aligned group
  have calm : waitsParked (advance s t) (pg + (b + 0xC)) (v % 2 ^ 24) = false := by
    simp [waitsParked, objRetained, onPage, slotIs, notPort, show ¬ 0x200 ≤ b + 0xC by omega]
  have here : slotOf (pg + (b + 0xC)) ≠ 8 := by omega
  rw [software_writes rfl (by omega) reach' (answers_of (by omega) (by simpa using boot) fields) fields calm, onPage,
    atPage_of_kind rfl plain]
  simp [dispatchWrite, onPage, slotIs, group, show b + 0xC ≠ 8 by omega]

theorem hwmWrite_keeps (group : furGroup (kindOf s.fuses pg) = some b) (small : v < 2 ^ 24) :
    hwmWrite s pg v = if hwMoved s (pg + b + 0xC) 23 0 then s else
      syncWord (wr s (pg + b + 0xC) (max v (furWords (getFur s pg)))) (pg + b + 0xC) (rd s (pg + b + 0xC))
        (max v (furWords (getFur s pg))) := by
  simp only [hwmWrite, group, Nat.mod_eq_of_lt small]

/-! ## Pops -/

/-- A pop of an empty furrow stalls under its guard (R114). -/
theorem furPop_empty (items : (getFur s pg).items = []) : furPop s req pg =
    { s with stalled := s.stalled ++ [{ page := pg, requester := req, guardEnd := s.now + popGuard s }] } := by
  simp [furPop, items]

theorem furPop_some (items : (getFur s pg).items ≠ []) :
    furPop s req pg = completeRead (furSettle (popHead s pg).2 pg) req (popHead s pg).1 := by
  simp [furPop, items]

/-- The guard of the one stalled pop has run (R114). -/
theorem popExpiry_only {p : StalledPop} (alone : s.stalled = [p]) (page : p.page = pg) (requester : p.requester = req)
    (ended : p.guardEnd ≤ s.now) : popExpiry s req pg = completeRead { s with stalled := [] } req 0 := by
  simp [popExpiry, alone, page, requester, ended]

end Sys2Proof.Machine

namespace Sys2Proof.Proofs
open Sys2Proof.Machine

/-- Settles O19: commits and pops by `furCommit_full`, `furPop_empty` and their like, FUR_HWM by `software_hwm`, a guard at its turn. -/
theorem furrowCommandsComplete : Obligations.FurrowCommandsComplete := by
  unfold Obligations.FurrowCommandsComplete
  dsimp only [exec]
  refine ⟨fun s t page core has => ⟨fun data words => ⟨fun fits => ?fits, fun full core' => ?full, ?poisoned⟩, fun other => ?rewind,
    fun marker => ?marker, fun it rest w noMarker items word => ?word⟩, fun s t req page => ⟨?hwm, ?pop, ?guard⟩⟩
  case fits =>
    exact event_does has core
      (by simpa only [getFur_advance] using furCommit_fits (s := advance s t) (by simpa using words) (by simpa using fits))
  case full =>
    exact event_does has core
      (by simpa only [getFur_advance] using furCommit_full (s := advance s t) (by simpa using words) (by simpa using full) (by simpa using core'))
  case poisoned => exact event_does has core (furCommit_poisoned (by simpa using words))
  case rewind =>
    exact event_does has core (by simpa only [getFur_advance] using furRewound_plain (s := advance s t) (by simpa using other))
  case marker =>
    exact event_does has core
      (by simpa only [getFur_advance, advance_delivered] using furWordRead_marker (s := advance s t) (by simpa using marker))
  case word =>
    subst word
    exact event_does has core
      (by simpa only [getFur_advance, deliverWord, advance_delivered] using
        furWordRead_item (s := advance s t) (by simpa using noMarker) (by simpa using items))
  case hwm =>
    rintro b v w aligned group plain reach rfl
    have has : hasFurrow s page = true := by simp [hasFurrow, group]
    have write := software_hwm aligned group plain reach v
    have mark := hwmWrite_keeps (s := advance s t) (v := v % 2 ^ 24) (by simpa using group) (Nat.mod_lt _ (by decide))
    rw [← Nat.add_assoc] at write
    simp only [execFurHwmWrite, has, group, Option.getD_some]
    constructor
    · intro still
      rw [write, mark, if_neg (by simp [still]), getFur_advance, rd_advance]
    · intro moved
      rw [write, mark, if_pos moved]
  case pop =>
    intro aligned pops reach free
    obtain ⟨p, group⟩ := Option.isSome_iff_exists.mp pops
    have pop := exec_furPop_pops t aligned group reach free
    exact ⟨fun items => pop.trans (next_settled (by simpa only [advance_stalled, popGuard_advance] using furPop_empty (s := advance s t) (by simpa using items))),
      fun items => pop.trans (next_settled (furPop_some (by simpa using items)))⟩
  case guard =>
    exact fun core has => ⟨fun p alone page requester ended first => event_does has core (yielding_does first
        (popExpiry_only (by simpa using alone) page requester ended)),
      fun behind => event_does has core (yielding_advance_waits behind)⟩

end Sys2Proof.Proofs
end

section
/-! PROOF. The polynomials of the check-value units (14_check_value_units.md, R509). -/
namespace Sys2Proof.Proofs
open Sys2Proof.Machine

/-- Settles O58: five polynomials, each run over the nine characters of the standard check. -/
theorem checkValuesOfEveryPolynomial : Obligations.CheckValuesOfEveryPolynomial := by
  unfold Obligations.CheckValuesOfEveryPolynomial
  constructor
  · rfl
  · decide +kernel

end Sys2Proof.Proofs
end

section
/-! PROOF. The slots that an array of registers takes (02_register_interface.md). -/
namespace Sys2Proof.Machine

variable {g : RegField} {i j : Nat}

theorem fieldAt_array (single : g.stride2 = 0) (inArray : i < g.count) (apart : 0 < g.stride) :
    fieldAt g (g.base + g.stride * i) = true := by
  simp [fieldAt, single, inArray, apart]

theorem fieldAt_arrays (inArray : i < g.count) (inArrays : j < g.count2) (apart : 0 < g.stride) (within : g.stride * i < g.stride2) :
    fieldAt g (g.base + g.stride2 * j + g.stride * i) = true := by
  have double : g.stride2 ≠ 0 := by omega
  have row : (g.stride2 * j + g.stride * i) / g.stride2 = j := by
    rw [Nat.mul_add_div (Nat.pos_of_ne_zero double), Nat.div_eq_of_lt within, Nat.add_zero]
  simp [fieldAt, double, Nat.add_assoc, Nat.mod_eq_of_lt within, row, inArray, inArrays, apart]

end Sys2Proof.Machine
end

section
/-! PROOF. Buffers of LIN channels (10_lin_channels.md): the page of a channel, its slots, and what a write of a buffer does. -/
namespace Sys2Proof.Machine

variable {s : State} {t req v m i k slot : Nat} {f : Fuses}

/-! ## The page of a channel -/

theorem linPage_aligned (m : Nat) : linPage m % 0x1000 = 0 := by unfold linPage; omega

theorem domainOf_linPage (m : Nat) : domainOf (linPage m) = m / 6 := by unfold domainOf linPage; omega

theorem blockOf_linPage (m : Nat) : blockOf (linPage m) = 3 := by unfold blockOf linPage; omega

theorem cellOf_linPage (m : Nat) : cellOf (linPage m) = 1 + m % 6 := by unfold cellOf linPage; omega

/-- The pages of a region are as R691 lays them out. -/
theorem kindOf_region {pg : Nat} (region : domainOf pg < 4) : kindOf f pg = regionKind f (domainOf pg) (blockOf pg) (cellOf pg) := by
  unfold kindOf
  split
  case h_5 => rw [if_pos region]
  all_goals omega

/-- A present channel has its page of kind 0x06 (R687). -/
theorem kindOf_linPage (h : linPresent f m = true) : kindOf f (linPage m) = 0x06 := by
  simp only [linPresent, Bool.and_eq_true, decide_eq_true_eq] at h
  obtain ⟨small, cell⟩ := h
  have region : m / 6 < 4 := by omega
  have cell' : 1 + m % 6 ≤ linCells f (m / 6) := by omega
  rw [kindOf_region (by rwa [domainOf_linPage]), domainOf_linPage, blockOf_linPage, cellOf_linPage]
  simp [regionKind, cell']

theorem instanceOf_linPage (m : Nat) : instanceOf 0x06 (linPage m) = m := by
  simp only [instanceOf, domainOf_linPage, cellOf_linPage]; omega

/-! ## Its slots -/

/-- A PF0 write of a slot of a channel's page. -/
theorem software_linPage (here : linPresent s.fuses m = true) (small : slot < 0x1000) (aligned : slot % 4 = 0)
    (reach : pf0Reaches (advance s t) req (linPage m)) (fields : (fieldsAt s.fuses (linPage m + slot)).isEmpty = false) (v : Nat) :
    software true s t req (linPage m + slot) v =
      .next (settled (dispatchWrite (advance s t) req (linPage m + slot) (v % 2 ^ 24))) :=
  software_plain rfl (linPage_aligned m) small aligned (kindOf_linPage here) rfl (by decide) reach fields rfl

/-- The words of the buffers and their BUF_STAT are slots of the page (R387). -/
theorem fieldsAt_linBuf (here : linPresent f m = true) (i64 : i < 64) (word : k < 4) :
    (fieldsAt f (linPage m + (0x200 + 16 * i + 4 * k))).isEmpty = false := by
  have exists' : kindOf f (linPage m) ≠ 0 := by rw [kindOf_linPage here]; decide
  by_cases stat : k = 3
  · refine fieldsAt_of_mem (g := fa 0x20c 0x10 64 0 0 .w1s .l 0 "LIN_BUF_STAT[i].READY") (linPage_aligned m) (kindOf_linPage here)
      (by omega) (by omega) (by omega) (by decide) (by decide) ?_ rfl
    rw [show 0x200 + 16 * i + 4 * k = 0x20C + 0x10 * i by omega]
    exact fieldAt_array rfl i64 (by decide)
  · refine fieldsAt_of_mem (g := faa 0x200 4 3 0x10 64 23 0 .rwh .l 0 "LIN_BUF[i][k].DATA") (linPage_aligned m) (kindOf_linPage here)
      (by omega) (by omega) (by omega) (by decide) (by decide) ?_ rfl
    exact fieldAt_arrays (show k < 3 by omega) i64 (by decide) (show 4 * k < 0x10 by omega)

/-- A write of a slot of the buffers is `linBufWrite` (R374). -/
theorem dispatchWrite_linBuf (here : linPresent s.fuses m = true) (low : 0x200 ≤ slot) (high : slot < 0x600) (aligned : slot % 4 = 0) :
    dispatchWrite s req (linPage m + slot) v = linBufWrite s req m slot v := by
  have page : pageOf (linPage m + slot) = linPage m := pageOf_add (linPage_aligned m) (by omega)
  have slot' : slotOf (linPage m + slot) = slot := by rw [slotOf_add (linPage_aligned m) (by omega)]; omega
  have notHwm : slot ≠ 0xE0 + 0xC := by omega
  simp only [dispatchWrite, page, slot', show furGroup 0x06 = some 0xE0 from rfl, kindOf_linPage here, instanceOf_linPage]
  rw [if_neg (by omega), if_neg (by simpa using notHwm), if_neg (by omega), if_pos ⟨low, high⟩]

/-- A PF0 write of a slot of the buffers. -/
theorem software_linBuf (here : linPresent s.fuses m = true) (i64 : i < 64) (word : k < 4)
    (reach : pf0Reaches (advance s t) req (linPage m)) (v : Nat) :
    software true s t req (linPage m + (0x200 + 16 * i + 4 * k)) v =
      .next (settled (linBufWrite (advance s t) req m (0x200 + 16 * i + 4 * k) (v % 2 ^ 24))) := by
  rw [software_linPage here (by omega) (by omega) reach (fieldsAt_linBuf here i64 word),
    dispatchWrite_linBuf (by simpa using here) (by omega) (by omega) (by omega)]

/-! ## The data words -/

/-- A register write outside the table ports is a software command. -/
theorem exec_registerWrite_software {a : Nat} (notPort : kindOf s.fuses (pageOf a) ≠ 0x1F) :
    exec (.registerWrite t req a v true) s = software true s t req a v := by
  have first : mustYield (advance s t) (.registerWrite t req a v true) = false :=
    mustYield_registerWrite (tpCommandOf_registerWrite (by simpa using notPort))
  rw [exec_registerWrite, execRegisterWrite, software, Bool.true_and, always, always, yielding_acts first]
  rfl

/-- Word `k` of buffer `i`: while READY is 1 it stands, else it is software's, the last byte reserved (R374, R387). -/
theorem linBufWrite_word (word : k < 3) : linBufWrite s req m (0x200 + 16 * i + 4 * k) v =
    if bit s (linBufStat m i) 0 then s
    else softWord s req (linPage m + (0x200 + 16 * i + 4 * k)) (if k = 2 then v / 256 * 256 else v) := by
  have buffer : (0x200 + 16 * i + 4 * k - 0x200) / 16 = i := by omega
  have notStat : (0x200 + 16 * i + 4 * k) % 16 ≠ 12 := by omega
  have last : (0x200 + 16 * i + 4 * k) % 16 = 8 ↔ k = 2 := by omega
  simp only [linBufWrite, buffer, notStat, last, if_false]

end Sys2Proof.Machine

namespace Sys2Proof.Proofs
open Sys2Proof.Machine

/-- Settles O60: the write reaches the buffer (`software_linBuf`), and READY decides (`linBufWrite_word`). -/
theorem linBufferWordsFollowReady : Obligations.LinBufferWordsFollowReady := by
  unfold Obligations.LinBufferWordsFollowReady
  intro s t req m i k v _ i64 word here reach
  have offset : linPage m + 0x200 + 16 * i + 4 * k = linPage m + (0x200 + 16 * i + 4 * k) := by omega
  have page : pageOf (linPage m + (0x200 + 16 * i + 4 * k)) = linPage m := pageOf_add (linPage_aligned m) (by omega)
  have notPort : kindOf s.fuses (pageOf (linPage m + (0x200 + 16 * i + 4 * k))) ≠ 0x1F := by
    rw [page, kindOf_linPage here]; decide
  rw [offset, exec_registerWrite_software notPort, software_linBuf here i64 (by omega) reach, linBufWrite_word word, bit_advance]
  exact ⟨fun ready => by rw [if_pos ready], fun open' => by rw [if_neg (by simp [open'])]⟩

end Sys2Proof.Proofs
end

section
/-! PROOF. The switch core (04_switch_core.md): admissions and plots, selections, gates and resequencers, outputs. -/
namespace Sys2Proof.Machine

variable {s : State} {t r p id o : Nat} {first : Bool} {bytes : List Byte} {v : Verdict} {rest : List Verdict}

/-! ## Admission and plots -/

/-- The verdict at the head of a region's queue, at a running admission page: admitted where entries suffice, else held (R126, R137). -/
theorem admission_head (head : mapGet [] s.verdicts r = v :: rest) (runs : running s admPage = true) :
    admission s r = if entriesShort s v then holdShort s r v rest
      else handled (admitItem { s with verdicts := mapPut [] s.verdicts r rest } v) admPage := by
  simp only [admission, head, runs, Bool.not_true, Bool.false_eq_true, if_false]

theorem arrives_ring (ring : 127 < p) : arrives s p first bytes = txRead s (p - 128) first bytes := by
  rw [arrives, if_neg (by omega), if_neg (by omega)]

theorem arrives_link (low : 124 ≤ p) (high : p < 126) : arrives s p first bytes = linkPlot s (p - 124) first bytes := by
  rw [arrives, if_neg (by omega), if_pos high]

theorem arrives_mac (high : p < 124) : arrives s p first bytes = ethPlot s p first bytes := if_pos high

/-- A ring that may read takes the bytes into its furrow (R596). -/
theorem txRead_may {n : Nat} (may : txMay s n = true) : txRead s n first bytes =
    furWrite (if first then putFur s (txRing n) emptyFurrow else s) (txRing n) (packWords bytes) := by
  simp [txRead, may]

/-- A plot that its frame's last copy has left is free (R142). -/
theorem freeIfDone_done (there : hasFrame s id = true) (judged : (getFrame s id).judged = true) (done : outstanding s id = false) :
    freeIfDone s id = dropFrame (dropRest s (getFrame s id).input id) id := by
  simp [freeIfDone, there, judged, done]

theorem heldMove_held (held : heldCopies s id = true) (live : liveCopies s id = false) :
    heldMove s id = evalAll (putFrame s id { getFrame s id with plots := movePlots (getFrame s id).plots (poolFree s) }) := by
  simp [heldMove, held, live]

/-! ## Selections -/

/-- ACTIVE, host ring 0 enabled with a committed frame queued for it, and a monitor of the latency of its output 128. -/
def monitoredRing : State := { Tests.up (Tests.on egrPage ++ Tests.on (hrxPage 0) ++ Tests.on 0x891000 ++
    [(0x891040, 0x300020), (hrxPage 0 + ringBase 0, 0x800000), (hrxPage 0 + ringBase 0 + 0xC, 1), (egrPort 128, 1)]) with
  frames := [(0, Tests.frame0)]
  outQ := [(128, [Tests.copy0])]
  rrInput := [(128 * 8, 0)] }

/-- The samples that the monitor has taken in the answer's state. -/
def latencySamples : Answer → Nat
  | .next u => (mapGet emptyLive u.monLive 0x891000).count
  | _ => 0

/-- `monitoredRing` once the scheduler has granted. -/
def monitoredRingGranted : State := selectAt (advance monitoredRing 0) 128

theorem monitoredRing_selects : coreUp monitoredRing = true ∧ portPresent monitoredRing.fuses 128 = true ∧
    mustYield (advance monitoredRing 0) (.egressSelect 0 128) = false ∧ mapGet? monitoredRing.inFlight 128 = none ∧
    running monitoredRing egrPage = true ∧ egrStops monitoredRing = false ∧
    mapGet? monitoredRingGranted.inFlight 128 = some Tests.copy0 := by decide +kernel

/-- The command takes no sample of a host ring's copy; the statement's state has one. -/
theorem monitoredRing_samples :
    latencySamples (exec (.egressSelect 0 128) monitoredRing) = 0 ∧
      latencySamples (.next (settled (ringTakes (latency (handled monitoredRingGranted egrPage) 128 Tests.copy0.cls
        (readyAt (handled monitoredRingGranted egrPage) Tests.copy0)) (128 - 128) Tests.copy0))) = 1 := by decide +kernel

/-! ## Gates and resequencers -/

section
variable {i n : Nat}

/-- A cycle that is due starts at the instant at which it was due (R154). -/
theorem gateStart_due {t0 : Nat} (runs : bit s (gateCtrl i) 0 = true) (due : gateDue s i = some t0) :
    gateStart s i = putBit { s with gateRun := mapSet s.gateRun i (cycleAt s i t0) } (gateCtrl i) 3 ((cycleAt s i t0).list == 1) := by
  simp [gateStart, runs, due]

theorem gateStart_notDue (due : gateDue s i = none) : gateStart s i = s := by simp [gateStart, due]

/-- The entry that follows has its place in the list and its beginning at the end of the running one (R154). -/
theorem entryAfter_next {run next : GateRun} (follows : entryAfter s i run = some next) :
    next.entry = run.entry + 1 ∧ next.began = run.began + run.interval ∧ next.gates = (gateEntry s i run.list (run.entry + 1)).1 := by
  simp only [entryAfter, Option.ite_none_left_eq_some] at follows
  obtain ⟨-, same⟩ := follows
  cases same
  exact ⟨rfl, rfl, rfl⟩

theorem gateNext_follows {run next : GateRun} (runs : mapGet? s.gateRun i = some run) (follows : entryAfter s i run = some next)
    (enabled : bit s (gateCtrl i) 0 = true) (came : next.began ≤ timeNs s) :
    gateNext s i = { s with gateRun := mapSet s.gateRun i next } := by
  simp [gateNext, runs, follows, enabled, came]

theorem gapExpiry_ran (ran : (getStream s n).gapFrom + gapTime s ≤ s.now) : gapExpiry s n = reseqGap s n := if_pos ran

end

/-! ## States of outputs -/

theorem refreshOutput_down (present : portPresent s.fuses o = true) (down : downCond s o = true) :
    refreshOutput s o = outputDown s o := by
  simp [refreshOutput, present, down]

theorem refreshOutput_up (present : portPresent s.fuses o = true) (up : downCond s o = false) :
    refreshOutput s o = outputUp s o := by
  simp [refreshOutput, present, up]

/-- An output whose copies have waited for STUCK_MS is stuck (R161). -/
theorem stuckOver_paused {since : Nat} (paused : mapGet? s.stuckSince o = some since) (waits : outQueue s o ≠ [])
    (other : o ≠ 126) (enabled : fld s (egrPage + 0x40) 9 0 ≠ 0)
    (long : s.now - since > msTicks (min 1000 (fld s (egrPage + 0x40) 9 0))) :
    stuckOver s o = refreshOutput (setBit s (egrPort o) 11) o := by
  simp [stuckOver, stuckFor, paused, waits, other, enabled, long]

end Sys2Proof.Machine

namespace Sys2Proof.Proofs
open Sys2Proof.Machine
/-- Settles O20: what waits by `yielding_advance_waits`; what acts by the lemma of its kind of input. -/
theorem admissionAndPlotsComplete : Obligations.AdmissionAndPlotsComplete := by
  unfold Obligations.AdmissionAndPlotsComplete
  dsimp only [exec]
  intro s t core
  refine ⟨fun r => ⟨fun behind => ?waits, ?admits⟩, fun p first bytes present => ⟨fun turn => ?arrives, fun behind input => ?arrivalWaits⟩,
    fun id there judged done => ?freed, fun id held live => ?moved⟩
  case waits => exact event_does rfl core (yielding_advance_waits behind)
  case admits =>
    rintro v rest w rfl turn head runs
    have admitted := admission_head head runs
    exact ⟨fun enough => event_does rfl core (yielding_does turn (admitted.trans (by simp [enough]))),
      fun short => event_does rfl core (yielding_does turn (admitted.trans (if_pos short)))⟩
  case arrives =>
    refine ⟨fun ring may => ?_, fun low high => ?_, fun low high => ?_⟩
    · have input : plotInput s p = true := by simp [plotInput, present]; omega
      exact event_does input core (yielding_does turn ((arrives_ring ring).trans (txRead_may may)))
    · have input : plotInput s p = true := by simp [plotInput, present]; omega
      exact event_does input core (yielding_does turn (arrives_link low high))
    · have input : plotInput s p = true := by simp [plotInput, present]; omega
      exact event_does input core (yielding_does turn (arrives_mac high))
  case arrivalWaits => exact event_does input core (yielding_advance_waits behind)
  case freed =>
    refine event_does rfl core ((freeIfDone_done (by simpa using there) (by simpa using judged) (by simpa using done)).trans ?_)
    rw [getFrame_advance]
  case moved =>
    refine event_does rfl core ((heldMove_held (by simpa using held) (by simpa using live)).trans ?_)
    rw [getFrame_advance, poolFree_advance]

/-- Refutes O21: a host ring's copy in `monitoredRing` is no sample of its output's latency monitor. -/
theorem not_selectionsComplete : ¬ Obligations.SelectionsComplete := by
  unfold Obligations.SelectionsComplete
  intro h
  obtain ⟨core, present, turn, idle, runs, stays, taken⟩ := monitoredRing_selects
  obtain ⟨sampled, claimed⟩ := monitoredRing_samples
  obtain ⟨selects, -⟩ := (h monitoredRing 0 128 core present).1 turn
  obtain ⟨-, inFlight⟩ := selects monitoredRingGranted rfl idle runs stays
  rw [(inFlight Tests.copy0 taken).2 (by decide), claimed] at sampled
  exact absurd sampled (by decide)

/-- Settles O22: the gates by their lemmas above, the resequencers as events, RSQ_CMD as a software write. -/
theorem gateAndResequencerCommandsComplete : Obligations.GateAndResequencerCommandsComplete := by
  unfold Obligations.GateAndResequencerCommandsComplete
  dsimp only [exec]
  refine ⟨fun s t i core small here runs => ⟨fun t0 due => ?starts, fun notDue => ?notDue, fun run next running follows came => ?next⟩,
    fun s t n => ⟨fun core num start turn => ?void, fun core num start frame outs there => ?item, fun core runs ran => ?gap,
      fun req reach => ?reset⟩⟩
  case starts =>
    have gate : (decide (i < 20) && macPresent s.fuses (104 + i)) = true := by simp [small, here]
    refine ⟨_, event_does gate core (gateStart_due (by simpa using runs) due), ?_⟩
    rw [putBit_gateRun, mapGet?_mapSet_self, cycleAt_advance]
    rfl
  case notDue =>
    exact event_does (by simp [small, here]) core (gateStart_notDue notDue)
  case next =>
    refine ⟨event_does (by simp [small, here]) core ?_, by simpa using entryAfter_next follows⟩
    rw [gateNext_follows (by simpa using running) follows (by simpa using runs) came, advance_gateRun]
  case void => exact event_does rfl core (yielding_does turn rfl)
  case item =>
    refine event_does rfl core ((if_pos (by simpa using there)).trans ?_)
    rw [getFrame_advance]
  case gap =>
    exact ⟨fun turn => event_does rfl core (yielding_does turn (gapExpiry_ran (by simpa using ran))),
      fun behind => event_does rfl core (yielding_advance_waits behind)⟩
  case reset =>
    rw [← fld_advance s t]
    exact software_plain (kind := 0x26) rfl rfl (by decide) rfl rfl rfl (by decide) reach rfl rfl

/-- Settles O23: an output follows its condition (`refreshOutput_down`, `refreshOutput_up`), its hold and its STUCK_MS end. -/
theorem outputStatesComplete : Obligations.OutputStatesComplete := by
  unfold Obligations.OutputStatesComplete
  dsimp only [exec]
  intro s t o core present
  have present' : portPresent (advance s t).fuses o = true := by rwa [advance_fuses]
  refine ⟨fun down => ?down, fun up => ?up, fun held ran turn => ?held, fun behind => event_does present core (yielding_advance_waits behind),
    fun since paused waits other enabled long turn => ?stuck⟩
  case down =>
    have down' : downCond (advance s t) o = true := by simpa using down
    exact ⟨event_does present core ((if_pos down').trans (refreshOutput_down present' down')), event_does present core (if_pos down')⟩
  case up =>
    have up' : downCond (advance s t) o = false := by simpa using up
    exact ⟨event_does present core ((if_neg (by simp [up'])).trans (refreshOutput_up present' up')),
      event_does present core (if_neg (by simp [up']))⟩
  case held =>
    exact event_does present core (yielding_does turn (if_pos ⟨by simpa using held, by simpa using ran⟩))
  case stuck =>
    exact event_does present core (yielding_does turn
      (stuckOver_paused (by simpa using paused) (by simpa using waits) other (by simpa using enabled) (by simpa using long)))

end Sys2Proof.Proofs
end

section
/-! PROOF. The signal router (07_signal_router.md): the slot port, and what falls due at the drill's ticks. -/
namespace Sys2Proof.Machine

variable {s : State} {t l : Nat} {bad : List (Nat × Nat)} {e : TEntry}

/-! ## The slot port found twice busy -/

/-- ACTIVE, SS_SEL at the last slot, where the command of the slot port has completed and a write of its command register waits for a
parked region. -/
def slotPortDoubled : State := { Tests.up [(ssPage + 0x40, 0xFFFFFF)] with
  cmds := [(ssPage + 0x44, { bits := 1, doneAt := 0, puts := [] })]
  retained := [{ requester := 0, addr := ssPage + 0x44, value := 0, sel := 0 }] }

/-- The error code of the slot port in the answer's state. -/
def slotPortCode : Answer → Nat
  | .next u => fld u (ssPage + 0x48) 11 8
  | _ => 0

theorem slotPortDoubled_idle : bootReach slotPortDoubled ssPage = true ∧
    cmdBusy (advance slotPortDoubled 0) (ssPage + 0x44) = false ∧
    262144 < ssSlot (atPage slotPortDoubled 0 ssPage) + ssCount (atPage slotPortDoubled 0 ssPage) := by decide +kernel

/-- No command runs, yet the access that settles the completed one finds the waiting write: the refusal is 0x6 and not 0x1. -/
theorem slotPortDoubled_refuses : slotPortCode (exec (.ssRead 0 []) slotPortDoubled) = 6 ∧
    slotPortCode (.next (settled (ssRefuse (atPage slotPortDoubled 0 ssPage) 1))) = 1 := by decide +kernel

/-! ## The drill -/

/-- The deadline of a directory layout, for which nothing is substituted (R286, R319). -/
theorem deadlineTimeout_directory (due : deadlineDue s l = true) (good : bad.contains (0, l) = false)
    (runs : running s drillPage = true) (live : tLive s mbTable 0 l = some e) (directory : isDirectory s l = true) :
    deadlineTimeout s l bad = setBit (incSat (putRx s l { getRx s l with timedOut := true, fresh := true }) (mbPage + 0x60))
      (mbPage + 0x4C) 2 := by
  simp only [deadlineTimeout, due, good, runs, live, directory, Bool.and_false, Bool.and_true, Bool.false_eq_true, if_false, if_true]

/-- A deferred layout whose tick has come is pending (R275). -/
theorem deferralEnd_live (deferred : (getTx s l).deferred = true) (came : (getTx s l).deferTo ≤ s.tick)
    (runs : running s drillPage = true) (live : tLive s mbTable 3 l = some e) :
    deferralEnd s l = sendNow (putTx s l { getTx s l with deferred := false, deferTo := 0 }) l e (getTx s l).trig := by
  simp [deferralEnd, deferred, came, runs, live]

theorem repetitionDue_live (left : 0 < (getTx s l).repLeft) (came : (getTx s l).repNext ≤ s.tick)
    (runs : running s drillPage = true) (live : tLive s mbTable 3 l = some e) :
    repetitionDue s l = sendRequest (putTx s l { getTx s l with
      repLeft := (getTx s l).repLeft - 1, repNext := s.tick + max 1 (twf e 6 7 0) }) l false false := by
  simp [repetitionDue, left, came, runs, live]

theorem periodicSend_due (due : periodDue s l = true) (runs : running s drillPage = true) :
    periodicSend s l = sendRequest (putTx s l { getTx s l with periodAt := s.tick + 1 }) l false true := by
  simp [periodicSend, due, runs]

/-! ## LIN pulls -/

/-- The layout that a slot pulls fills the frame in flight (R277, R372). -/
theorem linPull_packed {m : Nat} {slots : List (Nat × Bool)} {f : LinFrame} {d : List Byte} {u : State}
    (flight : (getLin s m).frame = some f) (pulls : f.pull = some l) (packed : pullLayout s l bad slots = (some d, u)) :
    linPull s m bad slots = linFrame u m { f with pull := none, data := linFit f.len d } := by
  simp only [linPull, flight, pulls, packed]

end Sys2Proof.Machine

namespace Sys2Proof.Proofs
open Sys2Proof.Machine

/-- Refutes O26: the slot port of `slotPortDoubled` runs no command, and refuses a range past the last slot with 0x6. -/
theorem not_slotPortAndMouldboardComplete : ¬ Obligations.SlotPortAndMouldboardComplete := by
  unfold Obligations.SlotPortAndMouldboardComplete
  rintro ⟨commands, -⟩
  obtain ⟨reach, idle, beyond⟩ := slotPortDoubled_idle
  obtain ⟨refused, named⟩ := slotPortDoubled_refuses
  obtain ⟨reads, -⟩ := commands slotPortDoubled _ 0 0 rfl
  rw [(reads reach idle).2 beyond, named] at refused
  exact absurd refused (by decide)

/-- Settles O27: each of the drill's events and the LIN pull by its lemma, at its moment. -/
theorem drillAndLinPullComplete : Obligations.DrillAndLinPullComplete := by
  unfold Obligations.DrillAndLinPullComplete
  dsimp only [exec]
  refine ⟨fun s t l bad core => ⟨fun slots => event_does rfl core rfl, fun e due good runs live directory => ?deadline,
    fun e deferred came runs live => ?deferral, fun e left came runs live => ?repetition, fun due runs => ?period⟩,
    fun s t m l bad slots f d u core here flight pulls packed => event_does here core (linPull_packed (by simpa using flight) pulls packed)⟩
  case deadline =>
    refine event_does rfl core ((deadlineTimeout_directory (by simpa using due) good (by simpa using runs) (by simpa using live)
      (by simpa using directory)).trans ?_)
    rw [getRx_advance]
  case deferral =>
    refine event_does rfl core ((deferralEnd_live (by simpa using deferred) (by simpa using came) (by simpa using runs)
      (by simpa using live)).trans ?_)
    rw [getTx_advance]
  case repetition =>
    refine event_does rfl core ((repetitionDue_live (by simpa using left) (by simpa using came) (by simpa using runs)
      (by simpa using live)).trans ?_)
    rw [getTx_advance, advance_tick]
  case period =>
    refine event_does rfl core ((periodicSend_due (by simpa using due) (by simpa using runs)).trans ?_)
    rw [getTx_advance, advance_tick]

end Sys2Proof.Proofs
end

section
/-! PROOF. CAN channels and transceivers (09_can_channels.md): integration and reception, arbitration and ends of transmission, the
words that transceivers get and give. -/
namespace Sys2Proof.Machine

variable {s : State} {t n i p : Nat}

/-! ## Integration and recovery -/

section
variable (runs : running s (canPage n) = true) (works : isFallow s (canPage n) = false) (mode : fld s (canPage n + 0x44) 2 0 ≠ 5)
include runs works mode

/-- A channel in recovery counts 11 recessive bits; the 128th ends the recovery (R351). -/
theorem canIntegrate_recovering (recovering : (getCan s n).recovering = true) :
    canIntegrate s n = if 127 ≤ fld s (canStatus n) 16 10 then canRecovered s n
      else setFld s (canStatus n) 16 10 (fld s (canStatus n) 16 10 + 1) := by
  simp [canIntegrate, runs, works, mode, recovering]

/-- Any other channel that its transceiver lets takes part from then on (R330). -/
theorem canIntegrate_joins (recovering : (getCan s n).recovering = false) (drives : mapGet 0 s.trxMode n < 2) :
    canIntegrate s n = putCan s n { getCan s n with joined := true } := by
  have awake : ¬ (mapGet 0 s.trxMode n = 2 ∨ mapGet 0 s.trxMode n = 3) := by omega
  simp [canIntegrate, runs, works, mode, recovering, awake]

end

/-- What ends a recovery is the 128th of its occurrences (R351). -/
theorem busOffRecovered_recovering (recovering : (getCan s n).recovering = true) :
    (if fld s (canStatus n) 16 10 ≥ 127 && (getCan s n).recovering then canIntegrate s n else s) =
      if 127 ≤ fld s (canStatus n) 16 10 then canIntegrate s n else s := by
  simp [recovering]

/-! ## Reception -/

/-- A frame of FD format where FD is off, with TOLERATE, counts and takes the channel off its bus (R337). -/
theorem canReceived_tolerates {u : State} {h : CanHdr} {data : List Byte} (quiet : u = canQuiet s n) (fdFrame : h.fdf = true)
    (fdOff : fdEn u n = false) (tolerates : bit u (canCtrl n) 21 = true) :
    canReceived s n h data =
      putCan (setBit (incSat u (canPage n + 0xEC)) (canEvents n) 2) n { getCan u n with joined := false } := by
  subst quiet
  simp only [canReceived, fdFrame, fdOff, tolerates, Bool.not_false, Bool.and_true, if_true]

/-- A poisoned copy is dropped with its count (R106). -/
theorem canFill_poisoned {c : Copy} (flight : mapGet? s.inFlight n = some c) (poisoned : (getFrame s c.frame).poison = true) :
    canFill s n = freeIfDone (endFlight (incSat s (canPage n + 0xE4)) n) c.frame := by
  simp only [canFill, flight, poisoned, if_true]

/-! ## Transmission -/

/-- A selection instant puts the best pending object on the bus, one of FD format where FD is on (R345). -/
theorem canSelect_best (k : Nat) (best : objBest s n = some i) (permitted : (objHdr s n i).fdf = true → fdEn s n = true) :
    canSelect (k + 1) s n =
      setFld (putCan s n { getCan s n with current := some i, sendAt := s.now, rxOpen := false }) (canStatus n) 3 2 2 := by
  have fits : ((objHdr s n i).fdf && !(fdEn s n)) = false := by simpa using permitted
  simp [canSelect, best, fits]

theorem getCan_putCan_self {c : CanCh} : getCan (putCan s n c) n = c := by simp [getCan, putCan, mapGet_mapPut]

theorem getCan_setFld (a hi lo v : Nat) : getCan (setFld s a hi lo v) n = getCan s n := rfl

theorem rd_putCan (c : CanCh) (a : Nat) : rd (putCan s n c) a = rd s a := rfl

theorem fld_putCan (c : CanCh) (a hi lo : Nat) : fld (putCan s n c) a hi lo = fld s a hi lo := rfl

theorem canLimits_setFld (c : CanCh) (a hi lo v : Nat) : (setFld (putCan s n c) a hi lo v).canLimits = s.canLimits := rfl

theorem objAddr_ne {w x : Nat} (words : w ≠ x) : objAddr n i w ≠ objAddr n i x := by simpa [objAddr] using words

/-- The limits of an object stand beside the words of its tries (R344, R347). -/
theorem objLimits_setFld (c : CanCh) (hi lo v : Nat) :
    objLimits (setFld (putCan s n c) (objAddr n i 6) hi lo v) n i = objLimits s n i := by
  have config : rd (setFld (putCan s n c) (objAddr n i 6) hi lo v) (objAddr n i 0) = rd s (objAddr n i 0) :=
    (rd_setFld_ne _ _ _ _ (objAddr_ne (by decide))).trans (rd_putCan ..)
  simp only [objLimits, objRouter, objBit, objW, config, canLimits_setFld]
  rfl

/-- A loss of arbitration of an object without a limit or a CANCEL takes it off the bus and counts; the winner's frame comes in
(R346). -/
theorem canArbLoss_retries {u : State} (current : (getCan s n).current = some i) (off : u = incSat (objOff s n) (canPage n + 0xDC))
    (kept : (getCan u n).cancelled = []) (unlimited : (objLimits u n i).2 = 255) :
    canArbLoss s n = setFld (putCan u n { getCan u n with rxOpen := true }) (objAddr n i 6) 23 16
      (min 255 (fld u (objAddr n i 6) 23 16 + 1)) := by
  subst off
  simp only [canArbLoss, current]
  rw [objLimits_setFld, unlimited, getCan_setFld, getCan_putCan_self, kept, fld_putCan, if_neg (by simp), if_neg (by simp)]

theorem canArbLoss_idle (idle : (getCan s n).current = none) : canArbLoss s n = s := by simp [canArbLoss, idle]

theorem canTxDone_idle (idle : (getCan s n).current = none) (delay : Option Nat) : canTxDone s n delay = s := by simp [canTxDone, idle]

theorem canTxError_idle (idle : (getCan s n).current = none) (code eights : Nat) (dp ex dom : Bool) (delay : Option Nat) :
    canTxError s n code dp ex dom eights delay = canTecAdds s n (8 * eights) := by
  simp [canTxError, idle]

/-! ## Transceivers -/

/-- A report of no condition clears the shown ones (R356). -/
theorem trxReport_clear (can : p < 64) : trxReport s p false false false false =
    putBit (putBit (setFld s (canPage p + 0x6C) 5 2 0) (canStatus p) 20 false) (canStatus p) 19 false := by
  simp [trxReport, can, b2n]

/-- A heartbeat that is due leaves for both dies; none stood in FAILSAFE (R646). -/
theorem heartbeat_due (core : coreUp s = true) (here : s.power.goodbyeAt = none) (safe : s.failsafe = []) (due : beatDue s = true) :
    heartbeat s = forEach [0, 1] s (fun u d => firstHeartbeat (send u d .heartbeat [] []) d) := by
  have stays : ∀ u d, u.failsafe = [] → (firstHeartbeat (send u d .heartbeat [] []) d).failsafe = [] := fun u d h => h
  simp [heartbeat, forEach, core, here, due, stays, safe]

theorem heartbeat_notDue (early : beatDue s = false) : heartbeat s = s := by simp [heartbeat, early]

end Sys2Proof.Machine

namespace Sys2Proof.Proofs
open Sys2Proof.Machine

/-- Settles O29: integration by whether the channel is in recovery, reception at its turn, the fill as it is defined. -/
theorem canBusEventsComplete : Obligations.CanBusEventsComplete := by
  unfold Obligations.CanBusEventsComplete
  dsimp only [exec]
  refine ⟨fun s t n core here runs works mode => ?integration, fun s t n ident ide fdf brs rtr esi data core here onBus acts => ?reception,
    fun s t n c core here flight => ⟨event_does here core rfl, fun poisoned =>
      canFill_poisoned (by simpa using flight) (by simpa using poisoned)⟩⟩
  case integration =>
    have runs' : running (advance s t) (canPage n) = true := by simpa using runs
    have works' : isFallow (advance s t) (canPage n) = false := by simpa using works
    have mode' : fld (advance s t) (canPage n + 0x44) 2 0 ≠ 5 := by simpa using mode
    refine ⟨fun recovering few => ?counts, fun recovering last => ?recovers, fun joined drives => ?joins⟩
    case counts =>
      have early : ¬ 127 ≤ fld (advance s t) (canStatus n) 16 10 := by simpa using few
      have recovering' : (getCan (advance s t) n).recovering = true := by simpa using recovering
      have counts := (canIntegrate_recovering runs' works' mode' recovering').trans (if_neg early)
      exact ⟨event_does here core (by simpa only [fld_advance] using counts),
        event_does here core ((busOffRecovered_recovering recovering').trans (if_neg early))⟩
    case recovers =>
      have late : 127 ≤ fld (advance s t) (canStatus n) 16 10 := by simpa using last
      have recovering' : (getCan (advance s t) n).recovering = true := by simpa using recovering
      have recovers := (canIntegrate_recovering runs' works' mode' recovering').trans (if_pos late)
      exact ⟨event_does here core recovers,
        event_does here core ((busOffRecovered_recovering recovering').trans ((if_pos late).trans recovers))⟩
    case joins =>
      have joins := canIntegrate_joins runs' works' mode' (by simpa using joined) (by simpa using drives)
      exact event_does here core (by simpa only [getCan_advance] using joins)
  case reception =>
    have acts' : (canOnBus (advance s t) n && canActs (advance s t) n != 3) = true := by simp [onBus, acts]
    refine ⟨fun turn => ?received, fun behind => event_does here core (yielding_advance_waits behind),
      fun code dp ones eights => event_does here core (if_pos acts')⟩
    case received =>
      have received := event_does (f := fun u => yielding u (.canFrameReceived t n ide fdf brs rtr esi ident data)) here core
        (yielding_does turn (if_pos acts'))
      exact ⟨received, fun u quiet fd off tolerates =>
        received.trans (next_settled (canReceived_tolerates quiet fd off tolerates))⟩

/-- Settles O30: the selection by `canSelect_best`, the loss by `canArbLoss_retries`, an idle channel by what it does in each event. -/
theorem canTransmissionCompletes : Obligations.CanTransmissionCompletes := by
  unfold Obligations.CanTransmissionCompletes
  dsimp only [exec]
  intro s t n core here
  refine ⟨fun i may best permitted => ?selects, fun i u current off kept unlimited => ?loses,
    fun code dp ex dom eights delay => event_does here core rfl, fun i delay _ => event_does here core rfl,
    fun idle delay code dp ex dom eights => ?idle⟩
  case selects =>
    refine event_does here core ((if_pos (by simpa using may)).trans ((canSelect_best 96 (by simpa using best)
      (by simpa using permitted)).trans ?_))
    rw [getCan_advance]
  case loses => exact event_does here core (canArbLoss_retries (by simpa using current) off kept unlimited)
  case idle =>
    have idle' : (getCan (advance s t) n).current = none := by simpa using idle
    exact ⟨event_does here core (canArbLoss_idle idle'), event_does here core (canTxDone_idle idle' delay),
      event_does here core (canTxError_idle idle' ..)⟩

/-- Settles O31: each word by what its command does; the heartbeat by `heartbeat_due`. -/
theorem transceiverCommandsComplete : Obligations.TransceiverCommandsComplete := by
  unfold Obligations.TransceiverCommandsComplete
  dsimp only [exec]
  intro s t p
  refine ⟨fun core port => ?mode, fun core port can => event_does port core (trxReport_clear can),
    fun core here safe due => ?beat, fun early => always_does rfl (heartbeat_notDue early)⟩
  case mode =>
    rw [← advance_trxMode s t]
    exact event_does port core rfl
  case beat =>
    exact always_does rfl (heartbeat_due (by simpa using core) (by simpa using here) (by simpa using safe) due)

end Sys2Proof.Proofs
end

section
/-! PROOF. LIN channels (10_lin_channels.md): a header in a state whose channels are not listed in order, buffers, wakes and idles. -/
namespace Sys2Proof.Machine

variable {s : State} {t req m v : Nat}

/-! ## Channels that are listed twice over -/

/-- ACTIVE, LIN channel 0 running as a responder; the map of the channels is not in canonical form: its keys fall, and channel 0 is
listed at its default. -/
def linMisordered : State := { Tests.up (Tests.on (linPage 0)) with
  trxMode := []
  lin := [(1, { noLin with pulses := 1 }), (0, noLin)] }

/-- What the statement makes of a header at channel 0, before its error. -/
def linMisorderedHeard : State :=
  putLin { advance linMisordered 1 with linWakeCmd := linMisordered.linWakeCmd.filter (fun p => p != 64 + 0) } 0
    { getLin linMisordered 0 with frame := none, pulses := 0, waiting := 0, edgeAt := some (advance linMisordered 1).now }

/-- How many channels the answer's state lists. -/
def linListed : Answer → Nat
  | .next u => u.lin.length
  | _ => 0

theorem linMisordered_hears : coreUp linMisordered = true ∧ linPresent linMisordered.fuses 0 = true ∧
    linCommander linMisordered 0 = false ∧ linHears linMisordered 0 = true ∧ (getLin linMisordered 0).frame = none := by decide +kernel

/-- The command first resets the channel's wake, which takes it off the map, and then notes the edge; a single update leaves the
second entry of the channel in the map. -/
theorem linMisordered_lists : linListed (exec (.linHeaderReceived 1 0 0 none) linMisordered) = 2 ∧
    linListed (.next (settled (linError linMisorderedHeard 0 2))) = 3 := by decide +kernel

/-- A bit set by hardware leaves every other register as it was. -/
theorem rd_setBit_ne {a b : Nat} (i : Nat) (apart : b ≠ a) : rd (setBit s a i) b = rd s b := rd_setFld_ne s i i 1 apart

/-! ## Schedule switches -/

/-- LIN_SCHED_CMD.SWITCH of a channel (R378). -/
theorem software_linSwitch (here : linPresent s.fuses m = true) (reach : pf0Reaches (advance s t) req (linPage m)) :
    software true s t req (linPage m + 0x4C) 1 = .next (settled (setBit (advance s t) (linPage m + 0x4C) 0)) := by
  have page : pageOf (linPage m + 0x4C) = linPage m := pageOf_add (linPage_aligned m) (by decide)
  have slot : slotOf (linPage m + 0x4C) = 0x4C := slotOf_add (linPage_aligned m) (by decide)
  have fields : (fieldsAt s.fuses (linPage m + 0x4C)).isEmpty = false :=
    fieldsAt_of_kind (linPage_aligned m) (kindOf_linPage here) (by decide) (by decide) rfl (by decide) (by decide) (by decide)
  rw [software_linPage here (by decide) rfl reach fields]
  simp only [dispatchWrite, page, slot, show furGroup 0x06 = some 0xE0 from rfl, advance_fuses, kindOf_linPage here, instanceOf_linPage]
  rw [if_neg (by decide), if_neg (by decide), if_pos trivial, if_pos (by decide)]
  rfl

/-! ## Routed copies -/

/-- A poisoned copy for a channel is discarded with its count (R106). -/
theorem linFill_poisoned {c : Copy} (flight : mapGet? s.inFlight (64 + m) = some c) (poisoned : (getFrame s c.frame).poison = true) :
    linFill s m = freeIfDone (endFlight (incSat s (egrPage + 0x44)) (64 + m)) c.frame := by
  simp only [linFill, flight, poisoned, if_true]

/-! ## Wakes -/

/-- A channel commanded to wake its bus, with no wait running, sends its first pulse (R384). -/
theorem linWakePulse_commanded (commanded : s.linWakeCmd.contains (64 + m) = true) (waits : (getLin s m).waiting = 0)
    (runs : running s (linPage m) = true) (works : isFallow s (linPage m) = false) : linWakePulse s m = linPulse s m 1 := by
  unfold linWakePulse
  rw [commanded, waits, runs, works]
  rfl

theorem linWaitEnd_idle (waits : (getLin s m).waiting = 0) : linWaitEnd s m = s := by simp [linWaitEnd, waits]

/-- A wait whose wake nobody asks for any more ends the pattern (R384). -/
theorem linWaitEnd_stops (waits : (getLin s m).waiting ≠ 0)
    (stops : s.linWakeCmd.contains (64 + m) = false ∨ isFallow s (linPage m) = true) :
    linWaitEnd s m = putLin s m { getLin s m with pulses := 0, waiting := 0 } := by
  have stops' : (!s.linWakeCmd.contains (64 + m) || isFallow s (linPage m)) = true := by
    rcases stops with h | h <;> rw [h] <;> simp
  simp only [linWaitEnd, waits, stops', if_true, if_false]

section
variable (commanded : s.linWakeCmd.contains (64 + m) = true) (works : isFallow s (linPage m) = false)
include commanded works

/-- The commander's wait of 100 ms ends: its schedule starts (R384). -/
theorem linWaitEnd_commander (commander : linCommander s m = true) (waits : (getLin s m).waiting ≠ 0)
    (over' : (getLin s m).waitFrom + msTicks 100 ≤ s.now) :
    linWaitEnd s m = linStart (putLin { s with linWakeCmd := s.linWakeCmd.filter (fun p => p != 64 + m) } m
      { getLin s m with pulses := 0, waiting := 0 }) m := by
  have late : ¬ s.now - (getLin s m).waitFrom < msTicks 100 := by omega
  simp only [linWaitEnd, waits, commanded, works, commander, late, Bool.not_true, Bool.or_false, Bool.false_eq_true, if_true, if_false]

/-- A responder's wait of 200 ms ends: the next pulse, or after three a pause (R384). -/
theorem linWaitEnd_responder (responder : linCommander s m = false) (waits : (getLin s m).waiting = 1)
    (over' : (getLin s m).waitFrom + msTicks 200 ≤ s.now) :
    linWaitEnd s m = if 3 ≤ (getLin s m).pulses then putLin s m { getLin s m with pulses := 0, waiting := 2, waitFrom := s.now }
      else linPulse s m ((getLin s m).pulses + 1) := by
  have late : ¬ s.now - (getLin s m).waitFrom < msTicks 200 := by omega
  simp only [linWaitEnd, waits, Nat.one_ne_zero, commanded, works, responder, late, Bool.not_true, Bool.or_false, Bool.false_eq_true,
    if_true, if_false, ge_iff_le]

/-- Its pause of 1,500 ms ends: it begins again (R384). -/
theorem linWaitEnd_pause (responder : linCommander s m = false) (pauses : 1 < (getLin s m).waiting)
    (over' : (getLin s m).waitFrom + msTicks 1500 ≤ s.now) : linWaitEnd s m = linPulse s m 1 := by
  have late : ¬ s.now - (getLin s m).waitFrom < msTicks 1500 := by omega
  have waits : (getLin s m).waiting ≠ 0 := by omega
  have notPulse : (getLin s m).waiting ≠ 1 := by omega
  simp only [linWaitEnd, waits, notPulse, commanded, works, responder, late, Bool.not_true, Bool.or_false, Bool.false_eq_true, if_false]

end

/-- A commander's bus without an edge for LIN_IDLE.MS is an event (R385). -/
theorem linIdle_commander {e : Nat} (runs : running s (linPage m) = true) (works : isFallow s (linPage m) = false)
    (commander : linCommander s m = true) (edge : (getLin s m).edgeAt = some e)
    (over' : e + msTicks (clamp 4000 10000 (fld s (linPage m + 0x58) 13 0)) ≤ s.now) :
    linIdle s m = setBit (putLin s m { getLin s m with edgeAt := none }) (linEvents m) 4 := by
  have still : linCommander (setBit (putLin s m { getLin s m with edgeAt := none }) (linEvents m) 4) m = linCommander s m := by
    have apart : linPage m + 0x40 ≠ linEvents m := by unfold linEvents; omega
    unfold linCommander bit
    rw [rd_setBit_ne _ apart]
    rfl
  simp [linIdle, runs, works, edge, over', still, commander]

end Sys2Proof.Machine

namespace Sys2Proof.Proofs
open Sys2Proof.Machine

/-- Refutes O32: of `linMisordered`, where the map of the channels is not canonical, the statement's state lists channel 0 twice and
the command's does not. -/
theorem not_linFramesComplete : ¬ Obligations.LinFramesComplete := by
  unfold Obligations.LinFramesComplete
  intro h
  obtain ⟨core, here, responder, hears, idle⟩ := linMisordered_hears
  obtain ⟨listed, claimed⟩ := linMisordered_lists
  obtain ⟨-, headers, -⟩ := h linMisordered 1 0 core here
  rw [(headers 0 linMisorderedHeard responder hears idle rfl).1, claimed] at listed
  exact absurd listed (by decide)

/-- Settles O33: the software commands at their slots, the fill, and the wake pattern by what its wait ends. -/
theorem linBuffersAndWakesComplete : Obligations.LinBuffersAndWakesComplete := by
  unfold Obligations.LinBuffersAndWakesComplete
  dsimp only [exec]
  refine ⟨fun s t req m i here => ⟨fun i64 reach => ?ready, fun reach => ?switch, fun c core flight poisoned => ?poison,
    fun core => event_does here core rfl⟩, fun s t m core here => ⟨fun commanded waits runs works => ?pulse, fun waits => ?idleWait,
    fun waits stops => ?stops, fun commanded works => ?waitEnds, fun e runs works commander edge late => ?idle⟩⟩
  case ready =>
    have present : (decide (m < 24) && decide (i < 64)) = true := by
      simp only [linPresent, Bool.and_eq_true, decide_eq_true_eq] at here
      simp [here.1, i64]
    have address : linBufStat m i = linPage m + (0x200 + 16 * i + 4 * 3) := by unfold linBufStat; omega
    unfold execLinBufReadySet
    rw [present, address, software_linBuf here i64 (by decide) reach, show 0x200 + 16 * i + 4 * 3 = 0x20C + 16 * i by omega]
    rfl
  case switch =>
    have present : decide (m < 24) = true := by
      simp only [linPresent, Bool.and_eq_true] at here
      exact here.1
    unfold execLinSchedSwitch
    rw [present, software_linSwitch here reach]
  case poison => exact event_does here core (linFill_poisoned (by simpa using flight) (by simpa using poisoned))
  case pulse =>
    exact event_does here core (linWakePulse_commanded (by simpa using commanded) (by simpa using waits) (by simpa using runs)
      (by simpa using works))
  case idleWait => exact event_does here core (linWaitEnd_idle (by simpa using waits))
  case stops =>
    refine event_does here core ((linWaitEnd_stops (by simpa using waits) (by simpa using stops)).trans ?_)
    rw [getLin_advance]
  case waitEnds =>
    have commanded' : (advance s t).linWakeCmd.contains (64 + m) = true := by simpa using commanded
    have works' : isFallow (advance s t) (linPage m) = false := by simpa using works
    refine ⟨fun commander waits late => ?_, fun responder waits late => ?_, fun responder pauses late => ?_⟩
    · refine event_does here core ((linWaitEnd_commander commanded' works' (by simpa using commander) (by simpa using waits)
        (by simpa using late)).trans ?_)
      rw [getLin_advance, advance_linWakeCmd]
    · have ends := linWaitEnd_responder commanded' works' (by simpa using responder) (by simpa using waits) (by simpa using late)
      rw [getLin_advance] at ends
      exact ⟨fun few => event_does here core (ends.trans (if_neg (by omega))), fun three => event_does here core (ends.trans (if_pos three))⟩
    · exact event_does here core (linWaitEnd_pause commanded' works' (by simpa using responder) (by simpa using pauses)
        (by simpa using late))
  case idle =>
    refine event_does here core ((linIdle_commander (by simpa using runs) (by simpa using works) (by simpa using commander)
      (by simpa using edge) (by simpa using late)).trans ?_)
    rw [getLin_advance]

end Sys2Proof.Proofs
end

section
/-! PROOF. The Ethernet medium and the time base (11_ethernet_ports.md): pauses, collisions and back-offs, T1S turns and jams, steps
of the time. -/
namespace Sys2Proof.Machine

variable {s : State} {t req p c e : Nat}

theorem pauseEnd_ended (paused : mapGet? (getMac s p).pauseTo c = some e) (ended : e ≤ s.now) :
    pauseEnd s p c = noteStuck (pauseClass s p c 0) p := by
  simp [pauseEnd, paused, ended]

/-- QUANTA × 256 bit times after the last control frame, with none in the queue, another is due while XOFF holds (R404). -/
theorem pauseRefresh_due (xoff : bit s (admUsed p) 23 = true) (mode : fcMode s p ≠ 0) (free : (getMac s p).fcQ = [])
    (due : s.now - mapGet 0 s.fcSentAt p ≥ bitTicks s p (quantaOf s p * 256)) :
    pauseRefresh s p = sendControl s p (mapGet 0 s.withheld p) (quantaOf s p) := if_pos ⟨xoff, mode, free, due⟩

/-- A carrier on a CSMA/CD segment is jammed while XOFF holds (R410). -/
theorem forcedJam_jams (t1s : isT1s p = true) (segment : csma s p = true) (xoff : bit s (admUsed p) 23 = true)
    (live : macLive s p = true) (loud : pairQuiet s = false) (awake : chanAsleep s p = false) :
    forcedJam s p = send (incSat s (macPage p + 0xB0)) p .ethJam [] [] := by
  simp [forcedJam, t1s, segment, xoff, live, loud, awake]

/-- A late collision jams and ends the frame (R408). -/
theorem collision_late (segment : csma s p = true) (begun : notBegun s p = false) (flight : (mapGet? s.inFlight p).isSome = true)
    (live : macLive s p = true) :
    collision s p true = flightOver (incSat (tsFails (send (incSat s (macPage p + 0xA4)) p .ethJam [] []) p) (macPage p + 0xA8)) p := by
  have sends : (mapGet? s.inFlight p).isNone = false := by rw [← Option.not_isSome, flight]; rfl
  simp [collision, segment, begun, sends, live]

theorem backoffEnd_ended (backs : (getMac s p).backoff = some e) (ended : e ≤ s.now) :
    backoffEnd s p = putMac s p { getMac s p with backoff := none } := by
  simp [backoffEnd, backs, ended]

/-- An opportunity that passed unused ends (R409). -/
theorem plcaTurn_ends (plca : plcaOn s p = true) (live : macLive s p = true) (idle : mapGet? s.inFlight p = none)
    (ended : (getMac s p).turnEnd ≤ s.now) :
    plcaTurn s p false = putMac s p { getMac s p with turn := false, burst := 0 } := by
  simp [plcaTurn, plca, live, idle, ended]

/-- An opportunity of a node that is not the coordinator begins (R409). -/
theorem plcaTurn_begins (plca : plcaOn s p = true) (live : macLive s p = true) (loud : pairQuiet s = false)
    (awake : chanAsleep s p = false) (follower : plcaId s p ≠ 0) :
    plcaTurn s p true = serveControl (putMac s p { getMac s p with
      turn := true, burst := fld s (macPage p + 0x5C) 15 8
      turnEnd := s.now + bitTicks s p (max 1 (fld s (macPage p + 0x5C) 23 16)) }) p := by
  simp [plcaTurn, plca, live, loud, awake, follower]

/-- A step moves the time by a signed number of nanoseconds and cuts the running cycles short (R154, R412). -/
theorem timeStep_eq : timeStep s = { s with
    timeFine := (s.timeFine + (if rd s (timePage + 0x48) < 2 ^ 23 then rd s (timePage + 0x48) * 2 ^ 32
      else timeRange - (2 ^ 24 - rd s (timePage + 0x48)) * 2 ^ 32)) % timeRange
    gateRun := s.gateRun.map (fun e => (e.1, { e.2 with started := false })) } := rfl

theorem software_timeStep (reach : pf0Reaches (advance s t) req timePage) :
    software true s t req (timePage + 0x4C) 1 = .next (settled (timeStep (advance s t))) :=
  software_plain (kind := 0x22) rfl rfl (by decide) rfl rfl rfl (by decide) reach rfl rfl

end Sys2Proof.Machine

namespace Sys2Proof.Proofs
open Sys2Proof.Machine

/-- Settles O35: each event of the medium by its lemma, at its turn; the step by `timeStep_eq`. -/
theorem ethernetMediumAndTimeComplete : Obligations.EthernetMediumAndTimeComplete := by
  unfold Obligations.EthernetMediumAndTimeComplete
  dsimp only [exec]
  refine ⟨fun s t p core here => ⟨fun c e paused ended => ?paused, fun turn xoff mode free due => ?refresh,
    fun turn t1s segment xoff live loud awake => ?jam, fun segment begun flight live => ?collides, fun e backs ended turn => ?backoff,
    fun plca live => ?plca⟩, fun s t req reach => ?step⟩
  case paused => exact event_does here core (pauseEnd_ended (by simpa using paused) ended)
  case refresh =>
    refine event_does here core (yielding_does turn ((pauseRefresh_due (by simpa using xoff) (by simpa using mode)
      (by simpa using free) (by simpa using due)).trans ?_))
    rw [advance_withheld, quantaOf_advance]
  case jam =>
    exact event_does here core (yielding_does turn (forcedJam_jams t1s (by simpa using segment) (by simpa using xoff)
      (by simpa using live) (by simpa using loud) (by simpa using awake)))
  case collides =>
    exact ⟨event_does here core (collision_late (by simpa using segment) begun (by simpa using flight) (by simpa using live)),
      event_does here core rfl⟩
  case backoff =>
    refine event_does here core (yielding_does turn ((backoffEnd_ended (by simpa using backs) ended).trans ?_))
    rw [getMac_advance]
  case plca =>
    have plca' : plcaOn (advance s t) p = true := by simpa using plca
    have live' : macLive (advance s t) p = true := by simpa using live
    refine ⟨fun idle ended turn => ?ends, fun loud awake follower turn => ?begins⟩
    case ends =>
      refine event_does here core (yielding_does turn ((plcaTurn_ends plca' live' (by simpa using idle) (by simpa using ended)).trans ?_))
      rw [getMac_advance]
    case begins =>
      refine event_does here core (yielding_does turn ((plcaTurn_begins plca' live' (by simpa using loud) (by simpa using awake)
        (by simpa using follower)).trans ?_))
      rw [getMac_advance, fld_advance, fld_advance, bitTicks_advance]
  case step =>
    refine (software_timeStep reach).trans (next_settled (timeStep_eq.trans ?_))
    rw [rd_advance, advance_gateRun]

end Sys2Proof.Proofs
end

section
/-! PROOF. Wake and sleep (12_wake_and_sleep.md): wake events, clusters, false wakes, heartbeats and the parking of regions. -/
namespace Sys2Proof.Machine

variable {s : State} {t p c d r k : Nat}

/-! ## Wake events -/

/-- A wake at a die that hears the core reaches it (R450). -/
theorem wakeGranted_core {cause who : Nat} {report : State → State} (core : coreUp s = true) (hears : s.failsafe.contains d = false)
    (stays : s.power.goodbyeAt = none) : wakeGranted s d cause who report = report (entryAbort s) := by
  simp [wakeGranted, core, hears, stays, -List.contains_eq_mem]

/-- In STANDBY and BOOT it is latched (R646). -/
theorem wakeGranted_latched {cause who : Nat} {report : State → State} (down : powerState s = 1 ∨ powerState s = 2) :
    wakeGranted s d cause who report = latchWake s d cause who := by
  have core : coreUp s = false := by simp only [coreUp, decide_eq_false_iff_not]; omega
  have on : powerState s ≠ 0 := by omega
  simp [wakeGranted, core, on]

theorem wakeEvent_armed (armed : (mapGet? s.armed p).isSome = true) :
    wakeEvent s p = wakeGranted s (dieOf p) 1 p (fun u => wakeReport u p false) := by
  have some' : (mapGet? s.armed p).isNone = false := by rw [← Option.not_isSome, armed]; rfl
  simp [wakeEvent, some']

theorem wakeEvent_disarmed (disarmed : (mapGet? s.armed p).isSome = false) : wakeEvent s p = s := by
  have none' : (mapGet? s.armed p).isNone = true := by rw [← Option.not_isSome, disarmed]; rfl
  simp [wakeEvent, none']

/-- An edge that WIN_CFG selects is a wake of its die (R438). -/
theorem winEdge_selected {rising : Bool} {us : Nat} (core : coreUp s = true) (selected : winSelected s k rising us = true) :
    winEdge s k rising us = wakeGranted s (k / 2) 2 k (fun u => winReport u k false) := by
  simp [winEdge, core, selected]

/-! ## Clusters -/

/-- A PF0 write of a slot of a page that has no command register, as the write itself. -/
theorem writeReg_plain {req kind v : Nat} (aligned : p % 0x1000 = 0) (small : k < 0x1000) (slot : k % 4 = 0)
    (h : kindOf s.fuses p = kind) (plain : cmdSlot kind = none) (notCan : kind ≠ 0x03) (reach : pf0Reaches (advance s t) req p)
    (fields : (fieldsAt s.fuses (p + k)).isEmpty = false) :
    writeReg (advance s t) req (p + k) v true = dispatchWrite (advance s t) req (p + k) (v % 2 ^ 24) := by
  have page : pageOf (p + k) = p := pageOf_add aligned small
  have notPort : kind ≠ 0x1F := fun port => absurd (port ▸ plain) (by decide)
  rw [writeReg_pf0 (by omega) (pf0Reaches_of_page page reach) fields
    (waitsParked_of_kind (by rw [advance_fuses, page, h]) notPort notCan), page, atPage_of_kind h plain]

/-- A software command at a slot that answers is its register write. -/
theorem software_does {req a v : Nat} {ok : Bool} {u : State} (present : ok = true) (answer : answers s a = true)
    (write : writeReg (advance s t) req a v true = u) : software ok s t req a v = .next (settled u) :=
  always_does (by rw [present, answer]; rfl) write

section
variable {f : Fuses}

theorem kindOf_clusterPage : kindOf f clusterPage = 0x2D := rfl

/-- CL_CMD of a cluster is a slot of the cluster page (R433). -/
theorem fieldsAt_clCmd (c32 : c < 32) : (fieldsAt f (clusterPage + (0x600 + 4 * c))).isEmpty = false := by
  refine fieldsAt_of_mem (g := fa 0x600 4 32 0 0 .wt .l 0 "CL_CMD[c].RELEASE") rfl kindOf_clusterPage (by omega) (by omega) (by omega)
    (by decide) (by decide) ?_ rfl
  exact fieldAt_array rfl c32 (by decide)

end

theorem dispatchWrite_clCmd {req v : Nat} (c32 : c < 32) :
    dispatchWrite s req (clusterPage + (0x600 + 4 * c)) v = clWrite s c v := by
  have page : pageOf (clusterPage + (0x600 + 4 * c)) = clusterPage := pageOf_add rfl (by omega)
  have slot : slotOf (clusterPage + (0x600 + 4 * c)) = 0x600 + 4 * c := by rw [slotOf_add rfl (by omega)]; omega
  have cluster : (0x600 + 4 * c - 0x600) / 4 = c := by omega
  simp only [dispatchWrite, page, slot, kindOf_clusterPage, show furGroup 0x2D = none from rfl, cluster]
  rw [if_neg (by omega), if_neg (by decide), if_pos (by omega)]

/-- A PF0 write of CL_CMD (R433). -/
theorem writeReg_clCmd {req v : Nat} (c32 : c < 32) (reach : pf0Reaches (advance s t) req clusterPage) :
    writeReg (advance s t) req (clusterPage + (0x600 + 4 * c)) v true = clWrite (advance s t) c (v % 2 ^ 24) := by
  rw [writeReg_plain rfl (by omega) (by omega) kindOf_clusterPage rfl (by decide) reach (fieldsAt_clCmd c32), dispatchWrite_clCmd c32]

section
variable (managed : bit s (clCfg c) 23 = true)
include managed

theorem repeatExpiry_elapsed (repeats : clState s c = 1) (elapsed : s.now - (getCl s c).entered ≥ (getCl s c).repeatFor) :
    repeatExpiry s c = serveHints (if clReq s c then setCluster s c 2 else enterReady s c) := by
  simp only [repeatExpiry, managed, repeats, decide_eq_true elapsed]; rfl

theorem nmTimerExpiry_expired (ready : clState s c = 3) (expired : nmExpired s c = true) :
    nmTimerExpiry s c = serveHints (enterPrepare s c) := by
  simp [nmTimerExpiry, managed, ready, expired]

theorem nmCycle_elapsed (awake : clState s c = 1 ∨ clState s c = 2) (elapsed : s.now - (getCl s c).cycleAt ≥ (getCl s c).cycleFor) :
    nmCycle s c = nmSend s c := by
  have awake' : (clState s c == 1 || clState s c == 2) = true := by simpa using awake
  simp only [nmCycle, managed, awake', decide_eq_true elapsed]; rfl

theorem waitExpiry_elapsed (prepares : clState s c = 4) (unarmed : bit s (clStat c) 18 = false)
    (elapsed : s.now - (getCl s c).entered ≥ (getCl s c).waitFor) :
    waitExpiry s c = forEach (members s c) (setBit s (clStat c) 18) refreshTrx := by
  simp only [waitExpiry, managed, prepares, unarmed, decide_eq_true elapsed]; rfl

theorem sleepCommit_armed (prepares : clState s c = 4) (armed : bit s (clStat c) 18 = true) :
    sleepCommit s c = setCluster (setBit { s with
      linWakeCmd := s.linWakeCmd.filter (fun p => clusterOf s p != some c) } (clEvents c) 1) c 0 := by
  simp only [sleepCommit, managed, prepares, armed]; rfl

end

/-! ## False wakes, heartbeats and parking -/

theorem fwExpiry_noWindow (closed : mapGet? s.fwFrom p = none) : fwExpiry s p = s := by simp [fwExpiry, closed]

/-- A heartbeat that has lapsed for 4 ms takes the die's channels into FAILSAFE (R450). -/
theorem heartbeatLapse_lapsed {h : Nat} (last : mapGet? s.heartbeatAt d = some h) (lapsed : h + msTicks 4 ≤ s.now)
    (on : powerState s ≠ 0) (stays : s.power.goodbyeAt = none) (hears : s.failsafe.contains d = false) :
    heartbeatLapse s d = putSup (failsafeDie s d) d { getSup (failsafeDie s d) d with lapsedAt := some (failsafeDie s d).now } := by
  simp [heartbeatLapse, last, lapsed, on, stays, hears, -List.contains_eq_mem]

theorem voteWithdraw_second {h : Nat} (lapsed : (getSup s d).lapsedAt = some h) (passed : h + secTicks 1 ≤ s.now) :
    voteWithdraw s d = putSup s d { getSup s d with alive := false, lapsedAt := none } := by
  simp [voteWithdraw, lapsed, passed]

/-- A region parks that has been idle for 10 ms, unless something has asked it to run at this moment (R451, R456). -/
theorem regionPark_idle (core : coreUp s = true) (enabled : bit s (wakePage r + 0x40) 23 = true) (idle : parkable s r = true)
    (held : heldFor s r (msTicks 10) = true) (runs : parked s r = false) :
    regionPark s r = if mapGet? s.heldFrom (8 + r) = some s.now then s
      else notePark (incSat (setBit (wr { s with pace := mapDel s.pace r } (regionBase r + 0x30) 0xC00000) (wakePage r + 0x44) 23)
        (wakePage r + 0x4C)) := by
  have works : fld s (pwrPage + 0x40) 23 21 ≥ 3 := of_decide_eq_true core
  simp [regionPark, enabled, idle, held, runs, works]

/-- Where PARKED is cleared the region runs, whatever else its unparking writes (R453). -/
theorem parked_cleared (v : Nat) : parked (wr (clrBit s (wakePage r + 0x44) 23) (regionBase r + 0x30) v) r = false := by
  have apart : wakePage r + 0x44 ≠ regionBase r + 0x30 := by unfold wakePage; omega
  have cleared := fld_setFld_self s (wakePage r + 0x44) 23 23 0 (by decide) (by decide)
  simp only [parked, bit, rd_wr_ne _ _ apart]
  rw [show bitsOf (rd (clrBit s (wakePage r + 0x44) 23) (wakePage r + 0x44)) 23 23 = 0 from cleared]
  rfl

theorem unpark_parked (parks : parked s r = true) : unpark s r = notePark (policersFull (wr (clrBit
    { s with heldFrom := mapSet s.heldFrom (8 + r) s.now } (wakePage r + 0x44) 23) (regionBase r + 0x30) 0) r) :=
  if_pos parks

end Sys2Proof.Machine

namespace Sys2Proof.Proofs
open Sys2Proof.Machine

/-- Settles O36: a detector that is armed, and an edge that is selected, is a wake of its die (`wakeGranted_core`,
`wakeGranted_latched`). -/
theorem wakeEventsComplete : Obligations.WakeEventsComplete := by
  unfold Obligations.WakeEventsComplete
  dsimp only [exec]
  intro s t p port
  refine ⟨fun armed core hears stays => ?reported, fun armed down => ?latched,
    fun disarmed => always_does port (wakeEvent_disarmed (by simpa using disarmed)), fun k rising us small core selected hears stays => ?edge⟩
  case reported =>
    exact always_does port ((wakeEvent_armed (by simpa using armed)).trans
      (wakeGranted_core (by simpa using core) (by rwa [advance_failsafe]) (by simpa using stays)))
  case latched =>
    exact always_does port ((wakeEvent_armed (by simpa using armed)).trans (wakeGranted_latched (by simpa using down)))
  case edge =>
    exact always_does (decide_eq_true small) ((winEdge_selected (by simpa using core) (by simpa using selected)).trans
      (wakeGranted_core (by simpa using core) (by rwa [advance_failsafe]) (by simpa using stays)))

/-- Settles O37: CL_CMD by `writeReg_clCmd`, each timer by what it does when it has run. -/
theorem clusterCommandsComplete : Obligations.ClusterCommandsComplete := by
  unfold Obligations.ClusterCommandsComplete
  dsimp only [exec]
  intro s t c c32
  have c32' : decide (c < 32) = true := decide_eq_true c32
  refine ⟨fun req reach => ?commands, fun core managed => ?timers, fun core => event_does c32' core rfl⟩
  case commands =>
    have write := writeReg_clCmd (v := 2) c32 reach
    have release := writeReg_clCmd (v := 1) c32 reach
    rw [← Nat.add_assoc] at write release
    have ⟨_, _, boot⟩ := pf0Reaches_of_page (a := clusterPage + 0x600 + 4 * c) (by rw [Nat.add_assoc]; exact pageOf_add rfl (by omega)) reach
    have answer : answers s (clusterPage + 0x600 + 4 * c) = true := answers_of (by unfold clusterPage; omega) (by simpa using boot)
      (by rw [Nat.add_assoc]; exact fieldsAt_clCmd c32)
    exact ⟨always_does c32' write, software_does c32' answer release⟩
  case timers =>
    have managed' : bit (advance s t) (clCfg c) 23 = true := by simpa using managed
    refine ⟨fun repeats elapsed req => ?_, fun repeats elapsed req => ?_, fun ready expired turn => ?_, fun awake elapsed => ?_,
      fun prepares unarmed elapsed => ?_, fun prepares armed => ?_⟩
    · exact event_does c32' core ((repeatExpiry_elapsed managed' (by simpa using repeats) (by simpa using elapsed)).trans
        (by simp [req]))
    · exact event_does c32' core ((repeatExpiry_elapsed managed' (by simpa using repeats) (by simpa using elapsed)).trans
        (by simp [req]))
    · exact event_does c32' core (yielding_does turn (nmTimerExpiry_expired managed' (by simpa using ready) expired))
    · exact event_does c32' core (nmCycle_elapsed managed' (by simpa using awake) (by simpa using elapsed))
    · rw [← members_advance s t]
      exact event_does c32' core (waitExpiry_elapsed managed' (by simpa using prepares) (by simpa using unarmed) (by simpa using elapsed))
    · refine event_does c32' core ((sleepCommit_armed managed' (by simpa using prepares) (by simpa using armed)).trans ?_)
      simp only [clusterOf_advance, advance_linWakeCmd]

/-- Settles O38: each event by what it does, at its turn; a region that parks by `regionPark_idle`, one that unparks by `unpark_parked`. -/
theorem falseWakesAndParkingComplete : Obligations.FalseWakesAndParkingComplete := by
  unfold Obligations.FalseWakesAndParkingComplete
  dsimp only [exec]
  refine ⟨fun s t => ⟨fun p core port turn => ?window, ?hour, fun i small core => event_does (decide_eq_true small) core rfl⟩,
    fun s t d r => ⟨fun h small last lapsed on stays hears turn => ?lapse,
      fun small behind => always_does (decide_eq_true small) (yielding_advance_waits behind), fun h small lapsed passed => ?vote,
      fun small core => ⟨fun behind => event_does (decide_eq_true small) core (yielding_advance_waits behind),
        fun turn enabled idle held runs => ?parks, parked_cleared 0⟩, fun small core => ?unparks⟩⟩
  case window =>
    exact ⟨event_does port core (yielding_does turn rfl),
      fun closed => event_does port core (yielding_does turn (fwExpiry_noWindow (by simpa using closed)))⟩
  case hour =>
    rw [← advance_fuses s t]
    exact always_does rfl rfl
  case lapse =>
    exact always_does (decide_eq_true small) (yielding_does turn (heartbeatLapse_lapsed (by simpa using last) lapsed (by simpa using on)
      (by simpa using stays) (by rwa [advance_failsafe])))
  case vote =>
    refine always_does (decide_eq_true small) ((voteWithdraw_second (by simpa using lapsed) passed).trans ?_)
    rw [getSup_advance]
  case parks =>
    have parks := regionPark_idle (by simpa using core) (by simpa using enabled) idle held (by simpa using runs)
    rw [← advance_heldFrom s t, ← advance_pace s t]
    exact ⟨fun quiet => event_does (decide_eq_true small) core (yielding_does turn (parks.trans (if_neg quiet))),
      fun asked => event_does (decide_eq_true small) core (yielding_does turn (parks.trans (if_pos asked)))⟩
  case unparks =>
    refine ⟨fun quiet => event_does (decide_eq_true small) core (if_neg (Bool.eq_false_iff.mp quiet)), fun asked parks => ?_⟩
    refine event_does (decide_eq_true small) core ((if_pos asked).trans ((unpark_parked (by simpa using parks)).trans ?_))
    rw [advance_heldFrom]

end Sys2Proof.Proofs
end

section
/-! PROOF. Security (13_security.md) and the commands of the check-value units (14_check_value_units.md): lanes, the entropy source and
its generator, life-cycle transitions, key commands. -/
namespace Sys2Proof.Machine

variable {s : State} {t req i u v : Nat}

/-! ## Lanes -/

/-- A profile that is neither valid nor quarantined lets its item go as it came (R470, R471). -/
theorem laneSecoc_unprofiled {it : LaneItem} {w : State} (gen : Bool) (front : laneTake s i 0 = some (it, w)) (secoc : it.kind = 0)
    (serves : laneServes s i = true) (judged : isQuar s 5 0 it.profile = false) (none' : tLive s secTable 0 it.profile = none) :
    laneSecoc s i gen 0 = laneRelease w it it.copies none := by
  simp [laneSecoc, front, secoc, serves, judged, none']

/-- A received frame of bad lane parity faults the lane (R460). -/
theorem laneReceive_laneParity {it : LaneItem} {w : State} (front : laneTake s i 1 = some (it, w)) (received : it.kind = 1)
    (good : it.poison = false) (serves : laneServes s i = true) : laneReceive s i 1 = laneFault w i it := by
  simp [laneReceive, front, received, good, serves]

/-! ## The entropy source and the generator -/

theorem entropyBits_bad {bits : Nat} (runs : running s entPage = true) (bad : rctFails bits = true ∨ aptFails bits = true) :
    entropyBits s bits = entropyFail s (!(rctFails bits)) := by
  have bad' : (rctFails bits || aptFails bits) = true := by simpa using bad
  simp [entropyBits, runs, bad']

theorem entropyBits_good {bits : Nat} (rct : rctFails bits = false) (apt : aptFails bits = false) : entropyBits s bits = s := by
  simp [entropyBits, rct, apt]

/-- Seeding the generator draws free values and leaves the rest of the block as it is. -/
theorem drbgSeed_only (anew : Bool) :
    drbgSeed s anew = { s with freeCtr := (drbgSeed s anew).freeCtr, drbg := (drbgSeed s anew).drbg } := rfl

theorem drbgSeed_requests (anew : Bool) : (drbgSeed s anew).drbg.requests = 0 := rfl

/-- The startup test ends well, no mask generator waiting and no test outstanding: the generator is instantiated (R483, R484). -/
theorem entropyStarted_first (runs : running s entPage = true) (starts : bit s (entPage + 0x40) 22 = true)
    (tested : s.awaitTest.contains (entPage, 0) = false) (masks : s.maskGen = []) :
    entropyStarted s = serviceWork (drbgSeed (setFld (setBit (clrBit s (entPage + 0x40) 22) (entPage + 0x40) 23)
      (entPage + 0x4C) 23 22 1) true) 1 3 := by
  have masks' (w : State) (h : w.maskGen = []) : (serviceWork (drbgSeed w true) 1 3).maskGen = [] := h
  have tested' (w : State) (h : w.awaitTest.contains (entPage, 0) = false) :
      (serviceWork (drbgSeed w true) 1 3).awaitTest.contains (entPage, 0) = false := h
  have ready : drbgReady (setBit (clrBit s (entPage + 0x40) 22) (entPage + 0x40) 23) = serviceWork (drbgSeed (setFld (setBit
      (clrBit s (entPage + 0x40) 22) (entPage + 0x40) 23) (entPage + 0x4C) 23 22 1) true) 1 3 := by
    simp only [drbgReady, masks' _ (show (setFld (setBit (clrBit s (entPage + 0x40) 22) (entPage + 0x40) 23) (entPage + 0x4C) 23 22 1).maskGen
      = [] by rw [setFld_maskGen, setBit_maskGen, clrBit_maskGen, masks]), List.filter_nil, forEach, List.foldl_nil]
  simp only [entropyStarted, runs, starts, ready, Bool.not_true, Bool.or_self, Bool.false_eq_true, if_false]
  rw [tested' _ (by rwa [setFld_awaitTest, setBit_awaitTest, clrBit_awaitTest]), if_neg Bool.false_ne_true]

theorem entropyTested_good {bits : Nat} (rct : rctFails bits = false) (apt : aptFails bits = false) :
    entropyTested s bits = entropyStarted s := by
  simp [entropyTested, rct, apt]

/-- A request counts among those of its seed; the 2^20th has reseeded the generator before it (R484). -/
theorem drbgRequest_requests {n : Nat} : (drbgRequest s n false).2.drbg.requests =
    if 2 ^ 20 ≤ s.drbg.requests then 1 else s.drbg.requests + 1 := by
  unfold drbgRequest
  split <;> simp_all [drbgSeed_requests]

/-- A read of DRBG_OUT is a request of the generator while it is READY, and sets ERR_SEEN otherwise (R485). -/
theorem readFor_drbgOut (boot : bootReach s entPage = true) (free : holdsUp s req = false) :
    readFor s req (entPage + 0x50) = completeRead (drbgOut s).2 req (drbgOut s).1 := by
  have boot' : bootReach s (entPage + 0x50) = true := (bootReach_of_page (by rfl) boot).trans rfl
  have plain : isPop s (entPage + 0x50) = false := rfl
  have fields : (fieldsAt s.fuses (entPage + 0x50)).isEmpty = false := rfl
  have read : readReg s (entPage + 0x50) = drbgOut s := by
    simp only [readReg, show (entPage + 0x50) / 4 * 4 = entPage + 0x50 from rfl, boot', fields]
    rfl
  simp [readFor, free, readNow, boot', plain, read]

/-! ## Life-cycle transitions -/

theorem fld_wr_ne {a b : Nat} (h l : Nat) (apart : b ≠ a) : fld (wr s a v) b h l = fld s b h l :=
  congrArg (bitsOf · h l) (rd_wr_ne s v apart)

theorem bit_wr_ne {a b : Nat} (k : Nat) (apart : b ≠ a) : bit (wr s a v) b k = bit s b k :=
  congrArg (fun w => bitsOf w k k == 1) (rd_wr_ne s v apart)

theorem lcState_wr : lcState (wr s (lcPage + 0x44) v) = lcState s := fld_wr_ne 23 21 (by decide)

theorem drbgState_wr : drbgState (wr s (lcPage + 0x44) v) = drbgState s := fld_wr_ne 23 22 (by decide)

theorem cmdBusy_wr {a b : Nat} : cmdBusy (wr s a v) b = cmdBusy s b := rfl

section
variable (pf0 : reqPf req = 0) (none' : mapGet? s.cmds lcCmd = none)
include pf0 none'

/-- GO of a transition that R487 does not know is refused, LC_ARM cleared (R488). -/
theorem lcGo_unknown {burnOk : Bool} (unknown : lcAllowed (lcState s) (fld s (lcPage + 0x44) 2 0) = false) :
    lcGo s req burnOk = lcRefuse (wr s (lcPage + 0x44) 0) 0x1 := by
  simp only [lcGo, cmdSettle_none none', pf0, Nat.zero_ne_one, if_false, lcState_wr, unknown, Bool.not_false, if_true]

/-- So is one without its code (R488). -/
theorem lcGo_uncoded {burnOk : Bool} (known : lcAllowed (lcState s) (fld s (lcPage + 0x44) 2 0) = true)
    (code : fld s (lcPage + 0x44) 23 12 ≠ 0x5A5) : lcGo s req burnOk = lcRefuse (wr s (lcPage + 0x44) 0) 0x2 := by
  simp only [lcGo, cmdSettle_none none', pf0, Nat.zero_ne_one, if_false, lcState_wr, known, Bool.not_true, Bool.false_eq_true, ne_eq, code,
    not_false_eq_true, if_true]

/-- An accepted transition to SCRAPPED erases every wrapped key record and begins to program the state (R488). -/
theorem lcGo_scraps (idle : cmdBusy s lcCmd = false) (alive : lcState s < 4) (target : fld s (lcPage + 0x44) 2 0 = 4)
    (code : fld s (lcPage + 0x44) 23 12 = 0x5A5) (unlocked : bit s (lcPage + 0x4C) 0 = false) (ready : drbgState s = 1)
    (settled' : fld s (lcPage + 0x40) 20 18 = lcState s) :
    lcGo s req true = cmdStart { clrBit (setFld (wr s (lcPage + 0x44) 0) (lcPage + 0x40) 15 12 0) (lcPage + 0x40) 16 with keyRecs := [] }
      lcCmd 1 [{ addr := lcPage + 0x40, hi := 20, lo := 18, val := 4 }] := by
  have known : lcAllowed (lcState s) 4 = true := by simp [lcAllowed, alive]
  have unlocked' : bit (wr s (lcPage + 0x44) 0) (lcPage + 0x4C) 0 = false := (bit_wr_ne 0 (by decide)).trans unlocked
  have same : fld (wr s (lcPage + 0x44) 0) (lcPage + 0x40) 20 18 = lcState s := (fld_wr_ne 20 18 (by decide)).trans settled'
  simp only [lcGo, cmdSettle_none none', pf0, target, code, lcState_wr, known, unlocked', drbgState_wr, ready, cmdBusy_wr, idle, same,
    burnFails, Nat.zero_ne_one, Bool.not_true, Bool.false_eq_true, ne_eq, not_true_eq_false, or_self, bne_self_eq_false, Bool.false_and,
    Bool.or_self, if_true, if_false]

end

/-- LC_CMD.GO of a PF0 at a life-cycle page that answers (R488). -/
theorem execLcGo_reaches (reach : pf0Reaches (advance s t) req lcPage) (burnOk : Bool) :
    execLcGo t req burnOk s = .next (settled (lcGo (advance s t) req burnOk)) := by
  have ⟨_, free, boot⟩ := reach
  have boot' : bootReach (advance s t) (lcPage + 0x48) = true := bootReach_of_page (by rfl) boot
  exact always_does rfl (by rw [free, boot']; rfl)

/-! ## Key commands -/

section
variable {act : State → State}

/-- A key command of a PF0, none under way, acts (R492). -/
theorem keyPort_idle (pf0 : reqPf req = 0) (none' : mapGet? s.cmds keyCmd = none) (idle : cmdBusy s keyCmd = false) :
    keyPort s req act = act s := by
  simp [keyPort, cmdSettle_none none', pf0, idle]

theorem keyPort_busy (pf0 : reqPf req = 0) (busy : cmdBusy s keyCmd = true) : keyPort s req act = keyRefuse s 0x6 := by
  simp [keyPort, cmdSettle_busy busy, pf0, busy]

theorem keyGate_idle (pf0 : reqPf req = 0) (none' : mapGet? s.cmds keyCmd = none) (idle : cmdBusy s keyCmd = false)
    (unlocked : bit s (secPage + 0x40) 0 = false) : keyGate s req act = act s := by
  rw [keyGate, keyPort_idle pf0 none' idle, unlocked]; rfl

theorem keyGate_busy (pf0 : reqPf req = 0) (busy : cmdBusy s keyCmd = true) : keyGate s req act = keyRefuse s 0x6 := by
  rw [keyGate, keyPort_busy pf0 busy]

end

theorem atPage_keyPage : atPage s t keyPage = cmdSettle (advance s t) keyCmd :=
  atPage_some (by decide) (by rw [show kindOf s.fuses keyPage = 0x43 from rfl]; decide) rfl

/-- A key command that is a PF0 write of KEY_CMD, on a page whose command is not to be settled. -/
theorem software_keyCmd (reach : pf0Reaches (advance s t) req keyPage) (still : cmdSettle (advance s t) keyCmd = advance s t)
    (v : Nat) : software true s t req (keyPage + 0x44) v = .next (settled (keyWrite (advance s t) req (v % 2 ^ 24))) := by
  rw [software_page (kind := 0x43) rfl rfl (by decide) rfl rfl (by decide) (by decide) reach rfl, atPage_keyPage, still]
  rfl

/-- DERIVE, whether it meets a source key of bad parity or not (R492, R498). -/
theorem keyDerive_commanded (reach : pf0Reaches (advance s t) req keyPage) (still : cmdSettle (advance s t) keyCmd = advance s t)
    (met : Bool) : commanded s t req (keyPage + 0x44) 4 met (fun s => keyDerive s req true) =
      .next (settled (keyDerive (advance s t) req met)) := by
  have ⟨_, free, boot⟩ := reach
  have boot' : bootReach s (keyPage + 0x44) = true := by simpa using bootReach_of_page (a := keyPage + 0x44) (by rfl) boot
  have answer : answers s (keyPage + 0x44) = true := answers_of (by decide) boot' rfl
  cases met with
  | true => exact always_does answer (by rw [free]; rfl)
  | false =>
    simp only [commanded, Bool.false_and, Bool.false_eq_true, if_false]
    exact software_keyCmd reach still 4

section
variable (pf0 : reqPf req = 0) (none' : mapGet? s.cmds keyCmd = none) (idle : cmdBusy s keyCmd = false)
include pf0 none' idle

/-- ERASE empties the selected slot and its record (R492). -/
theorem keyErase_idle (unlocked : bit s (secPage + 0x40) 0 = false) : keyErase s req = cmdStart (keyAccept { s with
    keys := mapDel s.keys (keySlotSel s), keyRecs := mapDel s.keyRecs (keySlotSel s)
    keysSaving := s.keysSaving.filter (fun j => j != keySlotSel s) }) keyCmd 1 [] :=
  keyGate_idle pf0 none' idle unlocked

/-- GENERATE draws its key from the generator (R492). -/
theorem keyGenerate_idle {n : Nat} {bs : List Nat} {w : State} (unlocked : bit s (secPage + 0x40) 0 = false)
    (free : keyBarred s = false) (ready : drbgState s = 1) (bits : n = if key256Sel s then 256 else 128)
    (request : drbgRequest s n true = (bs, w)) :
    keyGenerate s req = cmdStart (keyFill (keyAccept w) (bytesNum bs) 2 (drbgBlocks n true)) keyCmd 2 [] := by
  subst bits
  rw [keyGenerate, keyGate_idle pf0 none' idle unlocked]
  simp [free, ready, request]

/-- INFO shows an empty slot as empty (R492). -/
theorem keyInfo_empty (empty : mapGet? s.keys (keySlotSel s) = none) : keyInfo s req = cmdStart (keyAccept s) keyCmd 8
    [{ addr := keyPage + 0x4C, hi := 23, lo := 0, val := 0 }, { addr := keyPage + 0x50, hi := 23, lo := 0, val := 0 }] := by
  rw [keyInfo, keyPort_idle pf0 none' idle]
  simp only [empty]

end

/-! ## Check-value units -/

/-- CV_CMD of a unit is a slot of its page (R513). -/
theorem software_cvCommand (small : u < 4) (reach : pf0Reaches (advance s t) req (cvPage u)) (v : Nat) :
    software (decide (u < 4)) s t req (cvPage u + 0x50) v =
      .next (settled (cvBoundary (cvCommand (advance s t) u (v % 2 ^ 24)) u)) := by
  have page : pageOf (cvPage u + 0x50) = cvPage u := pageOf_add (cvPage_aligned u) (by decide)
  have slot : slotOf (cvPage u + 0x50) = 0x50 := slotOf_add (cvPage_aligned u) (by decide)
  have fields : (fieldsAt s.fuses (cvPage u + 0x50)).isEmpty = false :=
    fieldsAt_of_kind (cvPage_aligned u) (kindOf_cvPage small) (by decide) (by decide) rfl (by decide) (by decide) (by decide)
  have unit : cellOf (cvPage u) - 1 = u := by rw [cellOf_cvPage small]; rfl
  refine software_plain (decide_eq_true small) (cvPage_aligned u) (by decide) rfl (kindOf_cvPage small) rfl (by decide) reach fields ?_
  simp only [dispatchWrite, page, slot, advance_fuses, kindOf_cvPage small, show furGroup 0x46 = none from rfl, unit]
  rfl

/-- START alone, which a unit in FALLOW refuses as every START (R513, R518). -/
theorem cvCommand_start : cvCommand s u 1 = cvStart s u := by
  by_cases fallow : isFallow s (cvPage u)
  · simp [cvCommand, cvStart, fallow]
  · simp [cvCommand, fallow]

end Sys2Proof.Machine

namespace Sys2Proof.Proofs
open Sys2Proof.Machine

/-- Settles O39: the lane's item by what the lane makes of it; the rest as the commands are defined. -/
theorem laneCommandsComplete : Obligations.LaneCommandsComplete := by
  unfold Obligations.LaneCommandsComplete
  dsimp only [exec]
  intro s t i core lane
  have lane' : decide (kindOf s.fuses (lanePage i) = 0x42) = true := decide_eq_true lane
  refine ⟨fun it u front secoc serves judged none' => ?release, fun ev => ⟨event_does lane' core rfl, event_does lane' core rfl,
      fun turn => event_does lane' core (yielding_does turn rfl), event_does lane' core rfl⟩,
    fun it u front received good serves => event_does lane' core (laneReceive_laneParity front received good (by simpa using serves)),
    fun _ pass => event_does lane' core rfl, event_does rfl core rfl⟩
  case release =>
    have release (gen : Bool) : laneSecoc (advance s t) i gen 0 = laneRelease u it it.copies none :=
      laneSecoc_unprofiled gen front secoc (by simpa using serves) (by simpa using judged) (by simpa using none')
    exact ⟨event_does lane' core (release true), event_does lane' core (release false)⟩

/-- Settles O40: the source by what its tests find, the generator by its state, a transition by the first reason against it. -/
theorem entropyAndLifeCycleComplete : Obligations.EntropyAndLifeCycleComplete := by
  unfold Obligations.EntropyAndLifeCycleComplete
  dsimp only [exec]
  refine ⟨fun s t req => ⟨fun bits core runs => ⟨fun bad => event_does rfl core (entropyBits_bad (by simpa using runs) bad),
      fun rct apt => ⟨event_does rfl core (entropyBits_good rct apt), fun starts tested masks => ?started⟩⟩,
    fun reach ready => ?reseed, fun boot free => ?read⟩, fun s t req reach none' idle => ?transition⟩
  case started =>
    exact event_does rfl core ((entropyTested_good rct apt).trans (entropyStarted_first (by simpa using runs) (by simpa using starts)
      (by rwa [advance_awaitTest]) (by simpa using masks)))
  case reseed =>
    exact software_plain (kind := 0x47) rfl rfl (by decide) rfl rfl rfl (by decide) reach rfl (if_pos (by simpa using ready))
  case read =>
    have read := readFor_drbgOut boot (show holdsUp (advance s t) req = false by simpa using free)
    refine ⟨fun notReady => always_does rfl (read.trans ?_), fun ready bs u request => ⟨?_, always_does rfl (read.trans ?_)⟩⟩
    · simp [drbgOut, notReady]
    · have counted := drbgRequest_requests (s := advance s t) (n := 24)
      rw [request] at counted
      simpa using counted
    · simp [drbgOut, ready, request]
  case transition =>
    have ⟨pf0, _, _⟩ := reach
    have none'' : mapGet? (advance s t).cmds lcCmd = none := by simpa using none'
    refine ⟨fun alive target code unlocked ready same => ?_, fun burnOk unknown => ?_, fun burnOk known code => ?_⟩ <;>
      rw [execLcGo_reaches reach]
    · exact next_settled (lcGo_scraps pf0 none'' idle (by simpa using alive) (by simpa using target) (by simpa using code)
        (by simpa using unlocked) (by simpa using ready) (by simpa using same))
    · exact next_settled (lcGo_unknown pf0 none'' (by simpa using unknown))
    · exact next_settled (lcGo_uncoded pf0 none'' (by simpa using known) (by simpa using code))

/-- Settles O41: a key command at its page (`software_keyCmd`, `keyDerive_commanded`), through its gate; a unit's command by
`software_cvCommand`, its data by `exec_cvDataWrite_reaches`. -/
theorem keysAndCheckValuesComplete : Obligations.KeysAndCheckValuesComplete := by
  unfold Obligations.KeysAndCheckValuesComplete
  refine ⟨fun s t req reach unlocked => ⟨fun none' idle => ?idle, fun busy i met member => ?busy, fun core => ?saved⟩,
    fun s t req u small reach => ⟨?start, ?abort, fun v => exec_cvDataWrite_reaches small reach v, fun v unlocked idle => ?stray⟩⟩
  case idle =>
    have ⟨pf0, _, _⟩ := reach
    have none'' : mapGet? (advance s t).cmds keyCmd = none := by simpa using none'
    have still := cmdSettle_none none''
    have unlocked' : bit (advance s t) (secPage + 0x40) 0 = false := by simpa using unlocked
    dsimp only [exec]
    refine ⟨?erase, fun barred ready n bs u bits request => ?generate, fun met => keyDerive_commanded reach still (met != 0),
      fun empty => ?info⟩
    case erase =>
      refine (software_keyCmd reach still 1).trans (next_settled ((keyErase_idle pf0 none'' idle unlocked').trans ?_))
      rw [keySlotSel_advance, advance_keys, advance_keyRecs, advance_keysSaving]
    case generate =>
      exact (software_keyCmd reach still 2).trans (next_settled (keyGenerate_idle pf0 none'' idle unlocked' (by simpa using barred)
        (by simpa using ready) (by simpa using bits) request))
    case info =>
      exact (software_keyCmd reach still 8).trans (next_settled (keyInfo_empty pf0 none'' idle (by simpa using empty)))
  case busy =>
    have ⟨pf0, _, _⟩ := reach
    have still := cmdSettle_busy busy
    simp only [List.mem_cons, List.not_mem_nil, or_false] at member
    rcases member with rfl | rfl | rfl | rfl <;> dsimp only [exec]
    · exact (software_keyCmd reach still 1).trans (next_settled (show keyErase _ _ = _ from keyGate_busy pf0 busy))
    · exact (software_keyCmd reach still 2).trans (next_settled (show keyGenerate _ _ = _ from keyGate_busy pf0 busy))
    · exact (keyDerive_commanded reach still (met != 0)).trans (next_settled (keyGate_busy pf0 busy))
    · exact (software_keyCmd reach still 8).trans (next_settled (show keyInfo _ _ = _ from keyPort_busy pf0 busy))
  case saved =>
    dsimp only [exec]
    exact event_does rfl core rfl
  case start =>
    dsimp only [exec]
    exact (software_cvCommand small reach 1).trans (next_settled (congrArg (cvBoundary · u) cvCommand_start))
  case abort =>
    dsimp only [exec]
    exact software_cvCommand small reach 2
  case stray => exact cvData_stray (by simpa using unlocked) (by simpa using idle) v

end Sys2Proof.Proofs
end

section
/-! PROOF. Errors and identity (15_errors_monitors_identity.md). -/
namespace Sys2Proof.Machine

/-- The hub's RECLAIM has ended, and a write of HUB_CMD still waits, as a command's own page kept it. -/
def reclaimDoubled : State := { Tests.up [] with
  cmds := [(hubPage + 0x58, { bits := 1, doneAt := 0, puts := [] })]
  retained := [{ requester := 0, addr := hubPage + 0x58, value := 0, sel := 0 }] }

/-- The error code of the hub's commands in the answer's state. -/
def reclaimCode : Answer → Nat
  | .next u => fld u (hubPage + 0x5C) 11 8
  | _ => 0

theorem reclaimDoubled_reaches : pf0Reaches (advance reclaimDoubled 0) 0 hubPage := by
  unfold pf0Reaches; decide +kernel

theorem reclaimDoubled_idle : cmdBusy (advance reclaimDoubled 0) (hubPage + 0x58) = false ∧
    mapGet? (atPage reclaimDoubled 0 hubPage).roster (fld (atPage reclaimDoubled 0 hubPage) (hubPage + 0x54) 8 0) = none := by
  decide +kernel

/-- No command runs, yet the access that settles the completed one finds the waiting write: the refusal is 0x6 and not 0x1. -/
theorem reclaimDoubled_refuses : reclaimCode (exec (.hubReclaim 0 0) reclaimDoubled) = 6 ∧
    reclaimCode (.next (settled (reclaimRefuse (atPage reclaimDoubled 0 hubPage) 0x1))) = 1 := by decide +kernel

end Sys2Proof.Machine

namespace Sys2Proof.Proofs
open Sys2Proof.Machine

/-- Refutes O42: in `reclaimDoubled` no command runs, and a RECLAIM of no roster entry is refused with 0x6 and not with 0x1. -/
theorem not_faultsAndReclaimComplete : ¬ Obligations.FaultsAndReclaimComplete := by
  unfold Obligations.FaultsAndReclaimComplete
  rintro ⟨-, reclaims⟩
  obtain ⟨idle, unlisted⟩ := reclaimDoubled_idle
  obtain ⟨refused, named⟩ := reclaimDoubled_refuses
  rw [(reclaims _ _ 0 0 reclaimDoubled_reaches rfl idle).2 unlisted, named] at refused
  exact absurd refused (by decide)

end Sys2Proof.Proofs
end

section
/-! PROOF. What raising a record, and ending what is in flight at an output, leave as they are: some stores apart, nothing of the state
hears of them, and of the registers no page's PAGE_PACE. -/
namespace Sys2Proof.Machine

/-- A reading of the state that sees none of the stores that a record's raise or the end of a flight may touch, and no register but
those at the slot of PAGE_PACE. -/
structure Unrecorded {α : Type} (f : State → α) : Prop where
  reg : ∀ s a v, a % 0x1000 ≠ 0x30 → f (wr s a v) = f s
  setNow : ∀ s x, f { s with setNow := x } = f s
  wide : ∀ s x, f { s with wide := x } = f s
  capSeq : ∀ s x, f { s with capSeq := x } = f s
  escBuf : ∀ s x, f { s with escBuf := x } = f s
  recFaulty : ∀ s x, f { s with recFaulty := x } = f s
  furrows : ∀ s x, f { s with furrows := x } = f s
  links : ∀ s x, f { s with links := x } = f s
  stalled : ∀ s x, f { s with stalled := x } = f s
  remoteIn : ∀ s x, f { s with remoteIn := x } = f s
  hostRead : ∀ s x, f { s with hostRead := x } = f s
  msix : ∀ s x, f { s with msix := x } = f s
  outbox : ∀ s x, f { s with outbox := x } = f s
  handledAt : ∀ s x, f { s with handledAt := x } = f s
  stallRetry : ∀ s x, f { s with stallRetry := x } = f s
  freeCtr : ∀ s x, f { s with freeCtr := x } = f s
  frames : ∀ s x, f { s with frames := x } = f s
  openFrame : ∀ s x, f { s with openFrame := x } = f s
  dropping : ∀ s x, f { s with dropping := x } = f s
  withheld : ∀ s x, f { s with withheld := x } = f s
  outQ : ∀ s x, f { s with outQ := x } = f s
  inFlight : ∀ s x, f { s with inFlight := x } = f s
  deficit : ∀ s x, f { s with deficit := x } = f s
  downSince : ∀ s x, f { s with downSince := x } = f s
  relWait : ∀ s x, f { s with relWait := x } = f s
  streams : ∀ s x, f { s with streams := x } = f s
  macReleased : ∀ s x, f { s with macReleased := x } = f s
  tables : ∀ s x, f { s with tables := x } = f s
  grpOwn : ∀ s x, f { s with grpOwn := x } = f s
  trackers : ∀ s x, f { s with trackers := x } = f s
  tplSeq : ∀ s x, f { s with tplSeq := x } = f s
  mac : ∀ s x, f { s with mac := x } = f s
  fcSentAt : ∀ s x, f { s with fcSentAt := x } = f s
  wakeHints : ∀ s x, f { s with wakeHints := x } = f s
  laneQ : ∀ s x, f { s with laneQ := x } = f s
  lanes : ∀ s x, f { s with lanes := x } = f s
  macOut : ∀ s x, f { s with macOut := x } = f s
  busy : ∀ s x, f { s with busy := x } = f s
  pair : ∀ s x, f { s with pair := x } = f s

theorem unrecorded_turn : Unrecorded State.turn := by constructor <;> intros <;> rfl

theorem unrecorded_crossings : Unrecorded State.crossings := by constructor <;> intros <;> rfl

/-- The PAGE_PACE of a page. -/
theorem unrecorded_pace {p : Nat} (aligned : p % 0x1000 = 0) : Unrecorded (rd · (p + 0x30)) := by
  constructor
  case reg => exact fun s a v other => rd_wr_ne s v (by omega)
  all_goals intros; rfl

namespace Unrecorded
variable {α : Type} {f : State → α}

section
variable (b : Unrecorded f) (s : State)
include b

omit b in
theorem ite_same {c : Prop} [Decidable c] {x y : State} {v : α} (yes : f x = v) (no : f y = v) : f (if c then x else y) = v := by
  split <;> assumption

omit b s in
theorem forEach_same {ι : Type} {xs : List ι} {g : State → ι → State} (same : ∀ s i, i ∈ xs → f (g s i) = f s)
    (s : State) : f (forEach xs s g) = f s := by
  induction xs generalizing s with
  | nil => rfl
  | cons x xs ih => exact (ih (fun s i mem => same s i (List.mem_cons_of_mem _ mem)) _).trans (same _ _ List.mem_cons_self)

/-! ### Registers, counters and the work of a page -/

section
variable {s} {a : Nat} (other : a % 0x1000 ≠ 0x30)
include other

theorem setFld (hi lo v : Nat) : f (setFld s a hi lo v) = f s := b.reg _ _ _ other

theorem setBit (i : Nat) : f (setBit s a i) = f s := (b.setNow _ _).trans (b.setFld other _ _ _)

theorem clrBit (i : Nat) : f (clrBit s a i) = f s := b.setFld other _ _ _

theorem putBit (i : Nat) (v : Bool) : f (putBit s a i v) = f s := b.setFld other _ _ _

theorem incSat : f (incSat s a) = f s := b.reg _ _ _ other

end

theorem addStat (a n : Nat) : f (addStat s a n) = f s := b.wide _ _

theorem handled (pg : Nat) : f (handled s pg) = f s :=
  (b.stallRetry { s with handledAt := (Machine.handled s pg).handledAt } _).trans (b.handledAt _ _)

theorem send (port : Nat) (kind : SentKind) (info : List Nat) (bytes : List Byte) : f (send s port kind info bytes) = f s :=
  b.outbox _ _

/-! ### Links -/

theorem putLnk (k : Nat) (l : LinkSt) : f (putLnk s k l) = f s := b.links _ _

theorem putFur (pg : Nat) (u : Furrow) : f (putFur s pg u) = f s := b.furrows _ _

omit b in
theorem linkPage_slot {k slot : Nat} (small : slot < 0x1000) (other : slot ≠ 0x30) : (linkPage k + slot) % 0x1000 ≠ 0x30 := by
  unfold linkPage; omega

omit b in
theorem furGroup_slot {kind g : Nat} (h : furGroup kind = some g) : g = 0x100 ∨ g = 0x140 ∨ g = 0xE0 ∨ g = 0x200 := by
  unfold furGroup at h
  split at h <;> simp only [Option.some.injEq, reduceCtorEq] at h <;> omega

theorem noteFill {pg : Nat} (aligned : pg % 0x1000 = 0) : f (noteFill s pg) = f s := by
  unfold Machine.noteFill
  split
  case h_1 g h => exact b.reg _ _ _ (by have := furGroup_slot h; omega)
  case h_2 => rfl

theorem linkSend (k : Nat) (x : LinkFrame) : f (linkSend s k x) = f s :=
  (b.handled _ _).trans ((b.setFld (linkPage_slot (by decide) (by decide)) _ _ _).trans
    ((b.addStat _ _ _).trans ((b.send _ _ _ _ _).trans (b.putLnk _ _ _))))

theorem relayLeft (k : Nat) (x : LinkFrame) : f (relayLeft s k x) = f s := b.putLnk _ _ _

theorem relayTake (k : Nat) : f (relayTake s k) = f s :=
  (b.noteFill _ (by unfold linkPage; omega)).trans ((b.putFur _ _ _).trans (b.putLnk _ _ _))

theorem relaySend (k : Nat) (x : LinkFrame) : f (relaySend s k x) = f s :=
  ite_same ((b.relayLeft _ _ _).trans ((b.incSat (by decide)).trans (b.relayTake _ _)))
    ((b.relayLeft _ _ _).trans ((b.linkSend _ _ _).trans (b.relayTake _ _)))

theorem serveLink (n k : Nat) : f (serveLink n s k) = f s := by
  induction n generalizing s with
  | zero => rfl
  | succ n ih =>
    unfold Machine.serveLink
    dsimp only
    split
    · refine ite_same ((ih _).trans ((b.linkSend _ _ _).trans (b.putLnk _ _ _))) ?_
      split
      · exact ite_same ((ih _).trans (b.relaySend _ _ _)) rfl
      · rfl
    · exact ite_same ((ih _).trans (b.relaySend _ _ _)) rfl
    · rfl

theorem offerService (k : Nat) (x : LinkFrame) : f (offerService s k x) = f s := (b.serveLink _ _ _).trans (b.putLnk _ _ _)

theorem sendService (x : LinkFrame) : f (sendService s x) = f s := b.offerService _ _ _

/-! ### Furrows and the pops that stall on them -/

theorem completeRead (r v : Nat) : f (completeRead s r v) = f s := by
  unfold Machine.completeRead
  split
  · exact (b.sendService _ _).trans (b.remoteIn _ _)
  · exact b.hostRead _ _

theorem wrWords {p : Nat} (beyond : 0x34 ≤ p % 0x1000) (below : p % 0x1000 < 0xF00) (words : List (BitVec 28 × Nat)) :
    f (words.foldl (fun s (w, i) => if i < 8 then Machine.wr s (p + 4 * i) (furData w) else s) s) = f s := by
  induction words generalizing s with
  | nil => rfl
  | cons x xs ih =>
    refine (ih _).trans ?_
    dsimp only
    split
    · exact b.reg _ _ _ (by omega)
    · rfl

omit b in
theorem popGroup_slot {kind p : Nat} (h : popGroup kind = some p) : 0x40 ≤ p ∧ p < 0xE00 := by
  unfold popGroup at h
  split at h <;> simp only [Option.some.injEq, reduceCtorEq] at h <;> omega

theorem popHead {pg : Nat} (aligned : pg % 0x1000 = 0) : f (popHead s pg).2 = f s := by
  unfold Machine.popHead
  dsimp only
  split
  case h_1 it rest p items group =>
    have := popGroup_slot group
    exact (b.wrWords _ (by omega) (by omega) _).trans (b.putFur _ _ _)
  case h_2 => rfl

theorem servePop {pg : Nat} (aligned : pg % 0x1000 = 0) : f (servePop s pg) = f s := by
  unfold Machine.servePop
  split
  · split
    · rfl
    · exact (b.completeRead _ _ _).trans ((b.stalled _ _).trans (b.popHead _ aligned))
  · rfl

theorem furPump {pg : Nat} (aligned : pg % 0x1000 = 0) (n : Nat) : f (furPump n s pg) = f s := by
  induction n generalizing s with
  | zero => rfl
  | succ n ih =>
    unfold Machine.furPump
    exact ite_same ((ih _).trans (b.servePop _ aligned))
      ((ih _).trans ((b.noteFill _ aligned).trans ((b.putFur _ _ _).trans (b.servePop _ aligned))))

theorem furPush {pg : Nat} (aligned : pg % 0x1000 = 0) (item : List (BitVec 28)) : f (furPush s pg item) = f s :=
  (b.furPump _ aligned _).trans (b.putFur _ _ _)

/-! ### Records -/

theorem issueHub (vec : Nat) : f (issueHub s vec) = f s := by
  unfold Machine.issueHub
  exact ite_same (b.msix _ _) (ite_same (b.sendService _ _) rfl)

theorem hubActs (code : Nat) : f (hubActs s code) = f s := by
  unfold Machine.hubActs
  extract_lets +onlyGivenNames alert
  have alert' : f alert = f s := ite_same (b.setBit (by decide) _) rfl
  have slot (v : Nat) : (if v < 24 then hubPage + 0x4C else hubPage + 0x50) % 0x1000 ≠ 0x30 := by split <;> decide
  exact ite_same ((b.setBit (slot _) _).trans (ite_same alert' ((b.issueHub _ _).trans alert'))) alert'

theorem captureRec {pg : Nat} (aligned : pg % 0x1000 = 0) (code detail fclass esc addr : Nat) :
    f (captureRec s pg code detail fclass esc addr) = f s := by
  unfold Machine.captureRec
  extract_lets +onlyGivenNames seq w wa counted first heard last
  have counted' : f counted = f s := b.capSeq _ _
  have first' : f first = f counted :=
    ite_same (ite_same (b.reg _ _ _ (by omega)) rfl) ((b.reg _ _ _ (by omega)).trans (b.reg _ _ _ (by omega)))
  have heard' : f heard = f first := ite_same rfl (b.recFaulty _ _)
  have last' : f last = f heard := (b.reg _ _ _ (by omega)).trans (b.reg _ _ _ (by omega))
  have recorded : f (Machine.incSat last (pg + 0x20)) = f s :=
    (b.incSat (by omega)).trans (last'.trans (heard'.trans (first'.trans counted')))
  exact ite_same ((b.hubActs _ _).trans recorded) recorded

theorem hubLog (pg code detail fclass addr row : Nat) : f (hubLog s pg code detail fclass addr row) = f s :=
  ite_same (ite_same ((b.setBit (by decide) _).trans (b.incSat (by decide))) (b.furPush _ (by decide) _)) rfl

omit b in
theorem upperPage_aligned (pg : Nat) : upperPage pg % 0x1000 = 0 := by
  unfold upperPage
  split
  · unfold commonOf; omega
  · split
    · unfold regionBase; omega
    · decide

theorem escPut (first : Bool) (r : EscRec) : f (escPut s first r) = f s := by
  have := upperPage_aligned r.page
  exact ite_same ((b.escBuf _ _).trans (ite_same (b.incSat (by omega)) rfl)) rfl

theorem raiseRec {pg : Nat} (aligned : pg % 0x1000 = 0) (code detail fclass addr row : Nat) :
    f (raiseRec s pg code detail fclass addr row) = f s :=
  (b.escPut _ _ _).trans ((b.hubLog _ _ _ _ _ _ _).trans (b.captureRec _ aligned _ _ _ _ _))

theorem raisePlain {pg : Nat} (aligned : pg % 0x1000 = 0) (code detail : Nat) : f (raisePlain s pg code detail) = f s :=
  b.raiseRec _ aligned _ _ _ _ _

end
end Unrecorded

variable {s : State}

/-! ## The bookkeeping of a fall-back -/

theorem turn_setFld (a hi lo v : Nat) : (setFld s a hi lo v).turn = s.turn := rfl

theorem turn_setBank (b st : Nat) : (setBank s b st).turn = s.turn := turn_setFld ..

theorem turn_trialOver : (trialOver s).turn = s.turn := by
  have kept (w : State) : ({ w with settingsOld := [] } : State).turn = w.turn := rfl
  have written (w : State) (a v : Nat) : (wr w a v).turn = w.turn := rfl
  rw [trialOver, kept, written, clrBit, turn_setFld]

/-- The FALLBACK bank, where there is one, is RUNNING once more. -/
theorem turn_running (b : Nat) : (if bankState s b = 6 then setBank s b 4 else s).turn = s.turn :=
  Unrecorded.ite_same (turn_setBank _ _) rfl

theorem turn_fallBackMarks (b cause : Nat) : (fallBackMarks s b cause).turn = s.turn := by
  rw [fallBackMarks, unrecorded_turn.raisePlain _ (by decide), turn_setFld, turn_trialOver, turn_running, turn_setBank]

theorem turnEnd_none (h : s.turn = none) : turnEnd s = s := by simp only [turnEnd, h]

theorem turnEnd_kept {turn : Turn} (h : s.turn = some turn) (booked : turn.back = none) : turnEnd s = s := by
  simp only [turnEnd, h, booked]

/-- The bookkeeping of a fall-back is done once (R575). -/
theorem turnEnd_turnEnd : turnEnd (turnEnd s) = turnEnd s := by
  cases h : s.turn with
  | none => rw [turnEnd_none h, turnEnd_none h]
  | some turn =>
    cases back : turn.back with
    | none => rw [turnEnd_kept h back, turnEnd_kept h back]
    | some cause =>
      by_cases ended : turn.until_ ≤ s.now
      · have booked : turnEnd s = fallBackMarks { s with turn := some { turn with back := none } } (1 - runBank s) cause := by
          simp only [turnEnd, h, back, if_pos ended]
        rw [booked]
        exact turnEnd_kept (turn_fallBackMarks _ _) rfl
      · have waits : turnEnd s = s := by simp only [turnEnd, h, back, if_neg ended]
        rw [waits, waits]

end Sys2Proof.Machine
end

section
/-! PROOF. Configuration update (16_configuration_update.md): update blocks, the trial, update and settings commands. -/
namespace Sys2Proof.Machine

variable {s w : State} {t req v fault : Nat} {force met : Bool} {c : UpdCmd}

/-! ## Blocks and the trial -/

/-- A header block of a good image: taken into the inactive bank, or refused where its seedbed read-back fails (R555, R560). -/
theorem headerBlock_good {data : List Byte} {b : Nat} (live : lcState s ≠ 4) (inactive : inactiveBank s = some b)
    (whole : data.length = 4096) (good : headerError s data = none) :
    (headerBlock s data 0).2 = noteBlocks (wr (setBank (updAccept { s with banks := mapSet s.banks b [(0, data)] }) b 1) (updVer b)
      (imgVersion data)) b ∧ (headerBlock s data 2).2 = headerRefused (seedFault s 0) 0x0C := by
  simp [headerBlock, live, inactive, whole, good]

theorem blockAt_header {data : List Byte} {bad : Nat} : blockAt s 0 data bad = headerBlock (turnEnd s) data bad := by
  unfold blockAt; exact if_pos rfl

theorem blockAt_body {off bad : Nat} {data : List Byte} (body : off ≠ 0) :
    blockAt s off data bad = bodyBlock (turnEnd s) off data bad := by
  unfold blockAt; exact if_neg body

theorem trialMinute_passed (trial : inTrial (turnEnd s) = true) (passed : (turnEnd s).power.trialMinutes < minutesPassed (turnEnd s)) :
    trialMinute s = setFld { turnEnd s with power := { (turnEnd s).power with trialMinutes := (turnEnd s).power.trialMinutes + 1 } }
      (updPage + 0x64) 23 13 (fld (turnEnd s) (updPage + 0x64) 23 13 - 1) :=
  if_pos (by simp [trial, passed])

theorem trialMinute_early (early : minutesPassed (turnEnd s) ≤ (turnEnd s).power.trialMinutes) : trialMinute s = turnEnd s :=
  if_neg (by simp [early])

theorem trialExpiry_over (trial : inTrial (turnEnd s) = true) (zero : fld (turnEnd s) (updPage + 0x64) 23 13 = 0)
    (idle : inTurn (turnEnd s) = false) : trialExpiry s fault = fallBack (turnEnd s) 2 fault :=
  if_pos (by simp [trial, zero, idle])

/-! ## The update page -/

theorem atPage_updPage : atPage s t updPage = turnEnd (cmdSettle (advance s t) setCmd) := by
  unfold atPage atAccess
  rw [if_pos rfl, if_neg (fun port => absurd port.1 (show ¬(0x2A = 0x1F) by decide))]
  rfl

/-- A software command of the update page is its slot's write, on the page as a completed command has left it. -/
theorem software_updPage {k : Nat} (small : k < 0x1000) (slot : k % 4 = 0) (reach : pf0Reaches (advance s t) req updPage)
    (fields : (fieldsAt s.fuses (updPage + k)).isEmpty = false) :
    software true s t req (updPage + k) v = .next (settled (dispatchWrite (atPage s t updPage) req (updPage + k) (v % 2 ^ 24))) :=
  software_page (kind := 0x2A) rfl rfl small slot rfl (by decide) (by decide) reach fields

theorem software_updCmd (reach : pf0Reaches (advance s t) req updPage) (v : Nat) :
    software true s t req updCmd v = .next (settled (updWrite (atPage s t updPage) req (v % 2 ^ 24))) :=
  software_updPage (k := 0x5C) (by decide) (by decide) reach rfl

theorem software_setCmd (reach : pf0Reaches (advance s t) req updPage) (v : Nat) :
    software true s t req setCmd v = .next (settled (setWrite (atPage s t updPage) req (v % 2 ^ 24))) :=
  software_updPage (k := 0x84) (by decide) (by decide) reach rfl

/-- A command of the update page acts as the write of it, or, where it meets an outcome of its own, as that outcome. -/
theorem commanded_updPage {act : State → State} {u : State} {k : Nat} (small : k < 0x1000) (slot : k % 4 = 0)
    (reach : pf0Reaches (advance s t) req updPage) (fields : (fieldsAt s.fuses (updPage + k)).isEmpty = false)
    (meets : met = true → act (advance s t) = u)
    (plain : met = false → software true s t req (updPage + k) v = .next (settled u)) :
    commanded s t req (updPage + k) v met act = .next (settled u) := by
  have ⟨_, free, boot⟩ := reach
  have boot' : bootReach s (updPage + k) = true := by simpa using bootReach_of_page (pageOf_add (by rfl) small) boot
  have answer : answers s (updPage + k) = true := answers_of (by have : updPage % 4 = 0 := rfl; omega) boot' fields
  cases met with
  | true => exact always_does answer (by rw [free]; exact meets rfl)
  | false =>
    simp only [commanded, Bool.false_and, Bool.false_eq_true, if_false]
    exact plain rfl

/-! ## Update commands -/

theorem updCommand_idle (pf0 : reqPf req = 0) (live : lcState (turnEnd s) ≠ 4) (idle : updBusy (turnEnd s) = false) :
    updCommand s req c force fault = updAct (turnEnd s) c force fault := by
  simp [updCommand, pf0, live, idle]

theorem updAct_verify : updAct s .verify force fault = updVerify (disarm s) (fault == 3) := rfl

theorem updAct_activate : updAct s .activate force fault = updActivate (disarm s) force fault := rfl

theorem updAct_confirm : updAct s .confirm force fault = updConfirm (disarm s) := rfl

theorem updAct_reject : updAct s .reject force fault = updReject (disarm s) fault := rfl

theorem updAct_abandon : updAct s .abandon force fault = updAbandon (disarm s) := rfl

theorem updAct_epoch : updAct s .epoch force fault = updEpoch (disarm s) (fld s (updPage + 0x60) 23 12) s.updArmedAt := by
  have kept (a hi lo v : Nat) : (setFld s a hi lo v).updArmedAt = s.updArmedAt := rfl
  simp only [updAct, disarm, kept]

theorem updCommand_busy (pf0 : reqPf req = 0) (live : lcState (turnEnd s) ≠ 4) (busy : updBusy (turnEnd s) = true) :
    updCommand s req c force fault = updRefuse (disarm (turnEnd s)) 0x17 := by
  simp [updCommand, pf0, live, busy]

theorem bne_decide (n : Nat) : (n != 0) = decide (n ≠ 0) := by cases n <;> rfl

theorem inTrial_disarm : inTrial (disarm s) = inTrial s := by
  have other : updStat ≠ updPage + 0x60 := by decide
  rw [inTrial, inTrial, disarm, bit, bit, rd_setFld_ne s 23 12 0 other]

theorem updCommand_turnEnd : updCommand (turnEnd s) req c force fault = updCommand s req c force fault := by
  simp only [updCommand, turnEnd_turnEnd]

/-- An update command that is a PF0 write of UPD_CMD, with an outcome of its own or without. -/
theorem commanded_updCmd (reach : pf0Reaches (advance s t) req updPage)
    (at' : w = if met then turnEnd (advance s t) else atPage s t updPage)
    (plain : met = false → ∀ u, updWrite u req (v % 2 ^ 24) = updCommand u req c force fault) (outcome : Nat)
    (meets : met = true → outcome = fault) :
    commanded s t req updCmd v met (fun s => updCommand s req c force outcome) = .next (settled (updCommand w req c force fault)) := by
  refine commanded_updPage (k := 0x5C) (by decide) (by decide) reach rfl (fun yes => ?_) (fun no => ?_)
  · rw [at', if_pos yes, updCommand_turnEnd, meets yes]
  · rw [at', if_neg (by simp [no]), ← plain no]
    exact software_updCmd reach v

theorem turnEnd_updPage (at' : w = if met then turnEnd (advance s t) else atPage s t updPage) : turnEnd w = w := by
  rw [at', atPage_updPage]
  split <;> exact turnEnd_turnEnd

/-! ## Settings commands -/

section
variable {act : SetCmd} {flag : Bool}

/-- A settings command on a page whose fall-back is booked and whose own command is not to be settled. -/
theorem setCommand_idle (pf0 : reqPf req = 0) (live : lcState (turnEnd s) ≠ 4) (none' : mapGet? (turnEnd s).cmds setCmd = none)
    (idle : cmdBusy (turnEnd s) setCmd = false) : setCommand s req act flag = setAct (turnEnd s) act flag := by
  simp [setCommand, setPort, cmdSettle_none none', pf0, live, idle]

theorem setCommand_busy (pf0 : reqPf req = 0) (live : lcState (turnEnd s) ≠ 4) (busy : cmdBusy (turnEnd s) setCmd = true) :
    setCommand s req act flag = setRefuse (turnEnd s) 0x6 := by
  simp [setCommand, setPort, cmdSettle_busy busy, pf0, live, busy]

theorem setCommand_turnEnd : setCommand (turnEnd s) req act flag = setCommand s req act flag := by
  simp only [setCommand, turnEnd_turnEnd]

theorem software_setCommand (reach : pf0Reaches (advance s t) req updPage) (still : cmdSettle (advance s t) setCmd = advance s t)
    (does : ∀ u, setWrite u req (v % 2 ^ 24) = setCommand u req act flag) :
    software true s t req setCmd v = .next (settled (setCommand (advance s t) req act flag)) := by
  rw [software_setCmd reach, does, atPage_updPage, still, setCommand_turnEnd]

/-- A settings command that is a PF0 write of SET_CMD, with an outcome of its own or without. -/
theorem commanded_setCmd (reach : pf0Reaches (advance s t) req updPage) (still : cmdSettle (advance s t) setCmd = advance s t)
    (does : ∀ u, setWrite u req (v % 2 ^ 24) = setCommand u req act false) :
    commanded s t req setCmd v met (fun s => setCommand s req act true) = .next (settled (setCommand (advance s t) req act met)) := by
  refine commanded_updPage (k := 0x84) (by decide) (by decide) reach rfl (fun yes => by rw [yes]) (fun no => ?_)
  rw [no]
  exact software_setCommand reach still does

theorem setAct_write {ws : List Word} (small : setId s ≠ 0) (large : setId s ≤ 0xFBFF)
    (words : ws = (List.range (setLen s)).map (fun k => BitVec.ofNat 24 (rd s (updPage + 0xA0 + 4 * k)))) :
    setAct s .write false = cmdStart (mirrorSetting (setAccept { s with settings := mapSet s.settings (setId s) ws }) (setId s)
      (some ws)) setCmd 2 [] := by
  simp [setAct, small, Nat.not_lt.mpr large, words]

theorem setAct_full (small : setId s ≠ 0) (large : setId s ≤ 0xFBFF) : setAct s .write true = setRefuse s 0x2 := by
  simp [setAct, small, Nat.not_lt.mpr large]

theorem setAct_delete (small : setId s ≠ 0) (large : setId s ≤ 0xFBFF) :
    setAct s .delete flag = cmdStart (mirrorSetting (setAccept { s with settings := mapDel s.settings (setId s) }) (setId s) none)
      setCmd 4 [] := by
  simp [setAct, small, Nat.not_lt.mpr large]

/-- A READ whose seedbed read fails shows open words (R555, R581). -/
theorem setAct_read {vs : List Word} (draws : drawWords (seedFault s 1) ((setRecord s (setId s)).getD []).length = (vs, w)) :
    setAct s .read true = cmdStart (setAccept w) setCmd 1 (setPuts vs) := by
  simp [setAct, draws]

theorem setAct_illegal (illegal : setId s = 0 ∨ 0xFBFF < setId s) :
    setAct s .write flag = setRefuse s 0x1 ∧ setAct s .delete flag = setRefuse s 0x1 := ⟨if_pos illegal, if_pos illegal⟩

end

end Sys2Proof.Machine

namespace Sys2Proof.Proofs
open Sys2Proof.Machine

/-- Settles O44: each block and each of the trial's events by its lemma, after the bookkeeping of a fall-back. -/
theorem updateBlocksAndTrialComplete : Obligations.UpdateBlocksAndTrialComplete := by
  unfold Obligations.UpdateBlocksAndTrialComplete
  dsimp only [exec]
  rintro s u t core rfl
  refine ⟨fun b data live inactive whole good => ?good, fun off data bad body => ?body, fun data bad => ?header,
    fun trial => ⟨fun passed => ?passed, fun early => ?early, fun zero idle fault => ?expiry⟩⟩
  case good =>
    obtain ⟨taken, refused⟩ := headerBlock_good live inactive whole good
    exact ⟨event_does rfl core ((congrArg Prod.snd blockAt_header).trans taken),
      event_does rfl core ((congrArg Prod.snd blockAt_header).trans refused)⟩
  case body => exact event_does rfl core (congrArg Prod.snd (blockAt_body body))
  case header =>
    have header := congrArg Prod.snd (blockAt_header (s := advance s t) (data := data) (bad := bad))
    exact ⟨event_does rfl core header, event_does rfl core header⟩
  case passed => exact event_does rfl core (trialMinute_passed trial passed)
  case early => exact event_does rfl core (trialMinute_early early)
  case expiry => exact event_does rfl core (trialExpiry_over trial zero idle)

/-- Settles O45: each command by `commanded_updCmd` or `software_updCmd`, which leave the update command of the page. -/
theorem updateCommandsComplete : Obligations.UpdateCommandsComplete := by
  unfold Obligations.UpdateCommandsComplete
  intro s w t req force met fault reach harmless at' live
  have ⟨pf0, _, _⟩ := reach
  have booked : turnEnd w = w := turnEnd_updPage at'
  have live' : lcState (turnEnd w) ≠ 4 := by rwa [booked]
  have verify : exec (.updVerify t ⟨req, b2n met⟩) s =
      .next (settled (updCommand w req .verify false (if met then 3 else 0))) := by
    have flag : (b2n met != 0) = met := by cases met <;> rfl
    dsimp only [exec, execUpdVerify]
    rw [flag]
    exact commanded_updCmd reach at' (fun no u => by simp [no, updWrite]) 3 (fun yes => (if_pos yes).symm)
  have reject (meets : met = decide (fault ≠ 0)) : exec (.updReject t ⟨req, fault⟩) s =
      .next (settled (updCommand w req .reject false fault)) := by
    have flag : (fault != 0) = met := by rw [meets]; exact bne_decide fault
    dsimp only [exec, execUpdReject]
    rw [flag]
    exact commanded_updCmd reach at' (fun no u => by simp [harmless no, updWrite]) fault (fun _ => rfl)
  have activate (meets : met = decide (fault ≠ 0)) : exec (.updActivate t req force fault) s =
      .next (settled (updCommand w req .activate force fault)) := by
    have flag : (fault != 0) = met := by rw [meets]; exact bne_decide fault
    dsimp only [exec, execUpdActivate]
    rw [flag]
    exact commanded_updCmd reach at' (fun no u => by rw [harmless no]; cases force <;> rfl) fault (fun _ => rfl)
  have plain (no : met = false) (v : Nat) (c : UpdCmd) (does : ∀ u, updWrite u req (v % 2 ^ 24) = updCommand u req c false 0) :
      software true s t req updCmd v = .next (settled (updCommand w req c false 0)) := by
    rw [software_updCmd reach, does, at', if_neg (by simp [no])]
  refine ⟨fun idle => ⟨?verifies, fun meets => ⟨?rejects, fun over' => ?rejects', ?activates⟩,
    fun no => ⟨fun over' => ?confirms', ?confirms, ?abandons, ?epoch⟩⟩,
    fun busy => ⟨?verifyBusy, fun meets i member => ?metBusy, fun no i member => ?plainBusy⟩⟩
  case verifies =>
    rw [verify, updCommand_idle pf0 live' (by rwa [booked]), booked, updAct_verify]
    cases met <;> simp only [if_true, Bool.false_eq_true, if_false] <;> rfl
  case rejects => rw [reject meets, updCommand_idle pf0 live' (by rwa [booked]), booked, updAct_reject]
  case rejects' =>
    rw [reject meets, updCommand_idle pf0 live' (by rwa [booked]), booked, updAct_reject, updReject,
      if_neg (by simp [inTrial_disarm, over'])]
  case activates => rw [activate meets, updCommand_idle pf0 live' (by rwa [booked]), booked, updAct_activate]
  case confirms' =>
    refine (plain no 4 .confirm (fun _ => rfl)).trans ?_
    rw [updCommand_idle pf0 live' (by rwa [booked]), booked, updAct_confirm, updConfirm, if_pos (by simp [inTrial_disarm, over'])]
  case confirms =>
    refine (plain no 4 .confirm (fun _ => rfl)).trans ?_
    rw [updCommand_idle pf0 live' (by rwa [booked]), booked, updAct_confirm]
  case abandons =>
    refine (plain no 16 .abandon (fun _ => rfl)).trans ?_
    rw [updCommand_idle pf0 live' (by rwa [booked]), booked, updAct_abandon]
  case epoch =>
    refine (plain no 32 .epoch (fun _ => rfl)).trans ?_
    rw [updCommand_idle pf0 live' (by rwa [booked]), booked, updAct_epoch]
  case verifyBusy => rw [verify, updCommand_busy pf0 live' (by rwa [booked]), booked]
  case metBusy =>
    simp only [List.mem_cons, List.not_mem_nil, or_false] at member
    rcases member with rfl | rfl
    · rw [reject meets, updCommand_busy pf0 live' (by rwa [booked]), booked]
    · rw [activate meets, updCommand_busy pf0 live' (by rwa [booked]), booked]
  case plainBusy =>
    have refused (c : UpdCmd) : updCommand w req c false 0 = updRefuse (disarm w) 0x17 := by
      rw [updCommand_busy pf0 live' (by rwa [booked]), booked]
    simp only [List.mem_cons, List.not_mem_nil, or_false] at member
    rcases member with rfl | rfl | rfl
    · exact (plain no 4 .confirm (fun _ => rfl)).trans (next_settled (refused _))
    · exact (plain no 16 .abandon (fun _ => rfl)).trans (next_settled (refused _))
    · exact (plain no 32 .epoch (fun _ => rfl)).trans (next_settled (refused _))

/-- Settles O46: each command reaches its action (`commanded_setCmd`, `software_setCommand`), or meets the one under way. -/
theorem settingsCommandsComplete : Obligations.SettingsCommandsComplete := by
  unfold Obligations.SettingsCommandsComplete
  dsimp only [exec]
  rintro s u t req reach rfl live
  have ⟨pf0, _, _⟩ := reach
  have write (still : cmdSettle (advance s t) setCmd = advance s t) (full : Bool) : execSetWrite t req full s =
      .next (settled (setCommand (advance s t) req .write full)) := commanded_setCmd reach still (fun _ => rfl)
  have delete (still : cmdSettle (advance s t) setCmd = advance s t) : execSetDelete t req s =
      .next (settled (setCommand (advance s t) req .delete false)) := software_setCommand reach still (fun _ => rfl)
  have read (still : cmdSettle (advance s t) setCmd = advance s t) (met : Nat) : execSetRead t ⟨req, met⟩ s =
      .next (settled (setCommand (advance s t) req .read (met != 0))) := commanded_setCmd reach still (fun _ => rfl)
  refine ⟨fun none' none'' idle => ?idle, fun busy busy' met full i member => ?busy⟩
  case idle =>
    have still : cmdSettle (advance s t) setCmd = advance s t := cmdSettle_none (by simpa using none')
    have acts (c : SetCmd) (flag : Bool) : setCommand (advance s t) req c flag = setAct (turnEnd (advance s t)) c flag :=
      setCommand_idle pf0 live none'' idle
    refine ⟨fun small large => ⟨fun ws words => ?write, ?full, ?delete⟩, fun illegal full => ⟨?writeIllegal, ?deleteIllegal⟩,
      fun ws words => ⟨?read, fun met vs w bad draws => ?readBad⟩⟩
    case write => rw [write still, acts, setAct_write small large words]
    case full => rw [write still, acts, setAct_full small large]
    case delete => rw [delete still, acts, setAct_delete small large]
    case writeIllegal => rw [write still, acts, (setAct_illegal illegal).1]
    case deleteIllegal => rw [delete still, acts, (setAct_illegal illegal).2]
    case read => rw [read still, acts, words]; rfl
    case readBad =>
      have flag : (met != 0) = true := bne_iff_ne.mpr bad
      rw [read still, acts, flag, setAct_read (words ▸ draws)]
  case busy =>
    have still : cmdSettle (advance s t) setCmd = advance s t := cmdSettle_busy busy
    simp only [List.mem_cons, List.not_mem_nil, or_false] at member
    rcases member with rfl | rfl | rfl <;> dsimp only [exec]
    · rw [read still, setCommand_busy pf0 live busy']
    · rw [write still, setCommand_busy pf0 live busy']
    · rw [delete still, setCommand_busy pf0 live busy']

end Sys2Proof.Proofs
end

section
/-! PROOF. The host interface (17_host_links_and_pairing.md): the rings' tails, descriptors, stalls, deliveries and hold-offs. -/
namespace Sys2Proof.Machine

variable {s : State} {t req n v : Nat}

/-! ## The pages of the rings (R637) -/

/-- The page of TX or RX ring `n`. -/
def ringPage (tx : Bool) (n : Nat) : Nat := if tx then htxPage n else hrxPage n

/-- The slot of TAIL of ring `n` in its page. -/
def tailSlot (n : Nat) : Nat := ringBase n + 0xC

section
variable {tx : Bool}

theorem ringPage_cells : ringPage tx n = (if tx then 0xC10000 else 0xC20000) + (1 + n % 8) * 0x1000 := by cases tx <;> rfl

theorem ringPage_aligned : ringPage tx n % 0x1000 = 0 := by rw [ringPage_cells]; split <;> omega

theorem cellOf_ringPage : cellOf (ringPage tx n) = 1 + n % 8 := by rw [ringPage_cells, cellOf]; split <;> omega

theorem blockOf_ringPage : blockOf (ringPage tx n) = if tx then 1 else 2 := by rw [ringPage_cells, blockOf]; split <;> omega

theorem domainOf_ringPage : domainOf (ringPage tx n) = 6 := by rw [ringPage_cells, domainOf]; split <;> omega

theorem kindOf_ringPage (f : Fuses) : kindOf f (ringPage tx n) = if tx then 0x52 else 0x54 := by
  have ring : 1 + n % 8 ≠ 0 ∧ 1 + n % 8 ≤ 8 := by omega
  simp only [kindOf, domainOf_ringPage, blockOf_ringPage, cellOf_ringPage]
  cases tx <;> simp only [hostKind, if_true, Bool.false_eq_true, if_false, if_neg ring.1, if_pos ring.2]

theorem tailSlot_cases (small : n < 16) : (n < 8 ∧ tailSlot n = 0x4C) ∨ (8 ≤ n ∧ tailSlot n = 0x8C) := by
  unfold tailSlot ringBase; omega

theorem tailSlot_either (small : n < 16) : tailSlot n = 0x4C ∨ tailSlot n = 0x8C := by have := tailSlot_cases small; omega

/-- Ring `n` from the cell of its page and the slot. -/
theorem ring_of_tailSlot (small : n < 16) : 1 + n % 8 - 1 + (if tailSlot n = 0x8C then 8 else 0) = n := by
  obtain ⟨low, slot⟩ | ⟨high, slot⟩ := tailSlot_cases small
  · rw [slot, if_neg (by decide)]; omega
  · rw [slot, if_pos rfl]; omega

theorem tail_eq : (if tx then txRing n else rxRing n) + 0xC = ringPage tx n + tailSlot n := by
  cases tx <;> simp only [txRing, rxRing, ringPage, tailSlot, if_true, Bool.false_eq_true, if_false, Nat.add_assoc]

/-- A write of the TAIL of a ring is that ring's tail (R593). -/
theorem dispatchWrite_tail (small : n < 16) : dispatchWrite s req (ringPage tx n + tailSlot n) v = tailWrite s req tx n v := by
  have tail := tailSlot_either small
  have page : pageOf (ringPage tx n + tailSlot n) = ringPage tx n := pageOf_add ringPage_aligned (by omega)
  have slot : slotOf (ringPage tx n + tailSlot n) = tailSlot n := by rw [slotOf_add ringPage_aligned (by omega)]; omega
  cases tx with
  | true =>
    simp only [dispatchWrite, page, slot, cellOf_ringPage, kindOf_ringPage, if_true, ring_of_tailSlot small]
    rw [if_neg (by omega), if_neg (by simp [furGroup]), if_pos tail]
  | false =>
    simp only [dispatchWrite, page, slot, cellOf_ringPage, kindOf_ringPage, Bool.false_eq_true, if_false, ring_of_tailSlot small]
    rw [if_neg (by omega), if_neg (by simp [furGroup]), if_pos tail]

/-- TAIL is a register of its ring. -/
theorem fieldsAt_tail (f : Fuses) (small : n < 16) : (fieldsAt f (ringPage tx n + tailSlot n)).isEmpty = false := by
  have tail := tailSlot_either small
  refine fieldsAt_of_kind ringPage_aligned (kindOf_ringPage f) (by omega) (by omega) (by omega) ?_ ?_ ?_
  · cases tx <;> decide
  · cases tx <;> decide
  · rcases tail with h | h <;> rw [h] <;> cases tx <;> decide

/-- A PF0 write of a TAIL. -/
theorem exec_tailWrite (small : n < 16) (reach : pf0Reaches (advance s t) req (ringPage tx n)) :
    execTailWrite t req tx n v s = .next (settled (tailWrite (advance s t) req tx n (v % 2 ^ 24))) := by
  have tail := tailSlot_either small
  refine always_does (by simpa using small) ?_
  rw [tail_eq, writeReg_plain ringPage_aligned (by omega) (by omega) (kindOf_ringPage _) (by cases tx <;> rfl)
    (by cases tx <;> decide) reach (fieldsAt_tail _ small), dispatchWrite_tail small]

end

/-! ## Tails (R593) -/

/-- A TAIL beyond what software owns is refused. -/
theorem tailWrite_bad {a : Nat} {tx : Bool} (ring : a = if tx then txRing n else rxRing n)
    (unlocked : bit s (pageOf a + 0x24) 0 = false)
    (bad : tailBad s a (v % 65536) = true) : tailWrite s req tx n v =
      raisePlain (setBit s (a + 0x14) (if tx then 3 else 2)) (pageOf a) 0x3B (if tx then n else 16 + n) := by
  simp [tailWrite, ← ring, unlocked, bad]

theorem tailWrite_tx {u : State} (unlocked : bit s (pageOf (txRing n) + 0x24) 0 = false)
    (good : tailBad s (txRing n) (v % 65536) = false) (written : u = softWord s req (txRing n + 0xC) v) : tailWrite s req true n v =
      if ringTail s (txRing n) = ringHead u (txRing n) then { u with heldFrom := mapSet u.heldFrom (16 + n) u.now } else u := by
  simp [tailWrite, unlocked, good, written]

theorem tailWrite_rx (unlocked : bit s (pageOf (rxRing n) + 0x24) 0 = false) (good : tailBad s (rxRing n) (v % 65536) = false) :
    tailWrite s req false n v = noteStuck (softWord s req (rxRing n + 0xC) v) (128 + n) := by
  simp [tailWrite, unlocked, good]

theorem pageOf_txRing (small : n < 16) : pageOf (txRing n) = htxPage n :=
  pageOf_add (ringPage_aligned (tx := true)) (by unfold ringBase; omega)

theorem pageOf_rxRing (small : n < 16) : pageOf (rxRing n) = hrxPage n :=
  pageOf_add (ringPage_aligned (tx := false)) (by unfold ringBase; omega)

/-! ## Descriptors, stalls, deliveries and hold-offs -/

/-- A descriptor whose LEN lies outside the range of its FORM ends with STATUS 3 (R594, R596). -/
theorem txDescriptor_badLen {form tag bad : Nat} {ts cpl : Bool} {bytes : List Byte} (granted : txGranted s n = true)
    (len : txLenGood form bytes.length = false) : txDescriptor s n form ts tag bytes cpl bad =
      txStatus (txTaken { s with rrCell := mapSet s.rrCell 65536 n } n) n 3 := by
  simp [txDescriptor, granted, len]

theorem lateCompletion_stalled (stalled : s.htxStalled.contains n = true) : lateCompletion s n = incSat s (pciePage + 0x64) :=
  if_pos stalled

theorem holdoffEnd_due (waits : mapGet? s.hrxSignal n = some v) (odd : v % 2 = 1) (due : v / 2 + holdoff s n ≤ s.now) :
    holdoffEnd s n = rxSignal s n := by
  simp only [holdoffEnd, waits]; exact if_pos ⟨odd, due⟩

end Sys2Proof.Machine

namespace Sys2Proof.Proofs
open Sys2Proof.Machine

/-- Settles O47: the tails by `exec_tailWrite`, the rest as events of the core at their moment. -/
theorem hostRingCommandsComplete : Obligations.HostRingCommandsComplete := by
  unfold Obligations.HostRingCommandsComplete
  dsimp only [exec]
  intro s t n small
  have n16 : decide (n < 16) = true := by simpa using small
  refine ⟨fun req v u reach unlocked good written => ?txTail, fun req v reach unlocked bad => ?rxBad,
    fun req v reach unlocked good => ?rxTail, ?descriptor, fun core _ _ => event_does n16 core rfl,
    fun core stalled => ?late, fun _ _ _ core _ _ _ _ _ => event_does n16 core rfl, fun v core waits odd due => ?holdoff⟩
  case txTail =>
    refine (exec_tailWrite (tx := true) small reach).trans (next_settled ?_)
    rw [tailWrite_tx (by simpa [pageOf_txRing small] using unlocked) (by simpa using good) written]
    simp
  case rxBad =>
    refine (exec_tailWrite (tx := false) small reach).trans (next_settled ?_)
    rw [tailWrite_bad rfl (by simpa [pageOf_rxRing small] using unlocked) (by simpa using bad)]
    simp [pageOf_rxRing small]
  case rxTail =>
    refine (exec_tailWrite (tx := false) small reach).trans (next_settled ?_)
    exact tailWrite_rx (by simpa [pageOf_rxRing small] using unlocked) (by simpa using good)
  case descriptor =>
    rintro form ts tag bytes cpl bad i rfl core
    refine ⟨fun first => ⟨event_does n16 core (yielding_does first (by rw [yieldAct])), fun granted len => ?_⟩,
      fun behind => event_does n16 core (yielding_advance_waits behind)⟩
    refine event_does n16 core (yielding_does first ((txDescriptor_badLen granted len).trans ?_))
    rw [advance_rrCell]
  case late => exact event_does n16 core (lateCompletion_stalled (by rwa [advance_htxStalled]))
  case holdoff => exact event_does n16 core (holdoffEnd_due (by simpa using waits) odd (by simpa using due))

end Sys2Proof.Proofs
end

section
/-! PROOF. The links (17_host_links_and_pairing.md): training, frames, acknowledgements, credits, resends, relay waits. -/
namespace Sys2Proof.Machine

variable {s : State} {k : Nat}

theorem bit_setFld_ne (a hi lo v i : Nat) (order : lo ≤ hi) (word : i < 24) (apart : i < lo ∨ hi < i) :
    bit (setFld s a hi lo v) a i = bit s a i :=
  congrArg (· == 1) (fld_setFld_ne _ a hi lo v i i order word apart)

/-- A peer that reports this device's own number does not train (R607). -/
theorem linkTrain_clash (may : linkMay s k = true) (untrained : bit s (lnkStat k) 23 = false) (first : bit s (lnkStat k) 21 = false) :
    linkTrain s k s.fuses.devId = raisePlain (setBit (setFld s (lnkStat k) 5 0 s.fuses.devId) (lnkStat k) 21) (linkPage k) 0x38
      (k + 2) := by
  have first' : bit (setFld s (lnkStat k) 5 0 s.fuses.devId) (lnkStat k) 21 = false :=
    (bit_setFld_ne _ 5 0 _ 21 (by decide) (by decide) (by decide)).trans first
  simp only [linkTrain, may, untrained, Bool.not_true, Bool.or_false, Bool.false_eq_true, if_false]
  rw [if_pos (by rfl), if_neg (by simp [first'])]

theorem clashRetry_clash {peer : Nat} (clash : bit s (lnkStat k) 21 = true) : clashRetry s k peer = linkTrain s k peer := if_pos clash

theorem linkAck_trained {num : Nat} (trained : linkTrained s k = true) : linkAck s k num = linkGo (linkCover s k num) k :=
  if_pos trained

theorem linkNak_trained {num : Nat} (trained : linkTrained s k = true) :
    linkNak s k num = linkGo (resend (linkCover (incSat s (linkPage k + 0x54)) k num) k) k := if_pos trained

theorem replayTimeout_quiet (trained : linkTrained s k = true) (some' : (getLnk s k).replay ≠ [])
    (quiet : (getLnk s k).quietFrom + usTicks 20 ≤ s.now) : replayTimeout s k = resend s k :=
  if_pos (by simp [trained, some', quiet])

end Sys2Proof.Machine

namespace Sys2Proof.Proofs
open Sys2Proof.Machine

/-- Settles O48: each command is an event of a link that is present, by its lemma at its moment. -/
theorem linkCommandsComplete : Obligations.LinkCommandsComplete := by
  unfold Obligations.LinkCommandsComplete
  dsimp only [exec]
  intro s t k core there
  refine ⟨fun may untrained first => ?clash, fun peer => event_does there core rfl, fun peer clash => ?retry,
    fun trained => ⟨fun bs => ⟨fun first => ?frame, fun behind => ?waits⟩, fun num => ⟨?ack, ?nak⟩,
      fun pool cls limit => event_does there core rfl, fun some' quiet => ?quiet⟩,
    fun due => ?retrain, fun f at0 rest _ _ => event_does there core rfl⟩
  case clash =>
    refine event_does there core ?_
    rw [← advance_fuses s t]
    exact linkTrain_clash (by simpa using may) (by simpa using untrained) (by simpa using first)
  case retry => exact event_does there core (clashRetry_clash (by simpa using clash))
  case frame => exact event_does there core (yielding_does first (by rw [yieldAct]))
  case waits => exact event_does there core (yielding_advance_waits behind)
  case ack => exact event_does there core (linkAck_trained (by simpa using trained))
  case nak => exact event_does there core (linkNak_trained (by simpa using trained))
  case quiet =>
    exact event_does there core (replayTimeout_quiet (by simpa using trained) (by simpa using some') (by simpa using quiet))
  case retrain => exact event_does there core (if_pos due)

end Sys2Proof.Proofs
end

section
/-! PROOF. Pairing (17_host_links_and_pairing.md): the lease, the guard, handovers, frames and mirrored items of the peer. -/
namespace Sys2Proof.Machine

variable {s : State} {t req v : Nat}

/-! ## The lease and the guard -/

theorem kindOf_pairPage {f : Fuses} (tier : f.xTier = true) : kindOf f pairPage = 0x57 := by
  rw [show kindOf f pairPage = hostKind f 4 0 from rfl, hostKind, tier]; rfl

theorem fieldsAt_pairCmd {f : Fuses} (tier : f.xTier = true) : (fieldsAt f (pairPage + 0x48)).isEmpty = false :=
  fieldsAt_of_kind (by decide) (kindOf_pairPage tier) (by decide) (by decide) (by decide) (by decide) (by decide) (by decide)

theorem dispatchWrite_pairCmd (tier : s.fuses.xTier = true) : dispatchWrite s req (pairPage + 0x48) v = pairWrite s v := by
  have page : pageOf (pairPage + 0x48) = pairPage := by rfl
  have slot : slotOf (pairPage + 0x48) = 0x48 := by rfl
  simp only [dispatchWrite, page, slot, kindOf_pairPage tier]
  rw [if_neg (by decide), if_neg (by decide), if_pos trivial]

/-- A PF0 write of PAIR_CMD. -/
theorem writeReg_pairCmd (tier : s.fuses.xTier = true) (reach : pf0Reaches (advance s t) req pairPage) :
    writeReg (advance s t) req (pairPage + 0x48) v true = pairWrite (advance s t) (v % 2 ^ 24) := by
  rw [writeReg_plain (by decide) (by decide) (by decide) (kindOf_pairPage tier) (by decide) (by decide) reach (fieldsAt_pairCmd tier),
    dispatchWrite_pairCmd (by rwa [advance_fuses])]

theorem software_pairCmd (tier : s.fuses.xTier = true) (reach : pf0Reaches (advance s t) req pairPage) (v : Nat) :
    software true s t req (pairPage + 0x48) v = .next (settled (pairWrite (advance s t) (v % 2 ^ 24))) :=
  software_plain rfl (by decide) (by decide) (by decide) (kindOf_pairPage tier) (by decide) (by decide) reach (fieldsAt_pairCmd tier)
    (dispatchWrite_pairCmd (by rwa [advance_fuses]))

theorem pairWrite_grant : pairWrite s 2 = leaseGrant s := rfl

theorem pairWrite_handover (on : pairOn s = true) : pairWrite s 1 = pairAfter (pairQuit s 3) := if_pos on

theorem grantGiven_pin {low high : Nat} (core : coreUp s = true) : grantGiven s true low high req =
    if 1000 ≤ low ∧ 1000 ≤ high then leaseGrant s else s := by
  simp [grantGiven, core]

theorem leaseExpire_over {e : Nat} (until' : s.pair.leaseEnd = some e) (ended : e ≤ s.now) : leaseExpire s = pairAfter (pairQuit
    (incSat (clrBit { s with pair := { s.pair with leaseEnd := none } } pairStat 17) (pairPage + 0x5C)) 1) := by
  simp only [leaseExpire, until', if_neg (Nat.not_lt.mpr ended)]

theorem guardEnd_over {g : Nat} (from' : s.pair.guardAt = some g) (on : pairOn s = true) (waits : pairState s = 2)
    (ended : g + guardTime s ≤ s.now) (valid : leaseValid s = true) (alone : inContact s = false) :
    guardEnd s = noteReclaim (pairEnter s 3) := by
  simp only [guardEnd, from']
  exact if_pos (by simp [on, waits, ended, valid, alone])

theorem handover_on {cause : Nat} (on : pairOn s = true) : handover s cause = pairAfter (pairQuit s cause) := if_pos on

/-! ## The peer -/

theorem pairBeat_due (on : pairOn s = true) (due : s.pair.sentAt + usTicks 100 ≤ s.now) : pairBeat s = sendPair s false :=
  if_pos (by simp [on, due])

theorem contactTimeout_due {h : Nat} (heard : s.pair.heardAt = some h) (due : h + msTicks 1 ≤ s.now) :
    contactTimeout s = contactLost s := by
  simp only [contactTimeout, heard]; exact if_pos due

theorem reclaimHold_due {h : Nat} (held : s.pair.holdFrom = some h) (ready : reclaimReady s = true)
    (due : h + msTicks (fld s (pairPage + 0x44) 15 0) ≤ s.now) :
    reclaimHold s = sendPair (setBit { s with pair := { s.pair with holdFrom := none } } pairEvents 4) true := by
  simp only [reclaimHold, held]; exact if_pos (by simp [ready, due])

section
variable {i flag : Nat}

theorem mirrorIn_slot (on : pairOn s = true) : mirrorIn s 0 i v flag = writeSlot s i v (flag == 1) := if_neg (by simp [on])

theorem mirrorIn_tick (on : pairOn s = true) : mirrorIn s 3 i v flag = { s with tick := v, tickAt := s.now } := if_neg (by simp [on])

theorem mirrorIn_end {what : Nat} (on : pairOn s = true) (last : 3 < what) :
    mirrorIn s what i v flag = noteReclaim (setBit (setBit s pairStat 19) pairEvents 0) := by
  unfold mirrorIn
  rw [if_neg (by simp [on])]
  split
  case h_5 => rfl
  all_goals omega

end

end Sys2Proof.Machine

namespace Sys2Proof.Proofs
open Sys2Proof.Machine

/-- Settles O50: the grants by the pin and by PAIR_CMD, the ends by their lemmas, at their moment and behind what goes first. -/
theorem leaseCommandsComplete : Obligations.LeaseCommandsComplete := by
  unfold Obligations.LeaseCommandsComplete
  dsimp only [exec]
  intro s t core tier
  have core' : coreUp (advance s t) = true := by simpa using core
  refine ⟨fun low high req long stay => ?pin, fun low high req short => ?short, fun low high req reach => ?write,
    fun e until' ended first => ?ends, fun behind => event_does tier core (yielding_advance_waits behind),
    fun g from' on waits ended valid alone first => ?guard, fun req reach on => ?handover, fun on => ?reclaim⟩
  case pin => exact always_does rfl ((grantGiven_pin core').trans (if_pos ⟨long, stay⟩))
  case short => exact always_does rfl ((grantGiven_pin core').trans (if_neg (by omega)))
  case write => exact always_does rfl ((writeReg_pairCmd tier reach).trans pairWrite_grant)
  case ends =>
    refine event_does tier core (yielding_does first ((leaseExpire_over (by simpa using until') ended).trans ?_))
    rw [advance_pair]
  case guard =>
    exact event_does tier core (yielding_does first (guardEnd_over (by simpa using from') (by simpa using on) (by simpa using waits)
      (by simpa using ended) valid alone))
  case handover => exact (software_pairCmd tier reach 1).trans (next_settled (pairWrite_handover (by simpa using on)))
  case reclaim => exact event_does tier core (handover_on (by simpa using on))

/-- Settles O51: each event of the pair by its lemma, at its moment. -/
theorem pairingEventsComplete : Obligations.PairingEventsComplete := by
  unfold Obligations.PairingEventsComplete
  dsimp only [exec]
  intro s t core tier
  refine ⟨fun on due => ?beat, fun st prim lease peer _ _ => event_does tier core rfl, fun h heard due => ?contact,
    fun h held ready due => ?hold, fun i v flag on => ?mirror, fun _ _ _ => event_does tier core rfl, event_does tier core rfl⟩
  case beat => exact event_does tier core (pairBeat_due (by simpa using on) (by simpa using due))
  case contact => exact event_does tier core (contactTimeout_due (by simpa using heard) due)
  case hold =>
    refine event_does tier core ((reclaimHold_due (by simpa using held) ready (by simpa using due)).trans ?_)
    rw [advance_pair]
  case mirror =>
    have on' : pairOn (advance s t) = true := by simpa using on
    exact ⟨event_does tier core (mirrorIn_slot on'), event_does tier core (mirrorIn_tick on'),
      event_does tier core (mirrorIn_end on' (by decide))⟩

end Sys2Proof.Proofs
end

section
/-! PROOF. Startup and power states (18_startup_and_power_states.md): supplies, resets, standby, brown-outs, the clock, PERST_N and the
PCIe link. -/
namespace Sys2Proof.Machine

variable {s : State} {t req d : Nat} {boot : BootMeets}

/-! ## Supplies -/

theorem mapGet?_map_const {α : Type} {v : α} {keys : List Nat} {p : Nat} (mem : p ∈ keys) :
    mapGet? (keys.map fun k => (k, v)) p = some v := by
  induction keys with
  | nil => exact absurd mem List.not_mem_nil
  | cons k ks ih =>
    by_cases first : k = p
    · simp [mapGet?, first]
    · have later : p ∈ ks := (List.mem_cons.mp mem).resolve_left (Ne.symm first)
      simp [mapGet?, first, ih later]

/-- VBAT has come: STANDBY, every transceiver of a bus asleep (R644). -/
theorem vbatOn_off (off : powerState s = 0) : powerState (vbatOn s) = 1 ∧
    (vbatOn s).trxMode = (busPorts s.fuses).map fun p => (p, 2) := by
  unfold vbatOn
  rw [if_pos off]
  exact ⟨fld_setFld_self _ _ _ _ _ (by decide) (by decide), rfl⟩

theorem supplyGood_boots {u : State} (u' : u = { s with power := { s.power with supplyGood := true } })
    (state : powerState s = 1 ∨ powerState s = 2) (votes' : powerReq s = true) (clock : s.power.refLost = false) :
    supplyGood s boot = Machine.boot u boot := by
  have votes'' : powerReq u = true := by rw [u']; exact votes'
  subst u'
  exact if_pos ⟨state, votes'', by simp [clock]⟩

theorem supplyGood_unvoted (unvoted : powerReq s = false) :
    supplyGood s boot = { s with power := { s.power with supplyGood := true } } :=
  if_neg (fun h => absurd (h.2.1 : powerReq s = true) (by simp [unvoted]))

theorem voteRetry_due {u : Nat} (silent : (getSup s d).silentTo = some u) (due : u ≤ s.now) :
    voteRetry s d = putSup s d { getSup s d with silentTo := none, waitFrom := some s.now } := by
  simp only [voteRetry, silent, if_pos due]

/-- A supply removed outside an orderly entry is a brown-out (R643). -/
theorem supplyRemoved_brownOut (core : coreUp s = true) (disorderly : s.power.goodbyeAt = none) :
    supplyRemoved s = brownOut { s with power := { s.power with supplyGood := false } } 0 := by
  have core' : coreUp { s with power := { s.power with supplyGood := false } } = true := core
  unfold supplyRemoved
  rw [if_neg (by simp [disorderly]), if_pos core']

/-! ## PWR_CMD -/

section
variable (pf0 : reqPf req = 0)
include pf0

theorem pwrCommand_warm (code : fld s (pwrPage + 0x48) 23 12 = 0x3C3) :
    pwrCommand s req false true false = (warmReset (wr s (pwrPage + 0x48) 0), true) := by
  simp [pwrCommand, pf0, code]

theorem pwrCommand_uncoded (code : fld s (pwrPage + 0x48) 23 12 ≠ 0x3C3) :
    pwrCommand s req false true false = (setBit (wr s (pwrPage + 0x48) 0) (pwrPage + 0x50) 2, false) := by
  simp [pwrCommand, pf0, code]

theorem pwrCommand_standby (force : Bool) :
    (pwrCommand s req force false true).1 = standbyCommand (wr s (pwrPage + 0x48) 0) force := by
  simp [pwrCommand, pf0]

end

theorem warmBoot_eq : warmBoot s req boot =
    if (pwrCommand s req false true false).2 then Machine.boot (pwrCommand s req false true false).1 boot
    else (pwrCommand s req false true false).1 := rfl

/-- A WARM that reaches PWR_CMD. -/
theorem exec_pwrWarm (reach : pf0Reaches (advance s t) req pwrPage) :
    execPwrWarm t req boot s = .next (settled (warmBoot (advance s t) req boot)) := by
  have ⟨_, free, there⟩ := reach
  have there' : bootReach (advance s t) (pwrPage + 0x4C) = true := bootReach_of_page (by rfl) there
  exact always_does rfl (by rw [free, there']; rfl)

/-- A STANDBY that reaches PWR_CMD. -/
theorem exec_pwrStandby (reach : pf0Reaches (advance s t) req pwrPage) (force : Bool) : execPwrStandby t req force s =
    .next (settled (standbyCommand (wr (advance s t) (pwrPage + 0x48) 0) force)) := by
  have ⟨pf0, _, _⟩ := reach
  rw [← pwrCommand_standby pf0]
  refine software_plain (kind := 0x2F) rfl (by decide) (by decide) (by decide) rfl rfl (by decide) reach rfl ?_
  cases force <;> rfl

/-! ## Standby, brown-outs and the clock -/

theorem autoStandby_held (core : coreUp s = true) (auto : bit s (pwrPage + 0x44) 23 = true) (asleep : clustersAsleep s = true)
    (parked' : [0, 1, 2, 3].all (parked s) = true)
    (held : heldFor s 4 (msTicks (max 10 (fld s (pwrPage + 0x44) 11 0))) = true) (idle : bit s (pwrPage + 0x40) 20 = false)
    (in' : s.power.goodbyeAt = none) : autoStandby s = entryBegin s 0 :=
  if_pos (by rw [core, auto, asleep, parked', held, idle, in']; rfl)

theorem standbyHold_over {g : Nat} (out : s.power.goodbyeAt = some g) (ended : g + msTicks 50 ≤ s.now)
    (good : s.power.supplyGood = true) (votes' : powerReq s = true) :
    standbyHold s boot = Machine.boot { s with power := { s.power with nextCause := 6 } } boot := by
  simp only [standbyHold, out]; exact if_pos ⟨ended, good, votes'⟩

theorem supplyFails_on {supply : Nat} (on : 2 ≤ powerState s) :
    supplyFails s supply = brownOut { s with power := { s.power with supplyGood := false } } supply := if_pos on

theorem refclkLost_on (on : 2 ≤ powerState s) :
    refclkLost s = brownOut { s with power := { s.power with refLost := true } } 2 := if_pos on

/-- REFCLK is back, and the core that waited for it boots (R677). -/
theorem refclkBack_boots (lost : s.power.refLost = true) (waits : powerState s = 2) (good : s.power.supplyGood = true)
    (votes' : powerReq s = true) :
    refclkBack s boot = Machine.boot { s with power := { s.power with refLost := false } } boot := by
  unfold refclkBack
  extract_lets was _ u
  have asked : (was && decide (powerState u = 2) && u.power.supplyGood && powerReq u) = true := by
    rw [show was = true from lost, show powerState u = 2 from waits, show u.power.supplyGood = true from good,
      show powerReq u = true from votes']
    rfl
  exact if_pos asked

theorem pcieLink_up (perst : s.power.perst = false) (on : 2 ≤ powerState s) :
    pcieLink s true = noteHeld (pcieTrained (setBit s (pciePage + 0x40) 23)) :=
  if_neg (by simp [perst, Nat.not_lt.mpr on])

end Sys2Proof.Machine

namespace Sys2Proof.Proofs
open Sys2Proof.Machine

/-- Settles O52: each supply's event by its lemma, at its moment. -/
theorem supplyCommandsComplete : Obligations.SupplyCommandsComplete := by
  unfold Obligations.SupplyCommandsComplete
  dsimp only [exec]
  intro s t d boot
  refine ⟨always_does rfl rfl, fun off => ?vbat, ?good, fun u0 small _ _ _ first => ?timeout, fun small behind => ?behind,
    fun u0 small silent due => ?retry, fun core disorderly => ?removed⟩
  case vbat =>
    obtain ⟨state, modes⟩ := vbatOn_off (s := advance s t) (by simpa using off)
    refine ⟨always_does rfl rfl, state, fun p mem => ?_⟩
    rw [modes, advance_fuses, mapGet, mapGet?_map_const mem, Option.getD_some]
  case good =>
    rintro u rfl
    refine ⟨fun state votes' clock => always_does rfl (supplyGood_boots ?_ (by simpa using state) (by simpa using votes')
      (by simpa using clock)),
      fun unvoted => always_does rfl ((supplyGood_unvoted (by simpa using unvoted)).trans ?_)⟩
    · rw [advance_power]
    · rw [advance_power]
  case timeout => exact always_does (by simpa using small) (yielding_does first (by rw [yieldAct]))
  case behind => exact always_does (by simpa using small) (yielding_advance_waits behind)
  case retry =>
    refine always_does (by simpa using small) ((voteRetry_due (by simpa using silent) due).trans ?_)
    rw [getSup_advance]
  case removed =>
    refine always_does rfl ((supplyRemoved_brownOut (by simpa using core) (by simpa using disorderly)).trans ?_)
    rw [advance_power]

/-- Settles O53: PWR_CMD by `exec_pwrWarm` and `exec_pwrStandby`, the events by their lemmas, at their moment. -/
theorem standbyWarmAndBrownOutComplete : Obligations.StandbyWarmAndBrownOutComplete := by
  unfold Obligations.StandbyWarmAndBrownOutComplete
  dsimp only [exec]
  refine ⟨fun s t req boot => ⟨fun reach code => ?warm, fun reach code => ?uncoded,
    fun reach => ⟨exec_pwrStandby reach true, exec_pwrStandby reach false⟩,
    fun core auto asleep parked' held idle in' first => ?auto, fun behind => always_does rfl (yielding_advance_waits behind),
    fun core _ => event_does rfl core rfl, fun g out ended good votes' => ?hold⟩,
    fun s t supply boot => ⟨fun on => ⟨?brownOut, ?clock⟩, fun lost waits good votes' => ?back, always_does rfl rfl, ?release,
      fun perst on => ?linkUp, ?linkDown⟩⟩
  case warm =>
    have ⟨pf0, _, _⟩ := reach
    refine (exec_pwrWarm reach).trans (next_settled ?_)
    rw [warmBoot_eq, pwrCommand_warm pf0 (by simpa using code), if_pos rfl]
  case uncoded =>
    have ⟨pf0, _, _⟩ := reach
    refine (exec_pwrWarm reach).trans (next_settled ?_)
    rw [warmBoot_eq, pwrCommand_uncoded pf0 (by simpa using code)]
    exact if_neg Bool.false_ne_true
  case auto =>
    exact always_does rfl (yielding_does first (autoStandby_held (by simpa using core) (by simpa using auto) (by simpa using asleep)
      (by simpa using parked') (by simpa using held) (by simpa using idle) (by simpa using in')))
  case hold =>
    refine always_does rfl ((standbyHold_over (by simpa using out) ended (by simpa using good) (by simpa using votes')).trans ?_)
    rw [advance_power]
  case brownOut =>
    refine always_does rfl ((supplyFails_on (by simpa using on)).trans ?_)
    rw [advance_power]
  case clock =>
    refine always_does rfl ((refclkLost_on (by simpa using on)).trans ?_)
    rw [advance_power]
  case back =>
    refine always_does rfl ((refclkBack_boots (by simpa using lost) (by simpa using waits) (by simpa using good)
      (by simpa using votes')).trans ?_)
    rw [advance_power]
  case release =>
    refine always_does rfl ?_
    rw [perstRelease, advance_power]
  case linkUp => exact always_does rfl (pcieLink_up (by simpa using perst) (by simpa using on))
  case linkDown => exact always_does rfl (if_neg (by simp))

end Sys2Proof.Proofs
end

section
/-! PROOF. What commands leave as it is: a frame for each of the groups keys, monitors, gates and back-off, minutes, time. A group's
own stores are those that its readings do not see. -/
namespace Sys2Proof.Machine

variable {s u : State} {t req n : Nat} {α : Type} {f : State → α}

/-! ## Moments -/

/-- A moment changes the clocks and what tells that it begins. -/
theorem advance_eq (s : State) (t : Nat) : advance s t = { s with
    now := max s.now t, timeFine := (advance s t).timeFine, timeLog := (advance s t).timeLog
    regsAt := if t ≤ s.now then s.regsAt else s.regs, setNow := if t ≤ s.now then s.setNow else [] } := by
  by_cases past : t ≤ s.now
  · have still : advance s t = s := if_pos past
    rw [still, if_pos past, if_pos past, max_eq_left past]
  · rw [if_neg past, if_neg past, max_eq_right (by omega)]
    unfold advance
    rw [if_neg past]

/-! ## Key commands -/

/-- A reading of the state that no key command changes: none of key slots, records, lanes' work, generator and command under way,
nor the registers of the key page. -/
structure KeyBlind (f : State → α) : Prop where
  freeCtr : ∀ s x, f { s with freeCtr := x } = f s
  keyReg : ∀ s k v, k < 0x1000 → f (wr s (keyPage + k) v) = f s
  setNow : ∀ s x, f { s with setNow := x } = f s
  cmds : ∀ s x, f { s with cmds := x } = f s
  laneQ : ∀ s x, f { s with laneQ := x } = f s
  drbg : ∀ s x, f { s with drbg := x } = f s
  keys : ∀ s x, f { s with keys := x } = f s
  keyRecs : ∀ s x, f { s with keyRecs := x } = f s
  keysSaving : ∀ s x, f { s with keysSaving := x } = f s
  keyWork : ∀ s x, f { s with keyWork := x } = f s

namespace KeyBlind

section
variable (b : KeyBlind f)
include b

theorem setFld {k : Nat} (small : k < 0x1000) (hi lo v : Nat) : f (setFld s (keyPage + k) hi lo v) = f s := b.keyReg _ _ _ small

theorem clrBit {k : Nat} (small : k < 0x1000) (i : Nat) : f (clrBit s (keyPage + k) i) = f s := b.setFld small _ _ _

theorem setBit {k : Nat} (small : k < 0x1000) (i : Nat) : f (setBit s (keyPage + k) i) = f s :=
  (b.setNow _ _).trans (b.setFld small _ _ _)

theorem keyRefuse (code : Nat) : f (keyRefuse s code) = f s := (b.setBit (by decide) _).trans (b.setFld (by decide) _ _ _)

theorem keyAccept : f (keyAccept s) = f s := (b.clrBit (by decide) _).trans (b.setFld (by decide) _ _ _)

theorem cmdStart (bits : Nat) (puts : List FieldPut) : f (cmdStart s keyCmd bits puts) = f s := (b.cmds _ _).trans (b.freeCtr _ _)

theorem drbgSeed (anew : Bool) : f (drbgSeed s anew) = f s := by
  rw [drbgSeed_only]
  exact (b.drbg { s with freeCtr := (Machine.drbgSeed s anew).freeCtr } _).trans (b.freeCtr _ _)

theorem drbgRequest (bits : Nat) (fresh : Bool) : f (drbgRequest s bits fresh).2 = f s := by
  unfold Machine.drbgRequest
  extract_lets +onlyGivenNames seeded
  exact (b.drbg _ _).trans (Unrecorded.ite_same (b.drbgSeed _) rfl)

theorem keyFill (key origin blocks : Nat) : f (keyFill s key origin blocks) = f s :=
  (b.laneQ { s with keyWork := (Machine.keyFill s key origin blocks).keyWork } _).trans (b.keyWork _ _)

/-- A command accepted with its slot's work given to the lanes. -/
theorem filled (key origin blocks bits : Nat) :
    f (Machine.cmdStart (Machine.keyFill (Machine.keyAccept s) key origin blocks) keyCmd bits []) = f s :=
  (b.cmdStart _ _).trans ((b.keyFill _ _ _).trans b.keyAccept)

theorem keyPort {act : State → State} (pf0 : reqPf req = 0) (none' : mapGet? s.cmds keyCmd = none) (acts : f (act s) = f s) :
    f (keyPort s req act) = f s := by
  simp only [Machine.keyPort, cmdSettle_none none', pf0, Nat.zero_ne_one, if_false]
  exact Unrecorded.ite_same (b.keyRefuse _) acts

theorem keyGate {act : State → State} (pf0 : reqPf req = 0) (none' : mapGet? s.cmds keyCmd = none)
    (unlocked : bit s (secPage + 0x40) 0 = false) (acts : f (act s) = f s) : f (keyGate s req act) = f s := by
  refine b.keyPort pf0 none' ?_
  rw [if_neg (by simp [unlocked])]
  exact acts

theorem keyErase (pf0 : reqPf req = 0) (none' : mapGet? s.cmds keyCmd = none) (unlocked : bit s (secPage + 0x40) 0 = false) :
    f (keyErase s req) = f s := by
  refine b.keyGate pf0 none' unlocked ?_
  exact (b.cmdStart _ _).trans (b.keyAccept.trans ((b.keysSaving { s with
    keys := mapDel s.keys (keySlotSel s), keyRecs := mapDel s.keyRecs (keySlotSel s) } _).trans
    ((b.keyRecs { s with keys := mapDel s.keys (keySlotSel s) } _).trans (b.keys _ _))))

theorem keyGenerate (pf0 : reqPf req = 0) (none' : mapGet? s.cmds keyCmd = none) (unlocked : bit s (secPage + 0x40) 0 = false) :
    f (keyGenerate s req) = f s := by
  refine b.keyGate pf0 none' unlocked ?_
  exact Unrecorded.ite_same (b.keyRefuse _) (Unrecorded.ite_same (b.keyRefuse _) ((b.filled _ _ _ _).trans (b.drbgRequest _ _)))

theorem keyDerive (pf0 : reqPf req = 0) (none' : mapGet? s.cmds keyCmd = none) (unlocked : bit s (secPage + 0x40) 0 = false) :
    f (keyDerive s req false) = f s := by
  refine b.keyGate pf0 none' unlocked (Unrecorded.ite_same (b.keyRefuse _) (Unrecorded.ite_same ?root ?slot))
  case root =>
    refine Unrecorded.ite_same (b.keyRefuse _) ?_
    split
    · exact b.filled _ _ _ _
    · exact b.keyRefuse _
  case slot =>
    split
    · exact b.keyRefuse _
    · refine Unrecorded.ite_same (b.keyRefuse _) ?_
      rw [if_neg Bool.false_ne_true]
      exact b.filled _ _ _ _

theorem keyInfo (pf0 : reqPf req = 0) (none' : mapGet? s.cmds keyCmd = none) : f (keyInfo s req) = f s :=
  b.keyPort pf0 none' ((b.cmdStart _ _).trans b.keyAccept)

theorem keyRecord (slot : Nat) (k : KeySlot) : f (keyRecord s slot k) = f s := by
  unfold Machine.keyRecord
  split <;> exact b.keyRecs _ _

theorem keySaved : f (keySaved s) = f s := by
  unfold Machine.keySaved
  refine Unrecorded.ite_same rfl ?_
  refine (b.clrBit (by decide) _).trans ((b.keysSaving _ _).trans (Unrecorded.forEach_same (fun s i _ => ?_) s))
  split
  · exact (b.keyRecord _ _).trans (b.keys _ _)
  · rfl

end
end KeyBlind

/-- The state with the stores of the key commands emptied. -/
def keysApart (s : State) : State := { s with
  freeCtr := 0, regs := [], setNow := [], cmds := [], laneQ := [], drbg := State.reset.drbg
  keys := [], keyRecs := [], keysSaving := [], keyWork := none }

theorem keyBlind_keysApart : KeyBlind keysApart := by constructor <;> intros <;> rfl

theorem keyBlind_rd {a : Nat} (other : pageOf a ≠ keyPage) : KeyBlind (rd · a) where
  keyReg s _ v small := rd_wr_ne s v (fun same => other (same ▸ pageOf_add (by decide) small))
  freeCtr _ _ := rfl
  setNow _ _ := rfl
  cmds _ _ := rfl
  laneQ _ _ := rfl
  drbg _ _ := rfl
  keys _ _ := rfl
  keyRecs _ _ := rfl
  keysSaving _ _ := rfl
  keyWork _ _ := rfl

theorem eq_of_keysApart (h : keysApart u = keysApart s) : u = { s with
    freeCtr := u.freeCtr, regs := u.regs, setNow := u.setNow, cmds := u.cmds, laneQ := u.laneQ, drbg := u.drbg
    keys := u.keys, keyRecs := u.keyRecs, keysSaving := u.keysSaving, keyWork := u.keyWork } :=
  congrArg (fun w : State => { w with
    freeCtr := u.freeCtr, regs := u.regs, setNow := u.setNow, cmds := u.cmds, laneQ := u.laneQ, drbg := u.drbg
    keys := u.keys, keyRecs := u.keyRecs, keysSaving := u.keysSaving, keyWork := u.keyWork }) h

/-- An answer of the group: its own stores apart, the state of the moment. -/
theorem keys_framed {answer : Answer} (does : answer = .next (settled u))
    (same : ∀ {α : Type} {f : State → α}, KeyBlind f → f u = f (advance s t)) :
    ∃ u, answer = .next (settled u) ∧ u = { advance s t with
        freeCtr := u.freeCtr, regs := u.regs, setNow := u.setNow, cmds := u.cmds, laneQ := u.laneQ, drbg := u.drbg
        keys := u.keys, keyRecs := u.keyRecs, keysSaving := u.keysSaving, keyWork := u.keyWork } ∧
      ∀ a, pageOf a ≠ keyPage → rd u a = rd s a :=
  ⟨u, does, eq_of_keysApart (same keyBlind_keysApart), fun _ other => (same (keyBlind_rd other)).trans (rd_advance ..)⟩

/-! ## Monitors -/

/-- A reading that no monitor of page `p` changes: neither live sets and periods nor the page's registers. -/
structure MonBlind (p : Nat) (f : State → α) : Prop where
  monReg : ∀ s k v, k < 0x1000 → f (wr s (p + k) v) = f s
  monLive : ∀ s x, f { s with monLive := x } = f s
  sampledAt : ∀ s x, f { s with sampledAt := x } = f s

section
variable {p : Nat} (b : MonBlind p f)
include b

theorem MonBlind.monSample : f (monSample s p) = f s := by
  unfold Machine.monSample
  extract_lets +onlyGivenNames port from_
  refine Unrecorded.ite_same rfl ?_
  extract_lets +onlyGivenNames next
  have next' : f next = f s := Unrecorded.ite_same rfl (b.sampledAt _ _)
  have taken (v : Nat) : f (monTake next p v) = f s := (b.monLive _ _).trans next'
  split
  · exact taken _
  · exact taken _
  · exact taken _
  · exact Unrecorded.ite_same next' (taken _)
  · exact next'

theorem MonBlind.monSnap (clear : Bool) : f (monSnap s p clear) = f s := by
  unfold Machine.monSnap
  extract_lets +onlyGivenNames l shown binned
  have shown' : f shown = f s := (b.monReg _ _ _ (by decide)).trans ((b.monReg _ _ _ (by decide)).trans (b.monReg _ _ _ (by decide)))
  have binned' : f binned = f s := by
    refine (Unrecorded.forEach_same (fun s k mem => ?_) shown).trans shown'
    have := List.mem_range.mp mem
    rw [Nat.add_assoc]
    exact b.monReg _ _ _ (by omega)
  exact Unrecorded.ite_same ((b.monLive _ _).trans binned') binned'

end

/-- The state with the registers and the monitors' stores emptied. -/
def monitorsApart (s : State) : State := { s with regs := [], monLive := [], sampledAt := [] }

theorem monBlind_monitorsApart (p : Nat) : MonBlind p monitorsApart := by constructor <;> intros <;> rfl

theorem monBlind_rd {a p : Nat} (aligned : p % 0x1000 = 0) (other : pageOf a ≠ p) : MonBlind p (rd · a) where
  monReg s _ v small := rd_wr_ne s v (fun same => other (same ▸ pageOf_add aligned small))
  monLive _ _ := rfl
  sampledAt _ _ := rfl

theorem eq_of_monitorsApart (h : monitorsApart u = monitorsApart s) :
    u = { s with regs := u.regs, monLive := u.monLive, sampledAt := u.sampledAt } :=
  congrArg (fun w : State => { w with regs := u.regs, monLive := u.monLive, sampledAt := u.sampledAt }) h

theorem monitors_framed {p : Nat} {answer : Answer} (aligned : p % 0x1000 = 0) (does : answer = .next (settled u))
    (same : ∀ {α : Type} {f : State → α}, MonBlind p f → f u = f (advance s t)) :
    ∃ u, answer = .next (settled u) ∧ u = { advance s t with regs := u.regs, monLive := u.monLive, sampledAt := u.sampledAt } ∧
      ∀ a, pageOf a ≠ p → rd u a = rd s a :=
  ⟨u, does, eq_of_monitorsApart (same (monBlind_monitorsApart p)),
    fun _ other => (same (monBlind_rd aligned other)).trans (rd_advance ..)⟩

theorem pageAt_aligned (dom blk pg : Nat) : pageAt dom blk pg % 0x1000 = 0 := by unfold pageAt; omega

/-- A PF0 write of a slot of a monitor's page. -/
theorem software_monitor {p k v : Nat} (aligned : p % 0x1000 = 0) (h : kindOf s.fuses p = 0x11) (small : k < 0x1000) (slot : k % 4 = 0)
    (beyond : 0x40 ≤ k) (field : (kindFields 0x11).any (fieldAt · k) = true) (reach : pf0Reaches (advance s t) req p)
    (does : dispatchWrite (advance s t) req (p + k) (v % 2 ^ 24) = u) (present : n = 0x11) :
    software (decide (n = 0x11)) s t req (p + k) v = .next (settled u) :=
  software_plain (by simpa using present) aligned small slot h rfl (by decide) reach
    (fieldsAt_of_kind aligned h small beyond slot (by decide) (by decide) field) does

/-- SNAP, with CLEAR or without (R550). -/
theorem exec_monSnap {p : Nat} (aligned : p % 0x1000 = 0) (h : kindOf s.fuses p = 0x11) (reach : pf0Reaches (advance s t) req p)
    (clear : Bool) : execMonSnap t req p clear s = .next (settled (monSnap (advance s t) p clear)) := by
  refine software_monitor aligned h (by decide) (by decide) (by decide) (by decide) reach ?_ h
  have page : pageOf (p + 0x48) = p := pageOf_add aligned (by decide)
  have slot : slotOf (p + 0x48) = 0x48 := slotOf_add aligned (by decide)
  have kind : kindOf (advance s t).fuses p = 0x11 := by rwa [advance_fuses]
  simp only [dispatchWrite, page, slot, kind]
  rw [if_neg (by decide), if_neg (by decide), if_pos trivial]
  cases clear <;> rfl

/-! ## Minutes, late completions and the PCIe link -/

/-- The registers of the minutes, the late completions and the PCIe link. -/
def minuteRegs : List Nat := [hubPage + 0x48, updPage + 0x64, pciePage + 0x64, pciePage + 0x40]

/-- A reading that none of these commands changes. -/
structure MinuteBlind (f : State → α) : Prop where
  freeCtr : ∀ s x, f { s with freeCtr := x } = f s
  minuteReg : ∀ s a v, a ∈ minuteRegs → f (wr s a v) = f s
  setNow : ∀ s x, f { s with setNow := x } = f s
  heldFrom : ∀ s x, f { s with heldFrom := x } = f s
  counted : ∀ s m trial stored,
    f { s with power := { s.power with minutes := m, trialMinutes := trial, operStored := stored } } = f s

namespace MinuteBlind

section
variable (b : MinuteBlind f)
include b

theorem operMinute : f (operMinute s) = f s := by
  unfold Machine.operMinute
  exact Unrecorded.ite_same ((b.minuteReg _ _ _ (by decide)).trans (b.counted s _ s.power.trialMinutes _)) rfl

theorem trialMinute (turn : s.turn = none) : f (trialMinute s) = f s := by
  unfold Machine.trialMinute
  rw [turnEnd_none turn]
  exact Unrecorded.ite_same ((b.minuteReg _ _ _ (by decide)).trans (b.counted s s.power.minutes _ s.power.operStored)) rfl

theorem lateCompletion : f (lateCompletion s n) = f s := Unrecorded.ite_same (b.minuteReg _ _ _ (by decide)) rfl

theorem noteFrom (i : Nat) (holds : Bool) : f (noteFrom s i holds) = f s :=
  Unrecorded.ite_same (Unrecorded.ite_same rfl (b.heldFrom _ _)) (b.heldFrom _ _)

theorem noteHeld : f (noteHeld s) = f s := (b.noteFrom _ _).trans (Unrecorded.forEach_same (fun _ _ _ => b.noteFrom _ _) s)

theorem pcieTrained : f (pcieTrained s) = f s :=
  (b.minuteReg _ _ _ (by decide)).trans ((b.minuteReg _ _ _ (by decide)).trans ((b.freeCtr _ _).trans (b.freeCtr _ _)))

theorem pcieLink (up : Bool) : f (pcieLink s up) = f s := by
  have bitSet : f (setBit s (pciePage + 0x40) 23) = f s := (b.setNow _ _).trans (b.minuteReg _ _ _ (by decide))
  exact Unrecorded.ite_same rfl (b.noteHeld.trans (Unrecorded.ite_same (b.pcieTrained.trans bitSet) (b.minuteReg _ _ _ (by decide))))

end
end MinuteBlind

/-- The state with the stores of these commands emptied. -/
def minutesApart (s : State) : State := { s with
  freeCtr := 0, regs := [], setNow := [], heldFrom := []
  power := { s.power with minutes := 0, trialMinutes := 0, operStored := 0 } }

theorem minuteBlind_minutesApart : MinuteBlind minutesApart := by constructor <;> intros <;> rfl

theorem minuteBlind_rd {a : Nat} (other : a ∉ minuteRegs) : MinuteBlind (rd · a) where
  minuteReg s _ v mem := rd_wr_ne s v (fun same => other (same ▸ mem))
  freeCtr _ _ := rfl
  setNow _ _ := rfl
  heldFrom _ _ := rfl
  counted _ _ _ _ := rfl

theorem eq_of_minutesApart (h : minutesApart u = minutesApart s) :
    (u = { s with freeCtr := u.freeCtr, regs := u.regs, setNow := u.setNow, power := u.power, heldFrom := u.heldFrom }) ∧
      u.power = { s.power with
        minutes := u.power.minutes, trialMinutes := u.power.trialMinutes, operStored := u.power.operStored } :=
  ⟨congrArg (fun w : State => { w with
      freeCtr := u.freeCtr, regs := u.regs, setNow := u.setNow, power := u.power, heldFrom := u.heldFrom }) h,
    congrArg (fun w : State => { w.power with
      minutes := u.power.minutes, trialMinutes := u.power.trialMinutes, operStored := u.power.operStored }) h⟩

theorem minutes_framed {answer : Answer} (does : answer = .next (settled u))
    (same : ∀ {α : Type} {f : State → α}, MinuteBlind f → f u = f (advance s t)) :
    ∃ u, answer = .next (settled u) ∧ u = { advance s t with
        freeCtr := u.freeCtr, regs := u.regs, setNow := u.setNow, power := u.power, heldFrom := u.heldFrom } ∧
      u.power = { s.power with
        minutes := u.power.minutes, trialMinutes := u.power.trialMinutes, operStored := u.power.operStored } ∧
      ∀ a, a ∉ minuteRegs → rd u a = rd s a := by
  obtain ⟨only, power⟩ := eq_of_minutesApart (same minuteBlind_minutesApart)
  rw [advance_power] at power
  exact ⟨u, does, only, power, fun _ other => (same (minuteBlind_rd other)).trans (rd_advance ..)⟩

/-! ## Gates, back-off and time -/

theorem gateNext_only (i : Nat) : gateNext s i = { s with gateRun := (gateNext s i).gateRun } := by
  unfold gateNext
  repeat' split
  all_goals rfl

theorem backoffEnd_only (p : Nat) : backoffEnd s p = { s with mac := (backoffEnd s p).mac } := by
  unfold backoffEnd
  repeat' split
  all_goals rfl

theorem timeStep_only : timeStep s = { s with
    timeFine := (timeStep s).timeFine, timeLog := (timeStep s).timeLog, gateRun := (timeStep s).gateRun } := rfl

end Sys2Proof.Machine

namespace Sys2Proof.Proofs
open Sys2Proof.Machine

/-- Settles O11: each group by the readings that its commands leave as they are. -/
theorem commandsChangeTheirOwnStateOnly : Obligations.CommandsChangeTheirOwnStateOnly := by
  unfold Obligations.CommandsChangeTheirOwnStateOnly
  refine ⟨advance_eq, fun s t req i reach unlocked none' core member => ?keys,
    fun s t req dom blk pg page clear i page' kind core reach member => ?monitors,
    fun s t p small there core => ⟨?gate, fun first => ?backoff⟩,
    fun s t n i small core turn member => ?minutes, fun s t req reach => ?time⟩
  case keys =>
    have ⟨pf0, _, _⟩ := reach
    have none'' : mapGet? (advance s t).cmds keyCmd = none := by simpa using none'
    have still := cmdSettle_none none''
    have unlocked' : bit (advance s t) (secPage + 0x40) 0 = false := by simpa using unlocked
    simp only [List.mem_cons, List.not_mem_nil, or_false] at member
    rcases member with rfl | rfl | rfl | rfl | rfl <;> dsimp only [exec]
    · exact keys_framed (software_keyCmd reach still 1) (fun b => b.keyErase pf0 none'' unlocked')
    · exact keys_framed (software_keyCmd reach still 2) (fun b => b.keyGenerate pf0 none'' unlocked')
    · exact keys_framed (keyDerive_commanded reach still false) (fun b => b.keyDerive pf0 none'' unlocked')
    · exact keys_framed (software_keyCmd reach still 8) (fun b => b.keyInfo pf0 none'')
    · exact keys_framed (event_does rfl core rfl) (fun b => b.keySaved)
  case monitors =>
    subst page'
    simp only [List.mem_cons, List.not_mem_nil, or_false] at member
    rcases member with rfl | rfl <;> dsimp only [exec]
    · exact monitors_framed (pageAt_aligned ..) (event_does (by simpa using kind) core rfl)
        (fun b => Unrecorded.ite_same b.monSample rfl)
    · exact monitors_framed (pageAt_aligned ..) (exec_monSnap (pageAt_aligned ..) kind reach clear) (fun b => b.monSnap _)
  case gate =>
    have there' : (decide (p < 20) && macPresent s.fuses (104 + p)) = true := by simp [small, there]
    dsimp only [exec]
    exact ⟨gateNext (advance s t) p, event_does there' core rfl, gateNext_only p⟩
  case backoff =>
    dsimp only [exec]
    exact ⟨backoffEnd (advance s t) (104 + p), event_does there core (yielding_does first (by rw [yieldAct])), backoffEnd_only _⟩
  case minutes =>
    simp only [List.mem_cons, List.not_mem_nil, or_false] at member
    rcases member with rfl | rfl | rfl | rfl | rfl <;> dsimp only [exec]
    · exact minutes_framed (event_does rfl core rfl) (fun b => b.operMinute)
    · exact minutes_framed (event_does rfl core rfl) (fun b => b.trialMinute (by simpa using turn))
    · exact minutes_framed (event_does (by simpa using small) core rfl) (fun b => b.lateCompletion)
    · exact minutes_framed (always_does rfl rfl) (fun b => b.pcieLink true)
    · exact minutes_framed (always_does rfl rfl) (fun b => b.pcieLink false)
  case time =>
    dsimp only [exec]
    exact ⟨timeStep (advance s t), software_timeStep reach, timeStep_only⟩

end Sys2Proof.Proofs
end

section
/-! PROOF. What the end of a copy in flight and an output's going up or down leave as they are. -/
namespace Sys2Proof.Machine

variable {s : State}

namespace Unrecorded
variable {α : Type} {f : State → α} (b : Unrecorded f) (s : State)
include b

/-! ## Control frames of a MAC port -/

theorem putMac (p : Nat) (m : MacCh) : f (putMac s p m) = f s := b.mac _ _

omit b in
theorem macPage_slot (p : Nat) {slot : Nat} (small : slot < 0x1000) (other : slot ≠ 0x30) :
    (macPage p + slot) % 0x1000 ≠ 0x30 := by
  unfold macPage
  repeat' split
  all_goals omega

theorem plcaUsed (p : Nat) : f (plcaUsed s p) = f s := ite_same (b.putMac _ _ _) rfl

theorem fcSend (p classes quanta : Nat) : f (fcSend s p classes quanta) = f s := by
  unfold Machine.fcSend
  extract_lets +onlyGivenNames pg body shown
  have shown' : f shown = f s := b.setFld (macPage_slot _ (by decide) (by decide)) _ _ _
  exact (b.plcaUsed _ _).trans ((b.send _ _ _ _ _).trans ((b.fcSentAt _ _).trans
    ((b.incSat (macPage_slot _ (by decide) (by decide))).trans shown')))

theorem serveControl (p : Nat) : f (serveControl s p) = f s :=
  forEach_same (fun _ _ _ => ite_same rfl ((b.fcSend _ _ _ _).trans (b.putMac _ _ _))) s

theorem sendControl (p classes quanta : Nat) : f (sendControl s p classes quanta) = f s :=
  ite_same ((b.serveControl _ _).trans (b.putMac _ _ _)) rfl

theorem pauseSend (p old new : Nat) (asserted released : Bool) : f (pauseSend s p old new asserted released) = f s :=
  ite_same (ite_same (b.sendControl _ _ _ _) (ite_same (b.sendControl _ _ _ _) rfl)) rfl

/-! ## Back-pressure and the plots of a frame -/

omit b in
theorem input_small {p : Nat} (mem : p ∈ inputs) : p < 144 := List.mem_range.mp (List.mem_filter.mp mem).1

omit b in
theorem admUsed_slot {p : Nat} (small : p < 144) : admUsed p % 0x1000 ≠ 0x30 := by unfold admUsed admPage; omega

theorem assertXoff {p : Nat} (small : p < 144) : f (assertXoff s p) = f s :=
  ite_same rfl ((b.pauseSend _ _ _ _ _ _).trans ((b.withheld _ _).trans (b.setBit (admUsed_slot small) _)))

theorem evalXoff {p : Nat} (small : p < 144) : f (evalXoff s p) = f s := by
  have released := b.clrBit (s := s) (admUsed_slot small) 23
  exact ite_same (b.assertXoff _ small) (ite_same ((b.pauseSend _ _ _ _ _ _).trans ((b.withheld _ _).trans released))
    (ite_same ((b.pauseSend _ _ _ _ _ _).trans (b.withheld _ _)) rfl))

theorem evalAll : f (evalAll s) = f s :=
  forEach_same (fun _ _ mem => b.evalXoff _ (input_small (List.mem_filter.mp mem).1)) s

theorem heldMove (id : Nat) : f (heldMove s id) = f s := ite_same ((b.evalAll _).trans (b.frames _ _)) rfl

theorem dropFrame (id : Nat) : f (dropFrame s id) = f s :=
  (b.evalAll _).trans ((b.openFrame { s with frames := mapDel s.frames id } _).trans (b.frames _ _))

theorem dropRest (p id : Nat) : f (dropRest s p id) = f s := by
  unfold Machine.dropRest
  refine ite_same ?_ rfl
  extract_lets +onlyGivenNames dropped q
  have dropped' : f dropped = f s := b.dropping _ _
  exact ite_same ((b.putMac _ _ _).trans dropped') (ite_same ((b.putLnk _ _ _).trans dropped') dropped')

theorem freeIfDone (id : Nat) : f (freeIfDone s id) = f s := ite_same ((b.dropFrame _ _).trans (b.dropRest _ _ _)) rfl

/-! ## The copy in flight -/

theorem endFlight (o : Nat) : f (endFlight s o) = f s := by
  unfold Machine.endFlight
  split
  · exact (b.heldMove _ _).trans (b.inFlight _ _)
  · rfl

theorem laneGone (p : Nat) : f (laneGone s p) = f s := by
  let w := Machine.laneGone s p
  exact (b.macReleased { s with laneQ := w.laneQ, lanes := w.lanes, relWait := w.relWait, streams := w.streams } _).trans
    ((b.streams { s with laneQ := w.laneQ, lanes := w.lanes, relWait := w.relWait } _).trans
      ((b.relWait { s with laneQ := w.laneQ, lanes := w.lanes } _).trans ((b.lanes { s with laneQ := w.laneQ } _).trans
        (b.laneQ _ _))))

theorem macFlightOver (p : Nat) : f (macFlightOver s p) = f s := by
  unfold Machine.macFlightOver
  refine (b.laneGone _ _).trans ((b.putMac _ _ _).trans ?_)
  split
  · exact b.busy _ _
  · rfl

theorem flightOver (o : Nat) : f (flightOver s o) = f s := by
  unfold Machine.flightOver
  split
  · extract_lets +onlyGivenNames left ended
    have left' : f left = f s := ite_same (b.macFlightOver _ _) (ite_same (b.putFur _ _ _) rfl)
    have ended' : f ended = f s := (b.freeIfDone _ _).trans ((b.endFlight _ _).trans ((b.macOut _ _).trans left'))
    exact ite_same ((b.serveControl _ _).trans ended') ended'
  · rfl

theorem outBytes (p : Nat) (c : Copy) : f (outBytes s p c).2 = f s := by
  unfold Machine.outBytes
  split
  · rfl
  · unfold Machine.ethWrite
    dsimp only
    repeat' split
    all_goals simp only [b.tplSeq]

theorem tsFails (p : Nat) : f (tsFails s p) = f s := b.putMac _ _ _

theorem txEnds (p : Nat) (cut : Bool) (part : Option Nat) : f (txEnds s p cut part) = f s := by
  unfold Machine.txEnds
  split
  · rfl
  case h_2 c _ =>
    refine ite_same (b.flightOver _ _) ?_
    rcases formed : Machine.outBytes s p c with ⟨bytes, w⟩
    have formed' : f w = f s := (congrArg (fun x => f x.2) formed).symm.trans (b.outBytes _ _ _)
    have failed : f (Machine.incSat (Machine.tsFails w p) (macPage p + 0x94)) = f s :=
      (b.incSat (macPage_slot _ (by decide) (by decide))).trans ((b.tsFails _ _).trans formed')
    have sent (v : State) (h : f v = f s) (i : List Nat) (x y : List Byte) : f (Machine.flightOver (Machine.plcaUsed
        (if cut then Machine.send v p .ethCut [] x else Machine.send v p .ethStomped i y) p) p) = f s :=
      (b.flightOver _ _).trans ((b.plcaUsed _ _).trans (ite_same ((b.send _ _ _ _ _).trans h) ((b.send _ _ _ _ _).trans h)))
    cases part with
    | some n => exact sent _ failed _ _ _
    | none => exact sent _ ((b.freeCtr _ _).trans failed) _ _ _

/-! ## An output goes down or comes up -/

theorem putQueue (o : Nat) (q : List Copy) : f (putQueue s o q) = f s :=
  (b.deficit { s with outQ := (Machine.putQueue s o q).outQ } _).trans (b.outQ _ _)

theorem discardCopies (o anchor : Nat) (p : Copy → Bool) : f (discardCopies s o anchor p) = f s :=
  (forEach_same (fun _ _ _ => (b.heldMove _ _).trans (b.freeIfDone _ _)) _).trans ((b.addStat _ _ _).trans (b.putQueue _ _ _))

theorem flushOutput (o : Nat) : f (flushOutput s o) = f s := b.discardCopies _ _ _ _

theorem removeBridge (r i : Nat) : f (removeBridge s r i) = f s := by
  have put : f (putBridge s r i emptyEntry) = f s :=
    (b.grpOwn { s with tables := (putBridge s r i emptyEntry).tables } _).trans (b.tables _ _)
  exact ite_same ((b.trackers _ _).trans put) put

omit b in
theorem lrnFlushed_slot (r : Nat) : lrnCount r 12 % 0x1000 ≠ 0x30 := by unfold lrnCount learnPage regionBase; omega

theorem flushWhere (r : Nat) (p : TEntry → Bool) : f (flushWhere s r p) = f s :=
  forEach_same (fun _ _ _ => (b.incSat (lrnFlushed_slot r)).trans (b.removeBridge _ _ _)) s

theorem downFlush (o : Nat) : f (downFlush s o) = f s :=
  ite_same (forEach_same (fun _ _ _ => ite_same (b.flushWhere _ _ _) rfl) s) rfl

theorem hintWake (o : Nat) : f (hintWake s o) = f s := ite_same (b.wakeHints _ _) rfl

omit b in
theorem egrPort_slot {o : Nat} (small : o < 144) : egrPort o % 0x1000 ≠ 0x30 := by unfold egrPort egrPage; omega

theorem outputDown {o : Nat} (small : o < 144) : f (outputDown s o) = f s := by
  unfold Machine.outputDown
  refine ite_same (ite_same (b.hintWake _ _) rfl) ?_
  extract_lets +onlyGivenNames down held q moved
  have down' : f down = f s := (b.downFlush _ _).trans (b.downSince _ _)
  have held' : f held = f s := (b.setFld (egrPort_slot small) _ _ _).trans down'
  have moved' : f moved = f s := (forEach_same (fun _ _ _ => b.heldMove _ _) held).trans held'
  exact ite_same ((b.flushOutput _ _).trans ((b.setFld (egrPort_slot small) _ _ _).trans down'))
    (ite_same moved' ((b.hintWake _ _).trans moved'))

theorem ageHeads (n o : Nat) : f (ageHeads n s o) = f s := by
  induction n generalizing s with
  | zero => rfl
  | succ n ih =>
    unfold Machine.ageHeads
    split
    · exact (ih _).trans ((b.heldMove _ _).trans ((b.freeIfDone _ _).trans ((b.addStat _ _ _).trans (b.putQueue _ _ _))))
    · rfl

theorem outputUp {o : Nat} (small : o < 144) : f (outputUp s o) = f s := by
  have up := b.setFld (s := { s with downSince := mapDel s.downSince o }) (egrPort_slot small) 13 12 0
  exact ite_same rfl ((b.ageHeads _ _ _).trans (up.trans (b.downSince _ _)))

theorem refreshOutput {o : Nat} (small : o < 144) : f (refreshOutput s o) = f s :=
  ite_same rfl (ite_same (b.outputDown _ small) (b.outputUp _ small))

theorem refreshAll : f (refreshAll s) = f s := forEach_same (fun _ _ mem => b.refreshOutput _ (input_small mem)) s

/-! ## The pair unit leaves for QUIET -/

theorem quietOutputs : f (quietOutputs s) = f s := forEach_same (fun _ _ _ => b.txEnds _ _ _ _) s

theorem sendPair (reclaim : Bool) : f (sendPair s reclaim) = f s := ite_same ((b.offerService _ _ _).trans (b.pair _ _)) rfl

theorem pairEnter_quiet : f (pairEnter s 4) = f s := by
  unfold Machine.pairEnter
  refine ite_same rfl ?_
  extract_lets +onlyGivenNames held flushed shown timer timed active entered
  have held' : held = false := Bool.and_false _
  have flushed' : f flushed = f s := by
    rw [show flushed = if held then _ else s from rfl, held', if_neg Bool.false_ne_true]
  have timed' : f timed = f s := (b.pair _ _).trans ((b.setFld (by decide) _ _ _).trans flushed')
  have entered' : f entered = f s := (b.setBit (a := pairEvents) (by decide) 2).trans timed'
  exact (b.sendPair _ _).trans ((b.refreshAll _).trans (ite_same ((b.quietOutputs _).trans entered') entered'))

theorem pairQuit (cause : Nat) : f (pairQuit s cause) = f s :=
  ite_same ((b.raisePlain _ (by decide) _ _).trans (b.pairEnter_quiet _)) rfl

theorem noteReclaim : f (noteReclaim s) = f s := ite_same (ite_same rfl (b.pair _ _)) (b.pair _ _)

theorem refreshHealth : f (refreshHealth s) = f s := by
  unfold Machine.refreshHealth
  extract_lets +onlyGivenNames h shown quit
  have shown' : f shown = f s := ite_same (b.putBit (by decide) _ _) rfl
  exact (b.noteReclaim _).trans (ite_same ((b.pairQuit _ _).trans shown') shown')

end Unrecorded

end Sys2Proof.Machine
end

section
/-! PROOF. Pace windows and monitors (15_errors_monitors_identity.md), links and frames of the MAC ports (11_ethernet_ports.md). -/
namespace Sys2Proof.Machine

variable {s : State} {t req i v p : Nat}

/-! ## Pace windows (R544 to R546) -/

theorem pacePageOf_aligned (i : Nat) : pacePageOf i % 0x1000 = 0 := by
  unfold pacePageOf
  split
  · unfold regionBase; omega
  · decide

theorem paceHealth_small (v : Nat) : paceHealth s v ≤ 2 := by
  unfold paceHealth
  repeat' split
  all_goals omega

/-- What the PAGE_PACE of a region or of the chip shows. -/
def shownPace (i : Nat) (s : State) : Nat := rd s (pacePageOf i + 0x30)

theorem unrecorded_shownPace (i : Nat) : Unrecorded (shownPace i) := unrecorded_pace (pacePageOf_aligned i)

/-- What follows from a reading `r` of a window, once PAGE_PACE shows it: the least reading, and an excursion's begin and end. -/
def paceJudged (s : State) (i r : Nat) : State :=
  let a := pacePage + 0x44 + 4 * i
  let s := if r < fld s a 11 0 then setFld s a 11 0 r else s
  let st : PaceState := mapGet { inExcursion := false, goodWindows := 0 } s.pace i
  if r < 1024 then
    let s := { s with pace := mapSet s.pace i { inExcursion := true, goodWindows := 0 } }
    if st.inExcursion then s
    else
      let s := raisePlain (setBit s (pacePage + 0x58) i) (pacePageOf i) 0x08 i
      if i = 4 then refreshHealth s else s
  else if st.inExcursion then
    if st.goodWindows + 1 ≥ paceGood then
      let s := { s with pace := mapDel s.pace i }
      if i = 4 then refreshHealth s else s
    else { s with pace := mapSet s.pace i { inExcursion := true, goodWindows := st.goodWindows + 1 } }
  else s

theorem paceWindow_over (awake : i < 4 → parked s i = false) (ended : periodOver s (pacePageOf i) (usTicks 10) = true) :
    paceWindow s i v = paceJudged (wr (periodNext s (pacePageOf i) (usTicks 10)) (pacePageOf i + 0x30)
      (paceHealth (periodNext s (pacePageOf i) (usTicks 10)) (min v 0xFFF) * 2 ^ 22 + min v 0xFFF)) i (min v 0xFFF) := by
  have runs : ¬((i < 4 ∧ parked s i = true) ∨ (!(periodOver s (pacePageOf i) (usTicks 10))) = true) := by
    rw [ended]
    rintro (⟨small, sleeps⟩ | late)
    · exact absurd sleeps (by simp [awake small])
    · exact absurd late (by decide)
  unfold paceWindow
  rw [if_neg runs]
  rfl

theorem paceLeast_slot (chip : i < 5) : (pacePage + 0x44 + 4 * i) % 0x1000 ≠ 0x30 := by
  have : pacePage % 0x1000 = 0 := rfl
  omega

theorem shownPace_paceJudged {r : Nat} (chip : i < 5) : shownPace i (paceJudged s i r) = shownPace i s := by
  have b := unrecorded_shownPace i
  unfold paceJudged
  extract_lets +onlyGivenNames a least st low raised good
  have least' : shownPace i least = shownPace i s := Unrecorded.ite_same (b.setFld (paceLeast_slot chip) _ _ _) rfl
  have low' : shownPace i low = shownPace i s := least'
  have raised' : shownPace i raised = shownPace i s :=
    (b.raisePlain _ (pacePageOf_aligned i) _ _).trans ((b.setBit (a := pacePage + 0x58) (by decide) _).trans low')
  have good' : shownPace i good = shownPace i s := least'
  exact Unrecorded.ite_same (Unrecorded.ite_same low' (Unrecorded.ite_same ((b.refreshHealth _).trans raised') raised'))
    (Unrecorded.ite_same (Unrecorded.ite_same (Unrecorded.ite_same ((b.refreshHealth _).trans good') good') least') least')

/-- A window that is over shows its reading, whatever follows from it. -/
theorem shownPace_paceWindow (chip : i < 5) (awake : i < 4 → parked s i = false)
    (ended : periodOver s (pacePageOf i) (usTicks 10) = true) : shownPace i (paceWindow s i v) % 2 ^ 12 = min v 0xFFF := by
  rw [paceWindow_over awake ended, shownPace_paceJudged chip, shownPace, rd_wr_self]
  have := paceHealth_small (s := periodNext s (pacePageOf i) (usTicks 10)) (min v 0xFFF)
  have : min v 0xFFF ≤ 0xFFF := Nat.min_le_right _ _
  omega

/-! ## Monitors (R548 to R550) -/

theorem usTicks_clamp (n : Nat) : usTicks (clamp 1 10000 n) ≠ 0 := by unfold usTicks clamp; omega

/-- A QUEUE monitor takes the plots queued for its port, when its period is over. -/
theorem monSample_queue (good : edgeErr s p = false) (queue : monKind s p = 2) (ended : periodOver s p (monPeriod s p) = true) :
    monSample s p = monTake (periodNext s p (monPeriod s p)) p
      (queuedPlots (periodNext s p (monPeriod s p)) (fld s (p + 0x40) 20 13)) := by
  have period : monPeriod s p ≠ 0 := by simp only [monPeriod, queue]; exact usTicks_clamp _
  have queue' : monKind (periodNext s p (monPeriod s p)) p = 2 := queue
  unfold monSample
  rw [if_neg (by simp [good, ended]), if_neg period]
  simp only [queue']

theorem monSample_early (early : periodOver s p (monPeriod s p) = false) : monSample s p = s := if_pos (by simp [early])

/-- The bins that a SNAP shows are registers alone. -/
theorem monLive_shown (l : MonLive) : (forEach (List.range 16) s fun s k => wr s (p + 0xA0 + 4 * k) (mapGet 0 l.bins k)).monLive =
    s.monLive := by
  refine Unrecorded.forEach_same (f := State.monLive) ?_ s
  intro u k _
  exact wr_monLive ..

theorem monLive_monSnap : (monSnap s p false).monLive = s.monLive := by
  unfold monSnap
  rw [if_neg Bool.false_ne_true, monLive_shown, wr_monLive, wr_monLive, wr_monLive]

theorem monSnap_true : monSnap s p true = { monSnap s p false with monLive := mapDel (monSnap s p false).monLive p } := rfl

/-- SNAP with CLEAR shows the live set and empties it (R550). -/
theorem monSnap_clear : monSnap s p true = { monSnap s p false with monLive := mapDel s.monLive p } := by
  rw [monSnap_true, monLive_monSnap]

/-- A PF0 write of MON_SRC or MON_CTRL (R550). -/
theorem exec_monConfigWrite (aligned : p % 0x1000 = 0) (h : kindOf s.fuses p = 0x11) (reach : pf0Reaches (advance s t) req p)
    (ctrl : Bool) : execMonConfigWrite t req p ctrl v s = .next (settled (monConfig (advance s t) req p ctrl (v % 2 ^ 24))) := by
  have kind : kindOf (advance s t).fuses p = 0x11 := by rwa [advance_fuses]
  cases ctrl
  case false =>
    refine software_monitor aligned h (k := 0x40) (by decide) (by decide) (by decide) (by decide) reach ?_ h
    have page : pageOf (p + 0x40) = p := pageOf_add aligned (by decide)
    have slot : slotOf (p + 0x40) = 0x40 := slotOf_add aligned (by decide)
    simp only [dispatchWrite, page, slot, kind]
    rw [if_neg (by decide), if_neg (by decide), if_neg (by decide), if_pos (by decide)]
    rfl
  case true =>
    refine software_monitor aligned h (k := 0x44) (by decide) (by decide) (by decide) (by decide) reach ?_ h
    have page : pageOf (p + 0x44) = p := pageOf_add aligned (by decide)
    have slot : slotOf (p + 0x44) = 0x44 := slotOf_add aligned (by decide)
    simp only [dispatchWrite, page, slot, kind]
    rw [if_neg (by decide), if_neg (by decide), if_neg (by decide), if_pos (by decide)]
    rfl

/-! ## Links of the MAC ports -/

theorem linkLapses_mac (mac : isT1s p = false) : linkLapses s p = clrBit (linkDown s p) (ethLink p) 17 :=
  if_neg (by simp [mac])

theorem linkDown_up {u : State} (up : ethUp s p = true)
    (u' : u = setBit (clrBit (clrBit s (ethLink p) 23) (ethLink p) 17) (ethEvents p) 0) :
    linkDown s p = refreshOutput (txAbort (putMac u p { getMac u p with fcQ := [] }) p) p := by
  subst u'
  exact if_neg (by simp [up])

/-- A link whose condition has held comes up with the modes of the port (R391, R392). -/
theorem linkUp_held {speed held : Nat} {half : Bool} (mac : isT1s p = false) (down : ethUp s p = false) (live : macLive s p = true)
    (long : upHold s p ≤ held) : linkUp s p speed half held = refreshOutput (setBit (putBit (setFld (setBit s
      (ethLink p) 23) (ethLink p) 22 20 (ethModes s p speed half).1) (ethLink p) 19 (ethModes s p speed half).2)
      (ethEvents p) 1) p := by
  have plca : plcaOn s p = false := by simp [plcaOn, mac]
  simp only [linkUp, plca, mac, Bool.and_false, Bool.false_and, Bool.false_eq_true, if_false]
  rw [if_neg (by simp [down, live, long])]

theorem speedChange_other {speed : Nat} {half : Bool} (up : ethUp s p = true)
    (other : (ethModes s p speed half).1 ≠ fld s (ethLink p) 22 20) : speedChange s p speed half =
      putBit (setFld (linkDown s p) (ethLink p) 22 20 (ethModes s p speed half).1) (ethLink p) 19 (ethModes s p speed half).2 := by
  unfold speedChange
  generalize ethModes s p speed half = modes at other ⊢
  obtain ⟨sp, hd⟩ := modes
  have changes : (ethUp s p && (sp != fld s (ethLink p) 22 20 || hd != bit s (ethLink p) 19)) = true := by
    rw [up, bne_iff_ne.mpr other]; rfl
  exact if_pos changes

/-! ## Control frames and failed frames -/

section
variable {bs : List Byte}

theorem macControl_ignored (ignored : macHears s p = false ∨ ethUp s p = false ∨ beAt bs 12 2 ≠ 0x8808 ∨
    (beAt bs 14 2 ≠ 1 ∧ beAt bs 14 2 ≠ 0x101)) : macControl s p bs = s := by
  unfold macControl
  split
  · rfl
  · rename_i heard
    rcases ignored with deaf | down | type | op
    · exact absurd (by simp [deaf]) heard
    · exact absurd (by simp [down]) heard
    · exact absurd (by simp [type]) heard
    · exact if_pos op

variable {u : State} (hears : macHears s p = true) (up : ethUp s p = true) (type : beAt bs 12 2 = 0x8808)
  (u' : u = incSat s (macPage p + 0x9C))
include hears up type u'

theorem macControl_counts (op : beAt bs 14 2 = 1 ∨ beAt bs 14 2 = 0x101) (off : fcObeys u p = false) : macControl s p bs = u := by
  subst u'
  unfold macControl
  rw [if_neg (by simp [hears, up, type])]
  exact (if_neg (by omega)).trans (if_pos (by simp [off]))

theorem macControl_pause (op : beAt bs 14 2 = 1) (on : fcObeys u p = true) : macControl s p bs =
    noteStuck (forEach (List.range 8) u (fun w c => pauseClass w p c (beAt bs 16 2))) p := by
  subst u'
  unfold macControl
  rw [if_neg (by simp [hears, up, type])]
  exact (if_neg (by omega)).trans ((if_neg (by simp [on])).trans (if_pos op))

theorem macControl_pfc (op : beAt bs 14 2 = 0x101) (on : fcObeys u p = true) (mac : isT1s p = false) : macControl s p bs =
    noteStuck (forEach (List.range 8) u (fun w c =>
      if byteAt bs 17 / 2 ^ c % 2 = 1 then pauseClass w p c (beAt bs (18 + 2 * c) 2) else w)) p := by
  subst u'
  unfold macControl
  rw [if_neg (by simp [hears, up, type])]
  exact (if_neg (by omega)).trans ((if_neg (by simp [on])).trans ((if_neg (by omega)).trans (if_neg (by simp [mac]))))

end

/-- A frame whose sending fails ends, and its crossing is noted (R22, R402). -/
theorem ethSent_failed {c : Copy} {left : Nat} {u : State} (flight : mapGet? s.inFlight p = some c) (live : macLive s p = true)
    (up : ethUp s p = true) (begun : notBegun s p = false) (good : (getFrame s c.frame).poison = false)
    (u' : u = txEnds s p false (some left)) :
    ethSent s p left true = { u with crossings := u.crossings ++ [(macPage p, 0)] } := by
  have kept : u.crossings = s.crossings := u' ▸ unrecorded_crossings.txEnds s p false (some left)
  rw [kept, u']
  simp [ethSent, flight, live, up, begun, good]

end Sys2Proof.Machine

namespace Sys2Proof.Proofs
open Sys2Proof.Machine

/-- Settles O43: the windows by `shownPace_paceWindow`, the monitors by their lemmas and as writes of their pages. -/
theorem monitorCommandsComplete : Obligations.MonitorCommandsComplete := by
  unfold Obligations.MonitorCommandsComplete
  dsimp only [exec]
  rintro s t dom blk pg page rfl
  have aligned := pageAt_aligned dom blk pg
  refine ⟨fun i v core small awake => ⟨event_does (by simpa using small) core rfl, fun ended => ?pace⟩,
    fun core kind => ⟨?sample, fun runs good queue => ⟨?queue, fun early => ?early⟩⟩,
    fun req kind reach => ⟨exec_monSnap aligned kind reach false, ?clear, ?config⟩⟩
  case pace => exact shownPace_paceWindow small (by simpa using awake) ended
  case sample => exact event_does (by simpa using kind) core (by rw [running_advance])
  case queue =>
    rintro ended u rfl
    refine event_does (by simpa using kind) core ?_
    rw [if_pos (by rwa [running_advance]), monSample_queue (by simpa using good) (by simpa using queue) (by rwa [monPeriod_advance]),
      monPeriod_advance, fld_advance]
  case early =>
    refine event_does (by simpa using kind) core ?_
    rw [if_pos (by rwa [running_advance]), monSample_early (by rwa [monPeriod_advance])]
  case clear =>
    rw [exec_monSnap aligned kind reach true, monSnap_clear, advance_monLive]
  case config =>
    rintro v u rfl
    have written (ctrl : Bool) := exec_monConfigWrite (v := v) aligned kind reach ctrl
    simp only [monConfig, advance_monLive, advance_sampledAt] at written
    exact ⟨written true, written false⟩

/-- Settles O34: the links by the lemmas on the port's link, the frames at their moment; the crossing by `ethSent_failed`. -/
theorem ethernetLinkAndFramesComplete : Obligations.EthernetLinkAndFramesComplete := by
  unfold Obligations.EthernetLinkAndFramesComplete
  dsimp only [exec]
  refine ⟨fun s t p core there => ⟨fun up mac u u' => ?down,
      fun speed half held stays => ⟨?up, fun mac down live long => ?comes⟩,
      fun speed half held lapses => ?lapses, fun speed half up other => ?speed⟩,
    fun s t p core there => ⟨?received, fun bs u u' => ⟨event_does there core rfl, fun ignored => ?ignored,
        fun hears up type => ⟨fun op off => ?counts, fun op on => ?pause, fun op on mac => ?pfc⟩⟩,
      fun c flight live up begun good left u u' => ?failed, fun _ _ => event_does there core rfl⟩⟩
  case down =>
    exact event_does there core ((linkLapses_mac mac).trans (congrArg (clrBit · (ethLink p) 17) (linkDown_up (by simpa using up) u')))
  case up => exact event_does there core (by rw [if_neg (by simp [stays])])
  case comes =>
    refine event_does there core ?_
    rw [if_neg (by simp [stays]), linkUp_held mac (by simpa using down) (by simpa using live) (by simpa using long), ethModes_advance]
  case lapses => exact event_does there core (if_pos lapses)
  case speed =>
    refine event_does there core ((speedChange_other (by simpa using up) (by simpa using other)).trans ?_)
    rw [ethModes_advance]
  case received =>
    rintro first rest len since abort code fcs i rfl
    exact ⟨fun first' => event_does there core (yielding_does first' (by rw [yieldAct])),
      fun behind => event_does there core (yielding_advance_waits behind)⟩
  case ignored => exact event_does there core (macControl_ignored (by simpa using ignored))
  case counts => exact event_does there core (macControl_counts (by simpa using hears) (by simpa using up) type u' op off)
  case pause => exact event_does there core (macControl_pause (by simpa using hears) (by simpa using up) type u' op on)
  case pfc => exact event_does there core (macControl_pfc (by simpa using hears) (by simpa using up) type u' op on mac)
  case failed =>
    exact event_does there core (ethSent_failed (by simpa using flight) (by simpa using live) (by simpa using up) begun
      (by simpa using good) u')

end Sys2Proof.Proofs
end

section
/-! PROOF. The page of a table port at an access: what waits for the end of its command may act, and no completed command is left
behind. -/
namespace Sys2Proof.Machine

variable {s u : State} {pg a : Nat}

/-! ## What kind 0x1F leaves out -/

theorem cellOf_port {f : Fuses} (h : kindOf f pg = 0x1F) : cellOf pg ≠ 0 := by
  intro zero
  simp only [kindOf, zero, chipKind, secKind, hostKind, regionKind] at h
  repeat' split at h
  all_goals omega

theorem pagesUnder_port {f : Fuses} (h : kindOf f pg = 0x1F) : pagesUnder f pg = [pg] := by
  simp [pagesUnder, blockCells, cellOf_port h]

section
variable (h : kindOf s.fuses pg = 0x1F)
include h

theorem refreshPage_port : refreshPage s pg = s := by simp [refreshPage, portOfPage, h]

theorem stopCell_port : stopCell s pg = s := by simp only [stopCell, h]; exact refreshPage_port h

theorem startCell_port : startCell s pg = s := by simp only [startCell, h]; exact refreshPage_port h

theorem pageTaken_port : pageTaken s pg = s := by simp only [pageTaken, h]

theorem restartExtras_port : restartExtras s pg = s := by simp only [restartExtras, h]

theorem rotationRestart_port : rotationRestart s pg = s := if_neg (cellOf_port h)

theorem canLook_port : canLook s pg = s := by
  unfold canLook
  split
  · rename_i kind _
    exact absurd (h.symm.trans kind) (by decide)
  · rfl

theorem regWritten_port {old : Nat} (page : pageOf a = pg) : regWritten s a old = s := by
  have taken : pageTaken s pg = s := pageTaken_port h
  unfold regWritten
  simp only [page, h, taken, ite_self]

end

/-- A page of another kind is none of a table port. -/
theorem port_ne {f : Fuses} {p kind : Nat} (h : kindOf f pg = 0x1F) (other : kind ≠ 0x1F) (is : kindOf f p = kind) : pg ≠ p := by
  rintro rfl
  exact other (is.symm.trans h)

/-! ## What of the state tells whether a command has completed -/

/-- The variant, the moment and the commands under way. -/
def commandView (s : State) : Fuses × Nat × NMap CmdRun := (s.fuses, s.now, s.cmds)

theorem unrecorded_commandView : Unrecorded commandView := by constructor <;> intros <;> rfl

theorem minuteBlind_commandView : MinuteBlind commandView := by constructor <;> intros <;> rfl

theorem commandView_wr (a v : Nat) : commandView (wr s a v) = commandView s := rfl

theorem commandView_trigQ (q : NMap (List PageTrig)) : commandView { s with trigQ := q } = commandView s := rfl

theorem commandView_putBit (a i : Nat) (v : Bool) : commandView (putBit s a i v) = commandView s := rfl

/-- A table port whose command, if it has one, still runs. -/
structure PortStill (pg : Nat) (s : State) : Prop where
  kind : kindOf s.fuses pg = 0x1F
  runs : ∀ c, mapGet? s.cmds (pg + 0x44) = some c → s.now < c.doneAt

namespace PortStill

theorem of_view (h : PortStill pg s) (same : commandView u = commandView s) : PortStill pg u := by
  obtain ⟨fuses, same⟩ := Prod.mk.inj same
  obtain ⟨now, cmds⟩ := Prod.mk.inj same
  exact ⟨fuses ▸ h.kind, fun c found => now ▸ h.runs c (cmds ▸ found)⟩

theorem forEach {ι : Type} {xs : List ι} {g : State → ι → State} (step : ∀ s i, i ∈ xs → PortStill pg s → PortStill pg (g s i))
    (h : PortStill pg s) : PortStill pg (forEach xs s g) := by
  induction xs generalizing s with
  | nil => exact h
  | cons x xs ih => exact ih (fun s i mem => step s i (List.mem_cons_of_mem _ mem)) (step s x List.mem_cons_self h)

theorem ite {c : Prop} [Decidable c] {x y : State} (yes : PortStill pg x) (no : PortStill pg y) : PortStill pg (if c then x else y) := by
  split <;> assumption

/-- Nothing is left to settle. -/
theorem settled (h : PortStill pg s) : cmdSettle s (pg + 0x44) = s := by
  unfold cmdSettle
  split
  · rename_i c found
    exact if_neg fun done => absurd done.1 (Nat.not_le.mpr (h.runs c found))
  · rfl

theorem settlePage (h : PortStill pg s) : settlePage s pg = s := by
  unfold Machine.settlePage
  rw [h.kind]
  exact h.settled

/-! ### RUN, STOP and RESTART -/

theorem noteHeld (h : PortStill pg s) : PortStill pg (noteHeld s) := h.of_view minuteBlind_commandView.noteHeld

theorem noteTrig (h : PortStill pg s) (p : Nat) : PortStill pg (noteTrig s p) := by
  refine h.of_view ?_
  unfold Machine.noteTrig
  simp only [commandView_putBit]

theorem under (h : PortStill pg s) {p : Nat} {q r : Nat → Bool} (mem : p ∈ ((pagesUnder s.fuses pg).filter q).filter r) : p = pg := by
  rw [pagesUnder_port h.kind] at mem
  exact List.mem_singleton.mp (List.mem_of_mem_filter (List.mem_of_mem_filter mem))

theorem runPage (h : PortStill pg s) : PortStill pg (runPage s pg) := by
  unfold Machine.runPage
  refine ite h ?_
  extract_lets +onlyGivenNames idle started
  refine noteHeld (forEach (fun u p mem hu => ?_) (h.of_view (u := started) (by rfl)))
  rw [h.under mem, startCell_port hu.kind]
  exact hu

theorem stopPage (h : PortStill pg s) : PortStill pg (stopPage s pg) := by
  unfold Machine.stopPage
  extract_lets +onlyGivenNames busy cleared stopped
  have stopped' : PortStill pg stopped := by
    refine forEach (fun u p mem hu => ?_) (h.of_view (u := cleared) (by rfl))
    rw [h.under mem, stopCell_port hu.kind]
    exact hu
  exact noteHeld (stopped'.of_view rfl)

theorem restartFurrow (aligned : pg % 0x1000 = 0) : commandView (restartFurrow s pg) = commandView s := by
  unfold Machine.restartFurrow
  refine (unrecorded_commandView.furPump _ aligned _).trans ?_
  exact Unrecorded.forEach_same (fun _ _ _ => unrecorded_commandView.completeRead _ _ _) _

theorem restartRegs : commandView (restartRegs s pg) = commandView s :=
  Unrecorded.forEach_same (fun _ _ _ => commandView_wr _ _) s

theorem mapGet?_filter_none {α : Type} {m : NMap α} {k : Nat} {keep : Nat × α → Bool} (gone : ∀ v, keep (k, v) = false) :
    mapGet? (m.filter keep) k = none := by
  induction m with
  | nil => rfl
  | cons e m ih =>
    obtain ⟨j, v⟩ := e
    by_cases same : j = k
    · rw [List.filter_cons_of_neg (by simp [same, gone])]
      exact ih
    · cases kept : keep (j, v)
      · rw [List.filter_cons_of_neg (by simp [kept])]
        exact ih
      · rw [List.filter_cons_of_pos kept]
        simp [mapGet?, same, ih]

theorem clearPage (h : PortStill pg s) (aligned : pg % 0x1000 = 0) : PortStill pg (clearPage s pg) := by
  have notLc : pg ≠ lcPage := port_ne (kind := 0x44) h.kind (by decide) rfl
  have page : pageOf (pg + 0x44) = pg := pageOf_add aligned (by decide)
  unfold Machine.clearPage
  rw [h.settlePage]
  extract_lets +onlyGivenNames settled cleared
  have none' : mapGet? cleared.cmds (pg + 0x44) = none := mapGet?_filter_none (fun _ => by simp [page, notLc])
  have cleared' : PortStill pg cleared := ⟨h.kind, fun c found => absurd (found.symm.trans none') (by simp)⟩
  rw [rotationRestart_port cleared'.kind]
  have written : PortStill pg (Machine.restartRegs (Machine.restartFurrow cleared pg) pg) :=
    cleared'.of_view (restartRegs.trans (restartFurrow aligned))
  rw [restartExtras_port written.kind, refreshPage_port written.kind]
  exact written

theorem restartWith (h : PortStill pg s) (aligned : pg % 0x1000 = 0) (ran : Bool) {f : State → State}
    (between : ∀ u, PortStill pg u → PortStill pg (f u)) : PortStill pg (restartWith s pg ran f) := by
  have cleared := (between _ h.stopPage).clearPage aligned
  exact ite cleared.runPage cleared

theorem restartPage (h : PortStill pg s) (aligned : pg % 0x1000 = 0) : PortStill pg (restartPage s pg) :=
  ite h (h.restartWith aligned _ fun _ hu => hu)

/-! ### A turn's part -/

theorem pendB (h : PortStill pg s) (page : pageOf a = pg) : PortStill pg (pendB s a) := by
  unfold Machine.pendB
  refine forEach (fun u p mem hu => ?_) h
  have port : p = pg := by simpa [cellsBehind, page, h.kind] using mem
  rw [port, canLook_port hu.kind]
  exact ite (hu.of_view rfl) hu

theorem slotWrite (h : PortStill pg s) (page : pageOf a = pg) (v : Nat) : PortStill pg (slotWrite s a v) := by
  have plain : ¬isVirtual s.fuses a = true := by simp [isVirtual, page, h.kind]
  unfold Machine.slotWrite
  rw [if_neg plain]
  extract_lets +onlyGivenNames old m new b
  have written : PortStill pg (wr (if b then Machine.pendB s a else s) a new) := (ite (h.pendB page) h).of_view (commandView_wr _ _)
  rw [regWritten_port written.kind page]
  exact written

theorem pageWrite (h : PortStill pg s) (aligned : pg % 0x1000 = 0) (regs : List (Nat × Nat)) : PortStill pg (pageWrite s regs pg) := by
  unfold Machine.pageWrite
  refine forEach (fun u x mem hu => ?_) h
  have page : pageOf x.1 = pg := by
    unfold coveredOf at mem
    rw [if_neg (by simp [h.kind]), if_neg (by simp [h.kind])] at mem
    obtain ⟨i, small, at'⟩ := List.mem_filterMap.mp mem
    have low := List.mem_range.mp small
    dsimp only at at'
    split_ifs at at'
    rw [← Option.some.inj at']
    exact pageOf_add aligned (by omega)
  exact ite hu (hu.slotWrite page _)

theorem turnPage (h : PortStill pg s) (aligned : pg % 0x1000 = 0) : PortStill pg (turnPage s pg) := by
  unfold Machine.turnPage
  split
  · exact h
  · refine ite h ?_
    extract_lets +onlyGivenNames write turned
    have turned' : PortStill pg turned :=
      ite (h.pageWrite aligned _) (h.restartWith aligned _ fun _ hu => hu.pageWrite aligned _)
    exact turned'.of_view rfl

/-! ### Triggers and the access -/

theorem takeB (h : PortStill pg s) : PortStill pg (takeB s pg) := by
  unfold Machine.takeB
  extract_lets +onlyGivenNames adm taken
  have taken' : PortStill pg taken := by
    have cut : PortStill pg (bTake s pg) := h.of_view rfl
    rw [show taken = pageTaken (bTake s pg) pg from rfl, pageTaken_port cut.kind]
    exact cut
  exact ite (taken'.of_view (unrecorded_commandView.evalAll _)) taken'

theorem doTrig (h : PortStill pg s) (aligned : pg % 0x1000 = 0) (trig : PageTrig) : PortStill pg (doTrig s pg trig) := by
  cases trig with
  | run => exact h.runPage
  | stop =>
    unfold Machine.doTrig
    rw [pagesUnder_port h.kind]
    exact h.stopPage.takeB
  | restart => exact h.restartPage aligned
  | turn => exact h.turnPage aligned

theorem pumpOne (h : PortStill pg s) (aligned : pg % 0x1000 = 0) : PortStill pg (pumpOne s pg) := by
  have acted (q : List PageTrig) (u : State) (hu : PortStill pg u) : PortStill pg (q.foldl (fun s t => Machine.doTrig s pg t) u) :=
    forEach (xs := q) (fun _ t _ hs => hs.doTrig aligned t) hu
  exact forEach (fun _ p _ hs => hs.noteTrig p) (acted _ _ (h.of_view rfl))

theorem pumpAll (h : PortStill pg s) (aligned : pg % 0x1000 = 0) : PortStill pg (pumpAll s pg) := by
  unfold Machine.pumpAll
  rw [pagesUnder_port h.kind]
  exact forEach (fun u p mem hu => ite hu (List.mem_singleton.mp mem ▸ hu.pumpOne aligned)) (h.pumpOne aligned)

theorem pump (h : PortStill pg s) (aligned : pg % 0x1000 = 0) : PortStill pg (pump s pg) := by
  unfold Machine.pump
  split
  · exact h
  · refine ite (h.pumpAll aligned) (ite (noteTrig (h.runPage.of_view (commandView_trigQ _)) pg) ?_)
    have cell : blockCells s.fuses pg = [] := if_neg (cellOf_port h.kind)
    rw [drainBlock, cell]
    exact h

end PortStill

/-! ## The access -/

theorem commandView_putField (earlier : Bool) (p : FieldPut) : commandView (putField s earlier p) = commandView s := by
  unfold putField
  dsimp only
  split <;> rfl

theorem unitWaits_port (h : kindOf s.fuses pg = 0x1F) (aligned : pg % 0x1000 = 0) : unitWaits s (pg + 0x44) = false := by
  have page : pageOf (pg + 0x44) = pg := pageOf_add aligned (by decide)
  simp [unitWaits, page, port_ne (p := keyPage) (kind := 0x43) h (by decide) rfl,
    port_ne (p := lcPage) (kind := 0x44) h (by decide) rfl]

/-- Settling the port's command leaves no completed one. -/
theorem portStill_settlePage (h : kindOf s.fuses pg = 0x1F) (aligned : pg % 0x1000 = 0) : PortStill pg (settlePage s pg) := by
  have port : settlePage s pg = cmdSettle s (pg + 0x44) := by unfold settlePage; rw [h]; rfl
  rw [port]
  cases found : mapGet? s.cmds (pg + 0x44) with
  | none => rw [cmdSettle_none found]; exact ⟨h, fun c some' => absurd (found.symm.trans some') (by simp)⟩
  | some c =>
    by_cases done : c.doneAt ≤ s.now
    · have shown : cmdSettle s (pg + 0x44) = c.puts.foldl (fun s p => putField s (decide (c.doneAt < s.now)) p)
          { s with cmds := mapDel s.cmds (pg + 0x44) } := by
        simp only [cmdSettle, found, unitWaits_port h aligned]
        exact if_pos ⟨done, rfl⟩
      rw [shown]
      have gone : PortStill pg { s with cmds := mapDel s.cmds (pg + 0x44) } :=
        ⟨h, fun d left => absurd ((mapGet?_mapDel_self _ _).symm.trans left) (by simp)⟩
      exact gone.of_view (Unrecorded.forEach_same (xs := c.puts) (g := fun s p => putField s (decide (c.doneAt < s.now)) p)
        (fun _ _ _ => commandView_putField _ _) _)
    · have runs : PortStill pg s := ⟨h, fun d same => by
        obtain rfl : c = d := Option.some.inj (found.symm.trans same)
        exact Nat.not_le.mp done⟩
      rw [runs.settled]
      exact runs

/-- An access finds the port without a completed command. -/
theorem portStill_atAccess (h : kindOf s.fuses pg = 0x1F) (aligned : pg % 0x1000 = 0) : PortStill pg (atAccess s pg) := by
  have still := portStill_settlePage h aligned
  unfold atAccess
  rw [if_neg (port_ne (p := updPage) (kind := 0x2A) h (by decide) rfl)]
  exact PortStill.ite (PortStill.pump (PortStill.ite still.takeB still) aligned) still


/-! ## A table-port command -/

/-- TP_CMD is a register of every table port. -/
theorem fieldsAt_tpCmd {f : Fuses} (h : kindOf f pg = 0x1F) (aligned : pg % 0x1000 = 0) :
    (fieldsAt f (pg + 0x44)).isEmpty = false :=
  fieldsAt_of_kind aligned h (by decide) (by decide) (by decide) (by decide) (by decide) (by decide)

theorem answers_tpCmd (h : kindOf s.fuses pg = 0x1F) (aligned : pg % 0x1000 = 0) (reach : bootReach s pg = true) :
    answers s (pg + 0x44) = true :=
  answers_of (by omega) (bootReach_of_page (pageOf_add aligned (by decide)) reach) (fieldsAt_tpCmd h aligned)

/-- A command waits for its region where the region is parked and no command waits or runs (R62, R452). -/
theorem waitsParked_tpCmd {v : Nat} (h : kindOf s.fuses pg = 0x1F) (aligned : pg % 0x1000 = 0) (bit : v % 16 ≠ 0) :
    waitsParked s (pg + 0x44) v = (pageParked s pg && !(cmdBusy s (pg + 0x44))) := by
  have page : pageOf (pg + 0x44) = pg := pageOf_add aligned (by decide)
  have slot : slotOf (pg + 0x44) = 0x44 := slotOf_add aligned (by decide)
  have some' : (v % 16 != 0) = true := bne_iff_ne.mpr bit
  simp [waitsParked, objRetained, pageParked, page, slot, h, some']

/-- The command bits of TP_CMD. -/
def portBits : PortCmd → Nat
  | .read => 1
  | .write => 2
  | .inval => 4
  | .hash => 8

/-- A command that meets none under way acts, one that does is refused with 0x6 (R219). -/
theorem tpWrite_portBits (still : PortStill pg s) (req : Nat) (c : PortCmd) :
    tpWrite s req pg (portBits c) = if cmdBusy s (pg + 0x44) then tpRefuse s pg 0x6 else tpCommand s req pg c := by
  unfold tpWrite
  rw [still.settled]
  cases c <;> rfl

theorem dispatchWrite_tpCmd (h : kindOf s.fuses pg = 0x1F) (aligned : pg % 0x1000 = 0) (req v : Nat) :
    dispatchWrite s req (pg + 0x44) v = tpWrite s req pg v := by
  have page : pageOf (pg + 0x44) = pg := pageOf_add aligned (by decide)
  have slot : slotOf (pg + 0x44) = 0x44 := slotOf_add aligned (by decide)
  unfold dispatchWrite
  simp only [page, slot, h, furGroup]
  rfl

section
variable {t req : Nat} (aligned : pg % 0x1000 = 0) (h : kindOf s.fuses pg = 0x1F) (reach : pf0Reaches (advance s t) req pg)
  (c : PortCmd)
include aligned h reach

/-- A command whose region runs, or that meets one under way, is dispatched on the port as an access finds it. -/
theorem writeReg_tpCmd (acts : pageParked s pg = false ∨ cmdBusy (advance s t) (pg + 0x44) = true) :
    writeReg (advance s t) req (pg + 0x44) (portBits c) true =
      if cmdBusy (atPage s t pg) (pg + 0x44) then tpRefuse (atPage s t pg) pg 0x6 else tpCommand (atPage s t pg) req pg c := by
  have page : pageOf (pg + 0x44) = pg := pageOf_add aligned (by decide)
  have bits : portBits c % 2 ^ 24 = portBits c := by cases c <;> rfl
  have bit : portBits c % 16 ≠ 0 := by cases c <;> decide
  have h' : kindOf (advance s t).fuses pg = 0x1F := by simpa using h
  have turn : waitsParked (advance s t) (pg + 0x44) (portBits c % 2 ^ 24) = false := by
    rw [bits, waitsParked_tpCmd h' aligned bit]
    rcases acts with runs | busy
    · rw [show pageParked (advance s t) pg = false by simpa [pageParked] using runs, Bool.false_and]
    · rw [busy, Bool.not_true, Bool.and_false]
  have still : PortStill pg (atPage s t pg) := portStill_atAccess h' aligned
  rw [writeReg_pf0 (by omega) (pf0Reaches_of_page page reach) (fieldsAt_tpCmd h aligned) turn, page, bits,
    dispatchWrite_tpCmd still.kind aligned, tpWrite_portBits still]

/-- A command to a parked region waits until the region runs. -/
theorem writeReg_tpCmd_parked (parks : pageParked s pg = true) (idle : cmdBusy (advance s t) (pg + 0x44) = false) :
    writeReg (advance s t) req (pg + 0x44) (portBits c) true = { advance s t with
      retained := s.retained ++ [{ requester := req, addr := pg + 0x44, value := portBits c, sel := rd s (pg + 0x70) }] } := by
  have page : pageOf (pg + 0x44) = pg := pageOf_add aligned (by decide)
  have bits : portBits c % 2 ^ 24 = portBits c := by cases c <;> rfl
  have bit : portBits c % 16 ≠ 0 := by cases c <;> decide
  have h' : kindOf (advance s t).fuses pg = 0x1F := by simpa using h
  have wait : waitsParked (advance s t) (pg + 0x44) (portBits c % 2 ^ 24) = true := by
    rw [bits, waitsParked_tpCmd h' aligned bit, idle, show pageParked (advance s t) pg = true by simpa [pageParked] using parks]
    rfl
  have parked := writeReg_parked (v := portBits c) (by omega) reach.2.1 (bootReach_of_page page reach.2.2)
    (by simpa using fieldsAt_tpCmd h aligned) wait
  rw [bits, page, advance_retained, rd_advance] at parked
  exact parked

end

/-- What O24 states of a table-port command: it acts, is refused, waits for its region or for what goes before it. -/
def PortCommandCompletes (s : State) (t req pg : Nat) (i : Instr) (c : PortCmd) (v : Nat) : Prop :=
  (mustYield (advance s t) i = false →
    (pageParked s pg = false ∨ cmdBusy (advance s t) (pg + 0x44) = true →
      (cmdBusy (atPage s t pg) (pg + 0x44) = false → exec i s = .next (settled (tpCommand (atPage s t pg) req pg c))) ∧
      (cmdBusy (atPage s t pg) (pg + 0x44) = true → exec i s = .next (settled (tpRefuse (atPage s t pg) pg 0x6)))) ∧
    (pageParked s pg = true → cmdBusy (advance s t) (pg + 0x44) = false →
      exec i s = .next (settled { advance s t with
        retained := s.retained ++ [{ requester := req, addr := pg + 0x44, value := v, sel := rd s (pg + 0x70) }] }))) ∧
  (mustYield (advance s t) i = true → exec i s = .next (settled { advance s t with yields := s.yields ++ [i] }))

section
variable {t req : Nat} {i : Instr} {c : PortCmd}

/-- A command that writes its bit of TP_CMD when its turn comes, and waits before, completes. -/
theorem portCommandCompletes (aligned : pg % 0x1000 = 0) (h : kindOf s.fuses pg = 0x1F) (reach : pf0Reaches (advance s t) req pg)
    (writes : mustYield (advance s t) i = false →
      exec i s = .next (settled (writeReg (advance s t) req (pg + 0x44) (portBits c) true)))
    (waits : mustYield (advance s t) i = true → exec i s = .next (settled { advance s t with yields := s.yields ++ [i] })) :
    PortCommandCompletes s t req pg i c (portBits c) := by
  refine ⟨fun first => ⟨fun acts => ⟨fun idle => ?_, fun busy => ?_⟩, fun parks idle => ?_⟩, waits⟩
  · rw [writes first, writeReg_tpCmd aligned h reach c acts, idle, if_neg Bool.false_ne_true]
  · rw [writes first, writeReg_tpCmd aligned h reach c acts, busy, if_pos rfl]
  · rw [writes first, writeReg_tpCmd_parked aligned h reach c parks idle]

/-- So does one that takes its turn among the commands of its moment. -/
theorem portCommandCompletes_of_yielding (aligned : pg % 0x1000 = 0) (h : kindOf s.fuses pg = 0x1F)
    (reach : pf0Reaches (advance s t) req pg)
    (answer : exec i s = always (decide (kindOf s.fuses pg = 0x1F) && answers s (pg + 0x44)) s t (fun s => yielding s i))
    (acts : yieldAct (advance s t) i = writeReg (advance s t) req (pg + 0x44) (portBits c) true) :
    PortCommandCompletes s t req pg i c (portBits c) := by
  have here : (decide (kindOf s.fuses pg = 0x1F) && answers s (pg + 0x44)) = true := by
    simp [h, answers_tpCmd h aligned (by simpa using reach.2.2)]
  refine portCommandCompletes aligned h reach (fun first => ?_) (fun behind => ?_)
  · exact answer.trans (always_does here (yielding_does first acts))
  · exact answer.trans (always_does here (yielding_advance_waits behind))

/-- HASH reads no entry: it stands behind nothing. -/
theorem mustYield_tpHash {u : State} : mustYield u (.tpHash t req pg) = false := by simp [mustYield, waitsFor, tieRank]

theorem portCommandCompletes_hash (aligned : pg % 0x1000 = 0) (h : kindOf s.fuses pg = 0x1F)
    (reach : pf0Reaches (advance s t) req pg) : PortCommandCompletes s t req pg (.tpHash t req pg) .hash 8 := by
  have here : (decide (kindOf s.fuses pg = 0x1F) && answers s (pg + 0x44)) = true := by
    simp [h, answers_tpCmd h aligned (by simpa using reach.2.2)]
  refine portCommandCompletes (c := .hash) aligned h reach (fun _ => ?_) (fun behind => ?_)
  · dsimp only [exec, execTpHash, software, portBits]
    exact always_does here rfl
  · rw [mustYield_tpHash] at behind
    exact absurd behind Bool.false_ne_true

end

/-! ## The pipeline and the entries that are pending -/

/-- An input without heads passes nothing. -/
theorem pipelineItem_none {p : Nat} (none' : mapGet [] s.heads (inputCell p) = []) (bad : List (Nat × Nat)) :
    pipelineItem s p bad = s := by
  unfold pipelineItem
  simp only [none']

/-- An entry that has been pending too long is recorded, once (R217). -/
theorem pendOver_records {table i : Nat} {p : TPend} (found : mapGet? s.tpend (tKey pg table 0 i) = some p)
    (once : p.recorded = false) (long : s.now - p.since > pendMax s pg) :
    pendOver s pg table i = raiseRec { s with tpend := mapSet s.tpend (tKey pg table 0 i) { p with recorded := true } }
      pg 0x05 table 0 pg i := by
  unfold pendOver
  rw [found]
  exact if_pos (by simp [once, long])

end Sys2Proof.Machine

namespace Sys2Proof.Proofs
open Sys2Proof.Machine

/-- Settles O24: an access leaves no completed command on a table port, so its command acts or is refused as the port then stands;
HASH, which reads no entry, waits for its region alone. -/
theorem lookupAndTablePortComplete : Obligations.LookupAndTablePortComplete := by
  unfold Obligations.LookupAndTablePortComplete
  refine ⟨fun s t p bad core present notHost => ⟨?_, fun none' => ?_⟩, fun s t req page aligned port reach i c v mem => ?_,
    fun s t page table i p core port found once long => ?_⟩
  · dsimp only [exec, execPipelineItem]
    exact event_does (by simp [present, notHost]) core rfl
  · exact pipelineItem_none (by simpa using none') bad
  · change PortCommandCompletes s t req page i c v
    simp only [List.mem_cons, List.not_mem_nil, or_false, Prod.mk.injEq] at mem
    rcases mem with ⟨rfl, rfl, rfl⟩ | ⟨rfl, rfl, rfl⟩ | ⟨rfl, rfl, rfl⟩ | ⟨rfl, rfl, rfl⟩
    · exact portCommandCompletes_of_yielding (c := .read) aligned port reach rfl rfl
    · exact portCommandCompletes_of_yielding (c := .write) aligned port reach rfl rfl
    · exact portCommandCompletes_of_yielding (c := .inval) aligned port reach rfl rfl
    · exact portCommandCompletes_hash aligned port reach
  · dsimp only [exec, execTablePendingTimeout]
    refine event_does (by simpa using port) core ((pendOver_records (by simpa using found) once (by simpa using long)).trans ?_)
    rw [advance_tpend]

end Sys2Proof.Proofs
end
